-- ==== Sys2Proof/Word.lean ====
section
/-! DEFINITION. The byte of both lines, and the sparse table every indexed table of the part is held in. -/

namespace Sys2Proof

/-- A byte of the branch link or of a slot bus line (R201, R207). -/
abbrev Byte := BitVec 8

/-- An indexed table: (index, record) pairs with indexes strictly rising. An index that is not listed is free,
empty or at the table's default. -/
abbrev Table (α : Type) := List (Nat × α)

end Sys2Proof
end

