-- ==== Sys2Proof/Config.lean ====
section
/-! DEFINITION. Capacities, ranges and intervals the manual fixes, and the one value it leaves open. -/

namespace Sys2Proof.Config

/-- Largest branch minute (R84). -/
def maxMinute : Nat := 16777215
/-- Where a 16-bit counter stops (R177). -/
def satMax : Nat := 65535
/-- Report Queue (R178): capacity, level at which ordinary reports are refused, level below which a loss episode ends. -/
def reportCap : Nat := 64
def ordinaryCap : Nat := 48
def episodeEnd : Nat := 32
/-- Inbound Queue (R176). -/
def inboundCap : Nat := 16
/-- Longest payload (chapter 9.1). -/
def maxPayload : Nat := 240
/-- Number of key handles and of Rental Table places (R1, R93). -/
def handles : Nat := 1024
def rentalPlaces : Nat := 1024
/-- Logical slots (R4). -/
def slots : Nat := 480
/-- Authorization List (R26), release contexts (R42), Release Wait Queue (R39). -/
def authCap : Nat := 192
def contexts : Nat := 4
def waitCap : Nat := 8
/-- Drop Bin list (R72), entries of a duplicate filter and their life in milliseconds (R71). -/
def dropCap : Nat := 96
def filterCap : Nat := 8
def filterLife : Nat := 10000
/-- Alert Register (R103), Mismatch List (R130). -/
def alertPlaces : Nat := 64
def mismatchCap : Nat := 64
/-- Command queue of a channel (R159): capacity, and how many places commands other than the contexts' may fill. -/
def queueCap : Nat := 16
def otherCap : Nat := 12
/-- Module addresses of a channel (R147). -/
def modules : Nat := 30
/-- Rounds of one enumeration or identification pass (R152, R154). -/
def roundCap : Nat := 64
/-- Misses at which a SILENT module becomes DOWN (R156). -/
def missesDown : Nat := 7
/-- Tracking entries (R188). -/
def trackCap : Nat := 8
/-- Entries an OVERDUE_LIST or CENSUS_READ answer gives at most (R102, R134). -/
def pageCap : Nat := 12

/-- Intervals in milliseconds. -/
def lockLimit : Nat := 2000
def guideTime : Nat := 60000
def passLife : Nat := 400
def byteGap : Nat := 20
def phaseTime : Nat := 4000
def reprobeTime : Nat := 10000
def identTime : Nat := 30000
def pulseTime : Nat := 20
def historyTime : Nat := 600000
def hangTime : Nat := 50
def ownCloseGap : Nat := 2000
def powerOnWatch : Nat := 40000

end Sys2Proof.Config
end

