-- ==== Sys2Proof/Syntax.lean ====
section
/-! DEFINITION. The commands: one constructor of Instr for each row of spec/opcode_table.json, with the operands the
world outside the part gives. A request's operands are in the frame at the head of the Inbound Queue (log 5), so
its constructor has none. -/

namespace Sys2Proof

/-- The two slot bus channels (R4). -/
inductive Chan where
  | A
  | B
  deriving DecidableEq, Repr

/-- A lock state a module reports (R148). -/
inductive LockState where
  | locked
  | opened
  | jammed
  deriving DecidableEq, Repr

/-- An occupancy a module reports, or a settled one that is known (R6, R161): EMPTY, OCCUPIED with a tag id, UNREAD. -/
inductive Occ where
  | empty
  | tag (id : Nat)
  | unread
  deriving DecidableEq, Repr

/-- One position of a POLL answer (R148): occupancy and lock state, and for a chute position the chute read, if any. -/
structure PosReport where
  occ : Occ
  lock : LockState
  chute : Option Nat
  deriving DecidableEq, Repr

/-- A module's answer as its bytes stand on the line (R147, R207): address, status, data bytes, CRC-8. -/
structure Reply where
  addr : Byte
  status : Byte
  data : List Byte
  check : Byte
  deriving DecidableEq, Repr

/-- An answer, and what its data bytes report, whose layout the manual does not write out (log 24). -/
structure Answered (α : Type) where
  reply : Reply
  content : α
  deriving DecidableEq, Repr

/-- An answer of which nothing but its being good or a miss is read, and its channel. -/
structure LineReply where
  chan : Chan
  reply : Reply
  deriving DecidableEq, Repr

/-- The address, status and CRC-8 of an answer whose data bytes stand beside them. -/
structure ReplyEnds where
  addr : Byte
  status : Byte
  check : Byte
  deriving DecidableEq, Repr

/-- How long, in milliseconds, the line of a channel has been held dominant by another than the part; 0 when it is recessive
again (R147, R168; log 38). -/
structure LineHeld where
  chan : Chan
  ms : Nat
  deriving DecidableEq, Repr

/-- The commands, in the order of spec/opcode_table.json. The bytes of a header, a payload or a CRC come together in one row or
in several, each row giving those that its moment brings (log 6). syncError: a byte received in HUNT that completes no sync
pair, by default one that can start none (R173). clearToSendAsserted: the level of the clear-to-send input that the
transmitter finds, by default asserted (R172; log 7). -/
inductive Instr where
  | powerOn (strapHigh : Bool)
  | headerReceived (dest origin kind len check : Option Byte)
  | framingError
  | syncError (byte : Byte := 0x00#8)
  | frameTruncated
  | frameReceived (crcHigh crcLow : Option Byte)
  | linkWatchExpiry
  | clearToSendAsserted (asserted : Bool := true)
  | reportSent
  | waitingOwnerReportEnters
  | tflFrameDropped
  | unknownRequest
  | keyAdd
  | keyDelete
  | keyQuery
  | keyHold
  | guide
  | guideExpiry (slot : Nat)
  | holdRangeStart
  | holdRangeEnd
  | holdApply
  | authAdd
  | authDelete
  | clearLockout
  | release
  | pickup
  | serviceRelease
  | cancelRelease
  | rentalCloseManual
  | timeSet
  | broadcastTimeSet
  | extend
  | rentalQuery
  | overdueList
  | ackAlert
  | flagsRead
  | enableSet
  | censusStart
  | censusAbort
  | censusRead
  | lampControlBlankOn
  | lampControlBlankOff
  | lampControlTest
  | lampTestPhaseExpiry
  | lampRelease
  | channelControlOn
  | channelControlOff
  | channelControlReenumerate
  | tableWrite
  | tableRead
  | policySet
  | statusRead
  | countersRead
  | restartLogic
  | restartAll
  | moduleFrame
  | passThroughExpiry (entry : Nat)
  | monotonicSecond
  | minuteTick
  | authExpiry
  | reAlert
  | scheduledCensusStart
  | lineHang (line : LineHeld)
  | resetPulseEnd (chan : Chan)
  | enumerationRound (chan : Chan) (serial : Option Nat)
  | assignAnswer (chan : Chan) (answer : Answered (List PosReport))
  | sendPoll (chan : Chan)
  | sendReadTags (chan : Chan)
  | sendLockOpen (chan : Chan)
  | sendLockClose (chan : Chan)
  | sendLamp (chan : Chan)
  | sendPassedFrame (chan : Chan)
  | pollAnswer (chan : Chan) (answer : Answered (List PosReport))
  | settleExpiry (slot : Nat)
  | lockOpenAnswer (chan : Chan) (answer : Answered LockState)
  | lockCloseAnswer (chan : Chan) (answer : Answered LockState)
  | lockLimitOpening (context : Nat)
  | lockLimitClosing (context : Nat)
  | removalWindowExpiry (context : Nat)
  | readTagsAnswer (chan : Chan) (answer : Option (Answered (List Occ)))
  | lampAnswer (answer : LineReply)
  | passThroughAnswer (chan : Chan) (ends : ReplyEnds) (data : List Byte)
  | commandMiss (chan : Chan)
  | syncPairFound
  | payloadReceived (bytes : List Byte)
  deriving DecidableEq, Repr

end Sys2Proof
end

