-- ==== Sys2Proof/Decode.lean ====
section
/-! DEFINITION. Decoding by the table's bits. No row of spec/opcode_table.json gives any bits ("fields" is empty in
every row): no word spells a command. The bytes of the branch link and of the slot bus are decoded by the machine
itself (Machine/Operands.lean, Machine/Flags.lean). -/

namespace Sys2Proof

/-- The command that a word of nbits bits spells by the table's bits: none, since no row gives bits. -/
def decodeTableWord (_nbits _w : Nat) : Option Instr := none

end Sys2Proof
end

