-- ==== Sys2Proof/WellFormed.lean ====
section
/-! DEFINITION. Which commands are well formed: operands in the ranges the manual gives them. -/

namespace Sys2Proof

/-- A tag id is a 32-bit nonzero number (R1). -/
def tagOk (t : Nat) : Bool := decide (0 < t ∧ t < 4294967296)

/-- An occupancy names a tag id only. -/
def Occ.wf : Occ → Bool
  | .tag t => tagOk t
  | _ => true

/-- A position report carries tag ids only. -/
def PosReport.wf (r : PosReport) : Bool := r.occ.wf && r.chute.all tagOk

/-- A POLL answer reports eight positions (R148). -/
def reportsOk (rs : List PosReport) : Bool := decide (rs.length = 8) && rs.all PosReport.wf

/-- An answer carries 0 to 40 data bytes (R147). -/
def Reply.wf (r : Reply) : Bool := decide (r.data.length ≤ 40)

/-- A logical slot, 1 to 480 (R4). -/
def slotOk (n : Nat) : Bool := decide (1 ≤ n ∧ n ≤ Config.slots)

/-- The bytes a row gives of a group are one or more, and follow one another. -/
def groupOk (bs : List (Option Byte)) : Bool :=
  bs.any Option.isSome && ((bs.dropWhile Option.isNone).dropWhile Option.isSome).all Option.isNone

/-- Well-formedness of a command. -/
def Instr.wf : Instr → Bool
  | .guideExpiry n => slotOk n
  | .settleExpiry n => slotOk n
  | .passThroughExpiry e => decide (e < Config.trackCap)
  | .lockLimitOpening c => decide (c < Config.contexts)
  | .lockLimitClosing c => decide (c < Config.contexts)
  | .removalWindowExpiry c => decide (c < Config.contexts)
  | .enumerationRound _ s => s.all (fun n => decide (n < 4294967296))
  | .assignAnswer _ x => x.reply.wf && reportsOk x.content && x.content.all (fun r => r.chute.isNone)
  | .pollAnswer _ x => x.reply.wf && reportsOk x.content
  | .readTagsAnswer _ o => o.all (fun x => x.reply.wf && decide (x.content.length = 8) && x.content.all Occ.wf)
  | .lockOpenAnswer _ x => x.reply.wf
  | .lockCloseAnswer _ x => x.reply.wf
  | .lampAnswer x => x.reply.wf
  | .passThroughAnswer _ _ data => decide (data.length ≤ 40)
  | .payloadReceived bs => decide (1 ≤ bs.length ∧ bs.length ≤ Config.maxPayload)
  | .headerReceived a b c d e => groupOk [a, b, c, d, e]
  | .frameReceived a b => groupOk [a, b]
  | .powerOn _ | .framingError | .syncError _ | .frameTruncated | .linkWatchExpiry | .clearToSendAsserted _ |
  .reportSent | .waitingOwnerReportEnters | .tflFrameDropped | .unknownRequest | .keyAdd | .keyDelete | .keyQuery |
  .keyHold | .guide | .holdRangeStart | .holdRangeEnd | .holdApply | .authAdd | .authDelete | .clearLockout |
  .release | .pickup | .serviceRelease | .cancelRelease | .rentalCloseManual | .timeSet | .broadcastTimeSet |
  .extend | .rentalQuery | .overdueList | .ackAlert | .flagsRead | .enableSet | .censusStart | .censusAbort |
  .censusRead | .lampControlBlankOn | .lampControlBlankOff | .lampControlTest | .lampTestPhaseExpiry | .lampRelease
  | .channelControlOn | .channelControlOff | .channelControlReenumerate | .tableWrite | .tableRead | .policySet |
  .statusRead | .countersRead | .restartLogic | .restartAll | .moduleFrame | .monotonicSecond | .minuteTick |
  .authExpiry | .reAlert | .scheduledCensusStart | .lineHang _ | .resetPulseEnd _ | .sendPoll _ | .sendReadTags _ |
  .sendLockOpen _ | .sendLockClose _ | .sendLamp _ | .sendPassedFrame _ | .commandMiss _ | .syncPairFound => true

end Sys2Proof
end

