-- ==== Sys2Proof/Machine/State.lean ====
section
/-! DEFINITION. The state of the part, block by block, as plain data, and its value at power-on. Part is everything
the part holds; State is the part and the queue of commands that wait. "Own" marks a field the manual implies and
does not name. -/

namespace Sys2Proof.Machine
open Sys2Proof

/-! ## Keys, slots and holds (chapter 1) -/

/-- The eight key states (R2), in the order of their codes (R201). -/
inductive KeyState where
  | inn | misplaced | assigned | releasing | out | away | missing | dropped
  deriving DecidableEq, Repr

/-- Hold reasons (R1, R19). -/
inductive HoldReason where
  | damage | service | office
  deriving DecidableEq, Repr

/-- Why a key is out of the cabinet without a rental (R1). -/
inductive AwayCause where
  | service | manualClose | new | dropOverflow
  deriving DecidableEq, Repr

/-- A key record in use (R1). Its handle is its index in the Key Table. -/
structure KeyRec where
  tag : Nat
  vehicle : Nat
  cls : Nat
  home : Option Nat
  state : KeyState
  loc : Option Nat
  inSince : Option Nat
  hold : Option HoldReason
  rental : Option Nat
  away : Option AwayCause
  deriving DecidableEq, Repr

/-- Kinds of slot (R4), in the order of their codes (R206). -/
inductive SlotKind where
  | standard | drop | disabled
  deriving DecidableEq, Repr

/-- A Slot Map entry (R4). -/
structure SlotEntry where
  chan : Chan
  addr : Nat
  pos : Nat
  kind : SlotKind
  group : Nat
  deriving DecidableEq, Repr

/-- The entry every slot has after power-on (R4). -/
def SlotEntry.powerOn : SlotEntry := ⟨.A, 1, 0, .disabled, 0⟩

/-- A settle in progress (R6). -/
structure Settle where
  cand : Occ
  firstSeen : Nat
  expiry : Nat
  deriving DecidableEq, Repr

/-- A Slot Table row (R6). occ and lock none stand for UNKNOWN. -/
structure SlotRow where
  occ : Option Occ
  settle : Option Settle
  lock : Option LockState
  ctx : Option Nat
  guide : Option Nat
  deriving DecidableEq, Repr

/-- A row as R5 creates it. -/
def SlotRow.fresh : SlotRow := ⟨none, none, none, none, none⟩

/-- The two zones (R91). -/
inductive Zone where
  | staffed | unstaffed
  deriving DecidableEq, Repr

/-- A set of the terminal roles that may release (R8). -/
structure RoleSet where
  counter : Bool
  kiosk : Bool
  office : Bool
  deriving DecidableEq, Repr

/-- A Group Table entry (R8). -/
structure GroupEntry where
  staffed : RoleSet
  unstaffed : RoleSet
  deriving DecidableEq, Repr

/-- Every group permits all roles in both zones after power-on (R8). -/
def GroupEntry.powerOn : GroupEntry := ⟨⟨true, true, true⟩, ⟨true, true, true⟩⟩

/-- The Hold Sequence record (R20): NONE; STARTED with owner, start slot and reason; ENDED with all fields. -/
inductive HoldSeq where
  | idle
  | started (owner start : Nat) (reason : HoldReason)
  | ended (owner start stop : Nat) (reason : HoldReason)
  deriving DecidableEq, Repr

/-! ## Reports (chapters 9 and 11) -/

/-- Report kinds (R178). -/
inductive ReportKind where
  | response | releaseDone | releaseFailed | ret | alert | alertWithdrawn | alertDropped
  | keyBack | keyFound | relocated | dropUnexpected | dueSoon | authExpired | authRetargeted
  | censusDone | moduleEvent | linkRestored
  deriving DecidableEq, Repr

/-- A report (R178): kind, destination and payload. -/
structure Report where
  kind : ReportKind
  dest : Nat
  payload : List Byte
  deriving DecidableEq, Repr

/-- Results of requests and releases (R204). -/
inductive Result where
  | ok | okClamped | started | queued | cancelled | passReply | released | lateTake
  | badArgument | unknownRequest | refusedRole | refusedRight | busy | sequenceError
  | notFound | duplicate | tableFull | homeTaken | inCabinet | inUse | noHome | notOpen | limit | notRunning
  | notAvailable | held | activeRelease | notLockedOut | codeNotSet | badCode | lockedOut | noTime
  | alreadyActive | notYetValid | noRecordSpace | noKey | slotBusy | moduleDown | roleZone | notForeign
  | notOrigin | tooLate | notActive | notTaken | lockFault | channelReset | restart | expired
  | passRefused | passTimeout | passAborted
  deriving DecidableEq, Repr

/-! ## Authorizations and release (chapter 2) -/

/-- Terminal roles (R184), in the order of their codes (R206). -/
inductive Role where
  | none | counter | kiosk | office
  deriving DecidableEq, Repr

/-- What an authorization releases (R26). -/
inductive Target where
  | key (handle : Nat)
  | cls (c : Nat)
  deriving DecidableEq, Repr

/-- Authorization states (R27). -/
inductive AuthState where
  | waiting | active | lockedOut
  deriving DecidableEq, Repr

/-- An authorization (R26). -/
structure Auth where
  rental : Nat
  target : Target
  due : Nat
  grace : Option Nat
  code : Option (List Nat)
  attempts : Nat
  validFrom : Nat
  validUntil : Option Nat
  state : AuthState
  origin : Nat
  deriving DecidableEq, Repr

/-- Kinds of release (R39, R42), in the order of their codes (R204). -/
inductive RelKind where
  | release | pickup | service
  deriving DecidableEq, Repr

/-- What a release request names: a rental number, or for SERVICE_RELEASE a tag id or a slot (R39). -/
inductive RelSubject where
  | rental (n : Nat)
  | tag (t : Nat)
  | slot (s : Nat)
  deriving DecidableEq, Repr

/-- A release request, as the Release Wait Queue and a context keep it (R39, R42). -/
structure RelReq where
  kind : RelKind
  subject : RelSubject
  origin : Nat
  role : Role
  tag : Nat
  deriving DecidableEq, Repr

/-- A Release Wait Queue entry (R39). ended holds the RELEASE_FAILED report of an entry marked ENDED. id is own: it
names the entry among the waiting owners. -/
structure WaitEntry where
  id : Nat
  req : RelReq
  ended : Option Report
  deriving DecidableEq, Repr

/-- States of a context that is not FREE (R42). -/
inductive CtxState where
  | opening | opened | removedSettling | closing | donePending
  deriving DecidableEq, Repr

/-- Results of a context (R42). -/
inductive CtxResult where
  | released | lateTake | notTaken | cancelled | lockFault | channelReset | restart
  deriving DecidableEq, Repr

/-- A release context that is not FREE (R42). lockSent (own): the lock command it waits on has been sent (R165).
closeFault: the flag CLOSE_FAULT of R49. out (own): the out minute O that RELEASE_DONE gives (R53). held: the
report it holds in DONE_PENDING (R180). -/
structure Ctx where
  state : CtxState
  slot : Option Nat
  key : Option Nat
  req : RelReq
  lockLimit : Option Nat
  window : Option Nat
  reservation : Option Nat
  result : Option CtxResult
  rental : Option Nat
  lockSent : Bool
  closeFault : Bool
  out : Nat
  held : Option Report
  deriving DecidableEq, Repr

/-! ## Returns and rentals (chapters 3 and 4) -/

/-- Return classes (R78). -/
inductive RetClass where
  | early | onTime | inGrace | late
  deriving DecidableEq, Repr

/-- Flags of a return (R61), in the order of their bits (R205). -/
structure RetFlags where
  quick : Bool
  lateSighting : Bool
  manual : Bool
  saturated : Bool
  clockAnomaly : Bool
  dropOverflow : Bool
  deriving DecidableEq, Repr

/-- A return snapshot (R61). -/
structure Snapshot where
  ret : Nat
  place : Option Nat
  cls : RetClass
  lateMinutes : Nat
  lateDays : Nat
  lateBlocks : Nat
  daysInUse : Nat
  keyAfter : KeyState
  flags : RetFlags
  deriving DecidableEq, Repr

/-- Tiers of an open rental (R96). -/
inductive Tier where
  | onTime | dueSoon | grace | overdue | escalated
  deriving DecidableEq, Repr

/-- Release kinds of a rental (R93). -/
inductive RentalKind where
  | counter | kiosk
  deriving DecidableEq, Repr

/-- A rental record (R93). It is OPEN while it has no snapshot and CLOSED_PENDING when it has one (R61). -/
structure Rental where
  number : Nat
  key : Nat
  out : Nat
  due : Nat
  grace : Nat
  tier : Tier
  extensions : Nat
  kind : RentalKind
  snap : Option Snapshot
  deriving DecidableEq, Repr

/-- A Drop Bin list entry (R72). -/
structure DropEntry where
  key : Nat
  slot : Nat
  minute : Nat
  deriving DecidableEq, Repr

/-- The branch clock (R84). -/
structure Clock where
  set : Bool
  minute : Nat
  second : Nat
  dayOffset : Nat
  atLimit : Bool
  deriving DecidableEq, Repr

/-- A point of the Zone Schedule (R90). -/
structure ZonePoint where
  minuteOfDay : Nat
  zone : Zone
  deriving DecidableEq, Repr

/-! ## Alerts (chapter 5) -/

/-- Alert kinds (R105), in the order of their codes (R204). -/
inductive AlertKind where
  | overdue | escalated | taken | foreign | lockout | lockJam | moduleDown | stranger | channelFault
  | dropFull | censusMismatch | linkSilent | queueLoss
  deriving DecidableEq, Repr

/-- Subjects of alerts (R104). -/
inductive Subject where
  | rental (n : Nat)
  | key (h : Nat)
  | slot (s : Nat)
  | module (c : Chan) (a : Nat)
  | chan (c : Chan)
  | none
  deriving DecidableEq, Repr

/-- Detail of an alert (R104). -/
inductive Detail where
  | unknownTag (t : Nat)
  | unreadable
  | serial (n : Nat)
  deriving DecidableEq, Repr

/-- Flags of an ALERT report (R104), in the order of their bits (R205). -/
structure AlertFlags where
  again : Bool
  renewed : Bool
  replaced : Bool
  deriving DecidableEq, Repr

/-- An entry of the Alert Register (R104). pending holds the report flags while report pending is set. -/
structure AlertEntry where
  place : Nat
  kind : AlertKind
  subject : Subject
  detail : Option Detail
  raised : Nat
  acked : Bool
  next : Option Nat
  pending : Option AlertFlags
  deriving DecidableEq, Repr

/-- The Alert Unit (R103, R115, R117): entries oldest first, the pending notice of each place that holds one, the 16
factor flags and the enables (bit numbers as R201 gives). -/
structure Alt where
  entries : List AlertEntry
  notices : Table Report
  flags : BitVec 16
  enableStaffed : BitVec 16
  enableUnstaffed : BitVec 16
  lineEnable : Bool
  deriving DecidableEq, Repr

/-! ## Census (chapter 6) -/

/-- Census states (R119). -/
inductive CenState where
  | idle | sweeping | aborted
  deriving DecidableEq, Repr

/-- Cause of a census (R119). -/
inductive CenCause where
  | request (origin : Nat)
  | schedule
  deriving DecidableEq, Repr

/-- Scope of a census (R119). -/
inductive Scope where
  | A | B | both
  deriving DecidableEq, Repr

/-- How a census ended (R119). -/
inductive Outcome where
  | complete | aborted
  deriving DecidableEq, Repr

/-- The READ_TAGS outstanding (R119). -/
inductive ReadOut where
  | notSent | sent
  deriving DecidableEq, Repr

/-- Kinds of mismatch (R130). -/
inductive MisKind where
  | relocated | outKeyPresent | foreign | missing | readDiffers | unverified
  deriving DecidableEq, Repr

/-- A Mismatch List entry (R130). -/
structure Mismatch where
  kind : MisKind
  slot : Nat
  key : Option Nat
  read : Option Occ
  settled : Option Occ
  before : Option KeyState
  deriving DecidableEq, Repr

/-- The seven counts of a census (R119). -/
structure CenCounts where
  read : Nat
  unverified : Nat
  compared : Nat
  consistent : Nat
  busySkipped : Nat
  recorded : Nat
  lost : Nat
  deriving DecidableEq, Repr

/-- The census record and the Mismatch List (R119, R130). deferred (own): the READ_TAGS offer waits for a place (R124).
pendA, pendB (own): a channel in scope was lost before the sweep reached it (R132). -/
structure Cen where
  state : CenState
  cause : Option CenCause
  scope : Option Scope
  startMin : Option Nat
  endMin : Option Nat
  pos : Option (Chan × Nat)
  read : Option ReadOut
  deferred : Bool
  outcome : Option Outcome
  lostA : Bool
  lostB : Bool
  pendA : Bool
  pendB : Bool
  counts : CenCounts
  skipped : Nat
  nextStart : Option Nat
  list : List Mismatch
  deriving DecidableEq, Repr

/-! ## Lamps (chapter 7) -/

/-- Colours and cadences (R135). -/
inductive Colour where
  | green | amber | red
  deriving DecidableEq, Repr

inductive Cadence where
  | steady | slow | fast
  deriving DecidableEq, Repr

/-- The ten lamp states (R135). -/
inductive Lamp where
  | off
  | lit (c : Colour) (k : Cadence)
  deriving DecidableEq, Repr

/-- The Lamp Driver (R139 to R142). Images, raw values (present while the override flag is set) and marks behind are
kept by module number, 1 to 30 for A01 to A30 and 31 to 60 for B01 to B30. touched (own): the modules whose lamps
the step being taken has given cause to recompute. -/
structure Lmp where
  images : Table (List Lamp)
  overrides : Table (List Lamp)
  behind : List Nat
  blank : Bool
  test : Option (Colour × Nat)
  touched : List Nat
  deriving DecidableEq, Repr

/-! ## The slot bus (chapter 8) -/

/-- Steps of STARTING (R150). -/
inductive StartStep where
  | pulse | enumeration | firstPoll
  deriving DecidableEq, Repr

/-- Channel states (R150). -/
inductive ChanState where
  | off
  | starting (step : StartStep)
  | running
  | recovering
  | faulted
  deriving DecidableEq, Repr

/-- Module states (R155). -/
inductive ModState where
  | absent | active | silent | down
  deriving DecidableEq, Repr

/-- The Module Table entry of a mapped address (R155). Its serial stands in the Module Map. -/
structure ModEntry where
  state : ModState
  misses : Nat
  reprobe : Option Nat
  ack : Bool
  ownClose : Table Nat
  deriving DecidableEq, Repr

/-- An entry as R152 and R155 make it. -/
def ModEntry.fresh : ModEntry := ⟨.absent, 0, none, false, []⟩

/-- A Module Map entry (R155). -/
structure MapEntry where
  serial : Nat
  addr : Nat
  deriving DecidableEq, Repr

/-- Module command classes of a module frame (R187, R207). -/
inductive ModClass where
  | query | config | lampRaw | opaqueClass
  deriving DecidableEq, Repr

/-- Whose a waiting LOCK_CLOSE is: that of a context while the context lasts, the SBC's own (R165), or that of a context since
freed, which is sent like any other and belongs to no context that takes the number later (R44, R49, R159). -/
inductive LockOwner where
  | ctx (i : Nat)
  | own
  | left
  deriving DecidableEq, Repr

/-- A command in a channel command queue (R159). -/
inductive BusCmd where
  | lockOpen (addr pos ctx : Nat)
  | lockClose (addr pos : Nat) (owner : LockOwner)
  | passed (addr : Nat) (cls : ModClass) (data : List Byte) (entry : Nat)
  | readTags (addr : Nat)
  | lamp (addr : Nat) (states : List Lamp)
  deriving DecidableEq, Repr

/-- A command the part puts on the line (own, R147, R148): one from the queue, a POLL with its acknowledge indication, or
an ASSIGN, and, never awaiting an answer of the usual form, LOCK_ALL to address 31 and IDENTIFY to address 0. -/
inductive LineCmd where
  | queued (c : BusCmd)
  | poll (addr : Nat) (ack : Bool)
  | assign (serial addr : Nat)
  | lockAll
  | identify
  deriving DecidableEq, Repr

/-- A channel: its record (R150), Module Map and Module Table (R155), command queue (R159). Own: the command on the
line whose answer is awaited, the identification pass in progress, the address last polled, the answers kept by the
first poll, the end of the reset pulse being driven, whether another than the part holds the line dominant (R147, R168),
and the frames put on the line by the last step that put any (R148, R207). -/
structure Channel where
  state : ChanState
  rounds : Nat
  nextIdent : Option Nat
  history : List Nat
  muted : Nat
  misses : Nat
  bounces : Nat
  recoveries : Nat
  strangers : Nat
  map : Table MapEntry
  modules : Table ModEntry
  queue : List BusCmd
  onLine : Option LineCmd
  passOn : Bool
  lastPolled : Nat
  kept : List (Nat × List PosReport)
  pulse : Option Nat
  held : Bool
  sent : List (List Byte)
  deriving DecidableEq, Repr

/-- A channel after power-on (R150, R155, R159), its line found recessive: the manual gives no level (log 38). -/
def Channel.powerOn : Channel :=
  ⟨.off, 0, none, [], 0, 0, 0, 0, 0, [], [], [], none, false, 0, [], none, false, []⟩

/-! ## The branch link and the Traffic Filter (chapter 9) -/

/-- The four header bytes and the check byte (R174). -/
structure Header where
  dest : Byte
  origin : Byte
  kind : Byte
  len : Byte
  check : Byte
  deriving DecidableEq, Repr

/-- The receiver (R173 to R175). run: a run of bytes that are not part of a sync pair is in progress. start: the last byte was
0xC5, the possible start of a pair. got, crc: the bytes of the header, the payload or the CRC received so far. last: the
monotonic time of the last byte received. -/
inductive Receiver where
  | hunt (run start : Bool)
  | header (got : List Byte) (last : Nat)
  | payload (h : Header) (got : List Byte) (last : Nat)
  | check (h : Header) (payload crc : List Byte) (last : Nat)
  deriving DecidableEq, Repr

/-- A valid frame in the Inbound Queue (R176). -/
structure Frame where
  dest : Nat
  origin : Nat
  kind : Nat
  payload : List Byte
  deriving DecidableEq, Repr

/-- The eleven link counters (R177). -/
structure LinkCounters where
  syncError : Nat
  framingError : Nat
  headerCorrected : Nat
  headerUncorrectable : Nat
  lengthError : Nat
  truncated : Nat
  crcError : Nat
  overrun : Nat
  badOrigin : Nat
  reportsDropped : Nat
  passDropped : Nat
  deriving DecidableEq, Repr

/-- Waiting owners of the Report Queue (R180). -/
inductive Waiter where
  | rental (i : Nat)
  | context (c : Nat)
  | waitEntry (id : Nat)
  | alertPlace (p : Nat)
  | tracking (e : Nat)
  | tfl
  deriving DecidableEq, Repr

/-- The link watch (R181). SILENT keeps the time at which the watch expired (R182). -/
inductive Watch where
  | off
  | watching (expiry : Nat)
  | silent (expired : Nat)
  deriving DecidableEq, Repr

/-- The Branch Link Port (R172 to R182). tx (own): the bytes of the report being sent. cts: the level of the clear-to-send
input, as last found asserted or not (R172; log 7). -/
structure Link where
  rx : Receiver
  inbound : List Frame
  overrunBit : Bool
  counters : LinkCounters
  reports : List Report
  tx : Option (List Byte)
  cts : Bool
  waiters : List Waiter
  lossEpisode : Bool
  watch : Watch
  deriving DecidableEq, Repr

/-- A Terminal Table entry (R184). -/
structure Terminal where
  role : Role
  load : Bool
  maint : Bool
  deriving DecidableEq, Repr

/-- Terminals other than 1 after power-on (R184). -/
def Terminal.powerOn : Terminal := ⟨.none, false, false⟩

/-- Actions of the Pass Table (R186). -/
inductive PassAction where
  | pass | drop | dropReport
  deriving DecidableEq, Repr

/-- A Pass Table entry (R186). role and cls none stand for ANY. -/
structure PassEntry where
  role : Option Role
  cls : Option ModClass
  action : PassAction
  deriving DecidableEq, Repr

/-- States of a Tracking entry that is not FREE (R188). ANSWERING holds its response. -/
inductive TrackState where
  | queued | sent
  | answering (r : Report)
  deriving DecidableEq, Repr

/-- A Tracking entry that is not FREE (R188). -/
structure Track where
  state : TrackState
  origin : Nat
  tag : Nat
  chan : Chan
  addr : Nat
  cls : ModClass
  expiry : Nat
  deriving DecidableEq, Repr

/-- The Traffic Filter (R184, R186, R188). held: the response that waits for room while the TFL is stalled (R180). -/
structure Tfl where
  terminals : Table Terminal
  passTable : Table PassEntry
  tracking : Table Track
  held : Option Report
  deriving DecidableEq, Repr

/-! ## Policy (chapter 10) -/

/-- The twelve policy values (R193). Link watch in seconds, 0 is off. -/
structure Policy where
  graceDefault : Nat
  blockLen : Nat
  blocksCap : Nat
  dueSoon : Nat
  escalation : Nat
  reAlert : Nat
  removalWindow : Nat
  settle : Nat
  attempts : Nat
  linkWatch : Nat
  censusInterval : Nat
  blankUnstaffed : Bool
  deriving DecidableEq, Repr

/-- Defaults (R193). -/
def Policy.powerOn : Policy := ⟨29, 60, 4, 60, 240, 60, 30, 500, 3, 40, 0, false⟩

/-! ## The part and its queue of commands -/

/-- Everything the part holds. Rental reservations are held in the contexts (R93). nextId, tickRel, tickAlt and
tickCen are own: the number of the next Release Wait Queue entry, and the branch minutes of the minute ticks handed to the
REL, the ALT and the CEN (R85) and not yet taken by it, oldest first (log 4). -/
structure Part where
  mono : Nat
  strapHigh : Bool
  link : Link
  tfl : Tfl
  chanA : Channel
  chanB : Channel
  rows : Table SlotRow
  keys : Table KeyRec
  slotMap : Table SlotEntry
  groups : Table GroupEntry
  holdSeq : HoldSeq
  auths : List Auth
  ctxs : Table Ctx
  waitQ : List WaitEntry
  nextId : Nat
  dropBin : List DropEntry
  filters : Table (List (Nat × Nat))
  dupCounts : Table Nat
  clock : Clock
  zone : Zone
  schedule : Table ZonePoint
  rentals : Table Rental
  due : List Nat
  tickRel : List Nat
  tickAlt : List Nat
  tickCen : List Nat
  alt : Alt
  cen : Cen
  lmp : Lmp
  policy : Policy
  deriving DecidableEq, Repr

/-- The state of the machine: the part, and the commands that wait, oldest first. -/
structure State where
  part : Part
  pending : List Instr
  deriving DecidableEq, Repr

/-- Why a step stops with a fault: never. The manual names no trap and leaves no row without an effect. -/
inductive Fault : Type
  deriving DecidableEq, Repr

/-- Why a command has no meaning. -/
inductive Refusal where
  /-- Raised only by an arm of exec whose command has no meaning yet; no arm does. Safe: the machine stops. -/
  | notModelled (mnemonic : String)
  deriving DecidableEq, Repr

/-- Factor flags after power-on: clear except CLOCK_UNSET, bit 14 (R115, R201). -/
def flagsPowerOn : BitVec 16 := 0x4000#16

/-- The part after power-on (R199 and the power-on table of chapter 10), the rate strap read as strapHigh (R200). The
clear-to-send input is not asserted until a row says so (log 7). -/
def Part.powerOn (strapHigh : Bool) : Part where
  mono := 0
  strapHigh := strapHigh
  link := ⟨.hunt false false, [], false, ⟨0, 0, 0, 0, 0, 0, 0, 0, 0, 0, 0⟩, [], none, false, [], false,
    .watching Config.powerOnWatch⟩
  tfl := ⟨[(1, ⟨.office, true, true⟩)], [], [], none⟩
  chanA := Channel.powerOn
  chanB := Channel.powerOn
  rows := []
  keys := []
  slotMap := []
  groups := []
  holdSeq := .idle
  auths := []
  ctxs := []
  waitQ := []
  nextId := 0
  dropBin := []
  filters := []
  dupCounts := []
  clock := ⟨false, 0, 0, 0, false⟩
  zone := .staffed
  schedule := []
  rentals := []
  due := []
  tickRel := []
  tickAlt := []
  tickCen := []
  alt := ⟨[], [], flagsPowerOn, 0#16, 0#16, false⟩
  cen := ⟨.idle, none, none, none, none, none, none, false, none, false, false, false, false,
    ⟨0, 0, 0, 0, 0, 0, 0⟩, 0, none, []⟩
  lmp := ⟨[], [], [], false, none, []⟩
  policy := Policy.powerOn

/-- The machine after power-on. The strap level at power-on is the board's: DESIGN CHOICE low (log 23). -/
def State.reset : State := ⟨Part.powerOn false, []⟩

end Sys2Proof.Machine
end

