-- ==== Sys2Proof/Machine/Ops.lean ====
section
/-! DEFINITION. Operations the blocks share: tables, byte coding (R201), the records looked up by every block, the
places of the Report Queue (R178, R180) and of a channel command queue (R159), and the marking of lamps to recompute
(R138). -/

namespace Sys2Proof

/-! ## Tables -/

/-- The record at index i, if there is one. -/
def Table.look {α : Type} (t : Table α) (i : Nat) : Option α :=
  match t with
  | [] => none
  | (k, v) :: r => if k = i then some v else Table.look r i

/-- The table with the record v at index i. -/
def Table.put {α : Type} (t : Table α) (i : Nat) (v : α) : Table α :=
  match t with
  | [] => [(i, v)]
  | (k, w) :: r =>
    if i < k then (i, v) :: (k, w) :: r else if i = k then (i, v) :: r else (k, w) :: Table.put r i v

/-- The table with nothing at index i. -/
def Table.del {α : Type} (t : Table α) (i : Nat) : Table α :=
  match t with
  | [] => []
  | (k, w) :: r => if k = i then Table.del r i else (k, w) :: Table.del r i

/-- The table with f applied to the record at index i, if there is one. -/
def Table.modify {α : Type} (t : Table α) (i : Nat) (f : α → α) : Table α :=
  match t with
  | [] => []
  | (k, w) :: r => if k = i then (k, f w) :: r else (k, w) :: Table.modify r i f

/-- The table whose default is d, with v at index i: an index at the default is not listed. -/
def Table.putD {α : Type} [DecidableEq α] (d : α) (t : Table α) (i : Nat) (v : α) : Table α :=
  if v = d then Table.del t i else Table.put t i v

/-- The table with nothing (none) or a record (some) at index i. -/
def Table.putO {α : Type} (t : Table α) (i : Nat) (v : Option α) : Table α :=
  match v with
  | some x => Table.put t i x
  | none => Table.del t i

/-- The indexes of a table rise strictly. -/
def Table.rising {α : Type} (t : Table α) : Bool :=
  match t with
  | [] => true
  | [_] => true
  | a :: b :: r => decide (a.1 < b.1) && Table.rising (b :: r)

/-- The lowest of the indexes 0 to n - 1 with no record. -/
def Table.lowestFree {α : Type} (t : Table α) (n : Nat) : Option Nat :=
  (List.range n).find? (fun i => (Table.look t i).isNone)

/-! ## Bytes (R201) -/

/-- A number in w bytes, most significant first. -/
def beBytes : Nat → Nat → List Byte
  | 0, _ => []
  | w + 1, n => BitVec.ofNat 8 (n / 256 ^ w) :: beBytes w n

/-- The number that bytes spell, most significant first. -/
def beNat (bs : List Byte) : Nat := bs.foldl (fun a b => a * 256 + b.toNat) 0

/-- The number in the w bytes from offset o. -/
def field (bs : List Byte) (o w : Nat) : Nat := beNat ((bs.drop o).take w)

/-- A flag as a number. -/
def bit (b : Bool) : Nat := if b then 1 else 0

/-- An optional index (key handle, rental index): absent is 0xFFFF. -/
def beIndex (o : Option Nat) : List Byte := beBytes 2 (o.getD 65535)

/-- An optional logical slot: absent is 0. -/
def beSlot (o : Option Nat) : List Byte := beBytes 2 (o.getD 0)

/-- An optional named value: absent is 0xFF. -/
def beName (o : Option Nat) : List Byte := beBytes 1 (o.getD 255)

/-- A 16-bit counter that stops at 65,535, up by one (R177). -/
def satUp (n : Nat) : Nat := if n < Config.satMax then n + 1 else n

/-- Channel and lock codes (R201). -/
def Chan.code : Chan → Nat
  | .A => 0 | .B => 1

def LockState.code : LockState → Nat
  | .locked => 0 | .opened => 1 | .jammed => 2

namespace Machine

/-! ## Codes -/

/-- Destination of broadcast reports (chapter 9.1). -/
def broadcast : Nat := 255

/-- Result codes (R204). -/
def Result.code : Result → Nat
  | .ok => 0x00 | .okClamped => 0x01 | .started => 0x02 | .queued => 0x03 | .cancelled => 0x04 | .passReply => 0x05
  | .released => 0x06 | .lateTake => 0x07
  | .badArgument => 0x10 | .unknownRequest => 0x11 | .refusedRole => 0x12 | .refusedRight => 0x13 | .busy => 0x14
  | .sequenceError => 0x15
  | .notFound => 0x20 | .duplicate => 0x21 | .tableFull => 0x22 | .homeTaken => 0x23 | .inCabinet => 0x24
  | .inUse => 0x25 | .noHome => 0x26 | .notOpen => 0x27 | .limit => 0x28 | .notRunning => 0x29
  | .notAvailable => 0x30 | .held => 0x31 | .activeRelease => 0x32 | .notLockedOut => 0x33 | .codeNotSet => 0x34
  | .badCode => 0x35 | .lockedOut => 0x36 | .noTime => 0x37 | .alreadyActive => 0x38 | .notYetValid => 0x39
  | .noRecordSpace => 0x3A | .noKey => 0x3B | .slotBusy => 0x3C | .moduleDown => 0x3D | .roleZone => 0x3E
  | .notForeign => 0x3F
  | .notOrigin => 0x40 | .tooLate => 0x41 | .notActive => 0x42 | .notTaken => 0x43 | .lockFault => 0x44
  | .channelReset => 0x45 | .restart => 0x46 | .expired => 0x47
  | .passRefused => 0x50 | .passTimeout => 0x51 | .passAborted => 0x52

/-- Report kind codes (R203). -/
def ReportKind.code : ReportKind → Nat
  | .response => 0x80 | .releaseDone => 0x81 | .releaseFailed => 0x82 | .ret => 0x83
  | .alert => 0x84 | .alertWithdrawn => 0x85 | .alertDropped => 0x86
  | .keyBack => 0x88 | .keyFound => 0x89 | .relocated => 0x8A | .dropUnexpected => 0x8B
  | .dueSoon => 0x8C | .authExpired => 0x8D | .authRetargeted => 0x8E
  | .censusDone => 0x90 | .moduleEvent => 0x91 | .linkRestored => 0x92

/-- Key states (R201). -/
def KeyState.code : KeyState → Nat
  | .inn => 0 | .misplaced => 1 | .assigned => 2 | .releasing => 3 | .out => 4 | .away => 5 | .missing => 6
  | .dropped => 7

def HoldReason.code : HoldReason → Nat
  | .damage => 0 | .service => 1 | .office => 2

def AwayCause.code : AwayCause → Nat
  | .service => 0 | .manualClose => 1 | .new => 2 | .dropOverflow => 3

def Role.code : Role → Nat
  | .none => 0 | .counter => 1 | .kiosk => 2 | .office => 3

def Zone.code : Zone → Nat
  | .staffed => 0 | .unstaffed => 1

def RelKind.code : RelKind → Nat
  | .release => 0 | .pickup => 1 | .service => 2

def RentalKind.code : RentalKind → Nat
  | .counter => 0 | .kiosk => 1

def Tier.code : Tier → Nat
  | .onTime => 0 | .dueSoon => 1 | .grace => 2 | .overdue => 3 | .escalated => 4

def RetClass.code : RetClass → Nat
  | .early => 0 | .onTime => 1 | .inGrace => 2 | .late => 3

def ModState.code : ModState → Nat
  | .absent => 0 | .active => 1 | .silent => 2 | .down => 3

def ChanState.code : ChanState → Nat
  | .off => 0 | .starting _ => 1 | .running => 2 | .recovering => 3 | .faulted => 4

def CtxState.code : CtxState → Nat
  | .opening => 1 | .opened => 2 | .removedSettling => 3 | .closing => 4 | .donePending => 5

def CtxResult.result : CtxResult → Result
  | .released => .released | .lateTake => .lateTake | .notTaken => .notTaken | .cancelled => .cancelled
  | .lockFault => .lockFault | .channelReset => .channelReset | .restart => .restart

/-- An occupancy: its form and its tag id, 0 unless it is a tag (R205, CENSUS_READ). -/
def occBytes : Option Occ → List Byte
  | none => beBytes 1 255 ++ beBytes 4 0
  | some .empty => beBytes 1 0 ++ beBytes 4 0
  | some (.tag t) => beBytes 1 1 ++ beBytes 4 t
  | some .unread => beBytes 1 2 ++ beBytes 4 0

/-! ## Records -/

/-- The current branch minute; 0 while the clock is unset (R3, R87). -/
def Part.now (p : Part) : Nat := if p.clock.set then p.clock.minute else 0

/-- A channel. -/
def Part.chan (p : Part) (c : Chan) : Channel :=
  match c with
  | .A => p.chanA
  | .B => p.chanB

/-- The part with f applied to channel c. -/
def Part.onChan (p : Part) (c : Chan) (f : Channel → Channel) : Part :=
  match c with
  | .A => { p with chanA := f p.chanA }
  | .B => { p with chanB := f p.chanB }

/-- The Slot Map entry of a logical slot (R4). -/
def Part.slotEntry (p : Part) (n : Nat) : SlotEntry := (Table.look p.slotMap n).getD SlotEntry.powerOn

/-- The logical slot of kind STANDARD or DROP at a position; at most one (R4). -/
def Part.slotAt (p : Part) (c : Chan) (a pos : Nat) : Option Nat :=
  (p.slotMap.find? (fun e => e.2.kind != .disabled && e.2.chan == c && e.2.addr == a && e.2.pos == pos)).map (·.1)

/-- The STANDARD slots of a module, in ascending order. -/
def Part.moduleSlots (p : Part) (c : Chan) (a : Nat) : List Nat :=
  (p.slotMap.filter (fun e => e.2.kind == .standard && e.2.chan == c && e.2.addr == a)).map (·.1)

/-- The STANDARD slots of a channel, in ascending order. -/
def Part.chanSlots (p : Part) (c : Chan) : List Nat :=
  (p.slotMap.filter (fun e => e.2.kind == .standard && e.2.chan == c)).map (·.1)

/-- The drop positions, in ascending order (R4: at most two). -/
def Part.dropSlots (p : Part) : List Nat := (p.slotMap.filter (fun e => e.2.kind == .drop)).map (·.1)

/-- The handle and record of the key that carries a tag id (R1: at most one). -/
def Part.keyByTag (p : Part) (t : Nat) : Option (Nat × KeyRec) := p.keys.find? (fun e => e.2.tag == t)

/-- The key located at a slot. -/
def Part.keyAt (p : Part) (s : Nat) : Option (Nat × KeyRec) := p.keys.find? (fun e => e.2.loc == some s)

/-- The key whose tag is an occupancy. -/
def Part.keyOfOcc (p : Part) (o : Occ) : Option (Nat × KeyRec) :=
  match o with
  | .tag t => p.keyByTag t
  | _ => none

/-- The row of a slot. -/
def Part.row (p : Part) (s : Nat) : Option SlotRow := Table.look p.rows s

/-- The settled occupancy of a slot; none is UNKNOWN (R6). -/
def Part.occOf (p : Part) (s : Nat) : Option Occ := (p.row s).bind (·.occ)

/-- The state of a module: ABSENT unless its entry says otherwise (R155). -/
def Channel.modState (ch : Channel) (a : Nat) : ModState := ((Table.look ch.modules a).map (·.state)).getD .absent

/-- An address that the Module Map names is mapped (R155). -/
def Channel.mapped (ch : Channel) (a : Nat) : Bool := ch.map.any (fun e => e.2.addr == a)

/-- The module is ACTIVE on a RUNNING channel. -/
def Part.moduleActive (p : Part) (c : Chan) (a : Nat) : Bool :=
  (p.chan c).state == .running && (p.chan c).modState a == .active

/-- The module is ACTIVE or SILENT on a RUNNING channel (R140). -/
def Part.moduleServed (p : Part) (c : Chan) (a : Nat) : Bool :=
  (p.chan c).state == .running && ((p.chan c).modState a == .active || (p.chan c).modState a == .silent)

/-- A rental record and its index, by rental number. -/
def Part.rentalByNumber (p : Part) (n : Nat) : Option (Nat × Rental) := p.rentals.find? (fun e => e.2.number == n)

/-- A Terminal Table entry (R184). -/
def Part.terminal (p : Part) (t : Nat) : Terminal := (Table.look p.tfl.terminals t).getD Terminal.powerOn

/-- A Group Table entry (R8). -/
def Part.group (p : Part) (g : Nat) : GroupEntry := (Table.look p.groups g).getD GroupEntry.powerOn

/-- A role is in a role set (R8). -/
def RoleSet.has (r : RoleSet) : Role → Bool
  | .none => false
  | .counter => r.counter
  | .kiosk => r.kiosk
  | .office => r.office

/-- A group permits a role in a zone (R8). -/
def GroupEntry.permits (g : GroupEntry) (z : Zone) (r : Role) : Bool :=
  match z with
  | .staffed => g.staffed.has r
  | .unstaffed => g.unstaffed.has r

/-! ## The Report Queue -/

/-- There is room for an essential report: fewer than 64, and no owner whose turn comes first (R178, R180; log 8). -/
def Link.room (l : Link) : Bool := decide (l.reports.length < Config.reportCap) && l.waiters.isEmpty

/-- The report enters at the tail. -/
def Link.enter (l : Link) (r : Report) : Link := { l with reports := l.reports ++ [r] }

/-- The owner waits behind those that wait already; an owner that waits keeps its turn (R180). -/
def Link.await (l : Link) (w : Waiter) : Link :=
  if l.waiters.contains w then l else { l with waiters := l.waiters ++ [w] }

/-- The owner leaves the waiting order. -/
def Link.unwait (l : Link) (w : Waiter) : Link := { l with waiters := l.waiters.filter (fun x => x != w) }

def Part.essRoom (p : Part) : Bool := p.link.room
def Part.enter (p : Part) (r : Report) : Part := { p with link := p.link.enter r }
def Part.await (p : Part) (w : Waiter) : Part := { p with link := p.link.await w }
def Part.unwait (p : Part) (w : Waiter) : Part := { p with link := p.link.unwait w }

/-! ## Lamps to recompute -/

/-- Module number in the Lamp Driver: 1 to 30 on channel A, 31 to 60 on channel B. -/
def lampKey (c : Chan) (a : Nat) : Nat :=
  match c with
  | .A => a
  | .B => 30 + a

/-- The module with a given number. -/
def lampModule (k : Nat) : Chan × Nat := if k ≤ 30 then (.A, k) else (.B, k - 30)

/-- The numbers of all sixty modules, and of those of one channel. -/
def allModules : List Nat := (List.range 60).map (· + 1)
def chanModules (c : Chan) : List Nat := (List.range Config.modules).map (fun i => lampKey c (i + 1))

/-- Mark modules whose lamps the step has given cause to recompute (R138; log 9). -/
def Part.touch (p : Part) (ks : List Nat) : Part := { p with lmp := { p.lmp with touched := p.lmp.touched ++ ks } }

/-- Mark the module of a slot. -/
def Part.touchSlot (p : Part) (s : Nat) : Part := p.touch [lampKey (p.slotEntry s).chan (p.slotEntry s).addr]

def Part.touchSlotO (p : Part) (s : Option Nat) : Part :=
  match s with
  | some n => p.touchSlot n
  | none => p

/-- The part with f applied to the row of slot s. -/
def Part.onRow (p : Part) (s : Nat) (f : SlotRow → SlotRow) : Part := { p with rows := Table.modify p.rows s f }

/-- A key record is written, and the lamps of its locations before and after and of its home are marked (R14). -/
def Part.setKey (p : Part) (h : Nat) (k : KeyRec) : Part :=
  let before := (Table.look p.keys h).bind (·.loc)
  ((({ p with keys := Table.put p.keys h k }).touchSlotO before).touchSlotO k.loc).touchSlotO k.home

/-! ## The channel command queue (R159) -/

/-- The module a queued command is for. -/
def BusCmd.addr : BusCmd → Nat
  | .lockOpen a _ _ => a
  | .lockClose a _ _ => a
  | .passed a _ _ _ => a
  | .readTags a => a
  | .lamp a _ => a

/-- The command is a lock command of context i. -/
def BusCmd.ofCtx (i : Nat) : BusCmd → Bool
  | .lockOpen _ _ j => j == i
  | .lockClose _ _ (.ctx j) => j == i
  | _ => false

/-- The command is the LAMP command of module a. -/
def BusCmd.isLamp (a : Nat) : BusCmd → Bool
  | .lamp b _ => b == a
  | _ => false

/-- The command is the passed-through frame of Tracking entry e. -/
def BusCmd.isPassed (e : Nat) : BusCmd → Bool
  | .passed _ _ _ t => t == e
  | _ => false

def BusCmd.isReadTags : BusCmd → Bool
  | .readTags _ => true
  | _ => false

/-- Place for a command other than a context's lock command: the queue holds fewer than 12 (R159). -/
def Channel.otherRoom (ch : Channel) : Bool := decide (ch.queue.length < Config.otherCap)

/-- A command enters at the tail. -/
def Channel.push (ch : Channel) (b : BusCmd) : Channel := { ch with queue := ch.queue ++ [b] }

/-- A context's lock command enters while the queue holds fewer than 16. -/
def Channel.pushLock (ch : Channel) (b : BusCmd) : Channel :=
  if ch.queue.length < Config.queueCap then ch.push b else ch

/-- Commands are withdrawn. -/
def Channel.withdraw (ch : Channel) (f : BusCmd → Bool) : Channel := { ch with queue := ch.queue.filter (fun b => !f b) }

/-- A context asks for LOCK_CLOSE: a lock command of its own still waiting is replaced in its place (R159). -/
def Channel.pushClose (ch : Channel) (i a pos : Nat) : Channel :=
  if ch.queue.any (BusCmd.ofCtx i) then
    { ch with queue := ch.queue.map (fun b => if BusCmd.ofCtx i b then .lockClose a pos (.ctx i) else b) }
  else ch.pushLock (.lockClose a pos (.ctx i))

/-- The LOCK_CLOSE of a context that is freed waits on as no context's (R44, R49, R159). -/
def BusCmd.leave (i : Nat) : BusCmd → BusCmd
  | .lockClose a pos (.ctx j) => .lockClose a pos (if j = i then .left else .ctx j)
  | b => b

def Channel.leaveClose (ch : Channel) (i : Nat) : Channel := { ch with queue := ch.queue.map (BusCmd.leave i) }

/-! ## Answers -/

/-- What the owner of a request answers: the part after the request, the result code, the fields of the response and
its flag REMOVED (R185, R205). -/
structure Answer where
  part : Part
  result : Result
  fields : List Byte
  removed : Bool

/-- The request is carried out, or refused with nothing changed. -/
def Part.answer (p : Part) (r : Result) (fields : List Byte) : Answer := ⟨p, r, fields, false⟩
def Part.refuse (p : Part) (r : Result) : Answer := ⟨p, r, [], false⟩

/-! ## Alerts: what every block gives the Alert Unit -/

/-- Numbers of the factor flags beside the kinds (R201). -/
def flagRegisterFull : Nat := 13
def flagClockUnset : Nat := 14
def flagClockLimit : Nat := 15

/-- The key states in which a key is located. -/
def KeyState.located : KeyState → Bool
  | .inn | .misplaced | .assigned | .releasing => true
  | _ => false

/-- IN when the slot is the key's home or the key is floating, MISPLACED otherwise (R3). -/
def KeyRec.stateAt (k : KeyRec) (s : Nat) : KeyState :=
  if k.home.isNone || k.home == some s then .inn else .misplaced

/-- A key placed at slot s with in-since m, in state st (R3). -/
def KeyRec.placedAs (k : KeyRec) (st : KeyState) (s m : Nat) : KeyRec :=
  { k with state := st, loc := some s, inSince := some m, rental := none, away := none }

/-- A key placed at slot s with in-since m, IN or MISPLACED (R3). -/
def KeyRec.placed (k : KeyRec) (s m : Nat) : KeyRec := k.placedAs (k.stateAt s) s m

/-- A key that has left its location: OUT, AWAY, MISSING or DROPPED (R3). -/
def KeyRec.gone (k : KeyRec) (st : KeyState) (rental : Option Nat) (cause : Option AwayCause) : KeyRec :=
  { k with state := st, loc := none, inSince := none, rental := rental, away := cause }

/-- A key restored to IN or MISPLACED at the location it has (R3). -/
def KeyRec.restored (k : KeyRec) : KeyRec := { k with state := k.stateAt (k.loc.getD 0) }

end Machine
end Sys2Proof
end

