-- ==== Sys2Proof/Machine/Flags.lean ====
section
/-! DEFINITION. Every flag and check computation of the manual: the factor flags and the alert line (R115, R118), the
header check of the branch link (R174, R202), the CRC-16 and the CRC-8 (R202, R207), the flag bytes of reports. -/

namespace Sys2Proof.Machine
open Sys2Proof

/-! ## Factor flags and the alert line -/

/-- Alert kind codes, which are also the bit numbers of the factor flags (R201, R204). -/
def AlertKind.code : AlertKind → Nat
  | .overdue => 0 | .escalated => 1 | .taken => 2 | .foreign => 3 | .lockout => 4 | .lockJam => 5
  | .moduleDown => 6 | .stranger => 7 | .channelFault => 8 | .dropFull => 9 | .censusMismatch => 10
  | .linkSilent => 11 | .queueLoss => 12

/-- The flag word with bit i set, or cleared. -/
def setBit (w : BitVec 16) (i : Nat) : BitVec 16 := w ||| (1#16 <<< i)
def clearBit (w : BitVec 16) (i : Nat) : BitVec 16 := w &&& ~~~(1#16 <<< i)

/-- A factor flag is set or cleared (R115). -/
def Part.setFlag (p : Part) (i : Nat) : Part := { p with alt := { p.alt with flags := setBit p.alt.flags i } }
def Part.clearFlag (p : Part) (i : Nat) : Part := { p with alt := { p.alt with flags := clearBit p.alt.flags i } }

/-- The enable set of the zone in force. -/
def Part.enables (p : Part) : BitVec 16 :=
  match p.zone with
  | .staffed => p.alt.enableStaffed
  | .unstaffed => p.alt.enableUnstaffed

/-- The alert line is driven (R118). -/
def Part.lineDriven (p : Part) : Bool := p.alt.lineEnable && (p.alt.flags &&& p.enables != 0#16)

/-- The re-alert interval in force (R113). -/
def Part.interval (p : Part) : Nat :=
  match p.zone with
  | .staffed => p.policy.reAlert
  | .unstaffed => 2 * p.policy.reAlert

/-- FLAGS_READ with CLEAR clears every flag but CLOCK_UNSET (R116). -/
def flagsAfterClear (w : BitVec 16) : BitVec 16 := w &&& (1#16 <<< flagClockUnset)

/-! ## The header check (R174, R202) -/

/-- The 32 header data bits, d0 first: destination, origin, kind, length, each from its bit 0. -/
def Header.bits (h : Header) : List Bool :=
  let bs (b : Byte) : List Bool := (List.range 8).map (fun i => b.getLsbD i)
  bs h.dest ++ bs h.origin ++ bs h.kind ++ bs h.len

/-- The Hamming positions of d0 to d31. -/
def hammingPositions : List Nat :=
  [3, 5, 6, 7, 9, 10, 11, 12] ++ [13, 14, 15, 17, 18, 19, 20, 21] ++
  [22, 23, 24, 25, 26, 27, 28, 29] ++ [30, 31, 33, 34, 35, 36, 37, 38]

/-- The exclusive-or of the positions of the data bits set: bit k of it is check bit k. -/
def Header.checkBits (h : Header) : Nat :=
  (h.bits.zip hammingPositions).foldl (fun a e => if e.1 then a ^^^ e.2 else a) 0

/-- Whether an odd number of the bits are set. -/
def oddBits (bs : List Bool) : Bool := bs.foldl (fun a b => a != b) false

/-- The number of bits 0 to n - 1 set in a number is odd. -/
def oddNat (n w : Nat) : Bool := oddBits ((List.range n).map (fun i => w.testBit i))

/-- The check byte the part builds for a header (R202): bits 0 to 5, the parity bit 6, bit 7 clear. -/
def Header.build (h : Header) : Byte :=
  let c := h.checkBits
  BitVec.ofNat 8 (c + if (oddBits h.bits != oddNat 6 c) then 64 else 0)

/-- What the header check makes of a header (R174). -/
def Header.syndrome (h : Header) : Nat := h.checkBits ^^^ (h.check.toNat % 64)

/-- The parity p is bad. -/
def Header.parityBad (h : Header) : Bool := oddBits h.bits != oddNat 7 h.check.toNat

/-- Bit i of a byte inverted. -/
def flipBit (b : Byte) (i : Nat) : Byte := b ^^^ (1#8 <<< i)

/-- Data bit d inverted. -/
def Header.flipData (h : Header) (d : Nat) : Header :=
  if d < 8 then { h with dest := flipBit h.dest d }
  else if d < 16 then { h with origin := flipBit h.origin (d - 8) }
  else if d < 24 then { h with kind := flipBit h.kind (d - 16) }
  else { h with len := flipBit h.len (d - 24) }

/-- The check bit that stands in Hamming position s, if s is a power of two up to 32. -/
def checkBitAt (s : Nat) : Option Nat := (List.range 6).find? (fun k => 2 ^ k == s)

/-- Outcome of the header check: the header as corrected and whether it was corrected, or none (uncorrectable). -/
def Header.judge (h : Header) : Option (Header × Bool) :=
  let s := h.syndrome
  if h.parityBad then
    if s = 0 then some ({ h with check := flipBit h.check 6 }, true)
    else match checkBitAt s with
      | some k => some ({ h with check := flipBit h.check k }, true)
      | none => match hammingPositions.findIdx? (fun q => q == s) with
        | some d => some (h.flipData d, true)
        | none => none
  else if s = 0 then some (h, false) else none

/-! ## Cyclic redundancy checks -/

/-- One bit through the CRC-16 register: polynomial 0x1021, most significant bit first. -/
def crc16Bit (r : BitVec 16) (b : Bool) : BitVec 16 :=
  if (r.msb != b) then (r <<< 1) ^^^ 0x1021#16 else r <<< 1

def crc16Byte (r : BitVec 16) (b : Byte) : BitVec 16 :=
  (List.range 8).foldl (fun a i => crc16Bit a (b.getLsbD (7 - i))) r

/-- CRC-16 of the branch link (R202). -/
def crc16 (bs : List Byte) : BitVec 16 := bs.foldl crc16Byte 0xFFFF#16

/-- One bit through the CRC-8 register: polynomial 0x07. -/
def crc8Bit (r : BitVec 8) (b : Bool) : BitVec 8 :=
  if (r.msb != b) then (r <<< 1) ^^^ 0x07#8 else r <<< 1

def crc8Byte (r : BitVec 8) (b : Byte) : BitVec 8 :=
  (List.range 8).foldl (fun a i => crc8Bit a (b.getLsbD (7 - i))) r

/-- CRC-8 of the slot bus (R207). -/
def crc8 (bs : List Byte) : BitVec 8 := bs.foldl crc8Byte 0#8

/-- An answer is good for a command sent to address a: its address is a and its check is correct (R147, R207). That it
began within the 5 ms is what its row says; COMMAND_MISS is the row of an answer that did not. -/
def replyGood (r : Reply) (a : Nat) : Bool := r.addr == BitVec.ofNat 8 a && crc8 (r.addr :: r.status :: r.data) == r.check

/-- The bytes the CRC-16 of a frame covers (R175, R202). -/
def Header.covered (h : Header) (payload : List Byte) : List Byte := [h.dest, h.origin, h.kind, h.len, h.check] ++ payload

/-- The CRC-16 of a frame. -/
def frameCrc (h : Header) (payload : List Byte) : BitVec 16 := crc16 (h.covered payload)

/-- The bytes of a report on the link: a frame with origin 0 (R172, R202). -/
def Report.frame (r : Report) : List Byte :=
  let h0 : Header := ⟨BitVec.ofNat 8 r.dest, 0#8, BitVec.ofNat 8 r.kind.code, BitVec.ofNat 8 r.payload.length, 0#8⟩
  let h := { h0 with check := h0.build }
  [0xC5#8, 0x3A#8] ++ h.covered r.payload ++ beBytes 2 (frameCrc h r.payload).toNat

/-! ## Flag bytes -/

/-- Flags of RETURN, from bit 0 (R205). -/
def RetFlags.byte (f : RetFlags) : Nat :=
  bit f.quick + 2 * bit f.lateSighting + 4 * bit f.manual + 8 * bit f.saturated + 16 * bit f.clockAnomaly
    + 32 * bit f.dropOverflow

/-- Report flags of ALERT (R205). -/
def AlertFlags.byte (f : AlertFlags) : Nat := bit f.again + 2 * bit f.renewed + 4 * bit f.replaced

/-- Flags of two alert reports together (R111). -/
def AlertFlags.join (a b : AlertFlags) : AlertFlags :=
  ⟨a.again || b.again, a.renewed || b.renewed, a.replaced || b.replaced⟩

end Sys2Proof.Machine
end

