-- ==== Sys2Proof/Machine/Operands.lean ====
section
/-! DEFINITION. The operands of every request, read from its payload (R201, R205, R206; layouts the manual leaves to
its coding rules: log 10), and the coding of table entries and lamp states. A payload whose length or form is not the
request's gives none. Offset 0 is the request tag. -/

namespace Sys2Proof.Machine
open Sys2Proof

/-- The byte at offset o as a number. -/
def byteAt (bs : List Byte) (o : Nat) : Nat := field bs o 1

/-- The request tag: the first payload byte, or 0 (R185). -/
def reqTag (bs : List Byte) : Nat := byteAt bs 0

/-- A payload of the tag alone. -/
def parseNone (bs : List Byte) : Option Unit := if bs.length = 1 then some () else none

/-- A payload of the tag and one number of w bytes. -/
def parseNum (w : Nat) (bs : List Byte) : Option Nat := if bs.length = 1 + w then some (field bs 1 w) else none

/-- KEY_ADD: tag id, vehicle, class, home slot (0: floating). -/
def parseKeyAdd (bs : List Byte) : Option (Nat × Nat × Nat × Option Nat) :=
  if bs.length = 11 then
    let home := field bs 9 2
    some (field bs 1 4, field bs 5 3, field bs 8 1, if home = 0 then none else some home)
  else none

/-- A form byte 0 with four bytes, or 1 with two: KEY_QUERY, SERVICE_RELEASE, RENTAL_QUERY. -/
def parseForm (bs : List Byte) : Option (Bool × Nat) :=
  if bs.length = 6 && byteAt bs 1 == 0 then some (false, field bs 2 4)
  else if bs.length = 4 && byteAt bs 1 == 1 then some (true, field bs 2 2)
  else none

/-- A hold reason by its place. -/
def parseReason : Nat → Option HoldReason
  | 0 => some .damage
  | 1 => some .service
  | 2 => some .office
  | _ => none

/-- KEY_HOLD: tag id; a reason, or CLEAR. -/
def parseKeyHold (bs : List Byte) : Option (Nat × Option HoldReason) :=
  if bs.length = 6 then
    if byteAt bs 5 = 3 then some (field bs 1 4, none)
    else (parseReason (byteAt bs 5)).map (fun r => (field bs 1 4, some r))
  else none

/-- A logical slot in range. -/
def slotArg (n : Nat) : Option Nat := if 1 ≤ n ∧ n ≤ Config.slots then some n else none

/-- HOLD_RANGE_START: slot, reason (R21). -/
def parseRangeStart (bs : List Byte) : Option (Nat × HoldReason) :=
  if bs.length = 4 then (slotArg (field bs 1 2)).bind (fun n => (parseReason (byteAt bs 3)).map (fun r => (n, r)))
  else none

/-- HOLD_RANGE_END: slot (R22). -/
def parseRangeEnd (bs : List Byte) : Option Nat := (parseNum 2 bs).bind slotArg

/-- Code digits, each 0 to 9. -/
def parseDigits (bs : List Byte) : Option (List Nat) :=
  if bs.all (fun b => decide (b.toNat ≤ 9)) then some (bs.map (·.toNat)) else none

/-- AUTH_ADD, in its check 1 (R28, R205): the authorization it would enter, with attempts and origin to be filled in. -/
def parseAuthAdd (bs : List Byte) : Option Auth :=
  let n := bs.length - 20
  if bs.length < 20 ∨ byteAt bs 19 ≠ n ∨ ¬(n = 0 ∨ (4 ≤ n ∧ n ≤ 8)) then none else
  let pres := byteAt bs 11
  let form := byteAt bs 5
  let tgt := field bs 6 2
  let grace := if pres.testBit 0 then some (byteAt bs 12) else none
  let validFrom := field bs 13 3
  let validUntil := if pres.testBit 1 then some (field bs 16 3) else none
  match parseDigits (bs.drop 20) with
  | none => none
  | some ds =>
    if field bs 1 4 = 0 ∨ form > 1 ∨ (form = 0 ∧ tgt > 1023) ∨ (form = 1 ∧ tgt > 15) ∨ grace.any (fun g => decide (g > 120))
        ∨ validUntil.any (fun v => decide (v < validFrom)) then none
    else some ⟨field bs 1 4, if form = 0 then .key tgt else .cls tgt, field bs 8 3, grace,
      if n = 0 then none else some ds, 0, validFrom, validUntil, .waiting, 0⟩

/-- PICKUP: rental number and a code of 1 to 8 digits (R34). -/
def parsePickup (bs : List Byte) : Option (Nat × List Nat) :=
  let n := bs.length - 6
  if bs.length < 7 ∨ 8 < n ∨ byteAt bs 5 ≠ n then none
  else (parseDigits (bs.drop 6)).map (fun ds => (field bs 1 4, ds))

/-- TIME_SET: branch minute, second, minute-of-day, in range (R88). -/
def parseTimeSet (bs : List Byte) : Option (Nat × Nat × Nat) :=
  if bs.length = 7 ∧ byteAt bs 4 ≤ 59 ∧ field bs 5 2 ≤ 1439 then some (field bs 1 3, byteAt bs 4, field bs 5 2) else none

/-- EXTEND: rental number, due minute. -/
def parseExtend (bs : List Byte) : Option (Nat × Nat) :=
  if bs.length = 8 then some (field bs 1 4, field bs 5 3) else none

/-- OVERDUE_LIST: an optional resume point, a due minute and a rental number. -/
def parseOverdue (bs : List Byte) : Option (Option (Nat × Nat)) :=
  if bs.length = 9 then some (if (byteAt bs 1).testBit 0 then some (field bs 2 3, field bs 5 4) else none) else none

/-- Alert kinds by code (R204). -/
def alertKinds : List AlertKind :=
  [.overdue, .escalated, .taken, .foreign, .lockout, .lockJam, .moduleDown, .stranger, .channelFault, .dropFull,
   .censusMismatch, .linkSilent, .queueLoss]

/-- A channel by code. -/
def parseChan : Nat → Option Chan
  | 0 => some .A
  | 1 => some .B
  | _ => none

/-- The subject of an alert of a kind, from its four bytes (R105, R205; log 34). Any logical slot is a subject of FOREIGN, LOCK_JAM
and DROP_FULL, whatever its kind in the Slot Map: of a slot the kind cannot concern there is no entry, and ACK_ALERT answers
NOT_FOUND (log 34). -/
def parseSubject (k : AlertKind) (n : Nat) : Option Subject :=
  match k with
  | .overdue | .escalated | .lockout => if n = 0 then none else some (.rental n)
  | .taken => if n ≤ 1023 then some (.key n) else none
  | .foreign | .lockJam | .dropFull => (slotArg n).map .slot
  | .moduleDown =>
    (parseChan (n / 256)).bind (fun c => if 1 ≤ n % 256 ∧ n % 256 ≤ Config.modules then some (.module c (n % 256)) else none)
  | .stranger | .channelFault => (parseChan n).map .chan
  | .censusMismatch | .linkSilent | .queueLoss => if n = 0 then some .none else none

/-- ACK_ALERT: kind and subject. -/
def parseAck (bs : List Byte) : Option (AlertKind × Subject) :=
  if bs.length = 6 then
    (alertKinds[byteAt bs 1]?).bind (fun k => (parseSubject k (field bs 2 4)).map (fun s => (k, s)))
  else none

/-- An option byte, 1 when carried and 0 when not: FLAGS_READ, COUNTERS_READ. -/
def parseOption (bs : List Byte) : Option Bool :=
  match parseNum 1 bs with
  | some 0 => some false
  | some 1 => some true
  | _ => none

/-- ENABLE_SET: two flag words and the line enable, 1 for set and 0 for clear (R117; log 10). -/
def parseEnableSet (bs : List Byte) : Option (BitVec 16 × BitVec 16 × Bool) :=
  if bs.length = 6 ∧ byteAt bs 5 ≤ 1 then
    some (BitVec.ofNat 16 (field bs 1 2), BitVec.ofNat 16 (field bs 3 2), byteAt bs 5 == 1)
  else none

/-- CENSUS_START: a scope. -/
def parseScope (bs : List Byte) : Option Scope :=
  match parseNum 1 bs with
  | some 0 => some .A
  | some 1 => some .B
  | some 2 => some .both
  | _ => none

/-- CENSUS_READ: a first index, 0 to 63. -/
def parseIndex (bs : List Byte) : Option Nat := (parseNum 2 bs).bind (fun n => if n ≤ 63 then some n else none)

/-- A channel and one more byte: LAMP_RELEASE, CHANNEL_CONTROL. -/
def parseChanByte (bs : List Byte) : Option (Chan × Nat) :=
  if bs.length = 3 then (parseChan (byteAt bs 1)).map (fun c => (c, byteAt bs 2)) else none

/-! ## Lamp states (R207) -/

/-- The lamp state a lamp byte decodes to. -/
def lampOfByte (b : Byte) : Option Lamp :=
  let colour : Option Colour := match b.toNat % 4 with
    | 1 => some .green | 2 => some .amber | 3 => some .red | _ => none
  let cadence : Option Cadence := match b.toNat / 4 with
    | 0 => some .steady | 1 => some .slow | 2 => some .fast | _ => none
  if b.toNat = 0 then some .off else colour.bind (fun c => cadence.map (fun k => .lit c k))

def Colour.code : Colour → Nat
  | .green => 1 | .amber => 2 | .red => 3

def Cadence.code : Cadence → Nat
  | .steady => 0 | .slow => 1 | .fast => 2

/-- The lamp byte of a lamp state. -/
def Lamp.byte : Lamp → Byte
  | .off => 0#8
  | .lit c k => BitVec.ofNat 8 (c.code + 4 * k.code)

/-! ## Command classes of module frames (R207) -/

/-- A class that may be passed, by its code. -/
def parseClass : Nat → Option ModClass
  | 0x40 => some .query
  | 0x41 => some .config
  | 0x42 => some .lampRaw
  | 0x43 => some .opaqueClass
  | _ => none

def ModClass.code : ModClass → Nat
  | .query => 0x40 | .config => 0x41 | .lampRaw => 0x42 | .opaqueClass => 0x43

/-- The code of LOCK_RAW. -/
def lockRawCode : Nat := 0x44

/-! ## Bytes of a command on a slot bus line (R207) -/

/-- Bytes with the CRC-8 that covers them. -/
def framed (body : List Byte) : List Byte := body ++ [crc8 body]

/-- Address, command byte and data of a command from the queue, and its CRC-8. -/
def BusCmd.frame (b : BusCmd) : List Byte :=
  framed (match b with
    | .lockOpen a pos _ => [BitVec.ofNat 8 a, 0x10#8, BitVec.ofNat 8 pos]
    | .lockClose a pos _ => [BitVec.ofNat 8 a, 0x11#8, BitVec.ofNat 8 pos]
    | .passed a c d _ => [BitVec.ofNat 8 a, BitVec.ofNat 8 c.code] ++ d
    | .readTags a => [BitVec.ofNat 8 a, 0x02#8]
    | .lamp a ls => [BitVec.ofNat 8 a, 0x20#8] ++ ls.map Lamp.byte)

/-- The bytes of a command the part puts on the line. -/
def LineCmd.frame (l : LineCmd) : List Byte :=
  match l with
  | .queued b => b.frame
  | .poll a ack => framed [BitVec.ofNat 8 a, 0x01#8, BitVec.ofNat 8 (bit ack)]
  | .assign serial a => framed ([0#8, 0x31#8] ++ beBytes 4 serial ++ [BitVec.ofNat 8 a])
  | .lockAll => framed [31#8, 0x12#8]
  | .identify => framed [0#8, 0x30#8]

/-! ## Table entries (R206) -/

/-- The loadable tables (chapter 10.1). -/
def tableCount : Nat := 7

/-- First index, places, bytes of an entry, most entries per write and per read, of the table with a code. -/
def tableShape : Nat → Option (Nat × Nat × Nat × Nat × Nat)
  | 0 => some (1, 480, 5, 47, 46)
  | 1 => some (0, 30, 6, 30, 30)
  | 2 => some (0, 30, 6, 30, 30)
  | 3 => some (1, 62, 2, 62, 62)
  | 4 => some (0, 16, 2, 16, 16)
  | 5 => some (0, 8, 4, 8, 8)
  | 6 => some (0, 16, 4, 16, 16)
  | _ => none

/-- The entries of a payload, w bytes each. -/
def splitEntries (w : Nat) : Nat → List Byte → List (List Byte)
  | 0, _ => []
  | n + 1, bs => bs.take w :: splitEntries w n (bs.drop w)

def parseSlotEntry (b : List Byte) : Option SlotEntry :=
  let kind : Option SlotKind := match byteAt b 3 with
    | 0 => some .standard | 1 => some .drop | 2 => some .disabled | _ => none
  (parseChan (byteAt b 0)).bind (fun c => kind.bind (fun k =>
    if 1 ≤ byteAt b 1 ∧ byteAt b 1 ≤ Config.modules ∧ byteAt b 2 ≤ 7 ∧ byteAt b 4 ≤ 15 then
      some ⟨c, byteAt b 1, byteAt b 2, k, byteAt b 4⟩ else none))

def SlotKind.code : SlotKind → Nat
  | .standard => 0 | .drop => 1 | .disabled => 2

def SlotEntry.bytes (e : SlotEntry) : List Byte :=
  beBytes 1 e.chan.code ++ beBytes 1 e.addr ++ beBytes 1 e.pos ++ beBytes 1 e.kind.code ++ beBytes 1 e.group

/-- A place written empty (present 0), whatever its other bytes (log 53), or with an entry (present 1). -/
def parsePresent {α : Type} (b : List Byte) (v : Option α) : Option (Option α) :=
  match byteAt b 0 with
  | 0 => some none
  | 1 => v.map some
  | _ => none

def parseMapEntry (b : List Byte) : Option (Option MapEntry) :=
  parsePresent b (if 1 ≤ byteAt b 5 ∧ byteAt b 5 ≤ Config.modules then some ⟨field b 1 4, byteAt b 5⟩ else none)

/-- A Module Map entry (R206). An empty place is sent as present 0 with every byte after it 0 (log 59). -/
def mapEntryBytes : Option MapEntry → List Byte
  | none => beBytes 6 0
  | some e => beBytes 1 1 ++ beBytes 4 e.serial ++ beBytes 1 e.addr

def parseRole : Nat → Option Role
  | 0 => some .none
  | 1 => some .counter
  | 2 => some .kiosk
  | 3 => some .office
  | _ => none

def parseTerminal (b : List Byte) : Option Terminal :=
  (parseRole (byteAt b 0)).map (fun r => ⟨r, (byteAt b 1).testBit 0, (byteAt b 1).testBit 1⟩)

def Terminal.bytes (t : Terminal) : List Byte := beBytes 1 t.role.code ++ beBytes 1 (bit t.load + 2 * bit t.maint)

def parseRoleSet (n : Nat) : RoleSet := ⟨n.testBit 0, n.testBit 1, n.testBit 2⟩

def RoleSet.code (r : RoleSet) : Nat := bit r.counter + 2 * bit r.kiosk + 4 * bit r.office

def parseGroup (b : List Byte) : Option GroupEntry := some ⟨parseRoleSet (byteAt b 0), parseRoleSet (byteAt b 1)⟩

def GroupEntry.bytes (g : GroupEntry) : List Byte := beBytes 1 g.staffed.code ++ beBytes 1 g.unstaffed.code

def parsePoint (b : List Byte) : Option (Option ZonePoint) :=
  parsePresent b (
    let z : Option Zone := match byteAt b 3 with
      | 0 => some .staffed | 1 => some .unstaffed | _ => none
    if field b 1 2 ≤ 1439 then z.map (fun z => ⟨field b 1 2, z⟩) else none)

/-- A Zone Schedule point (R206). An empty place is sent as present 0 with every byte after it 0 (log 59). -/
def pointBytes : Option ZonePoint → List Byte
  | none => beBytes 4 0
  | some z => beBytes 1 1 ++ beBytes 2 z.minuteOfDay ++ beBytes 1 z.zone.code

def parsePass (b : List Byte) : Option (Option PassEntry) :=
  parsePresent b (
    let role : Option (Option Role) := match byteAt b 1 with
      | 1 => some (some .counter) | 2 => some (some .kiosk) | 3 => some (some .office) | 4 => some none | _ => none
    let cls : Option (Option ModClass) := if byteAt b 2 = 255 then some none else (parseClass (byteAt b 2)).map some
    let act : Option PassAction := match byteAt b 3 with
      | 0 => some .pass | 1 => some .drop | 2 => some .dropReport | _ => none
    role.bind (fun r => cls.bind (fun c => act.map (fun a => ⟨r, c, a⟩))))

def PassAction.code : PassAction → Nat
  | .pass => 0 | .drop => 1 | .dropReport => 2

/-- A Pass Table entry (R206). An empty place is sent as present 0 with every byte after it 0 (log 59). -/
def passBytes : Option PassEntry → List Byte
  | none => beBytes 4 0
  | some e => beBytes 1 1 ++ beBytes 1 ((e.role.map Role.code).getD 4) ++ beBytes 1 ((e.cls.map ModClass.code).getD 255)
      ++ beBytes 1 e.action.code

/-! ## Policy values (R193, R194) -/

/-- Bytes of the value of a policy field: 2 for the escalation delay, the settle time and the census interval. -/
def policyWidth : Nat → Option Nat
  | 4 => some 2
  | 7 => some 2
  | 10 => some 2
  | n => if n < 12 then some 1 else none

/-- The (field, value) pairs of a POLICY_SET; none when a field is not one of the twelve or the bytes do not end with
a pair. -/
def parsePolicy : Nat → List Byte → Option (List (Nat × Nat))
  | 0, bs => if bs.isEmpty then some [] else none
  | _ + 1, [] => some []
  | n + 1, b :: bs =>
    match policyWidth b.toNat with
    | none => none
    | some w => if bs.length < w then none
      else (parsePolicy n (bs.drop w)).map (fun r => (b.toNat, field bs 0 w) :: r)

end Sys2Proof.Machine
end

