-- ==== Sys2Proof/Machine/Alerts.lean ====
section
/-! DEFINITION. The Alert Unit: raising, renewing, replacing, displacing and removing entries of the Alert Register,
the reports that wait there, re-alerting (R103 to R114); and, because a refused ordinary report raises QUEUE_LOSS, the
offer of ordinary reports (R179). -/

namespace Sys2Proof.Machine
open Sys2Proof

/-! ## Reports of the register -/

/-- The four subject bytes (R205). -/
def Subject.bytes : Subject → List Byte
  | .rental n => beBytes 4 n
  | .key h => beBytes 4 h
  | .slot s => beBytes 4 s
  | .module c a => beBytes 4 (256 * c.code + a)
  | .chan c => beBytes 4 c.code
  | .none => beBytes 4 0

/-- Detail form and value (R205). Where the detail is absent or UNREADABLE the four bytes of the value are 0 (log 58). -/
def detailBytes : Option Detail → List Byte
  | none => beBytes 1 0 ++ beBytes 4 0
  | some (.unknownTag t) => beBytes 1 1 ++ beBytes 4 t
  | some .unreadable => beBytes 1 2 ++ beBytes 4 0
  | some (.serial n) => beBytes 1 3 ++ beBytes 4 n

/-- The first 13 bytes of ALERT: kind, subject, detail, raised minute. -/
def AlertEntry.head (e : AlertEntry) : List Byte :=
  beBytes 1 e.kind.code ++ e.subject.bytes ++ detailBytes e.detail ++ beBytes 3 e.raised

/-- The count of UNACKED entries. -/
def Alt.unacked (a : Alt) : Nat := (a.entries.filter (fun e => !e.acked)).length

/-- The ALERT report of an entry (R106, R205). -/
def Alt.alertReport (a : Alt) (e : AlertEntry) (f : AlertFlags) : Report :=
  ⟨.alert, broadcast, e.head ++ beBytes 1 (bit e.acked) ++ beBytes 1 f.byte ++ beBytes 1 a.unacked⟩

/-- ALERT_WITHDRAWN (R110) and ALERT_DROPPED (R109). -/
def AlertEntry.withdrawn (e : AlertEntry) (now : Nat) : Report :=
  ⟨.alertWithdrawn, broadcast, e.head ++ beBytes 1 (bit e.acked) ++ beBytes 3 now⟩

def AlertEntry.droppedReport (e : AlertEntry) : Report := ⟨.alertDropped, broadcast, e.head⟩

/-! ## Places -/

/-- The entry of a kind and subject (R103: at most one). -/
def Alt.find (a : Alt) (k : AlertKind) (s : Subject) : Option AlertEntry :=
  a.entries.find? (fun e => e.kind == k && e.subject == s)

/-- A place that holds neither an entry nor a notice is free. -/
def Alt.isFree (a : Alt) (i : Nat) : Bool :=
  !a.entries.any (fun e => e.place == i) && (Table.look a.notices i).isNone

/-- The lowest free place (log 11). -/
def Alt.freePlace (a : Alt) : Option Nat := (List.range Config.alertPlaces).find? a.isFree

/-- The oldest ACKED entry whose place holds no notice (R109). -/
def Alt.displaceable (a : Alt) : Option AlertEntry :=
  a.entries.find? (fun e => e.acked && (Table.look a.notices e.place).isNone)

/-- The entry in a place. -/
def Alt.entryAt (a : Alt) (i : Nat) : Option AlertEntry := a.entries.find? (fun e => e.place == i)

/-- The entry in a place leaves it. -/
def Alt.drop (a : Alt) (i : Nat) : Alt := { a with entries := a.entries.filter (fun e => e.place != i) }

/-- The entry in a place is changed where it stands in the order. -/
def Alt.modify (a : Alt) (i : Nat) (f : AlertEntry → AlertEntry) : Alt :=
  { a with entries := a.entries.map (fun e => if e.place = i then f e else e) }

/-- An entry goes to the youngest end of the order. -/
def Alt.youngest (a : Alt) (e : AlertEntry) : Alt :=
  { a with entries := a.entries.filter (fun x => x.place != e.place) ++ [e] }

/-- Next re-alert of an entry that becomes UNACKED now (R106). -/
def Part.nextAlert (p : Part) : Option Nat := if p.interval = 0 then none else some (p.now + p.interval)

/-! ## Offers -/

/-- An ALERT is offered for the entry in place i (R111). -/
def Part.offerAlert (p : Part) (i : Nat) (f : AlertFlags) : Part :=
  match p.alt.entryAt i with
  | none => p
  | some e =>
    match e.pending with
    | some g => { p with alt := p.alt.modify i (fun e => { e with pending := some (g.join f) }) }
    | none =>
      if p.essRoom then p.enter (p.alt.alertReport e f)
      else { p with alt := p.alt.modify i (fun e => { e with pending := some f }) }.await (.alertPlace i)

/-- A notice (ALERT_WITHDRAWN or ALERT_DROPPED) of place i is offered (R109, R110). -/
def Part.offerNotice (p : Part) (i : Nat) (r : Report) : Part :=
  if p.essRoom then p.enter r
  else { p with alt := { p.alt with notices := Table.put p.alt.notices i r } }.await (.alertPlace i)

/-- A pending ALERT of place i has been given up: the place leaves the waiting order unless it holds a notice. -/
def Part.giveUpAlert (p : Part) (i : Nat) : Part :=
  if (Table.look p.alt.notices i).isSome then p else p.unwait (.alertPlace i)

/-! ## Raise, replace, remove -/

/-- A new entry in place i, its ALERT offered (R106). -/
def Part.register (p : Part) (i : Nat) (k : AlertKind) (s : Subject) (d : Option Detail) : Part :=
  { p with alt := p.alt.youngest ⟨i, k, s, d, p.now, false, p.nextAlert, none⟩ }.offerAlert i ⟨false, false, false⟩

/-- Raise an entry of a kind and subject (R106, R107, R109). -/
def Part.raise (p : Part) (k : AlertKind) (s : Subject) (d : Option Detail) : Part :=
  let p := p.setFlag k.code
  match p.alt.find k s with
  | some e =>
    let e := { e with detail := d.orElse (fun _ => e.detail) }
    if e.acked then
      { p with alt := p.alt.youngest { e with acked := false, raised := p.now, next := p.nextAlert } }.offerAlert e.place
        ⟨false, true, false⟩
    else { p with alt := p.alt.modify e.place (fun _ => e) }
  | none =>
    match p.alt.freePlace with
    | some i => p.register i k s d
    | none =>
      match p.alt.displaceable with
      | some e =>
        let q := { p with alt := p.alt.drop e.place }
        let q := if e.pending.isSome then q.giveUpAlert e.place else q.offerNotice e.place e.droppedReport
        q.register e.place k s d
      | none => p.setFlag flagRegisterFull

/-- Remove an entry on acknowledgement, without ALERT_WITHDRAWN (R112). -/
def Part.removeQuietly (p : Part) (e : AlertEntry) : Part :=
  let q := { p with alt := p.alt.drop e.place }
  if e.pending.isSome then q.giveUpAlert e.place else q

/-- Change the kind of an entry, or raise the new kind when there is none (R108). Where an entry of the new kind stands too,
which no run brings about, the old one goes and that one is raised, so that a kind and subject have one entry (R103). -/
def Part.replaceAlert (p : Part) (old new : AlertKind) (s : Subject) : Part :=
  match p.alt.find old s, p.alt.find new s with
  | none, _ => p.raise new s none
  | some e, some _ => (p.removeQuietly e).raise new s none
  | some e, none =>
    let p := p.setFlag new.code
    let p := if e.pending.isSome then p.giveUpAlert e.place else p
    { p with alt := p.alt.youngest { e with kind := new, acked := false, raised := p.now, next := p.nextAlert, pending := none } }
      |>.offerAlert e.place ⟨false, false, true⟩

/-- Remove the entry of a kind and subject, with ALERT_WITHDRAWN unless its ALERT is still pending (R110). -/
def Part.remove (p : Part) (k : AlertKind) (s : Subject) : Part :=
  match p.alt.find k s with
  | none => p
  | some e =>
    let q := { p with alt := p.alt.drop e.place }
    if e.pending.isSome then q.giveUpAlert e.place else q.offerNotice e.place (e.withdrawn p.now)

/-- Remove every entry whose subject is s (R105), in the order of the alert kinds' codes (log 22). -/
def Part.removeSubject (p : Part) (s : Subject) : Part := alertKinds.foldl (fun q k => q.remove k s) p

/-! ## Re-alerting -/

/-- Next re-alert of an entry re-alerted at a tick that carries minute m (R114). -/
def Part.nextAfter (p : Part) (m : Nat) : Option Nat := if p.interval = 0 then none else some (m + p.interval)

/-- The entry in place i is re-alerted if its next re-alert has come at the tick of minute m (R114). -/
def Part.reAlertPlace (m : Nat) (p : Part) (i : Nat) : Part :=
  match p.alt.entryAt i with
  | none => p
  | some e =>
    if !e.acked && e.next.any (fun n => decide (n ≤ m)) then
      let p := p.setFlag e.kind.code
      { p with alt := p.alt.modify i (fun e => { e with next := p.nextAfter m }) }.offerAlert i ⟨true, false, false⟩
    else p

/-- A tick that carries minute m at the ALT: every entry, oldest first (R114; log 22). -/
def Part.reAlertAll (p : Part) (m : Nat) : Part := (p.alt.entries.map (·.place)).foldl (Part.reAlertPlace m) p

/-- After a TIME_SET no next re-alert stands more than one interval ahead (R114). -/
def Part.clampReAlerts (p : Part) : Part :=
  let top := p.now + p.interval
  { p with alt := { p.alt with
      entries := p.alt.entries.map (fun e => { e with next := e.next.map (fun n => if top < n then top else n) }) } }

/-- The interval in force has gone from old to the present one (R113). -/
def Part.intervalChanged (p : Part) (old : Nat) : Part :=
  if p.interval = 0 then
    { p with alt := { p.alt with entries := p.alt.entries.map (fun e => { e with next := none }) } }
  else if old = 0 then
    { p with alt := { p.alt with
        entries := p.alt.entries.map (fun e => if e.acked then e else { e with next := p.nextAlert }) } }
  else p

/-! ## Ordinary reports -/

/-- An ordinary report enters below 48, or is dropped and counted; the first drop of an episode raises QUEUE_LOSS
(R179). -/
def Part.offerOrd (p : Part) (r : Report) : Part :=
  if p.link.reports.length < Config.ordinaryCap then p.enter r
  else
    let l := p.link
    let q := { p with link := { l with
      counters := { l.counters with reportsDropped := satUp l.counters.reportsDropped }, lossEpisode := true } }
    if l.lossEpisode then q else q.raise .queueLoss .none none

end Sys2Proof.Machine
end

