-- ==== Sys2Proof/Machine/Lamps.lean ====
section
/-! DEFINITION. The Lamp Driver: the lamp of every position (R136, R137), Lamp Images and LAMP commands (R139, R140),
blanking (R141), the lamp test (R142), overrides (R143, R144), and the rows LAMP_TEST_PHASE_EXPIRY, SEND_LAMP and
LAMP_ANSWER's part in the driver. -/

namespace Sys2Proof.Machine
open Sys2Proof

/-! ## The lamp of a position -/

/-- Zone blanking, and blanking from either source (R141). -/
def Part.zoneBlank (p : Part) : Bool := p.policy.blankUnstaffed && p.zone == .unstaffed
def Part.blanked (p : Part) : Bool := p.lmp.blank || p.zoneBlank

/-- The Drop Bin list holds 96 keys (R137). -/
def Part.dropBinFull (p : Part) : Bool := decide (Config.dropCap ≤ p.dropBin.length)

/-- A context in OPENING, OPEN or REMOVED_SETTLING. -/
def CtxState.releasing : CtxState → Bool
  | .opening | .opened | .removedSettling => true
  | _ => false

/-- The tier of the rental of a key in OUT whose home is slot s, if there is such a key. -/
def Part.homeTier (p : Part) (s : Nat) : Option Tier :=
  (p.keys.find? (fun e => e.2.state == .out && e.2.home == some s)).bind (fun e =>
    e.2.rental.bind (fun i => (Table.look p.rentals i).map (·.tier)))

/-- Conditions 4 to 11 of R136, on the records of slot s. -/
def Part.recordLamp (p : Part) (s : Nat) : Lamp :=
  let row := (p.row s).getD SlotRow.fresh
  let occKey := row.occ.bind p.keyOfOcc
  let here := occKey.filter (fun e => e.2.loc == some s)
  if (row.ctx.bind (Table.look p.ctxs)).any (fun c => c.state.releasing) then .lit .green .fast
  else if row.lock == some .jammed then .lit .red .steady
  else if row.occ == some .unread || (row.occ.isSome && row.occ != some .empty && occKey.isNone) then .lit .red .fast
  else if here.any (fun e => e.2.state == .misplaced) then .lit .amber .fast
  else if row.guide.isSome then .lit .green .steady
  else if p.homeTier s == some .escalated then .lit .amber .slow
  else if p.homeTier s == some .overdue then .lit .amber .steady
  else if here.any (fun e => e.2.hold.isSome) then .lit .red .slow
  else .off

/-- The raw value a module's override holds for a position (R143). -/
def Part.rawLamp (p : Part) (c : Chan) (a pos : Nat) : Option Lamp :=
  (Table.look p.lmp.overrides (lampKey c a)).map (fun ls => (ls[pos]?).getD .off)

/-- The lamp of a position (R136, R137); an override stands above blanking, as R141 and R143 say (log 40). -/
def Part.lampOf (p : Part) (c : Chan) (a pos : Nat) : Lamp :=
  match p.lmp.test with
  | some (colour, _) => .lit colour .steady
  | none =>
    match p.slotAt c a pos with
    | none => (p.rawLamp c a pos).getD .off
    | some s =>
      if (p.slotEntry s).kind == .drop then
        (p.rawLamp c a pos).getD (if p.dropBinFull then .lit .red .steady else .lit .green .steady)
      else (p.rawLamp c a pos).getD (if p.blanked then .off else p.recordLamp s)

/-- The eight lamps of a module. -/
def Part.lampsOf (p : Part) (c : Chan) (a : Nat) : List Lamp := (List.range 8).map (p.lampOf c a)

/-! ## Images and LAMP commands -/

/-- The states differ from the image, or the image is unknown (R139). -/
def Part.lampNeeded (p : Part) (c : Chan) (a : Nat) : Bool :=
  Table.look p.lmp.images (lampKey c a) != some (p.lampsOf c a)

def Part.markBehind (p : Part) (k : Nat) : Part :=
  { p with lmp := { p.lmp with behind := p.lmp.behind.filter (fun x => x != k) ++ [k] } }

def Part.clearBehind (p : Part) (k : Nat) : Part :=
  { p with lmp := { p.lmp with behind := p.lmp.behind.filter (fun x => x != k) } }

/-- A LAMP command is offered, or deferred with the module marked behind (R139). -/
def Part.offerLamp (p : Part) (c : Chan) (a : Nat) : Part :=
  if (p.chan c).otherRoom then (p.onChan c (·.push (.lamp a (p.lampsOf c a)))).clearBehind (lampKey c a)
  else p.markBehind (lampKey c a)

/-- The lamps of one module are recomputed (R138, R139); only a module ACTIVE or SILENT on a RUNNING channel is sent
commands (R140). -/
def Part.recompute (p : Part) (k : Nat) : Part :=
  let c := (lampModule k).1
  let a := (lampModule k).2
  if !p.moduleServed c a then p
  else if (p.chan c).queue.any (BusCmd.isLamp a) then
    if p.lampNeeded c a then
      p.onChan c (fun ch => { ch with
        queue := ch.queue.map (fun b => if BusCmd.isLamp a b then .lamp a (p.lampsOf c a) else b) })
    else p.onChan c (·.withdraw (BusCmd.isLamp a))
  else if p.lampNeeded c a then p.offerLamp c a
  else p

/-- The end of every step: the modules touched are recomputed, in ascending number (log 9). -/
def Part.lampRun (p : Part) : Part :=
  (allModules.filter (fun k => p.lmp.touched.contains k)).foldl Part.recompute
    { p with lmp := { p.lmp with touched := [] } }

/-- The deferred LAMP offers of a channel are made again, in ascending module address (R139, R159). A module whose states
no longer differ from the image is offered nothing and its mark is cleared (log 44). -/
def Part.reofferLamps (p : Part) (c : Chan) : Part :=
  ((List.range Config.modules).map (· + 1)).foldl (fun q a =>
    if q.lmp.behind.contains (lampKey c a) then
      if q.moduleServed c a && q.lampNeeded c a then q.offerLamp c a else q.clearBehind (lampKey c a)
    else q) p

/-- The image of a module becomes unknown. -/
def Part.imageUnknown (p : Part) (k : Nat) : Part :=
  { p with lmp := { p.lmp with images := Table.del p.lmp.images k } }

/-- The image of a module takes eight states. -/
def Part.imageTakes (p : Part) (k : Nat) (ls : List Lamp) : Part :=
  { p with lmp := { p.lmp with images := Table.put p.lmp.images k ls } }

/-- The image becomes unknown, the mark behind is cleared and a waiting LAMP command withdrawn (R140). -/
def Part.lampLost (p : Part) (c : Chan) (a : Nat) : Part :=
  ((p.imageUnknown (lampKey c a)).clearBehind (lampKey c a)).onChan c (·.withdraw (BusCmd.isLamp a))

/-- A module becomes ACTIVE, or takes its address anew: its image is unknown and its lamps are recomputed (R140). -/
def Part.lampAnew (p : Part) (c : Chan) (a : Nat) : Part := (p.lampLost c a).touch [lampKey c a]

/-- The modules of a channel that leaves RUNNING (R140). -/
def Part.lampChannelLost (p : Part) (c : Chan) : Part :=
  ((List.range Config.modules).map (· + 1)).foldl (fun q a => q.lampLost c a) p

/-! ## Overrides, blanking and the lamp test -/

/-- The overrides of some modules are cleared and their lamps recomputed (R144). -/
def Part.clearOverrides (p : Part) (ks : List Nat) : Part :=
  { p with lmp := { p.lmp with overrides := p.lmp.overrides.filter (fun e => !ks.contains e.1) } }.touch ks

/-- The eight states of a raw lamp frame, a position that does not decode held OFF (R143; log 39). -/
def rawStates (data : List Byte) : List Lamp :=
  (List.range 8).map (fun i => ((data[i]?).bind lampOfByte).getD .off)

/-- Every position of a raw lamp frame decodes. -/
def rawDecodes (data : List Byte) : Bool := (List.range 8).all (fun i => ((data[i]?).bind lampOfByte).isSome)

/-- A passed raw lamp frame sets the override, and the lamps of its module are recomputed (R138, R143; log 16). -/
def Part.setOverride (p : Part) (c : Chan) (a : Nat) (data : List Byte) : Part :=
  let k := lampKey c a
  ((({ p with lmp := { p.lmp with overrides := Table.put p.lmp.overrides k (rawStates data) } }).clearBehind k).onChan c
    (·.withdraw (BusCmd.isLamp a))).touch [k]

/-- A raw lamp frame is sent on the line (R143). -/
def Part.rawSent (p : Part) (c : Chan) (a : Nat) (data : List Byte) : Part :=
  (if rawDecodes data then p.imageTakes (lampKey c a) (rawStates data) else p.imageUnknown (lampKey c a)).touch
    [lampKey c a]

/-- A LAMP command or raw lamp frame gets no good answer: the image is unknown and the set is offered again (R139). -/
def Part.lampMissed (p : Part) (c : Chan) (a : Nat) : Part := (p.imageUnknown (lampKey c a)).touch [lampKey c a]

/-- A source of blanking may have changed since part before: a change of either source, the blank flag or the zone blanking, has
all lamps recomputed, also where the other source keeps them blanked (R138, R141). -/
def Part.blankingChanged (p before : Part) : Part :=
  if p.lmp.blank = before.lmp.blank ∧ p.zoneBlank = before.zoneBlank then p else p.touch allModules

/-- The lamp test starts, or starts again, in phase RED (R142). -/
def Part.testStart (p : Part) : Part :=
  { p with lmp := { p.lmp with test := some (.red, p.mono + Config.phaseTime) } }.touch allModules

/-- The lamp test ends (R142). -/
def Part.testEnd (p : Part) : Part :=
  if p.lmp.test.isSome then { p with lmp := { p.lmp with test := none } }.touch allModules else p

/-- The phase expiry is reached (R142). -/
def Part.testPhase (p : Part) : Part :=
  match p.lmp.test with
  | none => p
  | some (c, t) =>
    if p.mono < t then p
    else
      let next : Option (Colour × Nat) := match c with
        | .red => some (.amber, p.mono + Config.phaseTime)
        | .amber => some (.green, p.mono + Config.phaseTime)
        | .green => none
      { p with lmp := { p.lmp with test := next } }.touch allModules

/-- LAMP_TEST_PHASE_EXPIRY (R142). -/
def execLampTestPhaseExpiry (s : State) : Host.Outcome State Fault Refusal :=
  .next { s with part := s.part.testPhase.lampRun }

end Sys2Proof.Machine
end

