-- ==== Sys2Proof/Machine/Monitor.lean ====
section
/-! DEFINITION. The Rental Monitor's records: zones (R91, R92), the Due List (R95), tiers and the changes they ask for
(R96 to R99), the creation and freeing of rental records (R62, R94). -/

namespace Sys2Proof.Machine
open Sys2Proof

/-! ## Zone -/

/-- The minute-of-day of the branch clock (R84). -/
def Clock.minuteOfDay (c : Clock) : Nat := (c.minute + c.dayOffset) % 1440

/-- The point with the largest minute-of-day. -/
def latestPoint (zs : List ZonePoint) : Option ZonePoint :=
  zs.foldl (fun a z => match a with
    | none => some z
    | some b => if b.minuteOfDay < z.minuteOfDay then some z else some b) none

/-- The zone the schedule gives (R91). -/
def Part.zoneEval (p : Part) : Zone :=
  if p.clock.set then
    let zs := p.schedule.map (·.2)
    let atOrBelow := zs.filter (fun z => decide (z.minuteOfDay ≤ p.clock.minuteOfDay))
    match latestPoint atOrBelow with
    | some z => z.zone
    | none => ((latestPoint zs).map (·.zone)).getD .staffed
  else .staffed

/-- The zone is evaluated afresh; a change reaches the ALT and the LMP (R91, R92). -/
def Part.zoneRun (p : Part) : Part :=
  if p.zoneEval = p.zone then p
  else
    let q := { p with zone := p.zoneEval }
    (q.intervalChanged p.interval).blankingChanged p

/-! ## Tiers -/

/-- The tier of an OPEN rental with due D and grace G at minute now, by the due-soon window S and the escalation delay
X (R96). -/
def tierOf (S X D G now : Nat) : Tier :=
  if now ≤ D then (if S = 0 ∨ now + S < D then .onTime else .dueSoon)
  else if now ≤ D + G then .grace
  else if now < D + G + X then .overdue
  else .escalated

/-- The tier formula at the present minute and policy. -/
def Part.tierNow (p : Part) (r : Rental) : Tier := tierOf p.policy.dueSoon p.policy.escalation r.due r.grace p.now

/-- A tier that carries an alert. -/
def Tier.alerting : Tier → Bool
  | .overdue | .escalated => true
  | _ => false

/-- What a change of tier asks of the ALT (R98). -/
def Part.tierAlert (p : Part) (number : Nat) (old new : Tier) : Part :=
  let s : Subject := .rental number
  match old, new with
  | .overdue, .escalated => p.replaceAlert .overdue .escalated s
  | .escalated, .overdue => p.replaceAlert .escalated .overdue s
  | .overdue, .overdue => p
  | .escalated, .escalated => p
  | _, .overdue => p.raise .overdue s none
  | _, .escalated => p.raise .escalated s none
  | _, _ => if old.alerting then (p.remove .overdue s).remove .escalated s else p

/-- DUE_SOON (R99). -/
def Part.dueSoonReport (p : Part) (r : Rental) : Report :=
  ⟨.dueSoon, broadcast, beBytes 4 r.number ++ beBytes 2 r.key ++ beBytes 3 r.due ++ beBytes 1 (r.due - p.now)⟩

/-- The home slot of a key. -/
def Part.homeOf (p : Part) (h : Nat) : Option Nat := (Table.look p.keys h).bind (·.home)

/-- A rental's tier goes from old to new: it is written, and R98 and R99 deal with the change. What R98 asks of the ALT comes first, so
ALERT_WITHDRAWN is queued before DUE_SOON where one change brings both (log 22). -/
def Part.tierChange (p : Part) (i : Nat) (r : Rental) (old new : Tier) : Part :=
  let q := { p with rentals := Table.put p.rentals i { r with tier := new } }.touchSlotO (p.homeOf r.key)
  let q := q.tierAlert r.number old new
  if new = .dueSoon ∧ old ≠ .dueSoon then q.offerOrd (q.dueSoonReport r) else q

/-- The tier of one OPEN rental is recomputed (R97). -/
def Part.recomputeTier (p : Part) (i : Nat) : Part :=
  match Table.look p.rentals i with
  | none => p
  | some r =>
    if r.snap.isSome ∨ p.tierNow r = r.tier then p else p.tierChange i r r.tier (p.tierNow r)

/-- Every rental of the Due List, in its order (R97; log 37). -/
def Part.recomputeTiers (p : Part) : Part := p.due.foldl Part.recomputeTier p

/-! ## The Due List and the Rental Table -/

/-- The order of the Due List (R95). -/
def Part.dueBefore (p : Part) (i j : Nat) : Bool :=
  match Table.look p.rentals i, Table.look p.rentals j with
  | some a, some b => decide (a.due < b.due) || (a.due == b.due && decide (a.number < b.number))
  | _, _ => true

/-- A list with i at its place in an order. -/
def insertBy (before : Nat → Nat → Bool) (i : Nat) : List Nat → List Nat
  | [] => [i]
  | j :: r => if before i j then i :: j :: r else j :: insertBy before i r

/-- The record enters the Due List at its place, or moves to it. -/
def Part.dueInsert (p : Part) (i : Nat) : Part :=
  { p with due := insertBy p.dueBefore i (p.due.filter (fun j => j != i)) }

/-- The record leaves the Due List. -/
def Part.dueRemove (p : Part) (i : Nat) : Part := { p with due := p.due.filter (fun j => j != i) }

/-- A record is created in place i (R94). -/
def Part.createRental (p : Part) (i number key out due grace : Nat) (kind : RentalKind) : Part :=
  let r : Rental := ⟨number, key, out, due, grace, .onTime, 0, kind, none⟩
  (({ p with rentals := Table.put p.rentals i r }.touchSlotO (p.homeOf key)).dueInsert i).recomputeTier i

/-- The place of a record becomes free (R62). -/
def Part.freeRental (p : Part) (i : Nat) : Part := { p with rentals := Table.del p.rentals i }

/-- The places that contexts have reserved (R93). -/
def Part.reserved (p : Part) : List Nat := p.ctxs.filterMap (fun e => e.2.reservation)

/-- The lowest place neither in use nor reserved (R93). -/
def Part.freeRentalPlace (p : Part) : Option Nat :=
  (List.range Config.rentalPlaces).find? (fun i => (Table.look p.rentals i).isNone && !p.reserved.contains i)

end Sys2Proof.Machine
end

