-- ==== Sys2Proof/Machine/Release.lean ====
section
/-! DEFINITION. The Release Engine: authorizations (R26 to R33), key choice (R35, R36), release contexts and every
event that reaches one (R42 to R58), the Release Wait Queue (R39, R40). -/

namespace Sys2Proof.Machine
open Sys2Proof

/-! ## Authorizations -/

def Part.auth (p : Part) (n : Nat) : Option Auth := p.auths.find? (fun a => a.rental == n)

def Part.onAuth (p : Part) (n : Nat) (f : Auth → Auth) : Part :=
  { p with auths := p.auths.map (fun a => if a.rental = n then f a else a) }

def Part.delAuth (p : Part) (n : Nat) : Part := { p with auths := p.auths.filter (fun a => a.rental != n) }

/-- The branch minute is above valid until (R32). -/
def Auth.expired (a : Auth) (now : Nat) : Bool := a.validUntil.any (fun v => decide (v < now))

/-- AUTH_EXPIRED: rental number and target, a form byte and two bytes as in AUTH_ADD (R32; log 10). -/
def Auth.expiredReport (a : Auth) : Report :=
  ⟨.authExpired, a.origin, beBytes 4 a.rental ++ (match a.target with
    | .key h => beBytes 1 0 ++ beBytes 2 h
    | .cls c => beBytes 1 1 ++ beBytes 2 c)⟩

/-- An authorization in WAITING or LOCKED_OUT that names key h. -/
def Auth.names (a : Auth) (h : Nat) : Bool := a.state != .active && a.target == .key h

/-- The authorization that names key h is retargeted to the key's class (R33). -/
def Part.retarget (p : Part) (h cls : Nat) : Part :=
  match p.auths.find? (fun a => a.names h) with
  | none => p
  | some a =>
    (p.onAuth a.rental (fun a => { a with target := .cls cls })).offerOrd
      ⟨.authRetargeted, a.origin, beBytes 4 a.rental ++ beBytes 2 h ++ beBytes 1 cls⟩

/-- A key becomes MISSING, with its TAKEN alert; an ASSIGNED key's authorization is retargeted (R11, R13, R50, R128). -/
def Part.keyTaken (p : Part) (h : Nat) (k : KeyRec) : Part :=
  let q := (p.setKey h (k.gone .missing none none)).raise .taken (.key h) none
  if k.state = .assigned then q.retarget h k.cls else q

/-- A named key in ASSIGNED is restored (R30, R32). -/
def Part.restoreTarget (p : Part) (t : Target) : Part :=
  match t with
  | .cls _ => p
  | .key h =>
    match Table.look p.keys h with
    | some k => if k.state = .assigned then p.setKey h k.restored else p
    | none => p

/-! ## The Release Wait Queue -/

/-- RELEASE_FAILED (R39, R53, R205). -/
def failedReport (q : RelReq) (key slot : Option Nat) (r : Result) : Report :=
  let rental := match q.subject with
    | .rental n => n
    | _ => 0
  let tag := match q.subject with
    | .tag t => t
    | _ => 0
  ⟨.releaseFailed, q.origin, beBytes 1 q.tag ++ beBytes 1 q.kind.code ++ beBytes 4 rental ++ beIndex key ++ beSlot slot
    ++ beBytes 4 tag ++ beBytes 1 r.code⟩

/-- A queue entry ends with RELEASE_FAILED, or is marked ENDED until the report enters (R39). The request never started, so the
report gives handle 0xFFFF and slot 0, that of the slot form of SERVICE_RELEASE too (R205; log 13). -/
def Part.endEntry (p : Part) (w : WaitEntry) (r : Result) : Part :=
  let rep := failedReport w.req none none r
  if p.essRoom then { p.enter rep with waitQ := p.waitQ.filter (fun x => x.id != w.id) }
  else
    let q : Part := { p with waitQ := p.waitQ.map (fun x => if x.id = w.id then { x with ended := some rep } else x) }
    q.await (.waitEntry w.id)

/-- The oldest live entry. -/
def Part.liveEntry (p : Part) : Option WaitEntry := p.waitQ.find? (fun w => w.ended.isNone)

/-- The live entry of a rental number. -/
def Part.liveFor (p : Part) (n : Nat) : Option WaitEntry :=
  p.waitQ.find? (fun w => w.ended.isNone && w.req.subject == .rental n)

/-- The request for a rental number in the queue is ended (R30, R32). -/
def Part.endQueued (p : Part) (n : Nat) (r : Result) : Part :=
  match p.liveFor n with
  | some w => p.endEntry w r
  | none => p

/-- Some entry of the queue, ENDED ones included, is for the same subject (R39; log 12). -/
def Part.inQueue (p : Part) (s : RelSubject) : Bool := p.waitQ.any (fun w => w.req.subject == s)

/-! ## Key choice -/

/-- The first condition of R35 that a key fails, for a requesting role. -/
def Part.keyFails (p : Part) (k : KeyRec) (role : Role) : Option Result :=
  let s := k.loc.getD 0
  let e := p.slotEntry s
  let row := (p.row s).getD SlotRow.fresh
  if k.hold.isSome then some .held
  else if row.ctx.isSome || row.settle.isSome then some .slotBusy
  else if !p.moduleActive e.chan e.addr then some .moduleDown
  else if !(p.group e.group).permits p.zone role then some .roleZone
  else none

/-- The key with the earlier in-since, and of equal ones that in the lower slot (R36). -/
def keyBefore (a b : Nat × KeyRec) : Bool :=
  let ta := a.2.inSince.getD 0
  let tb := b.2.inSince.getD 0
  decide (ta < tb) || (ta == tb && decide (a.2.loc.getD 0 < b.2.loc.getD 0))

/-- The best of a list of keys. -/
def bestKey (ks : List (Nat × KeyRec)) : Option (Nat × KeyRec) :=
  ks.foldl (fun b k => match b with
    | none => some k
    | some x => if keyBefore k x then some k else some x) none

/-- The key chosen for a target (R35, R36). -/
def Part.chooseKey (p : Part) (t : Target) (role : Role) : Except Result (Nat × KeyRec) :=
  match t with
  | .key h =>
    match Table.look p.keys h with
    | none => .error .noKey
    | some k =>
      match p.keyFails k role with
      | some r => .error r
      | none => .ok (h, k)
  | .cls c =>
    let ks := p.keys.filter (fun e => e.2.cls == c && (e.2.state == .inn || e.2.state == .misplaced))
    match bestKey (ks.filter (fun e => (p.keyFails e.2 role).isNone)) with
    | some e => .ok e
    | none => if ks.any (fun e => p.keyFails e.2 role == some .roleZone) then .error .roleZone else .error .noKey

/-! ## Checks of a release -/

/-- What a release whose checks pass starts on: slot, key, reservation. -/
abbrev Grant := Nat × Option Nat × Option Nat

/-- Checks 2 and 3 of R37; counting is false when a queued request is checked again (R40). -/
def Part.relAuth (p : Part) (n : Nat) (counting : Bool) : Except Result Auth :=
  match p.auth n with
  | none => .error .notFound
  | some a =>
    match a.state with
    | .active => .error .alreadyActive
    | .lockedOut => .error .lockedOut
    | .waiting => if counting && p.inQueue (.rental n) then .error .alreadyActive else .ok a

/-- Checks 4 to 6 of R37. -/
def Part.relGrant (p : Part) (a : Auth) (role : Role) : Except Result Grant :=
  if p.now < a.validFrom then .error .notYetValid
  else match p.freeRentalPlace with
    | none => .error .noRecordSpace
    | some place =>
      match p.chooseKey a.target role with
      | .error r => .error r
      | .ok (h, k) => .ok (k.loc.getD 0, some h, some place)

/-- Checks of a slot that SERVICE_RELEASE makes in both forms (R41). -/
def Part.serviceSlot (p : Part) (s : Nat) : Option Result :=
  let e := p.slotEntry s
  let row := (p.row s).getD SlotRow.fresh
  if row.ctx.isSome || row.settle.isSome then some .slotBusy
  else if !p.moduleActive e.chan e.addr then some .moduleDown
  else none

/-- Checks 1 to 4 of SERVICE_RELEASE (R41). -/
def Part.serviceGrant (p : Part) (sub : RelSubject) : Except Result Grant :=
  match sub with
  | .rental _ => .error .badArgument
  | .tag t =>
    match p.keyByTag t with
    | none => .error .notFound
    | some (h, k) =>
      match k.state with
      | .assigned | .releasing | .out => .error .inUse
      | .away | .missing | .dropped => .error .notAvailable
      | .inn | .misplaced =>
        match p.serviceSlot (k.loc.getD 0) with
        | some r => .error r
        | none => .ok (k.loc.getD 0, some h, none)
  | .slot s =>
    if (slotArg s).isNone || (p.slotEntry s).kind != .standard then .error .badArgument
    else match p.serviceSlot s with
      | some r => .error r
      | none =>
        let foreign := match p.occOf s with
          | some .unread => true
          | some (.tag t) => (p.keyByTag t).isNone
          | _ => false
        if foreign then .ok (s, none, none) else .error .notForeign

/-- A queued request checked again (R40). -/
def Part.recheck (p : Part) (q : RelReq) : Except Result Grant :=
  match q.subject with
  | .rental n =>
    match p.relAuth n false with
    | .error r => .error r
    | .ok a => p.relGrant a q.role
  | sub => p.serviceGrant sub

/-! ## Contexts -/

/-- The lowest FREE context (log 11). -/
def Part.freeContext (p : Part) : Option Nat := Table.lowestFree p.ctxs Config.contexts

def Part.onCtx (p : Part) (i : Nat) (f : Ctx → Ctx) : Part := { p with ctxs := Table.modify p.ctxs i f }

/-- A context starts on a request whose checks have passed (R43). -/
def Part.startCtx (p : Part) (i : Nat) (q : RelReq) (g : Grant) : Part :=
  let s := g.1
  let e := p.slotEntry s
  let p := match q.subject with
    | .rental n => p.onAuth n (fun a => { a with state := .active })
    | _ => p
  let p := match g.2.1.bind (fun h => (Table.look p.keys h).map (fun k => (h, k))) with
    | some (h, k) => p.setKey h { k with state := .releasing }
    | none => p
  let c : Ctx := ⟨.opening, some s, g.2.1, q, some (p.mono + Config.lockLimit), none, g.2.2, none, none, false, false, 0, none⟩
  (({ p with ctxs := Table.put p.ctxs i c }.onRow s (fun r => { r with ctx := some i })).onChan e.chan
    (·.pushLock (.lockOpen e.addr e.pos i))).touchSlot s

/-- Context i, just freed, takes the oldest live queue entry whose checks pass (R40). -/
def takeQueueFrom : Nat → Nat → Part → Part
  | 0, _, p => p
  | n + 1, i, p =>
    match p.liveEntry with
    | none => p
    | some w =>
      match p.recheck w.req with
      | .ok g => { p with waitQ := p.waitQ.filter (fun x => x.id != w.id) }.startCtx i w.req g
      | .error r => takeQueueFrom n i (p.endEntry w r)

def Part.takeQueue (p : Part) (i : Nat) : Part := takeQueueFrom p.waitQ.length i p

/-- The slot of a context loses its context number. -/
def Part.unbind (p : Part) (i : Nat) (c : Ctx) : Part :=
  match c.slot with
  | some s => (p.onRow s (fun r => if r.ctx = some i then { r with ctx := none } else r)).touchSlot s
  | none => p

/-- A LOCK_CLOSE of context i that still waits, on either channel, is left to no context. -/
def Part.leaveClose (p : Part) (i : Nat) : Part := (p.onChan .A (·.leaveClose i)).onChan .B (·.leaveClose i)

/-- A context is freed and takes the oldest queue entry (R53, R40). A LOCK_CLOSE of its own that still waits, as at the lock limit,
stays in its queue, and its sending counts for no context that takes the number after it (R44, R49). -/
def Part.freeCtx (p : Part) (i : Nat) : Part :=
  match Table.look p.ctxs i with
  | none => p
  | some c =>
    (({ p with ctxs := Table.del p.ctxs i }.unbind i c).leaveClose i).takeQueue i

/-- The final report of a context (R53). -/
def Ctx.report (c : Ctx) : Report :=
  let rental := match c.req.subject with
    | .rental n => n
    | _ => 0
  match c.result with
  | some .released => done rental .released
  | some .lateTake => done rental .lateTake
  | some r => failedReport c.req c.key c.slot r.result
  | none => failedReport c.req c.key c.slot .lockFault
where
  done (rental : Nat) (r : Result) : Report :=
    ⟨.releaseDone, c.req.origin, beBytes 1 c.req.tag ++ beBytes 1 c.req.kind.code ++ beBytes 4 rental ++ beIndex c.key
      ++ beSlot c.slot ++ beIndex c.rental ++ beBytes 3 c.out ++ beBytes 1 r.code ++ beBytes 1 (bit c.closeFault)⟩

/-- A context goes to its final report: it is freed, or waits in DONE_PENDING (R53). -/
def Part.ctxFinal (p : Part) (i : Nat) : Part :=
  match Table.look p.ctxs i with
  | none => p
  | some c =>
    if p.essRoom then (p.enter c.report).freeCtx i
    else (p.onCtx i (fun c => { c with state := .donePending, lockLimit := none, window := none, held := some c.report })).await
      (.context i) |>.touchSlotO c.slot

/-- Whether the authorization of a request, back in WAITING, names key h (R27). -/
def Part.claims (p : Part) (q : RelReq) (h : Nat) : Bool :=
  match q.subject with
  | .rental n => (p.auth n).any (fun a => a.names h)
  | _ => false

/-- The key of a context is returned from RELEASING (R27). -/
def Part.returnKey (p : Part) (c : Ctx) : Part :=
  match c.key.bind (fun h => (Table.look p.keys h).map (fun k => (h, k))) with
  | none => p
  | some (h, k) =>
    if k.state ≠ .releasing then p
    else p.setKey h (if p.claims c.req h then { k with state := .assigned } else k.restored)

/-- The authorization of a request goes from ACTIVE to WAITING, or is removed when it has expired (R54). -/
def Part.authBack (p : Part) (q : RelReq) : Part :=
  match q.subject with
  | .rental n =>
    match p.auth n with
    | some a =>
      if a.state ≠ .active then p
      else if a.expired p.now then (p.delAuth n).offerOrd a.expiredReport
      else p.onAuth n (fun a => { a with state := .waiting })
    | none => p
  | _ => p

/-- A context asks for LOCK_CLOSE and goes to CLOSING with a new lock limit (R45, R46, R48, R51, R55, R56). -/
def Part.beginClose (p : Part) (i : Nat) (c : Ctx) : Part :=
  let s := c.slot.getD 0
  let e := p.slotEntry s
  ((p.onChan e.chan (·.pushClose i e.addr e.pos)).onCtx i (fun c =>
    { c with state := .closing, lockLimit := some (p.mono + Config.lockLimit), window := none, lockSent := false })).touchSlot s

/-- A context's result. -/
def Part.setResult (p : Part) (i : Nat) (r : CtxResult) : Part := p.onCtx i (fun c => { c with result := some r })

/-- A context gives up its release without a rental: authorization, key, LOCK_CLOSE (R45, R46, R55). -/
def Part.giveUp (p : Part) (i : Nat) (c : Ctx) (r : CtxResult) : Part :=
  (((p.setResult i r).authBack c.req).returnKey c).beginClose i c

/-- The row's lock is marked JAMMED and LOCK_JAM is raised (R45, R49, R165). -/
def Part.markJam (p : Part) (s : Nat) : Part :=
  ((p.onRow s (fun r => { r with lock := some .jammed })).touchSlot s).raise .lockJam (.slot s) none

/-- A release fails at the lock (R45). -/
def Part.ctxFault (p : Part) (i : Nat) (c : Ctx) : Part := (p.markJam (c.slot.getD 0)).giveUp i c .lockFault

/-- A close fails (R49). -/
def Part.closeFail (p : Part) (i : Nat) (c : Ctx) : Part :=
  ((p.markJam (c.slot.getD 0)).onCtx i (fun c =>
    match c.result with
    | some .released => { c with closeFault := true }
    | some .lateTake => { c with closeFault := true }
    | some .notTaken => { c with result := some .lockFault }
    | some .cancelled => { c with result := some .lockFault }
    | _ => c)).ctxFinal i

/-- A context enters OPEN, its window starting now (R44). -/
def Part.openWindow (p : Part) (i : Nat) : Part :=
  p.onCtx i (fun c => { c with state := .opened, lockLimit := none, window := some (p.mono + 1000 * p.policy.removalWindow) })

/-- A lock state handed to a context (R44, R45, R49, R52). -/
def Part.ctxLock (p : Part) (i : Nat) (l : LockState) : Part :=
  match Table.look p.ctxs i with
  | none => p
  | some c =>
    match c.state, l with
    | .opening, .opened => (p.openWindow i).touchSlotO c.slot
    | .opening, .jammed => p.ctxFault i c
    | .opened, .jammed => p.raise .lockJam (.slot (c.slot.getD 0)) none
    | .removedSettling, .jammed => p.raise .lockJam (.slot (c.slot.getD 0)) none
    | .closing, .locked => (p.onCtx i (fun c => { c with lockLimit := none })).ctxFinal i
    | .closing, .jammed => p.closeFail i c
    | _, _ => p

/-- The window of a context in OPEN has expired (R46). -/
def Part.windowExpire (p : Part) (i : Nat) : Part :=
  match Table.look p.ctxs i with
  | none => p
  | some c => if c.state = .opened ∧ c.window.any (fun t => decide (t ≤ p.mono)) then p.giveUp i c .notTaken else p

/-- A settle toward EMPTY starts on a context's slot (R44, R47). -/
def Part.ctxSettleStart (p : Part) (i : Nat) : Part :=
  match Table.look p.ctxs i with
  | none => p
  | some c =>
    match c.state with
    | .opening => ((p.openWindow i).onCtx i (fun c => { c with state := .removedSettling })).touchSlotO c.slot
    | .opened => (p.onCtx i (fun c => { c with state := .removedSettling })).touchSlotO c.slot
    | _ => p

/-- A settle toward EMPTY is cancelled on a context's slot (R47). -/
def Part.ctxSettleCancel (p : Part) (i : Nat) : Part :=
  match Table.look p.ctxs i with
  | none => p
  | some c =>
    match c.state with
    | .removedSettling => ((p.onCtx i (fun c => { c with state := .opened })).touchSlotO c.slot).windowExpire i
    | _ => p

/-! ## Removals at a context's slot -/

/-- The release completes: record, key OUT, authorization removed (R48); late is the late take of R50, which asks for no
LOCK_CLOSE again (log 18). The context's key and the handle of its report become the key taken, at a late take also where it is not
the key released (log 51). -/
def Part.relComplete (p : Part) (i : Nat) (c : Ctx) (h : Nat) (k : KeyRec) (a : Auth) (m : Nat) (late : Bool) : Part :=
  let place := c.reservation.getD 0
  let p := p.onCtx i (fun c => { c with
    reservation := none, rental := some place, out := m, key := some h
    result := some (if late then .lateTake else .released) })
  let p := (p.delAuth a.rental).setKey h (k.gone .out (some place) none)
  let p := p.createRental place a.rental h m a.due (a.grace.getD p.policy.graceDefault)
    (if c.req.kind = .pickup then .kiosk else .counter)
  if late then p else p.beginClose i c

/-- A key goes AWAY with cause SERVICE; the authorization of an ASSIGNED one is retargeted (R51; log 17). -/
def Part.keyService (p : Part) (h : Nat) (k : KeyRec) : Part :=
  let q := p.setKey h (k.gone .away none (some .service))
  if k.state = .assigned then q.retarget h k.cls else q

/-- The removal is no release: a located key is TAKEN, any other occupant's FOREIGN alert is removed (R50). -/
def Part.removalPlain (p : Part) (s : Nat) (k : Option (Nat × KeyRec)) : Part :=
  match k with
  | some (h, r) => p.keyTaken h r
  | none => p.remove .foreign (.slot s)

/-- The late take of a RELEASE or PICKUP is sanctioned by authorization a for key h (R50). -/
def lateOk (a : Auth) (h : Nat) (k : KeyRec) : Bool :=
  a.state == .waiting && (a.target == .key h || a.target == .cls k.cls)
    && (k.state != .assigned || a.target == .key h)

/-- A KEY_LEFT at the slot of context i, with the old occupancy and the first-seen minute (R48, R50, R51; log 17,
log 18). The authorization a context carries is known by its rental number, so one deleted and added again under that number
counts as the one it carried (log 50). -/
def Part.ctxKeyLeft (p : Part) (i s : Nat) (old : Occ) (m : Nat) : Part :=
  match Table.look p.ctxs i with
  | none => p
  | some c =>
    let located := (p.keyOfOcc old).filter (fun e => e.2.loc == some s)
    let own := located.filter (fun e => c.key == some e.1)
    if c.state.releasing then
      match c.req.subject with
      | .rental n =>
        match own, p.auth n with
        | some (h, k), some a => p.relComplete i c h k a m false
        | _, _ => p.removalPlain s located
      | .tag _ =>
        match own with
        | some (h, k) => ((p.keyService h k).setResult i .released).beginClose i c
        | none => p.removalPlain s located
      | .slot _ =>
        let p := p.remove .foreign (.slot s)
        let p := match located with
          | some (h, k) => p.keyService h k
          | none => p
        (p.setResult i .released).beginClose i c
    else if c.state = .closing ∧ c.result = some .notTaken then
      match c.req.subject with
      | .rental n =>
        match located, p.auth n with
        | some (h, k), some a =>
          if lateOk a h k then p.relComplete i c h k a m true else p.removalPlain s located
        | _, _ => p.removalPlain s located
      | .tag _ =>
        match own with
        | some (h, k) =>
          if k.state = .inn ∨ k.state = .misplaced then ((p.keyService h k).setResult i .lateTake).beginClose i c
          else p.removalPlain s located
        | none => p.removalPlain s located
      | .slot _ => (p.remove .foreign (.slot s)).removalPlain s located
    else match c.req.subject, c.state with
      | .slot _, .closing => (p.remove .foreign (.slot s)).removalPlain s located
      | _, _ => p.removalPlain s located

/-! ## Relocation, loss and restart -/

/-- The context that refers to key h in RELEASING (R42: exactly one). -/
def Part.ctxOfKey (p : Part) (h : Nat) : Option (Nat × Ctx) :=
  p.ctxs.find? (fun e => e.2.key == some h && e.2.state.releasing)

/-- The REL ends the context of a key seen elsewhere, but for the key itself (R56 steps 1, 2 and 4). -/
def Part.endForRelocation (p : Part) (i : Nat) (c : Ctx) : Part :=
  let r : CtxResult := if ((c.slot.bind p.row).bind (·.lock)) = some .opened then .lockFault else .notTaken
  ((p.setResult i r).authBack c.req).beginClose i c

/-- A context loses its slot and goes straight to its final report, which names the slot it had (R57, R58). -/
def Part.ctxFinalUnbound (p : Part) (i : Nat) : Part :=
  match Table.look p.ctxs i with
  | none => p
  | some c =>
    let q := p.unbind i c
    if q.essRoom then ((q.enter c.report).onCtx i (fun c => { c with slot := none })).freeCtx i
    else (q.onCtx i (fun d => { d with
      state := .donePending, slot := none, lockLimit := none, window := none, held := some c.report })).await (.context i)

/-- A context ends with result r by the loss of its channel or module or by RESTART LOGIC (R57, R58; log 30). -/
def Part.ctxEnd (p : Part) (i : Nat) (r : CtxResult) : Part :=
  match Table.look p.ctxs i with
  | none => p
  | some c =>
    match c.state with
    | .donePending => (p.unbind i c).onCtx i (fun c => { c with slot := none })
    | .closing =>
      if c.result = some .released ∨ c.result = some .lateTake then p.ctxFinalUnbound i
      else (p.setResult i r).ctxFinalUnbound i
    | _ => (((p.setResult i r).authBack c.req).returnKey c).ctxFinalUnbound i

/-- The contexts bound to some slots, in ascending number, each while it is so bound. -/
def Part.ctxsLost (p : Part) (slots : List Nat) : Part :=
  (List.range Config.contexts).foldl (fun q i =>
    if ((Table.look q.ctxs i).bind (·.slot)).any (fun s => slots.contains s) then q.ctxEnd i .channelReset else q) p

/-- Each live entry of the Release Wait Queue ends with reason RESTART, in queue order (R58). -/
def Part.endAllEntries (p : Part) : Part :=
  (p.waitQ.filter (fun w => w.ended.isNone)).foldl (fun q w => q.endEntry w .restart) p

/-- The REL's part of RESTART LOGIC: queue entries first, then contexts (R58). -/
def Part.relRestart (p : Part) : Part := (List.range Config.contexts).foldl (fun q i => q.ctxEnd i .restart) p.endAllEntries

/-! ## Expiry -/

/-- At a tick that carries minute m an authorization past its valid until is removed unless it is ACTIVE (R32). -/
def Part.authExpire (m : Nat) (p : Part) (n : Nat) : Part :=
  match p.auth n with
  | none => p
  | some a =>
    if a.state = .active ∨ ¬ a.expired m then p
    else ((((p.delAuth n).restoreTarget a.target).remove .lockout (.rental n)).endQueued n .expired).offerOrd a.expiredReport

/-- A tick that carries minute m at the REL: every authorization that has expired (R32; log 22). -/
def Part.authExpireAll (p : Part) (m : Nat) : Part := (p.auths.map (·.rental)).foldl (Part.authExpire m) p

/-! ## Rows of the contexts' own timers -/

/-- LOCK_LIMIT_OPENING (R45). -/
def Part.lockLimitOpening (p : Part) (i : Nat) : Part :=
  match Table.look p.ctxs i with
  | none => p
  | some c => if c.state = .opening ∧ c.lockLimit.any (fun t => decide (t ≤ p.mono)) then p.ctxFault i c else p

/-- LOCK_LIMIT_CLOSING (R49). -/
def Part.lockLimitClosing (p : Part) (i : Nat) : Part :=
  match Table.look p.ctxs i with
  | none => p
  | some c => if c.state = .closing ∧ c.lockLimit.any (fun t => decide (t ≤ p.mono)) then p.closeFail i c else p

def execLockLimitOpening (context : Nat) (s : State) : Host.Outcome State Fault Refusal :=
  .next { s with part := (s.part.lockLimitOpening context).lampRun }

def execLockLimitClosing (context : Nat) (s : State) : Host.Outcome State Fault Refusal :=
  .next { s with part := (s.part.lockLimitClosing context).lampRun }

/-- REMOVAL_WINDOW_EXPIRY (R46). -/
def execRemovalWindowExpiry (context : Nat) (s : State) : Host.Outcome State Fault Refusal :=
  .next { s with part := (s.part.windowExpire context).lampRun }

end Sys2Proof.Machine
end

