-- ==== Sys2Proof/Machine/Returns.lean ====
section
/-! DEFINITION. The late assessment (R77 to R82); the Return Engine: returns, keys come back, relocations, foreign
occupants, the drop chute (R60 to R75); and the Key Directory's dispatch of slot events (R9 to R13). -/

namespace Sys2Proof.Machine
open Sys2Proof

/-! ## The late assessment -/

/-- A quotient rounded up (R77). -/
def ceilDiv (a n : Nat) : Nat := (a + n - 1) / n

/-- The class of a return at T of a rental due at D with grace G (R78). -/
def lateClass (D G T : Nat) : RetClass :=
  if T < D then .early else if T = D then .onTime else if T - D ≤ G then .inGrace else .late

/-- Late minutes M (R79). -/
def lateMinutes (D G T : Nat) : Nat := if lateClass D G T = .late then T - D else 0

/-- Late days and late blocks of M late minutes after the cap (R79, R80). -/
def cappedParts (M L C : Nat) : Nat × Nat :=
  let d0 := M / 1440
  let b0 := ceilDiv (M - 1440 * d0) L
  if C ≤ b0 then (d0 + 1, 0) else (d0, b0)

/-- Late days and late blocks after saturation, and whether they were saturated (R81). -/
def lateParts (M L C : Nat) : Nat × Nat × Bool :=
  let x := cappedParts M L C
  if 255 < x.1 then (255, 0, true) else (x.1, x.2, false)

/-- Days in use of a rental taken out at O and back at T, and whether they were saturated (R82). -/
def daysInUse (O G T : Nat) : Nat × Bool :=
  let E := T - O
  let u := max 1 (ceilDiv (E - G) 1440)
  if 255 < u then (255, true) else (u, false)

/-- QUICK (R63). -/
def quickReturn (O T : Nat) : Bool := decide (O ≤ T ∧ T - O ≤ 3)

/-- The return snapshot of a rental (R61, R77), with the flags the event sets. -/
def Rental.assess (r : Rental) (T L C : Nat) (place : Option Nat) (after : KeyState) (late manual overflow : Bool) : Snapshot :=
  let M := lateMinutes r.due r.grace T
  let parts := lateParts M L C
  let days := daysInUse r.out r.grace T
  { ret := T, place := place, cls := lateClass r.due r.grace T, lateMinutes := M, lateDays := parts.1,
    lateBlocks := parts.2.1, daysInUse := days.1, keyAfter := after,
    flags := ⟨quickReturn r.out T, late, manual, parts.2.2 || days.2, decide (T < r.out), overflow⟩ }

/-! ## Closing a rental -/

/-- RETURN (R62, R205). -/
def Part.returnReport (p : Part) (i : Nat) (r : Rental) (x : Snapshot) : Report :=
  let tag := ((Table.look p.keys r.key).map (·.tag)).getD 0
  ⟨.ret, broadcast, beBytes 4 r.number ++ beBytes 2 i ++ beBytes 2 r.key ++ beBytes 4 tag ++ beBytes 3 r.out
    ++ beBytes 3 r.due ++ beBytes 1 r.grace ++ beBytes 3 x.ret ++ beSlot x.place ++ beBytes 1 x.cls.code
    ++ beBytes 3 x.lateMinutes ++ beBytes 1 x.lateDays ++ beBytes 1 x.lateBlocks ++ beBytes 1 x.daysInUse
    ++ beBytes 1 x.keyAfter.code ++ beBytes 1 x.flags.byte⟩

/-- RETURN is offered: the record is freed as it enters, or waits in CLOSED_PENDING (R62). -/
def Part.offerReturn (p : Part) (i : Nat) (r : Rental) (x : Snapshot) : Part :=
  if p.essRoom then (p.enter (p.returnReport i r x)).freeRental i else p.await (.rental i)

/-- An OPEN rental is closed with its snapshot: steps 3 to 5 of R60. -/
def Part.closeRental (p : Part) (i : Nat) (r : Rental) (x : Snapshot) : Part :=
  let q := { p with rentals := Table.put p.rentals i { r with snap := some x } }.touchSlotO (p.homeOf r.key)
  let q := ((q.dueRemove i).remove .overdue (.rental r.number)).remove .escalated (.rental r.number)
  q.offerReturn i r x

/-- The rental of a key in OUT. -/
def Part.rentalOf (p : Part) (k : KeyRec) : Option (Nat × Rental) :=
  k.rental.bind (fun i => (Table.look p.rentals i).map (fun r => (i, r)))

/-- A key in OUT comes back to slot s at minute T (R60, R63). -/
def Part.returnToSlot (p : Part) (h : Nat) (k : KeyRec) (s T : Nat) (late : Bool) : Part :=
  let q := p.setKey h (k.placed s T)
  match p.rentalOf k with
  | none => q
  | some (i, r) =>
    q.closeRental i r (r.assess T p.policy.blockLen p.policy.blocksCap (some s) (k.stateAt s) late false false)

/-! ## Other keys come back to a slot -/

/-- KEY_BACK: handle, slot, cause (R64, R66). -/
def keyBackReport (h s cause : Nat) : Report := ⟨.keyBack, broadcast, beBytes 2 h ++ beBytes 2 s ++ beBytes 1 cause⟩

/-- RELOCATED: handle, old slot, new slot (R67). -/
def relocatedReport (h old new : Nat) : Report := ⟨.relocated, broadcast, beBytes 2 h ++ beBytes 2 old ++ beBytes 2 new⟩

/-- The DROP_FULL entries of the drop positions are removed when the list holds fewer than 96 keys (R75). -/
def Part.dropRoom (p : Part) : Part :=
  if p.dropBin.length < Config.dropCap then
    (p.dropSlots.foldl (fun q s => q.remove .dropFull (.slot s)) p).touch (p.dropSlots.map (fun s =>
      lampKey (p.slotEntry s).chan (p.slotEntry s).addr))
  else p

/-- A key leaves the Drop Bin list from wherever it stands (R72, R75). DROP_FULL is withdrawn here, before a KEY_BACK of the key
(R66; log 45). -/
def Part.dropOut (p : Part) (h : Nat) : Part :=
  { p with dropBin := p.dropBin.filter (fun e => e.key != h) }.dropRoom

/-- A key in RELEASING at another slot is placed at slot s, its context ended (R68 steps 1 and 2). -/
def Part.relocateReleasing (p : Part) (h : Nat) (k : KeyRec) (s m : Nat) : Part :=
  match p.ctxOfKey h with
  | none => p.setKey h (k.placed s m)
  | some (i, c) =>
    let q := p.endForRelocation i c
    q.setKey h (if q.claims c.req h then k.placedAs .assigned s m else k.placed s m)

/-- A located key is moved to slot s (R67, R68). -/
def Part.relocate (p : Part) (h : Nat) (k : KeyRec) (s m : Nat) : Part :=
  match k.state with
  | .releasing => p.relocateReleasing h k s m
  | .assigned => p.setKey h (k.placedAs .assigned s m)
  | _ => p.setKey h (k.placed s m)

/-- A foreign occupant of slot s (R69). -/
def Part.foreign (p : Part) (s : Nat) (o : Occ) : Part :=
  p.raise .foreign (.slot s) (some (match o with
    | .tag t => .unknownTag t
    | _ => .unreadable))

/-! ## Slot events at the Key Directory -/

/-- KEY_ARRIVED, or a sighting dispatched as one: slot, occupancy, minute; late is a late-sighting return (R12). -/
def Part.keyArrived (p : Part) (s : Nat) (o : Occ) (m : Nat) (late : Bool) : Part :=
  match p.keyOfOcc o with
  | none => p.foreign s o
  | some (h, k) =>
    match k.state with
    | .out => p.returnToSlot h k s m late
    | .away => (p.setKey h (k.placed s m)).offerOrd (keyBackReport h s ((k.away.map AwayCause.code).getD 255))
    | .missing =>
      ((p.setKey h (k.placed s m)).remove .taken (.key h)).offerOrd
        ⟨.keyFound, broadcast, beBytes 2 h ++ beBytes 2 s⟩
    | .dropped => ((p.dropOut h).setKey h (k.placed s m)).offerOrd (keyBackReport h s 4)
    | _ =>
      if k.loc = some s then p
      else (p.relocate h k s m).offerOrd (relocatedReport h (k.loc.getD 0) s)

/-- KEY_LEFT: slot, old occupancy, first-seen minute (R10, R11). -/
def Part.keyLeft (p : Part) (s : Nat) (old : Occ) (m : Nat) : Part :=
  match (p.row s).bind (·.ctx) with
  | some i => p.ctxKeyLeft i s old m
  | none =>
    match p.keyOfOcc old with
    | none => p.remove .foreign (.slot s)
    | some (h, k) => if k.loc = some s then p.keyTaken h k else p

/-- A sighting: slot, occupancy, minute (R13). -/
def Part.sighting (p : Part) (s : Nat) (v : Occ) (m : Nat) : Part :=
  let q := match p.keyAt s with
    | some (h, k) => if v = Occ.tag k.tag then p else p.keyTaken h k
    | none => p
  match v with
  | .empty => q.remove .foreign (.slot s)
  | _ => q.keyArrived s v m true

/-! ## The drop chute -/

/-- A filter entry is live (R71). -/
def filterLive (mono : Nat) (e : Nat × Nat) : Bool := decide (mono < e.2 + Config.filterLife)

/-- A filter without its entry of the earliest time; of several that share it the first of the list goes (R71; log 57). -/
def dropEarliest (es : List (Nat × Nat)) : List (Nat × Nat) :=
  match es.foldl (fun b e => match b with
    | none => some e
    | some x => if e.2 < x.2 then some e else some x) none with
  | some x => es.erase x
  | none => []

/-- A key is appended to the Drop Bin list; the append that brings it to 96 raises DROP_FULL (R72, R75). -/
def Part.dropAppend (p : Part) (h s m : Nat) : Part :=
  let q := { p with dropBin := p.dropBin ++ [⟨h, s, m⟩] }
  if q.dropBin.length = Config.dropCap then
    (q.raise .dropFull (.slot s) none).touch (p.dropSlots.map (fun s =>
      lampKey (p.slotEntry s).chan (p.slotEntry s).addr))
  else q

/-- A key goes into the bin: DROPPED and appended, or AWAY with cause DROP_OVERFLOW when the list is full (R73 to
R75). DROP_FULL is raised here, before the other effects of the read (log 45). -/
def Part.intoBin (p : Part) (h : Nat) (k : KeyRec) (s m : Nat) : Part :=
  if p.dropBinFull then (p.setKey h (k.gone .away none (some .dropOverflow))).raise .dropFull (.slot s) none
  else (p.setKey h (k.gone .dropped none none)).dropAppend h s m

/-- DROP_UNEXPECTED: handle, drop slot, state, flags with DROP_OVERFLOW in bit 0 (R74, R75; log 10). -/
def dropUnexpectedReport (h s : Nat) (st : KeyState) (overflow : Bool) : Report :=
  ⟨.dropUnexpected, broadcast, beBytes 2 h ++ beBytes 2 s ++ beBytes 1 st.code ++ beBytes 1 (bit overflow)⟩

/-- An accepted drop read of a key not in OUT (R74, R75); one of a key already DROPPED raises DROP_FULL too when it finds
the list full (log 19). The append comes before the retargeting in every state, and DROP_UNEXPECTED after AUTH_RETARGETED
(log 45). -/
def Part.dropUnexpected (p : Part) (h : Nat) (k : KeyRec) (s m : Nat) : Part :=
  let q := match k.state with
    | .dropped => if p.dropBinFull then p.raise .dropFull (.slot s) none else p
    | .missing => (p.remove .taken (.key h)).intoBin h k s m
    | .assigned => (p.intoBin h k s m).retarget h k.cls
    | .releasing =>
      match p.ctxOfKey h with
      | some (i, c) => ((p.endForRelocation i c).intoBin h k s m).retarget h k.cls
      | none => (p.intoBin h k s m).retarget h k.cls
    | _ => p.intoBin h k s m
  q.offerOrd (dropUnexpectedReport h s k.state (k.state != .dropped && p.dropBinFull))

/-- A drop return (R73, R75). -/
def Part.dropReturn (p : Part) (h : Nat) (k : KeyRec) (s T : Nat) : Part :=
  let full := p.dropBinFull
  let q := p.intoBin h k s T
  match p.rentalOf k with
  | none => q
  | some (i, r) =>
    q.closeRental i r (r.assess T p.policy.blockLen p.policy.blocksCap (some s) (if full then .away else .dropped)
      false false full)

/-- An accepted drop read (R73, R74). -/
def Part.dropAccepted (p : Part) (s t m : Nat) : Part :=
  match p.keyByTag t with
  | none => p.foreign s (.tag t)
  | some (h, k) => if k.state = .out then p.dropReturn h k s m else p.dropUnexpected h k s m

/-- A drop read at drop slot s, put to the duplicate filter first (R70, R71). -/
def Part.dropRead (p : Part) (s t : Nat) : Part :=
  let live := ((Table.look p.filters s).getD []).filter (filterLive p.mono)
  if live.any (fun e => e.1 == t) then
    { p with
      filters := Table.put p.filters s (live.map (fun e => if e.1 = t then (t, p.mono) else e))
      dupCounts := Table.put p.dupCounts s (satUp ((Table.look p.dupCounts s).getD 0)) }
  else
    let kept := if live.length < Config.filterCap then live else dropEarliest live
    { p with filters := Table.put p.filters s (kept ++ [(t, p.mono)]) }.dropAccepted s t p.now

end Sys2Proof.Machine
end

