-- ==== Sys2Proof/Machine/Census.lean ====
section
/-! DEFINITION. The Census Engine: the sweep (R122 to R124), the comparison (R125 to R129), the Mismatch List (R130),
the end of a census (R131), lost channels (R132), the restart (R133) and the schedule (R121). -/

namespace Sys2Proof.Machine
open Sys2Proof

/-! ## The record -/

def Part.onCen (p : Part) (f : Cen → Cen) : Part := { p with cen := f p.cen }

def CenCounts.zero : CenCounts := ⟨0, 0, 0, 0, 0, 0, 0⟩

/-- One of the seven counts goes up. -/
def Part.cenCount (p : Part) (f : CenCounts → CenCounts) : Part := p.onCen (fun c => { c with counts := f c.counts })

/-- A mismatch is recorded (R130). -/
def Part.mismatch (p : Part) (m : Mismatch) : Part :=
  p.onCen (fun c =>
    let n := { c.counts with recorded := satUp c.counts.recorded }
    if c.list.length < Config.mismatchCap then { c with counts := n, list := c.list ++ [m] }
    else { c with counts := { n with lost := satUp n.lost } })

/-- The keys located at some slots are listed UNVERIFIED, in ascending order of slot (R123). -/
def Part.unverified (p : Part) (slots : List Nat) : Part :=
  slots.foldl (fun q s => match q.keyAt s with
    | some (h, _) => q.mismatch ⟨.unverified, s, some h, none, none, none⟩
    | none => q) p

/-- A module not ACTIVE is dealt with (R123). -/
def Part.moduleUnverified (p : Part) (c : Chan) (a : Nat) : Part :=
  (p.unverified (p.moduleSlots c a)).cenCount (fun n => { n with unverified := satUp n.unverified })

/-! ## The end -/

def CenCause.code : CenCause → Nat
  | .request _ => 0 | .schedule => 1

def CenCause.origin : CenCause → Nat
  | .request t => t
  | .schedule => 0

def Scope.code : Scope → Nat
  | .A => 0 | .B => 1 | .both => 2

def Outcome.code : Outcome → Nat
  | .complete => 0 | .aborted => 1

def CenCounts.bytes (n : CenCounts) : List Byte :=
  beBytes 2 n.read ++ beBytes 2 n.unverified ++ beBytes 2 n.compared ++ beBytes 2 n.consistent
    ++ beBytes 2 n.busySkipped ++ beBytes 2 n.recorded ++ beBytes 2 n.lost

/-- The mismatch kinds in the order of R130. -/
def misKinds : List MisKind := [.relocated, .outKeyPresent, .foreign, .missing, .readDiffers, .unverified]

/-- CENSUS_DONE (R131), with no presence byte, and origin 0 when the cause is SCHEDULE (log 10). -/
def Cen.doneReport (c : Cen) : Report :=
  ⟨.censusDone, broadcast, beName (c.cause.map CenCause.code) ++ beBytes 1 ((c.cause.map CenCause.origin).getD 0)
    ++ beName (c.scope.map Scope.code) ++ beBytes 3 (c.startMin.getD 0) ++ beBytes 3 (c.endMin.getD 0)
    ++ beName (c.outcome.map Outcome.code) ++ beBytes 1 (bit c.lostA + 2 * bit c.lostB) ++ c.counts.bytes
    ++ misKinds.flatMap (fun k => beBytes 1 (c.list.filter (fun m => m.kind == k)).length)⟩

/-- A census ends, its state becoming st. CENSUS_DONE is queued before the ALERT, in the order of the list of R131 (log 22). -/
def Part.cenEnd (p : Part) (o : Outcome) (st : CenState) : Part :=
  let q := p.onCen (fun c => { c with state := st, outcome := some o, endMin := some p.now, pos := none, deferred := false })
  let q := q.offerOrd q.cen.doneReport
  if 0 < q.cen.counts.recorded then q.raise .censusMismatch .none none
  else if o = .complete then q.remove .censusMismatch .none
  else q

/-! ## The sweep -/

/-- Module addresses 1 to 30 of a channel. -/
def chanSweep (c : Chan) : List (Chan × Nat) := (List.range Config.modules).map (fun i => (c, i + 1))

/-- The addresses of a scope, in the order of the sweep (R123). -/
def scopeSweep : Scope → List (Chan × Nat)
  | .A => chanSweep .A
  | .B => chanSweep .B
  | .both => chanSweep .A ++ chanSweep .B

/-- READ_TAGS is offered, or deferred when the queue has no place (R124). -/
def Part.offerRead (p : Part) (c : Chan) (a : Nat) : Part :=
  if (p.chan c).otherRoom then (p.onChan c (·.push (.readTags a))).onCen (fun n => { n with deferred := false })
  else p.onCen (fun n => { n with deferred := true })

/-- The deferred READ_TAGS offer of a channel is made again (R124, R159). -/
def Part.reofferRead (p : Part) (c : Chan) : Part :=
  match p.cen.pos with
  | some (d, a) => if p.cen.deferred && d == c then p.offerRead c a else p
  | none => p

/-- A channel that was lost before the sweep reached it is reached (R132; log 20). -/
def Part.reachLost (p : Part) (c : Chan) : Part :=
  match c with
  | .A => if p.cen.pendA then p.onCen (fun n => { n with lostA := true }) else p
  | .B => if p.cen.pendB then p.onCen (fun n => { n with lostB := true }) else p

def Part.pendLost (p : Part) (c : Chan) : Bool :=
  match c with
  | .A => p.cen.pendA
  | .B => p.cen.pendB

/-- The sweep goes on over the addresses given (R123). -/
def sweepOn : List (Chan × Nat) → Part → Part
  | [], p => p.cenEnd .complete .idle
  | (c, a) :: r, p =>
    let p := p.reachLost c
    if (p.moduleSlots c a).isEmpty then sweepOn r p
    else if p.moduleActive c a && !p.pendLost c then
      (p.onCen (fun n => { n with pos := some (c, a), read := some .notSent })).offerRead c a
    else sweepOn r (p.moduleUnverified c a)

/-- The addresses of the sweep after a position. -/
def Part.sweepAfter (p : Part) (c : Chan) (a : Nat) : List (Chan × Nat) :=
  ((scopeSweep (p.cen.scope.getD .both)).dropWhile (fun x => x != (c, a))).drop 1

/-- A census starts (R122). It sets the next start while the clock is unset too, when now is 0 (R121; log 41). -/
def Part.cenStart (p : Part) (cause : CenCause) (scope : Scope) : Part :=
  let q := p.onCen (fun c => { c with
    list := [], counts := CenCounts.zero, lostA := false, lostB := false, pendA := false, pendB := false
    cause := some cause, scope := some scope, startMin := some p.now, endMin := none, outcome := none
    state := .sweeping, pos := none, read := none, deferred := false
    nextStart := if p.policy.censusInterval = 0 then c.nextStart else some (p.now + p.policy.censusInterval) })
  sweepOn (scopeSweep scope) q

/-! ## The comparison -/

/-- A key found by the census at slot s is placed there (R127). -/
def Part.cenPlace (p : Part) (h : Nat) (k : KeyRec) (s : Nat) : Part :=
  match k.state with
  | .away => p.setKey h (k.placed s p.now)
  | .missing => (p.setKey h (k.placed s p.now)).remove .taken (.key h)
  | .dropped => (p.dropOut h).setKey h (k.placed s p.now)
  | .out => p
  | _ => p.relocate h k s p.now

/-- A fresh read equal to the settled occupancy, not EMPTY (R126). -/
def Part.cenEqual (p : Part) (s : Nat) (v : Occ) : Part :=
  match p.keyOfOcc v with
  | none => (p.foreign s v).mismatch ⟨.foreign, s, none, some v, none, none⟩
  | some (h, k) =>
    if k.loc = some s then p.cenCount (fun n => { n with consistent := satUp n.consistent })
    else if k.state = .out then p.mismatch ⟨.outKeyPresent, s, some h, some v, none, none⟩
    else (p.cenPlace h k s).mismatch ⟨.relocated, s, some h, some v, none, some k.state⟩

/-- A compared slot is judged: fresh read v, settled occupancy o (R126, R128, R129). A MISSING entry gives the key and not
its tag, for which R130 and R205 have no field (log 46). -/
def Part.cenJudge (p : Part) (s : Nat) (v o : Occ) : Part :=
  if v = .empty then
    match p.keyAt s with
    | some (h, k) => (p.keyTaken h k).mismatch ⟨.missing, s, some h, some v, none, some k.state⟩
    | none =>
      if o = .empty then p.cenCount (fun n => { n with consistent := satUp n.consistent })
      else p.mismatch ⟨.readDiffers, s, none, some v, some o, none⟩
  else if v = o then p.cenEqual s v
  else p.mismatch ⟨.readDiffers, s, none, some v, some o, none⟩

/-- One position of a module's answer (R125). -/
def Part.cenPosition (p : Part) (c : Chan) (a pos : Nat) (v : Occ) : Part :=
  match p.slotAt c a pos with
  | none => p
  | some s =>
    if (p.slotEntry s).kind ≠ .standard then p
    else
      let row := (p.row s).getD SlotRow.fresh
      if row.ctx.isSome || row.settle.isSome then p.cenCount (fun n => { n with busySkipped := satUp n.busySkipped })
      else match row.occ with
        | none => p.unverified [s]
        | some o => (p.cenCount (fun n => { n with compared := satUp n.compared })).cenJudge s v o

/-- The positions of a module's answer, from 0 (R125). -/
def Part.cenCompare (p : Part) (c : Chan) (a : Nat) (reads : List Occ) : Part :=
  (reads.zipIdx).foldl (fun q x => q.cenPosition c a x.2 x.1) p

/-- The answer (some) or the miss (none) of the READ_TAGS of module (c, a) reaches the CEN (R124, R132). -/
def Part.cenAnswer (p : Part) (c : Chan) (a : Nat) (reads : Option (List Occ)) : Part :=
  match p.cen.state with
  | .idle => p
  | .aborted => p.onCen (fun n => { n with state := .idle, read := none })
  | .sweeping =>
    if p.cen.pos ≠ some (c, a) then p
    else
      let q := match reads with
        | some vs => (p.cenCount (fun n => { n with read := satUp n.read })).cenCompare c a vs
        | none => p.moduleUnverified c a
      sweepOn (p.sweepAfter c a) (q.onCen (fun n => { n with read := none, deferred := false }))

/-! ## Lost channels, restart, schedule -/

/-- A channel left RUNNING for OFF or RECOVERING; sent is whether a READ_TAGS was on its line (R132). -/
def Part.cenChannelLost (p : Part) (c : Chan) (sent : Bool) : Part :=
  match p.cen.state with
  | .idle => p
  | .aborted => if sent then p.onCen (fun n => { n with state := .idle, read := none }) else p
  | .sweeping =>
    match p.cen.pos with
    | none => p
    | some (d, a) =>
      if d = c then
        let rest := (chanSweep c).filter (fun x => decide (a ≤ x.2))
        let q := rest.foldl (fun q x => if (q.moduleSlots c x.2).isEmpty then q else q.moduleUnverified c x.2) p
        let q := q.onCen (fun n => { n with
          read := none, deferred := false
          lostA := n.lostA || c == .A, lostB := n.lostB || c == .B })
        sweepOn ((p.sweepAfter c a).filter (fun x => x.1 != c)) q
      else if (p.sweepAfter d a).any (fun x => x.1 == c) then
        p.onCen (fun n => { n with pendA := n.pendA || c == .A, pendB := n.pendB || c == .B })
      else p

/-- The CEN's part of RESTART LOGIC (R133). -/
def Part.cenRestart (p : Part) : Part :=
  p.onCen (fun c => ⟨.idle, none, none, none, none, none, none, false, none, false, false, false, false,
    CenCounts.zero, c.skipped, c.nextStart, []⟩)

/-- The CEN's schedule at a tick that carries minute m (R121). A sum above the largest branch minute is kept (log 29). -/
def Part.cenTick (p : Part) (m : Nat) : Part :=
  let I := p.policy.censusInterval
  if I = 0 then p
  else match p.cen.nextStart with
    | none => p.onCen (fun c => { c with nextStart := some (m + I) })
    | some t =>
      if m < t then p
      else match p.cen.state with
        | .idle => p.cenStart .schedule .both
        | _ => p.onCen (fun c => { c with skipped := satUp c.skipped, nextStart := some (m + I) })

/-- After a TIME_SET the next start stands at most one interval ahead (R121). -/
def Part.cenClamp (p : Part) : Part :=
  let top := p.now + p.policy.censusInterval
  if p.policy.censusInterval = 0 then p
  else p.onCen (fun c => { c with nextStart := c.nextStart.map (fun t => if top < t then top else t) })

/-- The census interval has been changed by POLICY_SET (R121; log 41). -/
def Part.cenPolicy (p : Part) : Part :=
  let I := p.policy.censusInterval
  p.onCen (fun c => { c with
    nextStart := if I = 0 then none else if !p.clock.set then none else some (c.startMin.getD p.now + I) })

end Sys2Proof.Machine
end

