-- ==== Sys2Proof/Machine/Bus.lean ====
section
/-! DEFINITION. The Slot Bus Channels: pass-through tracking (R189, R190), rows, settles and lock reports (R161 to
R166), modules (R155 to R158), channel states and enumeration (R150 to R154, R168 to R171), the arbiter (R159, R160). -/

namespace Sys2Proof.Machine
open Sys2Proof

/-! ## Pass-through tracking -/

/-- Kind code of MODULE_FRAME (R203). -/
def moduleFrameKind : Nat := 0x60

/-- A RESPONSE (R185, R205). -/
def responseReport (dest tag kind : Nat) (r : Result) (flags : Nat) (fields : List Byte) : Report :=
  ⟨.response, dest, beBytes 1 tag ++ beBytes 1 kind ++ beBytes 1 r.code ++ beBytes 1 flags ++ fields⟩

/-- A Tracking entry makes its response: it becomes FREE as the response enters, or waits in ANSWERING (R189). -/
def Part.trackRespond (p : Part) (e : Nat) (r : Result) (fields : List Byte) : Part :=
  match Table.look p.tfl.tracking e with
  | none => p
  | some t =>
    match t.state with
    | .answering _ => p
    | _ =>
      let rep := responseReport t.origin t.tag moduleFrameKind r 0 fields
      if p.essRoom then { p.enter rep with tfl := { p.tfl with tracking := Table.del p.tfl.tracking e } }
      else
        let q : Part := { p with tfl := { p.tfl with tracking := Table.put p.tfl.tracking e { t with state := .answering rep } } }
        q.await (.tracking e)

/-- A miss is charged for a frame, or its frame is withdrawn with a lost module (R189): PASS_TIMEOUT, cause MISS. -/
def Part.trackMiss (p : Part) (e : Nat) (c : Chan) (a : Nat) (want : TrackState) : Part :=
  match Table.look p.tfl.tracking e with
  | none => p
  | some t => if t.state = want ∧ t.chan = c ∧ t.addr = a then p.trackRespond e .passTimeout (beBytes 1 1) else p

/-- A good answer to a passed frame (R189). -/
def Part.trackAnswer (p : Part) (e : Nat) (c : Chan) (a : Nat) (status : Byte) (data : List Byte) : Part :=
  match Table.look p.tfl.tracking e with
  | none => p
  | some t =>
    if t.state = .sent ∧ t.chan = c ∧ t.addr = a then p.trackRespond e .passReply (status :: data) else p

/-- The frame is sent on the line (R189). -/
def Part.trackSent (p : Part) (e : Nat) : Part :=
  { p with tfl := { p.tfl with
      tracking := Table.modify p.tfl.tracking e (fun t => if t.state = .queued then { t with state := .sent } else t) } }

/-- The channel leaves RUNNING: its entries are answered PASS_ABORTED (R189). -/
def Part.trackAbort (p : Part) (c : Chan) : Part :=
  (List.range Config.trackCap).foldl (fun q e =>
    if (Table.look q.tfl.tracking e).any (fun t => t.chan == c) then q.trackRespond e .passAborted [] else q) p

/-- Every Tracking entry becomes FREE without response (R190). -/
def Part.trackDropAll (p : Part) : Part :=
  let drop (ch : Channel) : Channel := ch.withdraw (fun b => match b with
    | .passed _ _ _ _ => true
    | _ => false)
  let q := (p.onChan .A drop).onChan .B drop
  { q with
    tfl := { q.tfl with tracking := [] }
    link := { q.link with waiters := q.link.waiters.filter (fun w => match w with
      | .tracking _ => false
      | _ => true) } }

/-- PASS_THROUGH_EXPIRY (R189): a queued frame is withdrawn; PASS_TIMEOUT, cause EXPIRED. -/
def Part.trackExpire (p : Part) (e : Nat) : Part :=
  match Table.look p.tfl.tracking e with
  | none => p
  | some t =>
    if p.mono < t.expiry then p
    else match t.state with
      | .answering _ => p
      | .sent => p.trackRespond e .passTimeout (beBytes 1 2)
      | .queued =>
        let q := p.onChan t.chan (·.withdraw (BusCmd.isPassed e))
        (if t.cls = .lampRaw then q.touch [lampKey t.chan t.addr] else q).trackRespond e .passTimeout (beBytes 1 2)

/-! ## Rows -/

/-- Rows take occupancy and lock UNKNOWN; settle and context become absent, the guide stays (R7). -/
def Part.rowsUnknown (p : Part) (slots : List Nat) : Part :=
  slots.foldl (fun q s =>
    (q.onRow s (fun r => { r with occ := none, lock := none, settle := none, ctx := none })).touchSlot s) p

/-- The SBC offers a LOCK_CLOSE of its own for a position (R165). -/
def Part.ownClose (p : Part) (c : Chan) (a pos : Nat) : Part :=
  let ch := p.chan c
  let waiting := ch.queue.any (fun b => match b with
    | .lockClose x y _ => x == a && y == pos
    | _ => false)
  let last := (Table.look ch.modules a).bind (fun m => Table.look m.ownClose pos)
  if !waiting && last.all (fun t => decide (t + Config.ownCloseGap ≤ p.mono)) && ch.otherRoom then
    p.onChan c (·.push (.lockClose a pos .own))
  else p

/-- A lock state that no context takes (R165). -/
def Part.looseLock (p : Part) (s : Nat) (l : LockState) : Part :=
  match l with
  | .locked => p
  | .jammed => p.raise .lockJam (.slot s) none
  | .opened =>
    let e := p.slotEntry s
    (p.raise .lockJam (.slot s) none).ownClose e.chan e.addr e.pos

/-- A lock state reported for a STANDARD position (R165). -/
def Part.lockReport (p : Part) (s : Nat) (l : LockState) : Part :=
  match p.row s with
  | none => p
  | some r =>
    let q := (p.onRow s (fun r => { r with lock := some l })).touchSlot s
    let q := if l = .locked ∧ r.lock ≠ some .locked then q.remove .lockJam (.slot s) else q
    match r.ctx.bind (fun i => (Table.look p.ctxs i).map (fun c => (i, c))) with
    | some (i, c) =>
      if c.state = .donePending then q.looseLock s l else if c.lockSent then q.ctxLock i l else q
    | none => q.looseLock s l

/-- The context of a row is told of a settle. -/
def Part.tell (p : Part) (r : SlotRow) (f : Part → Nat → Part) : Part :=
  match r.ctx with
  | some i => f p i
  | none => p

/-- A settle starts or restarts with a candidate (R162). -/
def Part.settleSet (p : Part) (s : Nat) (v : Occ) : Part :=
  p.onRow s (fun r => { r with settle := some ⟨v, p.now, p.mono + p.policy.settle⟩ })

/-- An occupancy reported for a STANDARD position (R162, R164). -/
def Part.occReport (p : Part) (c : Chan) (s : Nat) (v : Occ) : Part :=
  match p.row s with
  | none => p
  | some r =>
    match r.occ with
    | none => ((p.onRow s (fun r => { r with occ := some v, settle := none })).touchSlot s).sighting s v p.now
    | some o =>
      match r.settle with
      | none =>
        if v = o then p
        else
          let q := p.settleSet s v
          if v = .empty then q.tell r Part.ctxSettleStart else q
      | some st =>
        if v = st.cand then p
        else if v = o then
          let q := (p.onRow s (fun r => { r with settle := none })).onChan c (fun ch => { ch with bounces := satUp ch.bounces })
          if st.cand = .empty then q.tell r Part.ctxSettleCancel else q
        else
          let q := p.settleSet s v
          if v = .empty then q.tell r Part.ctxSettleStart
          else if st.cand = .empty then q.tell r Part.ctxSettleCancel
          else q

/-- One position of a POLL answer (R161, R166). -/
def Part.takePosition (p : Part) (c : Chan) (a pos : Nat) (r : PosReport) : Part :=
  match p.slotAt c a pos with
  | none => p
  | some s =>
    match (p.slotEntry s).kind with
    | .standard => (p.lockReport s r.lock).occReport c s r.occ
    | .drop => match r.chute with
      | some t => p.dropRead s t
      | none => p
    | .disabled => p

/-- A POLL answer is taken whole, position by position (R161). -/
def Part.takeReports (p : Part) (c : Chan) (a : Nat) (rs : List PosReport) : Part :=
  rs.zipIdx.foldl (fun q x => q.takePosition c a x.2 x.1) p

/-- SETTLE_EXPIRY (R163). -/
def Part.settleExpire (p : Part) (s : Nat) : Part :=
  match p.row s with
  | none => p
  | some r =>
    match r.settle, r.occ with
    | some st, some old =>
      if p.mono < st.expiry then p
      else
        let q := (p.onRow s (fun r => { r with occ := some st.cand, settle := none })).touchSlot s
        let q := if old = .empty then q else q.keyLeft s old st.firstSeen
        if st.cand = .empty then q else q.keyArrived s st.cand st.firstSeen false
    | _, _ => p

/-! ## Modules -/

def Part.onModule (p : Part) (c : Chan) (a : Nat) (f : ModEntry → ModEntry) : Part :=
  p.onChan c (fun ch => { ch with modules := Table.modify ch.modules a f })

/-- MODULE_EVENT (R157, R158). -/
def moduleEvent (c : Chan) (a : Nat) (st : ModState) : Report :=
  ⟨.moduleEvent, broadcast, beBytes 1 c.code ++ beBytes 1 a ++ beBytes 1 st.code⟩

/-- The census gives up the offer of READ_TAGS it has deferred for a lost module (R157; log 36). -/
def Part.deferredLost (p : Part) (c : Chan) (a : Nat) : Part :=
  if p.cen.deferred && p.cen.pos == some (c, a) then p.cenAnswer c a none else p

/-- The owner of a command withdrawn with its lost module is told (R157). -/
def Part.tellLoss (p : Part) (c : Chan) (b : BusCmd) : Part :=
  match b with
  | .passed a _ _ e => p.trackMiss e c a .queued
  | .readTags a => p.cenAnswer c a none
  | _ => p

/-- A module becomes DOWN, or is left ABSENT at the end of enumeration; the effects come in the order of R157's list (log 22). -/
def Part.moduleLost (p : Part) (c : Chan) (a : Nat) (st : ModState) : Part :=
  let gone := (p.chan c).queue.filter (fun b => b.addr == a)
  let q := p.onModule c a (fun m => { m with state := st, reprobe := some (p.mono + Config.reprobeTime) })
  let q := q.onChan c (fun ch => { ch.withdraw (fun b => b.addr == a) with
    nextIdent := some (ch.nextIdent.getD (p.mono + Config.identTime)) })
  let q := ((q.rowsUnknown (p.moduleSlots c a)).ctxsLost (p.moduleSlots c a)).lampLost c a
  let q := (gone.foldl (fun q b => q.tellLoss c b) q).deferredLost c a
  (q.raise .moduleDown (.module c a) none).offerOrd (moduleEvent c a st)

/-- A module becomes ACTIVE from ABSENT or DOWN (R158). -/
def Part.moduleFound (p : Part) (c : Chan) (a : Nat) : Part :=
  let q := p.onModule c a (fun m => { m with state := .active, misses := 0, reprobe := none })
  ((q.remove .moduleDown (.module c a)).offerOrd (moduleEvent c a .active)).touch [lampKey c a]

/-- Some row of the module is UNKNOWN (R156). -/
def Part.rowsDark (p : Part) (c : Chan) (a : Nat) : Bool :=
  (p.moduleSlots c a).any (fun s => (p.row s).any (fun r => r.occ.isNone))

/-- A good answer of a module (R156); poll is whether it is a POLL's or an ASSIGN's, which alone make an ABSENT or DOWN module
ACTIVE (R158; log 36). -/
def Part.goodAnswer (p : Part) (c : Chan) (a : Nat) (poll : Bool) : Part :=
  match (p.chan c).modState a with
  | .active => p.onModule c a (fun m => { m with misses := 0 })
  | .silent =>
    if poll || !p.rowsDark c a then
      (p.onModule c a (fun m => { m with misses := 0, state := .active })).touch [lampKey c a]
    else p.onModule c a (fun m => { m with misses := 0 })
  | _ => if poll then p.moduleFound c a else p

/-- A miss is counted on the channel (R147). -/
def Part.countMiss (p : Part) (c : Chan) : Part := p.onChan c (fun ch => { ch with misses := satUp ch.misses })

/-- A miss is counted and charged to a module (R156). -/
def Part.chargeMiss (p : Part) (c : Chan) (a : Nat) : Part :=
  let q := p.countMiss c
  match Table.look (q.chan c).modules a with
  | none => q
  | some m =>
    match m.state with
    | .active => q.onModule c a (fun m => { m with misses := 1, state := .silent })
    | .silent =>
      let q := q.onModule c a (fun m => { m with misses := m.misses + 1 })
      if Config.missesDown ≤ m.misses + 1 then q.moduleLost c a .down else q
    | _ => q

/-! ## Channel states -/

/-- The Module Table with every mapped entry as R152 and R155 make it. -/
def Channel.freshModules (ch : Channel) : Table ModEntry :=
  ch.map.foldl (fun t e => Table.put t e.2.addr ModEntry.fresh) []

/-- An entry as its channel leaves RUNNING or STARTING: an ABSENT one keeps no re-probe time (R155). -/
def ModEntry.left (m : ModEntry) : ModEntry := if m.state = .absent then { m with reprobe := none } else m

/-- What leaving a state does to the channel's own record: queue emptied, commands in progress abandoned (R170), the re-probe
times of ABSENT entries absent (R155). -/
def Channel.leave (ch : Channel) (st : ChanState) : Channel :=
  { ch with
    state := st, queue := [], onLine := none, passOn := false, kept := []
    modules := ch.modules.map (fun e => (e.1, e.2.left)) }

/-- A READ_TAGS is on the line. -/
def Channel.readOnLine (ch : Channel) : Bool :=
  match ch.onLine with
  | some (.queued (.readTags _)) => true
  | _ => false

/-- The channel leaves RUNNING or STARTING for state st, by CHANNEL_CONTROL OFF or a hang (R170). -/
def Part.channelLeave (p : Part) (c : Chan) (st : ChanState) : Part :=
  let was := p.chan c
  let q := p.onChan c (·.leave st)
  let q := (q.rowsUnknown (p.chanSlots c)).ctxsLost (p.chanSlots c)
  let q := if was.state = .running then q.cenChannelLost c was.readOnLine else q
  ((q.lampChannelLost c).clearOverrides (chanModules c)).trackAbort c

/-- The channel enters STARTING: entries ABSENT, reset pulse (R152; log 14). -/
def Channel.enterStarting (ch : Channel) (mono : Nat) : Channel :=
  { ch with
    state := .starting .pulse, modules := ch.freshModules, muted := 0, nextIdent := none
    queue := [], onLine := none, passOn := false, kept := [], pulse := some (mono + Config.pulseTime) }

def Part.channelStart (p : Part) (c : Chan) : Part := p.onChan c (·.enterStarting p.mono)

/-- A hang of a channel that is STARTING or RUNNING: RECOVERING, or FAULTED after three recoveries (R168, R169; log 21). -/
def Part.hang (p : Part) (c : Chan) : Part :=
  match (p.chan c).state with
  | .starting _ | .running =>
    let recent := (p.chan c).history.filter (fun t => decide (p.mono < t + Config.historyTime))
    let q := p.channelLeave c .recovering
    if 3 ≤ recent.length then
      (q.onChan c (fun ch => { ch with
        state := .faulted, history := recent, modules := ch.freshModules, nextIdent := none, pulse := none })).raise
          .channelFault (.chan c) none
    else q.onChan c (fun ch => { ch with
      history := recent ++ [p.mono], recoveries := satUp ch.recoveries, pulse := some (p.mono + Config.pulseTime) })
  | _ => p

/-- A line found held for ms milliseconds is hung: over 50 ms, and the part has not driven it for as long; the time of a reset
pulse of the part's own does not count (R168). -/
def Channel.hung (ch : Channel) (mono ms : Nat) : Bool :=
  decide (Config.hangTime < ms) && ch.pulse.all (fun t => decide (t + Config.hangTime < mono))

/-- LINE_HANG: the line has been held dominant for ms milliseconds by another than the part, or is recessive again (0). Over
50 ms it is a hang (R147, R168; log 38). -/
def Part.lineHang (p : Part) (c : Chan) (ms : Nat) : Part :=
  let q := p.onChan c (fun ch => { ch with held := decide (0 < ms) })
  if (p.chan c).hung p.mono ms then q.hang c else q

/-- The state becomes RUNNING and the answers kept by the first poll are taken (R152). The lamps of every module of the channel
are recomputed then, also of one that the first poll left SILENT (log 52). -/
def Part.enterRunning (p : Part) (c : Chan) : Part :=
  let kept := (p.chan c).kept
  let q := p.onChan c (fun ch => { ch with state := .running, kept := [], lastPolled := 0 })
  (kept.foldl (fun q x => q.takeReports c x.1 x.2) q).touch (chanModules c)

/-- The lowest address above n, up to 30, that satisfies f. -/
def addrAfter (n : Nat) (f : Nat → Bool) : Option Nat :=
  ((List.range Config.modules).map (· + 1)).find? (fun a => decide (n < a) && f a)

/-- FIRST_POLL goes on, or ends when no ACTIVE module is left to poll (R152). -/
def Part.firstPollOn (p : Part) (c : Chan) : Part :=
  match (p.chan c).state with
  | .starting .firstPoll =>
    match addrAfter (p.chan c).lastPolled (fun a => (p.chan c).modState a == .active) with
    | some _ => p
    | none => p.enterRunning c
  | _ => p

/-- RESET_PULSE_END (R152, R168; log 14). In the step PULSE it sends LOCK_ALL and goes on to ENUMERATION; while another holds
the line nothing is sent and the step waits (R147, R168; log 38). -/
def Part.pulseEnd (p : Part) (c : Chan) : Part :=
  match (p.chan c).pulse with
  | none => p
  | some t =>
    if p.mono < t then p
    else match (p.chan c).state with
      | .recovering => p.channelStart c
      | .starting .pulse =>
        if (p.chan c).held then p
        else p.onChan c (fun ch => { ch with
          pulse := none, state := .starting .enumeration, rounds := 0, sent := [LineCmd.lockAll.frame] })
      | _ => p.onChan c (fun ch => { ch with pulse := none })

/-! ## Enumeration -/

/-- Some mapped entry satisfies f. -/
def Channel.anyModule (ch : Channel) (f : ModState → Bool) : Bool := ch.modules.any (fun e => f e.2.state)

/-- The enumeration of STARTING ends (R152). -/
def Part.enumerationEnd (p : Part) (c : Chan) : Part :=
  let absent := ((p.chan c).modules.filter (fun e => e.2.state == .absent)).map (·.1)
  let q := absent.foldl (fun q a => q.moduleLost c a .absent) p
  let q := q.onChan c (fun ch => { ch with
    state := .starting .firstPoll, lastPolled := 0, kept := []
    nextIdent := if absent.isEmpty then ch.nextIdent else some (p.mono + Config.identTime) })
  q.firstPollOn c

/-- An identification pass ends (R154). -/
def Part.passEnd (p : Part) (c : Chan) : Part :=
  p.onChan c (fun ch => { ch with
    passOn := false
    nextIdent := if ch.anyModule (fun s => s == .absent || s == .down) then some (p.mono + Config.identTime) else none })

/-- A run of rounds ends. -/
def Part.roundsEnd (p : Part) (c : Chan) : Part :=
  match (p.chan c).state with
  | .starting .enumeration => p.enumerationEnd c
  | .running => p.passEnd c
  | _ => p

/-- The run of rounds ends when the round count has reached 64 (R152, R154). -/
def Part.roundsCheck (p : Part) (c : Chan) : Part :=
  if Config.roundCap ≤ (p.chan c).rounds then p.roundsEnd c else p

/-- The identification pass is in progress or due (R154, R160). -/
def Channel.passDue (ch : Channel) (mono : Nat) : Bool := ch.passOn || ch.nextIdent.any (fun t => decide (t ≤ mono))

def BusCmd.isLock : BusCmd → Bool
  | .lockOpen _ _ _ => true
  | .lockClose _ _ _ => true
  | _ => false

def BusCmd.isFrame : BusCmd → Bool
  | .passed _ _ _ _ => true
  | _ => false

def BusCmd.isLampAny : BusCmd → Bool
  | .lamp _ _ => true
  | _ => false

/-- The line is free: no answer is awaited and no other holds it dominant (R147). -/
def Channel.free (ch : Channel) : Bool := ch.onLine.isNone && !ch.held

/-- A round may begin: the line is free and it is the turn of a round (R152, R160). -/
def Channel.roundTurn (ch : Channel) (mono : Nat) : Bool :=
  ch.free && (match ch.state with
    | .starting .enumeration => true
    | .running => !ch.queue.any BusCmd.isLock && ch.passDue mono
    | _ => false)

/-- The frames of a round: IDENTIFY, and when a serial was read the ASSIGN to its mapped address or to 0 (R148, R153). -/
def Channel.roundFrames (ch : Channel) (serial : Option Nat) : List (List Byte) :=
  LineCmd.identify.frame :: (serial.map (fun n =>
    (LineCmd.assign n (((ch.map.find? (fun e => e.2.serial == n)).map (·.2.addr)).getD 0)).frame)).toList

/-- ENUMERATION_ROUND: the serial read, or no answer (R153). -/
def Part.round (p : Part) (c : Chan) (serial : Option Nat) : Part :=
  if !(p.chan c).roundTurn p.mono then p
  else
    let p := p.onChan c (fun ch => if ch.state = .running ∧ ¬ ch.passOn then { ch with passOn := true, rounds := 0 } else ch)
    let p := p.onChan c (fun ch => { ch with sent := ch.roundFrames serial })
    match serial with
    | none => p.roundsEnd c
    | some n =>
      let p := p.onChan c (fun ch => { ch with rounds := ch.rounds + 1 })
      match (p.chan c).map.find? (fun e => e.2.serial == n) with
      | some (_, e) =>
        (p.onModule c e.addr (fun m => { m with ack := false })).onChan c (fun ch => { ch with
          onLine := some (.assign n e.addr) })
      | none =>
        let q := p.onChan c (fun ch => { ch with
          muted := min Config.roundCap (ch.muted + 1), strangers := satUp ch.strangers })
        (q.raise .stranger (.chan c) (some (.serial n))).roundsCheck c

/-! ## The arbiter and the sending of commands -/

/-- The POLL the SBC would send next: a re-probe whose time has come, or the round robin (R154, R160, R161; log 42). -/
def Channel.nextPoll (ch : Channel) (mono : Nat) : Option (Nat × Bool) :=
  match ch.state with
  | .starting .firstPoll => (addrAfter ch.lastPolled (fun a => ch.modState a == .active)).map (fun a => (a, false))
  | .running =>
    match addrAfter 0 (fun a => (Table.look ch.modules a).any (fun m => m.reprobe.any (fun t => decide (t ≤ mono)))) with
    | some a => some (a, true)
    | none =>
      let served (a : Nat) : Bool := ch.modState a == .active || ch.modState a == .silent
      ((addrAfter ch.lastPolled served).orElse (fun _ => addrAfter 0 served)).map (fun a => (a, false))
  | _ => none

/-- The oldest command of a kind in the queue. -/
def Channel.oldest (ch : Channel) (f : BusCmd → Bool) : Option BusCmd := ch.queue.find? f

/-- What the arbiter takes from the queue when the line is free; none when it is the turn of a round or a POLL (R160). -/
def Channel.choice (ch : Channel) (mono : Nat) : Option BusCmd :=
  if !ch.free || ch.state != .running then none
  else match ch.oldest BusCmd.isLock with
    | some b => some b
    | none =>
      if ch.passDue mono then none
      else ((ch.oldest BusCmd.isFrame).orElse (fun _ => ch.oldest BusCmd.isReadTags)).orElse (fun _ => ch.oldest BusCmd.isLampAny)

/-- The turn of a POLL (R152, R160). -/
def Channel.pollTurn (ch : Channel) (mono : Nat) : Bool :=
  ch.free && (match ch.state with
    | .starting .firstPoll => true
    | .running => ch.queue.isEmpty && !ch.passDue mono
    | _ => false)

/-- SEND_POLL (R154, R161). -/
def Part.sendPoll (p : Part) (c : Chan) : Part :=
  let ch := p.chan c
  if !ch.pollTurn p.mono then p
  else match ch.nextPoll p.mono with
    | none => p
    | some (a, probe) =>
      let ack := ch.state == .running && ((Table.look ch.modules a).map (·.ack)).getD false
      let q := p.onChan c (fun ch => { ch with
        onLine := some (.poll a ack), lastPolled := if probe then ch.lastPolled else a
        sent := [(LineCmd.poll a ack).frame] })
      if probe then q.onModule c a (fun m => { m with reprobe := some (p.mono + Config.reprobeTime) }) else q

/-- A command taken from the queue goes on the line; the deferred offers are made again (R159, R160). -/
def Part.sendQueued (p : Part) (c : Chan) (b : BusCmd) (f : Part → Part) : Part :=
  let q := f (p.onChan c (fun ch => { ch with
    queue := ch.queue.erase b, onLine := some (.queued b), sent := [b.frame] }))
  (q.reofferRead c).reofferLamps c

/-- The context's lock command has been sent (R165). -/
def Part.ctxSent (p : Part) (i : Nat) : Part := p.onCtx i (fun c => { c with lockSent := true })

/-- SEND_LOCK_OPEN (R43, R160). -/
def Part.sendLockOpen (p : Part) (c : Chan) : Part :=
  match (p.chan c).choice p.mono with
  | some (.lockOpen a pos i) => p.sendQueued c (.lockOpen a pos i) (·.ctxSent i)
  | _ => p

/-- SEND_LOCK_CLOSE (R159, R160, R165). One left by a context since freed concerns no context and no own close time. -/
def Part.sendLockClose (p : Part) (c : Chan) : Part :=
  match (p.chan c).choice p.mono with
  | some (.lockClose a pos (.ctx i)) => p.sendQueued c (.lockClose a pos (.ctx i)) (·.ctxSent i)
  | some (.lockClose a pos .own) =>
    p.sendQueued c (.lockClose a pos .own) (fun q => q.onModule c a (fun m => { m with
      ownClose := Table.put m.ownClose pos q.mono }))
  | some (.lockClose a pos .left) => p.sendQueued c (.lockClose a pos .left) id
  | _ => p

/-- SEND_PASSED_FRAME (R143, R189). -/
def Part.sendPassed (p : Part) (c : Chan) : Part :=
  match (p.chan c).choice p.mono with
  | some (.passed a cls d e) =>
    p.sendQueued c (.passed a cls d e) (fun q =>
      let q := q.trackSent e
      if cls = .lampRaw then q.rawSent c a d else q)
  | _ => p

/-- SEND_READ_TAGS (R124). -/
def Part.sendReadTags (p : Part) (c : Chan) : Part :=
  match (p.chan c).choice p.mono with
  | some (.readTags a) => p.sendQueued c (.readTags a) (fun q => q.onCen (fun n => { n with read := some .sent }))
  | _ => p

/-- SEND_LAMP (R139). -/
def Part.sendLamp (p : Part) (c : Chan) : Part :=
  match (p.chan c).choice p.mono with
  | some (.lamp a ls) => p.sendQueued c (.lamp a ls) (·.imageTakes (lampKey c a) ls)
  | _ => p

/-! ## Answers and misses -/

/-- The answer awaited is dealt with: none is awaited. -/
def Part.lineFree (p : Part) (c : Chan) : Part := p.onChan c (fun ch => { ch with onLine := none })

/-- The owner of a command is told of its miss (R139, R143, R156, R167, R189). -/
def Part.tellMiss (p : Part) (c : Chan) (b : BusCmd) : Part :=
  match b with
  | .lockOpen _ _ _ => p
  | .lockClose _ _ _ => p
  | .passed a cls _ e => (if cls = .lampRaw then p.lampMissed c a else p).trackMiss e c a .sent
  | .readTags a => p.cenAnswer c a none
  | .lamp a _ => p.lampMissed c a

/-- COMMAND_MISS (R147, R156, R161; log 15). The module's loss that the miss brings comes before the owner of the command is told
(log 22). While another holds the line no miss is charged (R168; log 38). -/
def Part.commandMiss (p : Part) (c : Chan) : Part :=
  if (p.chan c).held then p
  else match (p.chan c).onLine with
    | some (.assign _ _) => ((p.lineFree c).countMiss c).roundsCheck c
    | some (.poll a _) => (((p.lineFree c).onModule c a (fun m => { m with ack := false })).chargeMiss c a).firstPollOn c
    | some (.queued b) => ((p.lineFree c).chargeMiss c b.addr).tellMiss c b
    | _ => p

/-- An answer to the command on the line, sent to address a: a good one is taken by act, any other is a miss (R147). -/
def Part.judged (p : Part) (c : Chan) (a : Nat) (r : Reply) (act : Part → Part) : Part :=
  if replyGood r a then act (p.lineFree c) else p.commandMiss c

/-- ASSIGN_ANSWER (R153, R158). -/
def Part.assignAnswer (p : Part) (c : Chan) (r : Reply) (rs : List PosReport) : Part :=
  match (p.chan c).onLine with
  | some (.assign _ a) =>
    p.judged c a r (fun q =>
      let q := (q.goodAnswer c a true).lampAnew c a
      let q := if (p.chan c).state = .running then q.takeReports c a rs else q
      q.roundsCheck c)
  | _ => p

/-- POLL_ANSWER (R152, R161). -/
def Part.pollAnswer (p : Part) (c : Chan) (r : Reply) (rs : List PosReport) : Part :=
  match (p.chan c).onLine with
  | some (.poll a _) =>
    p.judged c a r (fun q =>
      let q := (q.goodAnswer c a true).onModule c a (fun m => { m with ack := true })
      match (p.chan c).state with
      | .running => q.takeReports c a rs
      | _ => (q.onChan c (fun ch => { ch with kept := ch.kept ++ [(a, rs)] })).firstPollOn c)
  | _ => p

/-- A lock state that a good answer to a lock command reports (R165, R167). -/
def Part.lockAnswered (p : Part) (c : Chan) (a pos : Nat) (l : LockState) : Part :=
  let q := p.goodAnswer c a false
  match q.slotAt c a pos with
  | some s => q.lockReport s l
  | none => q

/-- LOCK_OPEN_ANSWER (R44, R165, R167). -/
def Part.lockOpenAnswer (p : Part) (c : Chan) (r : Reply) (l : LockState) : Part :=
  match (p.chan c).onLine with
  | some (.queued (.lockOpen a pos _)) => p.judged c a r (·.lockAnswered c a pos l)
  | _ => p

/-- LOCK_CLOSE_ANSWER (R49, R165, R167). -/
def Part.lockCloseAnswer (p : Part) (c : Chan) (r : Reply) (l : LockState) : Part :=
  match (p.chan c).onLine with
  | some (.queued (.lockClose a pos _)) => p.judged c a r (·.lockAnswered c a pos l)
  | _ => p

/-- LAMP_ANSWER: the image stays as sent (R139, R167). -/
def Part.lampAnswer (p : Part) (c : Chan) (r : Reply) : Part :=
  match (p.chan c).onLine with
  | some (.queued (.lamp a _)) => p.judged c a r (·.goodAnswer c a false)
  | _ => p

/-- PASS_THROUGH_ANSWER: the answer's status and data are the reply (R167, R189). -/
def Part.passAnswer (p : Part) (c : Chan) (r : Reply) : Part :=
  match (p.chan c).onLine with
  | some (.queued (.passed a _ _ e)) =>
    p.judged c a r (fun q => (q.goodAnswer c a false).trackAnswer e c a r.status r.data)
  | _ => p

/-- READ_TAGS_ANSWER: the eight fresh reads, or the miss of the read (R124, R167). -/
def Part.readTagsAnswer (p : Part) (c : Chan) (x : Option (Answered (List Occ))) : Part :=
  match (p.chan c).onLine with
  | some (.queued (.readTags a)) =>
    match x with
    | some x => p.judged c a x.reply (fun q => (q.goodAnswer c a false).cenAnswer c a (some x.content))
    | none => p.commandMiss c
  | _ => p

/-! ## Rows of the slot bus -/

def execLineHang (line : LineHeld) (s : State) : Host.Outcome State Fault Refusal :=
  .next { s with part := (s.part.lineHang line.chan line.ms).lampRun }

def execResetPulseEnd (chan : Chan) (s : State) : Host.Outcome State Fault Refusal :=
  .next { s with part := (s.part.pulseEnd chan).lampRun }

def execEnumerationRound (chan : Chan) (serial : Option Nat) (s : State) : Host.Outcome State Fault Refusal :=
  .next { s with part := (s.part.round chan serial).lampRun }

def execAssignAnswer (chan : Chan) (answer : Answered (List PosReport)) (s : State) : Host.Outcome State Fault Refusal :=
  .next { s with part := (s.part.assignAnswer chan answer.reply answer.content).lampRun }

def execSendPoll (chan : Chan) (s : State) : Host.Outcome State Fault Refusal :=
  .next { s with part := (s.part.sendPoll chan).lampRun }

def execSendReadTags (chan : Chan) (s : State) : Host.Outcome State Fault Refusal :=
  .next { s with part := (s.part.sendReadTags chan).lampRun }

def execSendLockOpen (chan : Chan) (s : State) : Host.Outcome State Fault Refusal :=
  .next { s with part := (s.part.sendLockOpen chan).lampRun }

def execSendLockClose (chan : Chan) (s : State) : Host.Outcome State Fault Refusal :=
  .next { s with part := (s.part.sendLockClose chan).lampRun }

def execSendLamp (chan : Chan) (s : State) : Host.Outcome State Fault Refusal :=
  .next { s with part := (s.part.sendLamp chan).lampRun }

def execSendPassedFrame (chan : Chan) (s : State) : Host.Outcome State Fault Refusal :=
  .next { s with part := (s.part.sendPassed chan).lampRun }

def execPollAnswer (chan : Chan) (answer : Answered (List PosReport)) (s : State) : Host.Outcome State Fault Refusal :=
  .next { s with part := (s.part.pollAnswer chan answer.reply answer.content).lampRun }

def execSettleExpiry (slot : Nat) (s : State) : Host.Outcome State Fault Refusal :=
  .next { s with part := (s.part.settleExpire slot).lampRun }

def execLockOpenAnswer (chan : Chan) (answer : Answered LockState) (s : State) : Host.Outcome State Fault Refusal :=
  .next { s with part := (s.part.lockOpenAnswer chan answer.reply answer.content).lampRun }

def execLockCloseAnswer (chan : Chan) (answer : Answered LockState) (s : State) : Host.Outcome State Fault Refusal :=
  .next { s with part := (s.part.lockCloseAnswer chan answer.reply answer.content).lampRun }

def execReadTagsAnswer (chan : Chan) (answer : Option (Answered (List Occ))) (s : State) : Host.Outcome State Fault Refusal :=
  .next { s with part := (s.part.readTagsAnswer chan answer).lampRun }

def execLampAnswer (answer : LineReply) (s : State) : Host.Outcome State Fault Refusal :=
  .next { s with part := (s.part.lampAnswer answer.chan answer.reply).lampRun }

def execPassThroughAnswer (chan : Chan) (ends : ReplyEnds) (data : List Byte) (s : State) : Host.Outcome State Fault Refusal :=
  .next { s with part := (s.part.passAnswer chan ⟨ends.addr, ends.status, data, ends.check⟩).lampRun }

def execCommandMiss (chan : Chan) (s : State) : Host.Outcome State Fault Refusal :=
  .next { s with part := (s.part.commandMiss chan).lampRun }

def execPassThroughExpiry (entry : Nat) (s : State) : Host.Outcome State Fault Refusal :=
  .next { s with part := (s.part.trackExpire entry).lampRun }

end Sys2Proof.Machine
end

