-- ==== Sys2Proof/Machine/Time.lean ====
section
/-! DEFINITION. Monotonic seconds, minute ticks and the setting of the clock (R83 to R89), the three blocks a tick is
handed to (R32, R114, R121), and the guide expiry (R25). -/

namespace Sys2Proof.Machine
open Sys2Proof

/-- The clock is AT_LIMIT at the last branch minute, and CLOCK_LIMIT is set (R86). -/
def Part.limitCheck (p : Part) : Part :=
  if p.clock.minute = Config.maxMinute then
    { p with clock := { p.clock with atLimit := true, second := 0 } }.setFlag flagClockLimit
  else p

/-- The minute tick: the branch minute goes up by one, zone and tiers are reworked, and the tick is handed to the REL,
the ALT and the CEN (R85, R86; log 4). -/
def Part.minuteAdvance (p : Part) : Part :=
  let q := { p with clock := { p.clock with second := 0, minute := p.clock.minute + 1 } }.limitCheck
  let q := q.zoneRun.recomputeTiers
  let m := p.clock.minute + 1
  { q with tickRel := q.tickRel ++ [m], tickAlt := q.tickAlt ++ [m], tickCen := q.tickCen ++ [m] }

/-- The count moves to its next whole multiple of 1,000 (R83; log 3). -/
def Part.toNextSecond (p : Part) : Part := { p with mono := (p.mono / 1000 + 1) * 1000 }

/-- A monotonic second reaches the branch clock (R85). -/
def Part.clockSecond (p : Part) : Part :=
  if p.clock.set && !p.clock.atLimit then
    if 59 ≤ p.clock.second then p.minuteAdvance
    else { p with clock := { p.clock with second := p.clock.second + 1 } }
  else p

/-- MONOTONIC_SECOND (R83, R85). -/
def execMonotonicSecond (s : State) : Host.Outcome State Fault Refusal :=
  .next { s with part := s.part.toNextSecond.clockSecond.lampRun }

/-- The next monotonic second would wrap the second field. -/
def Part.tickNext (p : Part) : Bool := p.clock.set && !p.clock.atLimit && decide (59 ≤ p.clock.second)

/-- MINUTE_TICK: the monotonic second that wraps the second field (R85). -/
def Part.minuteTick (p : Part) : Part := if p.tickNext then p.toNextSecond.minuteAdvance else p

def execMinuteTick (s : State) : Host.Outcome State Fault Refusal :=
  .next { s with part := s.part.minuteTick.lampRun }

/-- The REL, the ALT and the CEN take the oldest tick handed to them, at the minute it carries (R32, R114, R121; log 4). -/
def Part.relTick (p : Part) : Part :=
  match p.tickRel with
  | [] => p
  | m :: rest => { p with tickRel := rest }.authExpireAll m

def Part.altTick (p : Part) : Part :=
  match p.tickAlt with
  | [] => p
  | m :: rest => { p with tickAlt := rest }.reAlertAll m

def Part.cenTakeTick (p : Part) : Part :=
  match p.tickCen with
  | [] => p
  | m :: rest => { p with tickCen := rest }.cenTick m

/-- Every tick still to be taken is carried out: the REL's, the ALT's, the CEN's, each oldest first (R88; log 4). -/
def Part.takeTicks (p : Part) : Part :=
  let q := p.tickRel.foldl Part.authExpireAll { p with tickRel := [], tickAlt := [], tickCen := [] }
  p.tickCen.foldl Part.cenTick (p.tickAlt.foldl Part.reAlertAll q)

/-- AUTH_EXPIRY (R32). -/
def execAuthExpiry (s : State) : Host.Outcome State Fault Refusal :=
  .next { s with part := s.part.relTick.lampRun }

/-- RE_ALERT (R114). -/
def execReAlert (s : State) : Host.Outcome State Fault Refusal :=
  .next { s with part := s.part.altTick.lampRun }

/-- SCHEDULED_CENSUS_START (R121). -/
def execScheduledCensusStart (s : State) : Host.Outcome State Fault Refusal :=
  .next { s with part := s.part.cenTakeTick.lampRun }

/-- The day offset that gives minute-of-day w at a branch minute (R88). -/
def dayOffsetFor (minute w : Nat) : Nat := (w + 1440 - minute % 1440) % 1440

/-- A TIME_SET that is carried out: the ticks made before it, the clock, then one minute tick at the new minute (R88, R89). At
that tick the zone and the tiers are reworked first, then the REL, the ALT and the CEN take it, in that order (log 4); the ALT
re-alerts the entries at or below the new minute and no other, at the first TIME_SET too (log 47). -/
def Part.setTime (p : Part) (minute second w : Nat) : Part :=
  let q := { p.takeTicks with clock := ⟨true, minute, second, dayOffsetFor minute w, false⟩ }
  let q := ((q.clearFlag flagClockUnset).clearFlag flagClockLimit).limitCheck
  ((((q.zoneRun.recomputeTiers.authExpireAll minute).reAlertAll minute).clampReAlerts).cenTick minute).cenClamp

/-- GUIDE_EXPIRY (R25). -/
def Part.guideExpire (p : Part) (s : Nat) : Part :=
  if ((p.row s).bind (·.guide)).any (fun t => decide (t ≤ p.mono)) then
    (p.onRow s (fun r => { r with guide := none })).touchSlot s
  else p

def execGuideExpiry (slot : Nat) (s : State) : Host.Outcome State Fault Refusal :=
  .next { s with part := (s.part.guideExpire slot).lampRun }

end Sys2Proof.Machine
end

