-- ==== Sys2Proof/Machine/Link.lean ====
section
/-! DEFINITION. The Branch Link Port: the receiver (R173 to R175), the Inbound Queue (R176), the transmitter (R172),
the waiting owners' turn (R180), the link watch (R181, R182), and POWER_ON (R199, R200). -/

namespace Sys2Proof.Machine
open Sys2Proof

def Part.onLink (p : Part) (f : Link → Link) : Part := { p with link := f p.link }

/-- A link counter goes up. -/
def Part.linkCount (p : Part) (f : LinkCounters → LinkCounters) : Part :=
  p.onLink (fun l => { l with counters := f l.counters })

/-- The receiver's state. -/
def Part.setRx (p : Part) (r : Receiver) : Part := p.onLink (fun l => { l with rx := r })

/-! ## The receiver -/

/-- The two sync bytes (chapter 9.1). -/
def syncFirst : Byte := 0xC5#8
def syncSecond : Byte := 0x3A#8

/-- In HUNT the receiver goes on with start as the possible start of a pair; stray is whether some byte has turned out to be
no part of one: the first such byte of a run counts in SYNC_ERROR (R173). -/
def Part.huntOn (p : Part) (run stray start : Bool) : Part :=
  let q := p.setRx (.hunt (run || stray) start)
  if stray && !run then q.linkCount (fun c => { c with syncError := satUp c.syncError }) else q

/-- SYNC_ERROR: a byte received in HUNT that completes no sync pair. A 0xC5 may start one; with any other byte, and at a second
0xC5 the first, is no part of a pair (R173). -/
def Part.syncError (p : Part) (b : Byte) : Part :=
  match p.link.rx with
  | .hunt run start => if start && b == syncSecond then p else p.huntOn run (start || b != syncFirst) (b == syncFirst)
  | _ => p

/-- SYNC_PAIR_FOUND: the byte 0x3A after 0xC5, from HUNT to HEADER (R173). -/
def Part.syncPair (p : Part) : Part :=
  match p.link.rx with
  | .hunt _ true => p.setRx (.header [] p.mono)
  | _ => p

/-- The receiver is in HUNT again, with no run in progress (R173). -/
def Part.huntAgain (p : Part) : Part := p.setRx (.hunt false false)

/-- FRAMING_ERROR: counted; in HUNT a byte that is not part of a sync pair, else the frame is abandoned (R173, R175). -/
def Part.framingError (p : Part) : Part :=
  let q := p.linkCount (fun c => { c with framingError := satUp c.framingError })
  match p.link.rx with
  | .hunt run _ => q.huntOn run true false
  | _ => q.huntAgain

/-- The bytes a row gives of a group of which some have been received: the next ones, in order, and no other (log 6). -/
def nextBytes (had : Nat) (row : List (Option Byte)) : Option (List Byte) :=
  let new := ((row.drop had).takeWhile Option.isSome).filterMap id
  if new ≠ [] ∧ row = List.replicate had none ++ new.map some ++ List.replicate (row.length - had - new.length) none then
    some new
  else none

/-- A header is complete: the header check, the length, the next state (R174). -/
def Part.headerJudged (p : Part) (h : Header) : Part :=
  match h.judge with
  | none => p.huntAgain.linkCount (fun c => { c with headerUncorrectable := satUp c.headerUncorrectable })
  | some (g, corrected) =>
    let q := if corrected then p.linkCount (fun c => { c with headerCorrected := satUp c.headerCorrected }) else p
    if Config.maxPayload < g.len.toNat then q.huntAgain.linkCount (fun c => { c with lengthError := satUp c.lengthError })
    else if g.len = 0#8 then q.setRx (.check g [] [] p.mono)
    else q.setRx (.payload g [] p.mono)

/-- HEADER_RECEIVED: the next bytes of the header; with the fifth it is complete (R174). -/
def Part.headerReceived (p : Part) (row : List (Option Byte)) : Part :=
  match p.link.rx with
  | .header got _ =>
    match (nextBytes got.length row).map (got ++ ·) with
    | none => p
    | some [dest, origin, kind, len, check] => p.headerJudged ⟨dest, origin, kind, len, check⟩
    | some all => p.setRx (.header all p.mono)
  | _ => p

/-- PAYLOAD_RECEIVED: the next bytes of the payload; with as many as the length gives it is complete (R175). -/
def Part.payloadReceived (p : Part) (bs : List Byte) : Part :=
  match p.link.rx with
  | .payload h got _ =>
    let all := got ++ bs
    if bs = [] ∨ h.len.toNat < all.length then p
    else if all.length = h.len.toNat then p.setRx (.check h all [] p.mono)
    else p.setRx (.payload h all p.mono)
  | _ => p

/-- The time of the last byte of a frame in progress. -/
def Receiver.lastByte : Receiver → Option Nat
  | .hunt _ _ => none
  | .header _ t => some t
  | .payload _ _ t => some t
  | .check _ _ _ t => some t

/-- 20 ms have passed since the last byte of a frame in progress (R175). -/
def Part.byteOverdue (p : Part) : Bool := p.link.rx.lastByte.any (fun t => decide (t + Config.byteGap ≤ p.mono))

/-- FRAME_TRUNCATED: 20 ms without a byte (R175). -/
def Part.frameTruncated (p : Part) : Part :=
  if p.byteOverdue then p.huntAgain.linkCount (fun c => { c with truncated := satUp c.truncated }) else p

/-- A destination whose frames are offered to the Inbound Queue (R175). -/
def destTaken (d : Nat) : Bool :=
  d == 0 || d == 255 || decide (0x41 ≤ d ∧ d ≤ 0x5E) || decide (0x81 ≤ d ∧ d ≤ 0x9E)

/-- A valid frame is offered to the Inbound Queue (R176). -/
def Part.offerFrame (p : Part) (f : Frame) : Part :=
  if p.link.inbound.length < Config.inboundCap then p.onLink (fun l => { l with inbound := l.inbound ++ [f] })
  else (p.onLink (fun l => { l with overrunBit := true })).linkCount (fun c => { c with overrun := satUp c.overrun })

/-! ## The link watch -/

/-- The watch set afresh from the policy (R181). -/
def Part.watchAfresh (p : Part) : Part :=
  p.onLink (fun l => { l with
    watch := if p.policy.linkWatch = 0 then .off else .watching (p.mono + 1000 * p.policy.linkWatch) })

/-- LINK_RESTORED: the time of expiry and the whole seconds of silence (R182). -/
def linkRestored (expired now : Nat) : Report :=
  ⟨.linkRestored, broadcast, beBytes 6 expired ++ beBytes 4 ((now - expired) / 1000)⟩

/-- A valid frame acts on the watch (R181, R182). -/
def Part.watchFrame (p : Part) : Part :=
  match p.link.watch with
  | .off => p
  | .watching _ => p.onLink (fun l => { l with watch := .watching (p.mono + 1000 * p.policy.linkWatch) })
  | .silent e =>
    ((p.remove .linkSilent .none).offerOrd (linkRestored e p.mono)).onLink (fun l => { l with
      watch := .watching (p.mono + 1000 * p.policy.linkWatch) })

/-- A frame is complete: the CRC, the watch, the destination (R175). -/
def Part.frameJudged (p : Part) (h : Header) (bs : List Byte) (hi lo : Byte) : Part :=
  let q := p.huntAgain
  if frameCrc h bs = hi ++ lo then
    let q := q.watchFrame
    if destTaken h.dest.toNat then q.offerFrame ⟨h.dest.toNat, h.origin.toNat, h.kind.toNat, bs⟩ else q
  else q.linkCount (fun c => { c with crcError := satUp c.crcError })

/-- FRAME_RECEIVED: the next bytes of the CRC; with the second the frame is complete (R175). -/
def Part.frameReceived (p : Part) (row : List (Option Byte)) : Part :=
  match p.link.rx with
  | .check h bs crc _ =>
    match (nextBytes crc.length row).map (crc ++ ·) with
    | none => p
    | some [hi, lo] => p.frameJudged h bs hi lo
    | some all => p.setRx (.check h bs all p.mono)
  | _ => p

/-- LINK_WATCH_EXPIRY (R181, R190). -/
def Part.watchExpire (p : Part) : Part :=
  match p.link.watch with
  | .watching e =>
    if p.mono < e then p
    else
      let q := (p.onLink (fun l => { l with watch := .silent e })).raise .linkSilent .none none
      let q := ((q.clearOverrides allModules).testEnd).trackDropAll
      { q with holdSeq := .idle }
  | _ => p

/-! ## The Report Queue's other end -/

/-- A report waits, the transmitter is idle and the clear-to-send input asserted: the head report is begun (R172). -/
def Link.maySend (l : Link) : Bool := l.cts && l.tx.isNone && !l.reports.isEmpty

/-- The transmitter begins the head report, if it may (R172). -/
def Link.sendHead (l : Link) : Link :=
  if l.maySend then { l with tx := l.reports.head?.map Report.frame } else l

/-- CLEAR_TO_SEND_ASSERTED: the transmitter finds the input at a level; asserted, it begins the head report (R172; log 7). -/
def Part.ctsFound (p : Part) (asserted : Bool) : Part := p.onLink (fun l => { l with cts := asserted }.sendHead)

/-- REPORT_SENT: the head report leaves; below 32 the loss episode ends (R172, R179). -/
def Part.reportSent (p : Part) : Part :=
  p.onLink (fun l => match l.tx, l.reports with
    | some _, _ :: rest =>
      { l with tx := none, reports := rest, lossEpisode := l.lossEpisode && decide (Config.episodeEnd ≤ rest.length) }
    | _, _ => l)

/-- The oldest waiting owner's turn is over. -/
def Part.popWaiter (p : Part) : Part := p.onLink (fun l => { l with waiters := l.waiters.drop 1 })

/-- The next report of a waiting owner enters, and the owner goes on (R180, R111). -/
def Part.ownerEnters (p : Part) (w : Waiter) : Part :=
  match w with
  | .rental i =>
    match (Table.look p.rentals i).bind (fun r => r.snap.map (fun x => (r, x))) with
    | some (r, x) => (p.popWaiter.enter (p.returnReport i r x)).freeRental i
    | none => p.popWaiter
  | .context c =>
    match (Table.look p.ctxs c).bind (·.held) with
    | some r => (p.popWaiter.enter r).freeCtx c
    | none => p.popWaiter
  | .waitEntry id =>
    match (p.waitQ.find? (fun e => e.id == id)).bind (·.ended) with
    | some r => { p.popWaiter.enter r with waitQ := p.waitQ.filter (fun e => e.id != id) }
    | none => p.popWaiter
  | .alertPlace i =>
    let pend := (p.alt.entryAt i).bind (fun e => e.pending.map (fun f => (e, f)))
    match Table.look p.alt.notices i, pend with
    | some n, some _ => { p.enter n with alt := { p.alt with notices := Table.del p.alt.notices i } }
    | some n, none => { p.popWaiter.enter n with alt := { p.alt with notices := Table.del p.alt.notices i } }
    | none, some (e, f) =>
      { p.popWaiter.enter (p.alt.alertReport e f) with alt := p.alt.modify i (fun e => { e with pending := none }) }
    | none, none => p.popWaiter
  | .tracking e =>
    match (Table.look p.tfl.tracking e).map Track.state with
    | some (.answering r) => { p.popWaiter.enter r with tfl := { p.tfl with tracking := Table.del p.tfl.tracking e } }
    | _ => p.popWaiter
  | .tfl =>
    match p.tfl.held with
    | some r => { p.popWaiter.enter r with tfl := { p.tfl with held := none } }
    | none => p.popWaiter

/-- WAITING_OWNER_REPORT_ENTERS: a freed place goes to the oldest waiting owner (R180; log 8). -/
def Part.waitingEnters (p : Part) : Part :=
  match p.link.waiters with
  | [] => p
  | w :: _ => if p.link.reports.length < Config.reportCap then p.ownerEnters w else p

/-! ## Rows -/

/-- POWER_ON: every piece of state takes its power-on value and the strap is read (R199, R200; log 23). -/
def execPowerOn (strapHigh : Bool) (s : State) : Host.Outcome State Fault Refusal :=
  .next { s with part := Part.powerOn strapHigh }

def execHeaderReceived (dest origin kind len check : Option Byte) (s : State) : Host.Outcome State Fault Refusal :=
  .next { s with part := (s.part.headerReceived [dest, origin, kind, len, check]).lampRun }

def execFramingError (s : State) : Host.Outcome State Fault Refusal :=
  .next { s with part := s.part.framingError.lampRun }

def execSyncError (s : State) (byte : Byte := 0x00#8) : Host.Outcome State Fault Refusal :=
  .next { s with part := (s.part.syncError byte).lampRun }

def execFrameTruncated (s : State) : Host.Outcome State Fault Refusal :=
  .next { s with part := s.part.frameTruncated.lampRun }

def execFrameReceived (crcHigh crcLow : Option Byte) (s : State) : Host.Outcome State Fault Refusal :=
  .next { s with part := (s.part.frameReceived [crcHigh, crcLow]).lampRun }

def execLinkWatchExpiry (s : State) : Host.Outcome State Fault Refusal :=
  .next { s with part := s.part.watchExpire.lampRun }

def execClearToSendAsserted (s : State) (asserted : Bool := true) : Host.Outcome State Fault Refusal :=
  .next { s with part := (s.part.ctsFound asserted).lampRun }

def execReportSent (s : State) : Host.Outcome State Fault Refusal :=
  .next { s with part := s.part.reportSent.lampRun }

def execWaitingOwnerReportEnters (s : State) : Host.Outcome State Fault Refusal :=
  .next { s with part := s.part.waitingEnters.lampRun }

def execSyncPairFound (s : State) : Host.Outcome State Fault Refusal :=
  .next { s with part := s.part.syncPair.lampRun }

def execPayloadReceived (bytes : List Byte) (s : State) : Host.Outcome State Fault Refusal :=
  .next { s with part := (s.part.payloadReceived bytes).lampRun }

end Sys2Proof.Machine
end

