-- ==== Sys2Proof/Machine/Filter.lean ====
section
/-! DEFINITION. The Traffic Filter: which row a frame's taking is (R183; log 26), the checks of requests (R185), their
responses (R180, R185), the Hold Sequence reset (R24), and frames for modules (R186, R187). -/

namespace Sys2Proof.Machine
open Sys2Proof

/-! ## Which row takes a frame -/

/-- The request of a kind code, its options read from the payload (R203). -/
def requestRow (kind : Nat) (pl : List Byte) : Option Instr :=
  match kind with
  | 0x01 => some .keyAdd
  | 0x02 => some .keyDelete
  | 0x03 => some .keyQuery
  | 0x04 => some .keyHold
  | 0x05 => some .guide
  | 0x06 => some .holdRangeStart
  | 0x07 => some .holdRangeEnd
  | 0x08 => some .holdApply
  | 0x10 => some .authAdd
  | 0x11 => some .authDelete
  | 0x12 => some .clearLockout
  | 0x13 => some .release
  | 0x14 => some .pickup
  | 0x15 => some .serviceRelease
  | 0x16 => some .cancelRelease
  | 0x18 => some .rentalCloseManual
  | 0x20 => some .timeSet
  | 0x21 => some .extend
  | 0x22 => some .rentalQuery
  | 0x23 => some .overdueList
  | 0x28 => some .ackAlert
  | 0x29 => some .flagsRead
  | 0x2A => some .enableSet
  | 0x30 => some .censusStart
  | 0x31 => some .censusAbort
  | 0x32 => some .censusRead
  | 0x38 => some (match parseNum 1 pl with
    | some 1 => .lampControlBlankOff
    | some 2 => .lampControlTest
    | _ => .lampControlBlankOn)
  | 0x39 => some .lampRelease
  | 0x40 => some (match (parseChanByte pl).map (·.2) with
    | some 1 => .channelControlOff
    | some 2 => .channelControlReenumerate
    | _ => .channelControlOn)
  | 0x48 => some .tableWrite
  | 0x49 => some .tableRead
  | 0x4A => some .policySet
  | 0x4B => some .statusRead
  | 0x4C => some .countersRead
  | 0x4D => some (match parseNum 1 pl with
    | some 1 => .restartAll
    | _ => .restartLogic)
  | _ => none

/-- Kind code of TIME_SET. -/
def timeSetKind : Nat := 0x20

/-- A module destination, as its channel and address (chapter 9.1). -/
def destModule (d : Nat) : Option (Chan × Nat) :=
  if 0x41 ≤ d ∧ d ≤ 0x5E then some (.A, d - 0x40)
  else if 0x81 ≤ d ∧ d ≤ 0x9E then some (.B, d - 0x80)
  else none

/-- The row that the taking of a frame is (R183). -/
def tflRow (f : Frame) : Instr :=
  if f.origin < 1 ∨ 62 < f.origin then .tflFrameDropped
  else if f.dest = 0 then (requestRow f.kind f.payload).getD .unknownRequest
  else if f.dest = 255 then (if f.kind = timeSetKind then .broadcastTimeSet else .tflFrameDropped)
  else if (destModule f.dest).isSome then .moduleFrame
  else .tflFrameDropped

/-- The TFL, not stalled, takes the frame at the head of the Inbound Queue, if its taking is this row (R183; log 1). -/
def Part.tflRun (p : Part) (row : Instr) (act : Part → Frame → Part) : Part :=
  match p.link.inbound with
  | [] => p
  | f :: rest =>
    if p.tfl.held.isNone ∧ tflRow f = row then act (p.onLink (fun l => { l with inbound := rest })) f else p

/-! ## Responses -/

/-- A RESPONSE is offered; when it must wait the TFL stalls with it (R180, R185). -/
def Part.respond (p : Part) (r : Report) : Part :=
  if p.essRoom then p.enter r
  else
    let q : Part := { p with tfl := { p.tfl with held := some r } }
    q.await .tfl

/-- The answer to a request becomes its RESPONSE, offered after every report the request caused (R183, R185). -/
def Answer.send (a : Answer) (f : Frame) (seqReset : Bool) : Part :=
  a.part.respond (responseReport f.origin (reqTag f.payload) f.kind a.result (bit seqReset + 2 * bit a.removed) a.fields)

/-! ## Checks of a request -/

/-- The requests that leave the Hold Sequence record of their owner as it was (R24). -/
def sequenceExempt (kind : Nat) : Bool := [0x03, 0x06, 0x07, 0x08, 0x4B].contains kind

/-- The terminal owns a sequence in progress (R20). -/
def HoldSeq.ownedBy (h : HoldSeq) (t : Nat) : Bool :=
  match h with
  | .idle => false
  | .started o _ _ => o == t
  | .ended o _ _ _ => o == t

/-- A request of a kind allowed to COUNTER, KIOSK, OFFICE (R185). -/
def rolesAllowed (kind : Nat) : RoleSet :=
  match kind with
  | 0x03 | 0x04 | 0x05 => ⟨true, false, true⟩
  | 0x10 | 0x11 => ⟨true, false, true⟩
  | 0x13 => ⟨true, false, true⟩
  | 0x14 => ⟨false, true, false⟩
  | 0x16 => ⟨true, true, true⟩
  | 0x20 => ⟨true, true, true⟩
  | 0x21 | 0x22 | 0x23 => ⟨true, false, true⟩
  | 0x28 => ⟨true, false, true⟩
  | 0x32 => ⟨true, false, true⟩
  | 0x39 => ⟨true, true, true⟩
  | 0x4B => ⟨true, true, true⟩
  | _ => ⟨false, false, true⟩

/-- The rights a request requires: LOAD, MAINT (R185). -/
def rightsHeld (kind : Nat) (t : Terminal) : Bool :=
  match kind with
  | 0x20 | 0x2A | 0x48 | 0x49 | 0x4A | 0x4D => t.load
  | 0x39 => t.maint
  | _ => true

/-- The TFL's checks of a request (R185): the answer of the first that fails, if one does. -/
def Part.tflCheck (p : Part) (f : Frame) : Option Result :=
  let t := p.terminal f.origin
  if t.role = .none then some .refusedRole
  else if (requestRow f.kind f.payload).isNone then some .unknownRequest
  else if !(rolesAllowed f.kind).has t.role then some .refusedRole
  else if !rightsHeld f.kind t then some .refusedRight
  else none

/-- The Hold Sequence record after a request of this origin and kind reaches the TFL (R24). -/
def Part.sequenceStep (p : Part) (f : Frame) : Part :=
  if p.holdSeq.ownedBy f.origin && !sequenceExempt f.kind then { p with holdSeq := .idle } else p

/-- The request resets the Hold Sequence record: the flag SEQ_RESET of its response (R24). -/
def Part.sequenceReset (p : Part) (f : Frame) : Bool := p.holdSeq.ownedBy f.origin && !sequenceExempt f.kind

/-- A request is judged by the TFL, dealt with by its owner, and answered (R183, R185). -/
def Part.request (p : Part) (f : Frame) (owner : Part → Frame → Answer) : Part :=
  let q := p.sequenceStep f
  let a := match q.tflCheck f with
    | some r => q.refuse r
    | none => owner q f
  a.send f (p.sequenceReset f)

/-- A row that is the taking of a request. -/
def Part.requestRun (p : Part) (row : Instr) (owner : Part → Frame → Answer) : Part :=
  p.tflRun row (fun q f => q.request f owner)

/-! ## Frames for modules -/

/-- The Pass Table's action for a role and class (R186). -/
def Part.passAction (p : Part) (role : Role) (cls : ModClass) : PassAction :=
  match p.tfl.passTable.find? (fun e => e.2.role.all (fun r => r == role) && e.2.cls.all (fun c => c == cls)) with
  | some (_, e) => e.action
  | none => .dropReport

/-- PASS_REFUSED with a reason (R187, R204). The tag echoed is the second payload byte, the place of a module frame's tag,
whatever the kind of the frame, and 0 where there is none (log 48). -/
def Part.passRefuse (p : Part) (f : Frame) (reason : Nat) : Part :=
  p.respond (responseReport f.origin (byteAt f.payload 1) f.kind .passRefused 0 (beBytes 1 reason))

/-- PASS_DROPPED goes up. -/
def Part.passDropped (p : Part) : Part := p.linkCount (fun c => { c with passDropped := satUp c.passDropped })

/-- A frame is passed: Tracking entry, command queue, override (R187). -/
def Part.passOn (p : Part) (f : Frame) (c : Chan) (a e : Nat) (cls : ModClass) : Part :=
  let data := f.payload.drop 2
  let t : Track := ⟨.queued, f.origin, byteAt f.payload 1, c, a, cls, p.mono + Config.passLife⟩
  let q := { p with tfl := { p.tfl with tracking := Table.put p.tfl.tracking e t } }.onChan c (·.push (.passed a cls data e))
  if cls = .lampRaw then q.setOverride c a data else q

/-- Checks 4 to 9 of R187, for a class that may be passed. -/
def Part.judgePass (p : Part) (f : Frame) (c : Chan) (a : Nat) (cls : ModClass) : Part :=
  match p.passAction (p.terminal f.origin).role cls with
  | .drop => p.passDropped
  | .dropReport => p.passDropped.passRefuse f 4
  | .pass =>
    if !(p.terminal f.origin).maint then p.passRefuse f 5
    else if (p.chan c).state ≠ .running then p.passRefuse f 6
    else if (p.chan c).modState a ≠ .active then p.passRefuse f 7
    else match Table.lowestFree p.tfl.tracking Config.trackCap with
      | none => p.passRefuse f 8
      | some e => if !(p.chan c).otherRoom then p.passRefuse f 9 else p.passOn f c a e cls

/-- A frame for a module is judged (R187). -/
def Part.judgeModule (p : Part) (f : Frame) : Part :=
  match destModule f.dest with
  | none => p
  | some (c, a) =>
    let code := byteAt f.payload 0
    if f.kind ≠ moduleFrameKind ∨ f.payload.length < 2 ∨ 18 < f.payload.length
        ∨ ((parseClass code).isNone ∧ code ≠ lockRawCode) then p.passRefuse f 1
    else if (p.terminal f.origin).role = .none then p.passRefuse f 2
    else match parseClass code with
      | none => p.passRefuse f 3
      | some cls => p.judgePass f c a cls

/-! ## Rows -/

/-- TFL_FRAME_DROPPED: a bad origin, counted, or a broadcast that is not TIME_SET (R183). -/
def Part.dropFrame (p : Part) (f : Frame) : Part :=
  if f.origin < 1 ∨ 62 < f.origin then p.linkCount (fun c => { c with badOrigin := satUp c.badOrigin }) else p

def execTflFrameDropped (s : State) : Host.Outcome State Fault Refusal :=
  .next { s with part := (s.part.tflRun .tflFrameDropped Part.dropFrame).lampRun }

/-- UNKNOWN_REQUEST (R185; log 25). -/
def execUnknownRequest (s : State) : Host.Outcome State Fault Refusal :=
  .next { s with part := (s.part.requestRun .unknownRequest (fun q _ => q.refuse .unknownRequest)).lampRun }

/-- MODULE_FRAME (R187). -/
def execModuleFrame (s : State) : Host.Outcome State Fault Refusal :=
  .next { s with part := (s.part.tflRun .moduleFrame Part.judgeModule).lampRun }

end Sys2Proof.Machine
end

