-- ==== Sys2Proof/Machine/KeyRequests.lean ====
section
/-! DEFINITION. The requests of chapter 1: KEY_ADD, KEY_DELETE, KEY_QUERY, KEY_HOLD, the range hold, GUIDE. -/

namespace Sys2Proof.Machine
open Sys2Proof

/-! ## KEY_ADD -/

/-- Checks of KEY_ADD after its form (R15). -/
def Part.keyAddCheck (p : Part) (t cls : Nat) (home : Option Nat) : Option Result :=
  if t = 0 ∨ 15 < cls then some .badArgument
  else if home.any (fun h => (slotArg h).isNone || (p.slotEntry h).kind != .standard) then some .badArgument
  else if (p.keyByTag t).isSome then some .duplicate
  else if home.isSome && p.keys.any (fun e => e.2.home == home) then some .homeTaken
  else if (Table.lowestFree p.keys Config.handles).isNone then some .tableFull
  else none

/-- The lowest STANDARD slot whose settled occupancy is a tag id (R16). -/
def Part.slotHolding (p : Part) (t : Nat) : Option Nat := (p.rows.find? (fun e => e.2.occ == some (.tag t))).map (·.1)

/-- A new key enters handle h (R16). -/
def Part.keyEnter (p : Part) (h t vehicle cls : Nat) (home : Option Nat) : Part :=
  let k : KeyRec := ⟨t, vehicle, cls, home, .away, none, none, none, none, some .new⟩
  match p.slotHolding t with
  | some s => (p.setKey h (k.placed s p.now)).remove .foreign (.slot s)
  | none => p.setKey h k

/-- The state a new key enters (R16). -/
def Part.keyEnterState (p : Part) (t : Nat) (home : Option Nat) : KeyState :=
  match p.slotHolding t with
  | some s => if home.isNone || home == some s then .inn else .misplaced
  | none => .away

def Part.doKeyAdd (p : Part) (f : Frame) : Answer :=
  match parseKeyAdd f.payload with
  | none => p.refuse .badArgument
  | some (t, v, cls, home) =>
    match p.keyAddCheck t cls home with
    | some r => p.refuse r
    | none =>
      let h := (Table.lowestFree p.keys Config.handles).getD 0
      (p.keyEnter h t v cls home).answer .ok (beBytes 2 h ++ beBytes 1 (p.keyEnterState t home).code)

/-- KEY_ADD (R15, R16). -/
def execKeyAdd (s : State) : Host.Outcome State Fault Refusal :=
  .next { s with part := (s.part.requestRun .keyAdd Part.doKeyAdd).lampRun }

/-! ## KEY_DELETE -/

/-- A handle becomes free, its TAKEN alert and any other entry with the handle as subject removed (R17, R105). -/
def Part.keyFree (p : Part) (h : Nat) (k : KeyRec) : Part :=
  let q := if k.state = .dropped then p.dropOut h else p
  let q := q.removeSubject (.key h)
  { q with keys := Table.del q.keys h }.touchSlotO k.home

def Part.doKeyDelete (p : Part) (f : Frame) : Answer :=
  match parseNum 4 f.payload with
  | none => p.refuse .badArgument
  | some t =>
    match p.keyByTag t with
    | none => p.refuse .notFound
    | some (h, k) =>
      if k.state.located then p.refuse .inCabinet
      else if k.state = .out ∨ p.rentals.any (fun e => e.2.snap.isSome && e.2.key == h) then p.refuse .inUse
      else (p.keyFree h k).answer .ok (beBytes 2 h)

/-- KEY_DELETE (R17). -/
def execKeyDelete (s : State) : Host.Outcome State Fault Refusal :=
  .next { s with part := (s.part.requestRun .keyDelete Part.doKeyDelete).lampRun }

/-! ## KEY_QUERY -/

/-- The place of a key in the Drop Bin list, counted from 1 (R18). -/
def Part.dropPlace (p : Part) (h : Nat) : Option (Nat × DropEntry) :=
  (p.dropBin.zipIdx.find? (fun e => e.1.key == h)).map (fun e => (e.2 + 1, e.1))

/-- A row's lock as a named value; UNKNOWN is 3 (R6). -/
def lockName (l : Option LockState) : Nat := (l.map LockState.code).getD 3

/-- The fields of KEY_QUERY (R18; log 10). The lock and the context bit of a key that is not located, and the slot, minute and place
of one that is not DROPPED, are sent as absent or 0 (log 10). -/
def Part.keyFields (p : Part) (h : Nat) (k : KeyRec) : List Byte :=
  let drop := p.dropPlace h
  let number := (p.rentalOf k).map (fun x => x.2.number)
  let row := k.loc.bind p.row
  beBytes 1 (bit k.inSince.isSome + 2 * bit drop.isSome) ++ beBytes 2 h ++ beBytes 4 k.tag ++ beBytes 3 k.vehicle
    ++ beBytes 1 k.cls ++ beSlot k.home ++ beBytes 1 k.state.code ++ beSlot k.loc ++ beBytes 3 (k.inSince.getD 0)
    ++ beName (k.hold.map HoldReason.code) ++ beName (k.away.map AwayCause.code) ++ beIndex k.rental
    ++ beBytes 4 (number.getD 0) ++ beName (row.map (fun r => lockName r.lock))
    ++ beBytes 1 (bit (row.any (fun r => r.ctx.isSome)))
    ++ beSlot (drop.map (fun d => d.2.slot)) ++ beBytes 3 ((drop.map (fun d => d.2.minute)).getD 0)
    ++ beBytes 1 ((drop.map (·.1)).getD 0)

/-- A handle or a tag of no key record is NOT_FOUND (R18). A foreign tag is seen in the slot's row where it stands (R69): the answer
then gives that slot (log 54). -/
def Part.doKeyQuery (p : Part) (f : Frame) : Answer :=
  match parseForm f.payload with
  | none => p.refuse .badArgument
  | some (byHandle, n) =>
    match (if byHandle then (Table.look p.keys n).map (fun k => (n, k)) else p.keyByTag n) with
    | none =>
      match (if byHandle then none else p.slotHolding n) with
      | some s => p.answer .notFound (beBytes 2 s)
      | none => p.refuse .notFound
    | some (h, k) => p.answer .ok (p.keyFields h k)

/-- KEY_QUERY (R18). -/
def execKeyQuery (s : State) : Host.Outcome State Fault Refusal :=
  .next { s with part := (s.part.requestRun .keyQuery Part.doKeyQuery).lampRun }

/-! ## KEY_HOLD -/

def Part.doKeyHold (p : Part) (f : Frame) : Answer :=
  match parseKeyHold f.payload with
  | none => p.refuse .badArgument
  | some (t, reason) =>
    match p.keyByTag t with
    | none => p.refuse .notFound
    | some (h, k) => (p.setKey h { k with hold := reason }).answer .ok (beName (k.hold.map HoldReason.code))

/-- KEY_HOLD (R19). -/
def execKeyHold (s : State) : Host.Outcome State Fault Refusal :=
  .next { s with part := (s.part.requestRun .keyHold Part.doKeyHold).lampRun }

/-! ## GUIDE -/

def Part.doGuide (p : Part) (f : Frame) : Answer :=
  match parseNum 4 f.payload with
  | none => p.refuse .badArgument
  | some t =>
    match p.keyByTag t with
    | none => p.refuse .notFound
    | some (_, k) =>
      match k.home with
      | none => p.refuse .noHome
      | some s =>
        if (p.slotEntry s).kind ≠ .standard then p.refuse .noHome
        else ((p.onRow s (fun r => { r with guide := some (p.mono + Config.guideTime) })).touchSlot s).answer .ok
          (beBytes 2 s)

/-- GUIDE (R25). -/
def execGuide (s : State) : Host.Outcome State Fault Refusal :=
  .next { s with part := (s.part.requestRun .guide Part.doGuide).lampRun }

/-! ## The range hold -/

/-- The record is reset. -/
def Part.holdReset (p : Part) : Part := { p with holdSeq := .idle }

/-- HOLD_RANGE_START (R21; log 27). -/
def Part.doHoldStart (p : Part) (f : Frame) : Answer :=
  let own := p.holdSeq.ownedBy f.origin
  match parseRangeStart f.payload with
  | none => (if own && f.payload.length == 4 then p.holdReset else p).refuse .badArgument
  | some (s, r) =>
    if p.holdSeq = .idle ∨ own then { p with holdSeq := .started f.origin s r }.answer .ok [] else p.refuse .busy

def execHoldRangeStart (s : State) : Host.Outcome State Fault Refusal :=
  .next { s with part := (s.part.requestRun .holdRangeStart Part.doHoldStart).lampRun }

/-- HOLD_RANGE_END (R22; log 27). -/
def Part.doHoldEnd (p : Part) (f : Frame) : Answer :=
  if f.payload.length ≠ 3 then p.refuse .badArgument
  else match p.holdSeq with
    | .idle => p.refuse .sequenceError
    | .started o a r =>
      if o ≠ f.origin then p.refuse .sequenceError
      else match parseRangeEnd f.payload with
        | none => p.holdReset.refuse .badArgument
        | some b => if b < a then p.holdReset.refuse .sequenceError else { p with holdSeq := .ended o a b r }.answer .ok []
    | .ended o _ _ _ =>
      if o ≠ f.origin then p.refuse .sequenceError
      else match parseRangeEnd f.payload with
        | none => p.holdReset.refuse .badArgument
        | some _ => p.holdReset.refuse .sequenceError

def execHoldRangeEnd (s : State) : Host.Outcome State Fault Refusal :=
  .next { s with part := (s.part.requestRun .holdRangeEnd Part.doHoldEnd).lampRun }

/-- The key's home lies in the range (R23). -/
def KeyRec.homeIn (k : KeyRec) (a b : Nat) : Bool := k.home.any (fun h => decide (a ≤ h ∧ h ≤ b))

/-- The hold is set on every key of the range but those in RELEASING (R23). -/
def Part.holdRange (p : Part) (a b : Nat) (r : HoldReason) : Part :=
  (p.keys.filter (fun e => e.2.homeIn a b && e.2.state != .releasing)).foldl
    (fun q e => q.setKey e.1 { e.2 with hold := some r }) p

/-- HOLD_APPLY (R23): two bytes for the keys held and one for those skipped, of which there are at most four (R42, R201; log
10). -/
def Part.doHoldApply (p : Part) (f : Frame) : Answer :=
  if f.payload.length ≠ 1 then p.refuse .badArgument
  else match p.holdSeq with
    | .idle => p.refuse .sequenceError
    | .started o _ _ => if o ≠ f.origin then p.refuse .sequenceError else p.holdReset.refuse .sequenceError
    | .ended o a b r =>
      if o ≠ f.origin then p.refuse .sequenceError
      else
        let inRange := p.keys.filter (fun e => e.2.homeIn a b)
        let held := inRange.filter (fun e => e.2.state != .releasing)
        ((p.holdRange a b r).holdReset).answer .ok
          (beBytes 2 held.length ++ beBytes 1 (inRange.length - held.length))

def execHoldApply (s : State) : Host.Outcome State Fault Refusal :=
  .next { s with part := (s.part.requestRun .holdApply Part.doHoldApply).lampRun }

end Sys2Proof.Machine
end

