-- ==== Sys2Proof/Machine/ReleaseRequests.lean ====
section
/-! DEFINITION. The requests of chapter 2: AUTH_ADD, AUTH_DELETE, CLEAR_LOCKOUT, RELEASE, PICKUP, SERVICE_RELEASE,
CANCEL_RELEASE. -/

namespace Sys2Proof.Machine
open Sys2Proof

/-! ## Authorizations -/

/-- Checks 2 to 6 of AUTH_ADD (R28). -/
def Part.authAddCheck (p : Part) (a : Auth) : Option Result :=
  if (p.auth a.rental).isSome || (p.rentalByNumber a.rental).isSome then some .duplicate
  else if Config.authCap ≤ p.auths.length then some .tableFull
  else match a.target with
    | .cls _ => none
    | .key h =>
      match Table.look p.keys h with
      | none => some .notFound
      | some k =>
        if k.state ≠ .inn ∧ k.state ≠ .misplaced then some .notAvailable
        else if k.hold.isSome then some .held
        else none

/-- The named key goes to ASSIGNED (R29). -/
def Part.assignKey (p : Part) (t : Target) : Part :=
  match t with
  | .cls _ => p
  | .key h =>
    match Table.look p.keys h with
    | some k => p.setKey h { k with state := .assigned }
    | none => p

/-- The authorization is entered (R29). -/
def Part.authEnter (p : Part) (a : Auth) (origin : Nat) : Part :=
  { p with auths := p.auths ++ [{ a with attempts := p.policy.attempts, origin := origin }] }.assignKey a.target

def Part.doAuthAdd (p : Part) (f : Frame) : Answer :=
  match parseAuthAdd f.payload with
  | none => p.refuse .badArgument
  | some a =>
    match p.authAddCheck a with
    | some r => p.refuse r
    | none => (p.authEnter a f.origin).answer .ok (beBytes 1 (p.auths.length + 1))

/-- AUTH_ADD (R28, R29). -/
def execAuthAdd (s : State) : Host.Outcome State Fault Refusal :=
  .next { s with part := (s.part.requestRun .authAdd Part.doAuthAdd).lampRun }

def Part.doAuthDelete (p : Part) (f : Frame) : Answer :=
  match parseNum 4 f.payload with
  | none => p.refuse .badArgument
  | some n =>
    match p.auth n with
    | none => p.refuse .notFound
    | some a =>
      if a.state = .active then p.refuse .activeRelease
      else ((((p.delAuth n).restoreTarget a.target).remove .lockout (.rental n)).endQueued n .notFound).answer .ok []

/-- AUTH_DELETE (R30). -/
def execAuthDelete (s : State) : Host.Outcome State Fault Refusal :=
  .next { s with part := (s.part.requestRun .authDelete Part.doAuthDelete).lampRun }

def Part.doClearLockout (p : Part) (f : Frame) : Answer :=
  match parseNum 4 f.payload with
  | none => p.refuse .badArgument
  | some n =>
    match p.auth n with
    | none => p.refuse .notFound
    | some a =>
      if a.state ≠ .lockedOut then p.refuse .notLockedOut
      else ((p.onAuth n (fun a => { a with state := .waiting, attempts := p.policy.attempts })).remove .lockout
        (.rental n)).answer .ok []

/-- CLEAR_LOCKOUT (R31). -/
def execClearLockout (s : State) : Host.Outcome State Fault Refusal :=
  .next { s with part := (s.part.requestRun .clearLockout Part.doClearLockout).lampRun }

/-! ## Starting a release -/

/-- A request whose checks pass, but for a context, is queued (R39; log 12). -/
def Part.queueRelease (p : Part) (q : RelReq) : Answer :=
  if p.inQueue q.subject then p.refuse .alreadyActive
  else if Config.waitCap ≤ p.waitQ.length then p.refuse .busy
  else
    let r : Part := { p with waitQ := p.waitQ ++ [⟨p.nextId, q, none⟩], nextId := p.nextId + 1 }
    r.answer .queued (beBytes 1 (p.waitQ.length + 1))

/-- The last check: a context is FREE (R37, R39, R43). -/
def Part.startRelease (p : Part) (q : RelReq) (g : Grant) : Answer :=
  match p.freeContext with
  | none => p.queueRelease q
  | some i =>
    (p.startCtx i q g).answer .started (beBytes 1 i ++ (match q.kind with
      | .service => beBytes 2 g.1
      | _ => beIndex g.2.1 ++ beBytes 2 g.1))

/-- The release request of a frame. -/
def Part.relReq (p : Part) (f : Frame) (kind : RelKind) (s : RelSubject) : RelReq :=
  ⟨kind, s, f.origin, (p.terminal f.origin).role, reqTag f.payload⟩

def Part.doRelease (p : Part) (f : Frame) : Answer :=
  match parseNum 4 f.payload with
  | none => p.refuse .badArgument
  | some n =>
    if !p.clock.set then p.refuse .noTime
    else match p.relAuth n true with
      | .error r => p.refuse r
      | .ok a =>
        match p.relGrant a (p.terminal f.origin).role with
        | .error r => p.refuse r
        | .ok g => p.startRelease (p.relReq f .release (.rental n)) g

/-- RELEASE (R37). -/
def execRelease (s : State) : Host.Outcome State Fault Refusal :=
  .next { s with part := (s.part.requestRun .release Part.doRelease).lampRun }

/-- A wrong code is charged (R34). -/
def Part.wrongCode (p : Part) (a : Auth) : Answer :=
  let left := a.attempts - 1
  if left = 0 then
    ((p.onAuth a.rental (fun a => { a with attempts := 0, state := .lockedOut })).raise .lockout (.rental a.rental) none).refuse
      .lockedOut
  else (p.onAuth a.rental (fun a => { a with attempts := left })).answer .badCode (beBytes 1 left)

def Part.doPickup (p : Part) (f : Frame) : Answer :=
  match parsePickup f.payload with
  | none => p.refuse .badArgument
  | some (n, code) =>
    if !p.clock.set then p.refuse .noTime
    else match p.relAuth n true with
      | .error r => p.refuse r
      | .ok a =>
        match a.code with
        | none => p.refuse .codeNotSet
        | some want =>
          if want ≠ code then p.wrongCode a
          else match p.relGrant a (p.terminal f.origin).role with
            | .error r => p.refuse r
            | .ok g => p.startRelease (p.relReq f .pickup (.rental n)) g

/-- PICKUP (R34, R38). -/
def execPickup (s : State) : Host.Outcome State Fault Refusal :=
  .next { s with part := (s.part.requestRun .pickup Part.doPickup).lampRun }

def Part.doServiceRelease (p : Part) (f : Frame) : Answer :=
  match parseForm f.payload with
  | none => p.refuse .badArgument
  | some (bySlot, n) =>
    let sub : RelSubject := if bySlot then .slot n else .tag n
    match p.serviceGrant sub with
    | .error r => p.refuse r
    | .ok g => p.startRelease (p.relReq f .service sub) g

/-- SERVICE_RELEASE (R41). -/
def execServiceRelease (s : State) : Host.Outcome State Fault Refusal :=
  .next { s with part := (s.part.requestRun .serviceRelease Part.doServiceRelease).lampRun }

/-! ## CANCEL_RELEASE -/

/-- The context in OPENING, OPEN or REMOVED_SETTLING that carries a rental number (R55). -/
def Part.ctxFor (p : Part) (n : Nat) : Option (Nat × Ctx) :=
  p.ctxs.find? (fun e => e.2.req.subject == .rental n && e.2.state.releasing)

/-- The terminal may cancel a request: its origin, or an OFFICE terminal (R55). -/
def Part.mayCancel (p : Part) (f : Frame) (q : RelReq) : Bool :=
  q.origin == f.origin || (p.terminal f.origin).role == .office

def Part.doCancelRelease (p : Part) (f : Frame) : Answer :=
  match parseNum 4 f.payload with
  | none => p.refuse .badArgument
  | some n =>
    match p.liveFor n with
    | some w => if p.mayCancel f w.req then (p.endEntry w .cancelled).answer .cancelled [] else p.refuse .notOrigin
    | none =>
      match p.ctxFor n with
      | none => p.refuse .notActive
      | some (i, c) =>
        if !p.mayCancel f c.req then p.refuse .notOrigin
        else if c.state = .removedSettling then p.refuse .tooLate
        else (p.giveUp i c .cancelled).answer .ok []

/-- CANCEL_RELEASE (R55). -/
def execCancelRelease (s : State) : Host.Outcome State Fault Refusal :=
  .next { s with part := (s.part.requestRun .cancelRelease Part.doCancelRelease).lampRun }

end Sys2Proof.Machine
end

