-- ==== Sys2Proof/Machine/RentalRequests.lean ====
section
/-! DEFINITION. RENTAL_CLOSE_MANUAL (R76), TIME_SET and its broadcast (R88, R89), EXTEND, RENTAL_QUERY, OVERDUE_LIST
(R100 to R102). -/

namespace Sys2Proof.Machine
open Sys2Proof

/-! ## RENTAL_CLOSE_MANUAL -/

/-- The snapshot of a manual close (R76). -/
def Part.manualSnap (p : Part) (r : Rental) : Snapshot :=
  r.assess p.now p.policy.blockLen p.policy.blocksCap none .away false true false

/-- An OPEN rental is closed by hand (R76). -/
def Part.closeManual (p : Part) (i : Nat) (r : Rental) : Part :=
  let q := match Table.look p.keys r.key with
    | some k => p.setKey r.key (k.gone .away none (some .manualClose))
    | none => p
  q.closeRental i r (p.manualSnap r)

def Part.doCloseManual (p : Part) (f : Frame) : Answer :=
  match parseNum 4 f.payload with
  | none => p.refuse .badArgument
  | some n =>
    match p.rentalByNumber n with
    | none => p.refuse .notFound
    | some (i, r) =>
      if r.snap.isSome then p.refuse .notOpen
      else
        let x := p.manualSnap r
        (p.closeManual i r).answer .ok (beBytes 1 x.cls.code ++ beBytes 1 x.lateDays ++ beBytes 1 x.lateBlocks)

/-- RENTAL_CLOSE_MANUAL (R76). -/
def execRentalCloseManual (s : State) : Host.Outcome State Fault Refusal :=
  .next { s with part := (s.part.requestRun .rentalCloseManual Part.doCloseManual).lampRun }

/-! ## TIME_SET -/

def Part.doTimeSet (p : Part) (f : Frame) : Answer :=
  match parseTimeSet f.payload with
  | none => p.refuse .badArgument
  | some (m, sec, w) =>
    let q := p.setTime m sec w
    q.answer .ok (beBytes 3 p.clock.minute ++ beBytes 1 (bit (!p.clock.set)) ++ beBytes 2 q.clock.minuteOfDay
      ++ beBytes 1 q.zone.code)

/-- TIME_SET (R88). -/
def execTimeSet (s : State) : Host.Outcome State Fault Refusal :=
  .next { s with part := (s.part.requestRun .timeSet Part.doTimeSet).lampRun }

/-- A broadcast TIME_SET is carried out for a terminal with LOAD, or discarded (R89; log 35). -/
def Part.broadcastTime (p : Part) (f : Frame) : Part :=
  if !(p.terminal f.origin).load then p
  else match parseTimeSet f.payload with
    | none => p
    | some (m, sec, w) => p.setTime m sec w

/-- BROADCAST_TIME_SET (R89). -/
def execBroadcastTimeSet (s : State) : Host.Outcome State Fault Refusal :=
  .next { s with part := (s.part.tflRun .broadcastTimeSet Part.broadcastTime).lampRun }

/-! ## EXTEND -/

/-- A rental is extended: due minute, count, place in the Due List, tier (R100). -/
def Part.extendRental (p : Part) (i : Nat) (r : Rental) (d : Nat) : Part :=
  ({ p with rentals := Table.put p.rentals i { r with due := d, extensions := r.extensions + 1 } }.dueInsert i).recomputeTier i

def Part.doExtend (p : Part) (f : Frame) : Answer :=
  match parseExtend f.payload with
  | none => p.refuse .badArgument
  | some (n, d) =>
    match p.rentalByNumber n with
    | none => p.refuse .notFound
    | some (i, r) =>
      if r.snap.isSome then p.refuse .notOpen
      else if 9 ≤ r.extensions then p.refuse .limit
      else if d < r.out then p.refuse .badArgument
      else
        let q := p.extendRental i r d
        q.answer .ok (beBytes 3 d ++ beBytes 1 (r.extensions + 1) ++ beBytes 1 (q.tierNow { r with due := d }).code)

/-- EXTEND (R100). -/
def execExtend (s : State) : Host.Outcome State Fault Refusal :=
  .next { s with part := (s.part.requestRun .extend Part.doExtend).lampRun }

/-! ## RENTAL_QUERY -/

/-- The snapshot fields (log 10). -/
def Snapshot.bytes (x : Snapshot) : List Byte :=
  beBytes 3 x.ret ++ beSlot x.place ++ beBytes 1 x.cls.code ++ beBytes 3 x.lateMinutes ++ beBytes 1 x.lateDays
    ++ beBytes 1 x.lateBlocks ++ beBytes 1 x.daysInUse ++ beBytes 1 x.keyAfter.code ++ beBytes 1 x.flags.byte

/-- The fields of RENTAL_QUERY (R101; log 10). -/
def Part.rentalFields (p : Part) (r : Rental) : List Byte :=
  let k := Table.look p.keys r.key
  beBytes 1 (bit r.snap.isSome) ++ beBytes 4 r.number ++ beBytes 2 r.key ++ beBytes 3 r.out ++ beBytes 3 r.due
    ++ beBytes 1 r.grace ++ beBytes 1 r.tier.code ++ beBytes 1 (bit r.snap.isSome) ++ beBytes 1 r.extensions
    ++ beBytes 1 r.kind.code ++ ((r.snap.map Snapshot.bytes).getD (beBytes 14 0))
    ++ beBytes 4 ((k.map (·.tag)).getD 0) ++ beBytes 3 ((k.map (·.vehicle)).getD 0)

def Part.doRentalQuery (p : Part) (f : Frame) : Answer :=
  match parseForm f.payload with
  | none => p.refuse .badArgument
  | some (byIndex, n) =>
    match (if byIndex then Table.look p.rentals n else (p.rentalByNumber n).map (·.2)) with
    | none => p.refuse .notFound
    | some r => p.answer .ok (p.rentalFields r)

/-- RENTAL_QUERY (R101). -/
def execRentalQuery (s : State) : Host.Outcome State Fault Refusal :=
  .next { s with part := (s.part.requestRun .rentalQuery Part.doRentalQuery).lampRun }

/-! ## OVERDUE_LIST -/

/-- GRACE, OVERDUE or ESCALATED. -/
def Tier.late : Tier → Bool
  | .grace | .overdue | .escalated => true
  | _ => false

/-- The OPEN rentals of tier GRACE or above, in Due List order; none while the clock is unset (R87, R102). -/
def Part.lateRentals (p : Part) : List (Nat × Rental) :=
  if p.clock.set then
    (p.due.filterMap (fun i => (Table.look p.rentals i).map (fun r => (i, r)))).filter (fun e => e.2.tier.late)
  else []

/-- The rental stands after a resume point in the Due List order (R102). -/
def afterResume (r : Rental) (x : Option (Nat × Nat)) : Bool :=
  x.all (fun x => decide (x.1 < r.due) || (r.due == x.1 && decide (x.2 < r.number)))

/-- An entry of OVERDUE_LIST (R205). -/
def Part.overdueEntry (p : Part) (i : Nat) (r : Rental) : List Byte :=
  beBytes 4 r.number ++ beBytes 2 i ++ beBytes 2 r.key ++ beBytes 3 r.due ++ beBytes 1 r.grace ++ beBytes 1 r.tier.code
    ++ beBytes 3 (p.now - r.due) ++ beBytes 1 r.extensions ++ beBytes 1 r.kind.code

def Part.doOverdueList (p : Part) (f : Frame) : Answer :=
  match parseOverdue f.payload with
  | none => p.refuse .badArgument
  | some x =>
    let all := p.lateRentals
    let rest := all.filter (fun e => afterResume e.2 x)
    let page := rest.take Config.pageCap
    p.answer .ok (beBytes 2 all.length ++ beBytes 1 (bit (decide (Config.pageCap < rest.length))) ++ beBytes 1 page.length
      ++ page.flatMap (fun e => p.overdueEntry e.1 e.2))

/-- OVERDUE_LIST (R102). -/
def execOverdueList (s : State) : Host.Outcome State Fault Refusal :=
  .next { s with part := (s.part.requestRun .overdueList Part.doOverdueList).lampRun }

end Sys2Proof.Machine
end

