-- ==== Sys2Proof/Machine/AlertRequests.lean ====
section
/-! DEFINITION. The requests of chapter 5: ACK_ALERT (R112), FLAGS_READ (R116), ENABLE_SET (R117). -/

namespace Sys2Proof.Machine
open Sys2Proof

/-! ## ACK_ALERT -/

/-- The entry goes when it is acknowledged (R112). -/
def Part.ackRemoves (p : Part) (k : AlertKind) (s : Subject) : Bool :=
  match k, s with
  | .stranger, _ => true
  | .censusMismatch, _ => true
  | .queueLoss, _ => true
  | .foreign, .slot n => (p.slotEntry n).kind == .drop
  | _, _ => false

/-- An entry becomes ACKED (R112). -/
def Part.ackEntry (p : Part) (e : AlertEntry) : Part :=
  { p with alt := p.alt.modify e.place (fun e => { e with acked := true, next := none }) }

def Part.doAckAlert (p : Part) (f : Frame) : Answer :=
  match parseAck f.payload with
  | none => p.refuse .badArgument
  | some (k, s) =>
    match p.alt.find k s with
    | none => p.refuse .notFound
    | some e =>
      if p.ackRemoves k s then ⟨p.removeQuietly e, .ok, [], true⟩
      else (p.ackEntry e).answer .ok []

/-- ACK_ALERT (R112). -/
def execAckAlert (s : State) : Host.Outcome State Fault Refusal :=
  .next { s with part := (s.part.requestRun .ackAlert Part.doAckAlert).lampRun }

/-! ## FLAGS_READ -/

/-- The fields of FLAGS_READ (R116; log 10). -/
def Part.flagFields (p : Part) : List Byte :=
  beBytes 2 p.alt.flags.toNat ++ beBytes 2 p.alt.enableStaffed.toNat ++ beBytes 2 p.alt.enableUnstaffed.toNat
    ++ beBytes 1 (bit p.alt.lineEnable) ++ beBytes 1 p.zone.code ++ beBytes 1 (bit p.lineDriven)
    ++ beBytes 1 p.alt.unacked ++ beBytes 1 (p.alt.entries.length - p.alt.unacked) ++ beBytes 1 p.alt.notices.length

/-- FLAGS_READ with CLEAR clears every flag but CLOCK_UNSET (R116). -/
def Part.clearFlags (p : Part) : Part := { p with alt := { p.alt with flags := flagsAfterClear p.alt.flags } }

/-- The fields are those before CLEAR acts, whether the line is driven among them (R116; log 55). -/
def Part.doFlagsRead (p : Part) (f : Frame) : Answer :=
  match parseOption f.payload with
  | none => p.refuse .badArgument
  | some clear => (if clear then p.clearFlags else p).answer .ok p.flagFields

/-- FLAGS_READ (R116). -/
def execFlagsRead (s : State) : Host.Outcome State Fault Refusal :=
  .next { s with part := (s.part.requestRun .flagsRead Part.doFlagsRead).lampRun }

/-! ## ENABLE_SET -/

/-- The three values are replaced together (R117). -/
def Part.setEnables (p : Part) (staffed unstaffed : BitVec 16) (line : Bool) : Part :=
  { p with alt := { p.alt with enableStaffed := staffed, enableUnstaffed := unstaffed, lineEnable := line } }

def Part.doEnableSet (p : Part) (f : Frame) : Answer :=
  match parseEnableSet f.payload with
  | none => p.refuse .badArgument
  | some (st, un, line) =>
    let q := p.setEnables st un line
    q.answer .ok (beBytes 2 p.alt.enableStaffed.toNat ++ beBytes 2 p.alt.enableUnstaffed.toNat
      ++ beBytes 1 (bit p.alt.lineEnable) ++ beBytes 1 (bit q.lineDriven))

/-- ENABLE_SET (R117). -/
def execEnableSet (s : State) : Host.Outcome State Fault Refusal :=
  .next { s with part := (s.part.requestRun .enableSet Part.doEnableSet).lampRun }

end Sys2Proof.Machine
end

