-- ==== Sys2Proof/Machine/CensusRequests.lean ====
section
/-! DEFINITION. The requests of chapter 6: CENSUS_START (R120), CENSUS_ABORT (R132), CENSUS_READ (R134). -/

namespace Sys2Proof.Machine
open Sys2Proof

/-! ## CENSUS_START -/

def Part.doCensusStart (p : Part) (f : Frame) : Answer :=
  match parseScope f.payload with
  | none => p.refuse .badArgument
  | some sc =>
    match p.cen.state with
    | .idle => (p.cenStart (.request f.origin) sc).answer .ok (beBytes 3 p.now)
    | _ => p.refuse .busy

/-- CENSUS_START (R120). -/
def execCensusStart (s : State) : Host.Outcome State Fault Refusal :=
  .next { s with part := (s.part.requestRun .censusStart Part.doCensusStart).lampRun }

/-! ## CENSUS_ABORT -/

/-- The position of the sweep as two bytes, 0 when absent (R205). -/
def posBytes (o : Option (Chan × Nat)) : List Byte :=
  match o with
  | some (c, a) => beBytes 1 c.code ++ beBytes 1 a
  | none => beBytes 2 0

/-- A READ_TAGS not yet sent is withdrawn, or its deferred offer given up (R132). -/
def Part.readWithdrawn (p : Part) : Part :=
  match p.cen.pos with
  | some (c, _) => (p.onChan c (·.withdraw BusCmd.isReadTags)).onCen (fun n => { n with read := none, deferred := false })
  | none => p

/-- A census in SWEEPING is aborted (R131, R132). -/
def Part.censusAbort (p : Part) : Part :=
  match p.cen.read with
  | some .sent => p.cenEnd .aborted .aborted
  | some .notSent => p.readWithdrawn.cenEnd .aborted .idle
  | none => p.cenEnd .aborted .idle

def Part.doCensusAbort (p : Part) (f : Frame) : Answer :=
  match parseNone f.payload with
  | none => p.refuse .badArgument
  | some _ =>
    match p.cen.state with
    | .sweeping => p.censusAbort.answer .ok (posBytes p.cen.pos)
    | _ => p.refuse .notActive

/-- CENSUS_ABORT (R132). -/
def execCensusAbort (s : State) : Host.Outcome State Fault Refusal :=
  .next { s with part := (s.part.requestRun .censusAbort Part.doCensusAbort).lampRun }

/-! ## CENSUS_READ -/

def CenState.code : CenState → Nat
  | .idle => 0 | .sweeping => 1 | .aborted => 2

def ReadOut.code : ReadOut → Nat
  | .notSent => 0 | .sent => 1

def MisKind.code : MisKind → Nat
  | .relocated => 0 | .outKeyPresent => 1 | .foreign => 2 | .missing => 3 | .readDiffers => 4 | .unverified => 5

/-- An entry of the Mismatch List (R205). -/
def Mismatch.bytes (m : Mismatch) : List Byte :=
  beBytes 1 m.kind.code ++ beBytes 2 m.slot ++ beIndex m.key ++ occBytes m.read ++ occBytes m.settled
    ++ beName (m.before.map KeyState.code)

/-- The census record (R205). -/
def Cen.bytes (c : Cen) : List Byte :=
  beBytes 1 (bit c.startMin.isSome + 2 * bit c.endMin.isSome + 4 * bit c.nextStart.isSome) ++ beBytes 1 c.state.code
    ++ beName (c.cause.map CenCause.code) ++ beBytes 1 ((c.cause.map CenCause.origin).getD 0)
    ++ beName (c.scope.map Scope.code) ++ beBytes 3 (c.startMin.getD 0) ++ beBytes 3 (c.endMin.getD 0)
    ++ posBytes c.pos ++ beName (c.read.map ReadOut.code) ++ beName (c.outcome.map Outcome.code)
    ++ beBytes 1 (bit c.lostA + 2 * bit c.lostB) ++ c.counts.bytes ++ beBytes 2 c.skipped ++ beBytes 3 (c.nextStart.getD 0)

/-- The fields of CENSUS_READ from a first index (R134, R205). -/
def Cen.readFields (c : Cen) (first : Nat) : List Byte :=
  let page := (c.list.drop first).take Config.pageCap
  c.bytes ++ beBytes 1 c.list.length ++ beBytes 1 page.length ++ page.flatMap Mismatch.bytes

def Part.doCensusRead (p : Part) (f : Frame) : Answer :=
  match parseIndex f.payload with
  | none => p.refuse .badArgument
  | some i => p.answer .ok (p.cen.readFields i)

/-- CENSUS_READ (R134). -/
def execCensusRead (s : State) : Host.Outcome State Fault Refusal :=
  .next { s with part := (s.part.requestRun .censusRead Part.doCensusRead).lampRun }

end Sys2Proof.Machine
end

