-- ==== Sys2Proof/Machine/LampRequests.lean ====
section
/-! DEFINITION. The requests of chapter 7: LAMP_CONTROL with its three operations (R146), LAMP_RELEASE (R145). -/

namespace Sys2Proof.Machine
open Sys2Proof

/-! ## LAMP_CONTROL -/

/-- The phase of the lamp test by its place in the list RED, AMBER, GREEN (R142). -/
def phaseCode : Colour → Nat
  | .red => 0 | .amber => 1 | .green => 2

/-- The fields of LAMP_CONTROL (R146; log 10). -/
def Part.lampFields (p : Part) : List Byte :=
  beBytes 1 (bit p.lmp.blank) ++ beBytes 1 (bit p.blanked) ++ beBytes 1 (bit p.lmp.blank + 2 * bit p.zoneBlank)
    ++ beBytes 1 (bit p.lmp.test.isSome) ++ beName (p.lmp.test.map (fun t => phaseCode t.1))
    ++ beBytes 1 p.lmp.overrides.length

/-- LAMP_CONTROL is carried out and answered. -/
def Part.lampAnswered (p : Part) : Answer := p.answer .ok p.lampFields

/-- The blank flag is written (R141, R146). -/
def Part.setBlank (p : Part) (b : Bool) : Part :=
  { p with lmp := { p.lmp with blank := b } }.blankingChanged p

/-- BLANK_ON, or a LAMP_CONTROL of no known operation (R146; log 26). -/
def Part.doBlankOn (p : Part) (f : Frame) : Answer :=
  match parseNum 1 f.payload with
  | some 0 => (p.setBlank true).lampAnswered
  | _ => p.refuse .badArgument

def execLampControlBlankOn (s : State) : Host.Outcome State Fault Refusal :=
  .next { s with part := (s.part.requestRun .lampControlBlankOn Part.doBlankOn).lampRun }

/-- BLANK_OFF (R146). -/
def Part.doBlankOff (p : Part) (_ : Frame) : Answer := (p.setBlank false).lampAnswered

def execLampControlBlankOff (s : State) : Host.Outcome State Fault Refusal :=
  .next { s with part := (s.part.requestRun .lampControlBlankOff Part.doBlankOff).lampRun }

/-- TEST (R142, R146). -/
def Part.doLampTest (p : Part) (_ : Frame) : Answer := p.testStart.lampAnswered

def execLampControlTest (s : State) : Host.Outcome State Fault Refusal :=
  .next { s with part := (s.part.requestRun .lampControlTest Part.doLampTest).lampRun }

/-! ## LAMP_RELEASE -/

/-- The override flag of a module is set. -/
def Part.overridden (p : Part) (k : Nat) : Bool := (Table.look p.lmp.overrides k).isSome

def Part.doLampRelease (p : Part) (f : Frame) : Answer :=
  match parseChanByte f.payload with
  | none => p.refuse .badArgument
  | some (c, a) =>
    if a < 1 ∨ Config.modules < a then p.refuse .badArgument
    else
      let k := lampKey c a
      (if p.overridden k then p.clearOverrides [k] else p).answer .ok (beBytes 1 (bit (p.overridden k)))

/-- LAMP_RELEASE (R145). -/
def execLampRelease (s : State) : Host.Outcome State Fault Refusal :=
  .next { s with part := (s.part.requestRun .lampRelease Part.doLampRelease).lampRun }

end Sys2Proof.Machine
end

