-- ==== Sys2Proof/Machine/ChannelRequests.lean ====
section
/-! DEFINITION. CHANNEL_CONTROL with its three operations (R151). -/

namespace Sys2Proof.Machine
open Sys2Proof

/-- The channel a CHANNEL_CONTROL names. -/
def chanArg (pl : List Byte) : Chan := ((parseChanByte pl).map (·.1)).getD .A

/-- OK with the state before and after (R151). -/
def Part.chanAnswered (p : Part) (c : Chan) (before : ChanState) : Answer :=
  p.answer .ok (beBytes 1 before.code ++ beBytes 1 (p.chan c).state.code)

/-- ON (R151). The CHANNEL_FAULT entry of the channel goes whatever its state (R105, R169; log 49). -/
def Part.chanOn (p : Part) (c : Chan) : Part :=
  let q := p.remove .channelFault (.chan c)
  match (p.chan c).state with
  | .off | .faulted => (q.onChan c (fun ch => { ch with history := [] })).channelStart c
  | _ => q

/-- ON, or a CHANNEL_CONTROL of no known channel or operation (R151; log 26). -/
def Part.doChannelOn (p : Part) (f : Frame) : Answer :=
  match parseChanByte f.payload with
  | some (c, 0) => (p.chanOn c).chanAnswered c (p.chan c).state
  | _ => p.refuse .badArgument

def execChannelControlOn (s : State) : Host.Outcome State Fault Refusal :=
  .next { s with part := (s.part.requestRun .channelControlOn Part.doChannelOn).lampRun }

/-- OFF (R151, R170; log 14). The muted count stays until the channel enters STARTING (R152; log 56). -/
def Part.chanOff (p : Part) (c : Chan) : Part :=
  match (p.chan c).state with
  | .off | .faulted => p.onChan c (fun ch => { ch with state := .off })
  | _ =>
    (p.channelLeave c .off).onChan c (fun ch => { ch with
      modules := ch.freshModules, pulse := some (p.mono + Config.pulseTime) })

def Part.doChannelOff (p : Part) (f : Frame) : Answer :=
  let c := chanArg f.payload
  (p.chanOff c).chanAnswered c (p.chan c).state

def execChannelControlOff (s : State) : Host.Outcome State Fault Refusal :=
  .next { s with part := (s.part.requestRun .channelControlOff Part.doChannelOff).lampRun }

/-- An identification pass is made at once, unless one is in progress (R151, R154). -/
def Channel.passNow (ch : Channel) : Channel := if ch.passOn then ch else { ch with passOn := true, rounds := 0 }

/-- REENUMERATE (R151). -/
def Part.doReenumerate (p : Part) (f : Frame) : Answer :=
  let c := chanArg f.payload
  if (p.chan c).state = .running then (p.onChan c Channel.passNow).chanAnswered c .running
  else p.refuse .notRunning

def execChannelControlReenumerate (s : State) : Host.Outcome State Fault Refusal :=
  .next { s with part := (s.part.requestRun .channelControlReenumerate Part.doReenumerate).lampRun }

end Sys2Proof.Machine
end

