-- ==== Sys2Proof/Machine/TableRequests.lean ====
section
/-! DEFINITION. The requests of chapter 10 but RESTART: TABLE_WRITE (R191), TABLE_READ (R192), POLICY_SET (R194, R195),
STATUS_READ (R196), COUNTERS_READ (R197). -/

namespace Sys2Proof.Machine
open Sys2Proof

/-! ## TABLE_WRITE -/

/-- Every entry well formed, or none. -/
def parseAll {α : Type} (f : List Byte → Option α) : List (List Byte) → Option (List α)
  | [] => some []
  | b :: r => (f b).bind (fun x => (parseAll f r).map (fun xs => x :: xs))

/-- Entries written to a table whose default is d, from index i. -/
def writeDefault {α : Type} [DecidableEq α] (d : α) (t : Table α) (i : Nat) (xs : List α) : Table α :=
  (xs.zipIdx i).foldl (fun t x => Table.putD d t x.2 x.1) t

/-- Entries or empty places written to a table, from index i. -/
def writePlaces {α : Type} (t : Table α) (i : Nat) (xs : List (Option α)) : Table α :=
  (xs.zipIdx i).foldl (fun t x => Table.putO t x.2 x.1) t

/-- The constraints of the Slot Map (R4). -/
def slotMapOk (t : Table SlotEntry) : Bool :=
  let live := (t.map (·.2)).filter (fun e => e.kind != .disabled)
  decide ((live.filter (fun e => e.kind == .drop)).length ≤ 2)
    && decide ((live.map (fun e => (e.chan, e.addr, e.pos))).Nodup)

/-- An entry changes more than its group (R5). -/
def SlotEntry.changed (old new : SlotEntry) : Bool := decide ({ old with group := new.group } ≠ new)

/-- Check 4 of R191 for one place of the Slot Map. -/
def Part.slotFree (p : Part) (s : Nat) (new : SlotEntry) : Bool :=
  let old := p.slotEntry s
  !old.changed new
    || ((p.chan old.chan).state == .off && (p.chan new.chan).state == .off && (p.keyAt s).isNone)

/-- The row of a slot whose entry has changed (R5). -/
def slotRowAfter (rows : Table SlotRow) (s : Nat) (new : SlotEntry) : Table SlotRow :=
  if new.kind = .standard then Table.put rows s SlotRow.fresh else Table.del rows s

/-- One place of the Slot Map has been written over old: its row, alerts and filter where more than its group has changed (R5,
R71, R105), and its lamps, before and after, where the entry has changed at all (R138). Its duplicate count stays under the
logical slot (log 43). -/
def Part.slotWritten (p : Part) (s : Nat) (old new : SlotEntry) : Part :=
  let q :=
    if old.changed new then
      ({ p with rows := slotRowAfter p.rows s new, filters := Table.del p.filters s }).removeSubject (.slot s)
    else p
  if old = new then q else (q.touch [lampKey old.chan old.addr]).touch [lampKey new.chan new.addr]

/-- A Slot Map write (R191). -/
def Part.writeSlots (p : Part) (i : Nat) (es : List SlotEntry) : Except Result Part :=
  let t := writeDefault SlotEntry.powerOn p.slotMap i es
  if !slotMapOk t then .error .badArgument
  else if !(es.zipIdx i).all (fun x => p.slotFree x.2 x.1) then .error .inUse
  else .ok ((es.zipIdx i).foldl (fun q x => q.slotWritten x.2 (p.slotEntry x.2) x.1) { p with slotMap := t })

/-- The constraints of a Module Map (R155). -/
def moduleMapOk (t : Table MapEntry) : Bool :=
  decide ((t.map (fun e => e.2.serial)).Nodup) && decide ((t.map (fun e => e.2.addr)).Nodup)

/-- The Module Table under a new Module Map: an address mapped already keeps its entry (R155). -/
def Channel.remapped (ch : Channel) (t : Table MapEntry) : Channel :=
  { ch with
    map := t
    modules := t.foldl (fun m e => Table.put m e.2.addr ((Table.look ch.modules e.2.addr).getD ModEntry.fresh)) [] }

/-- The addresses a Module Map names no longer, in ascending order. -/
def unmapped (old new : Table MapEntry) : List Nat :=
  ((List.range Config.modules).map (· + 1)).filter (fun a =>
    old.any (fun e => e.2.addr == a) && !new.any (fun e => e.2.addr == a))

/-- A Module Map write (R105, R155, R191). -/
def Part.writeModules (p : Part) (c : Chan) (i : Nat) (es : List (Option MapEntry)) : Except Result Part :=
  let old := (p.chan c).map
  let t := writePlaces old i es
  if !moduleMapOk t then .error .badArgument
  else if (p.chan c).state ≠ .off then .error .inUse
  else .ok ((unmapped old t).foldl (fun q a => q.remove .moduleDown (.module c a)) (p.onChan c (·.remapped t)))

/-- Some terminal is OFFICE with LOAD (R184). -/
def officeHasLoad (t : Table Terminal) : Bool := t.any (fun e => e.2.role == .office && e.2.load)

/-- A Terminal Table write (R184). -/
def Part.writeTerminals (p : Part) (i : Nat) (es : List Terminal) : Except Result Part :=
  let t := writeDefault Terminal.powerOn p.tfl.terminals i es
  if officeHasLoad t then .ok { p with tfl := { p.tfl with terminals := t } } else .error .badArgument

/-- A Zone Schedule write (R90, R91). -/
def Part.writeSchedule (p : Part) (i : Nat) (es : List (Option ZonePoint)) : Except Result Part :=
  let t := writePlaces p.schedule i es
  if decide ((t.map (fun e => e.2.minuteOfDay)).Nodup) then .ok { p with schedule := t }.zoneRun else .error .badArgument

/-- Parse the entries of a write, then write them (checks 2 to 4 of R191). -/
def writeWith {α : Type} (f : List Byte → Option α) (bs : List (List Byte)) (w : List α → Except Result Part) :
    Except Result Part :=
  match parseAll f bs with
  | none => .error .badArgument
  | some xs => w xs

/-- Checks 2 to 4 of R191, and the write. -/
def Part.tableWrite (p : Part) (t i : Nat) (bs : List (List Byte)) : Except Result Part :=
  match t with
  | 0 => writeWith parseSlotEntry bs (p.writeSlots i)
  | 1 => writeWith parseMapEntry bs (p.writeModules .A i)
  | 2 => writeWith parseMapEntry bs (p.writeModules .B i)
  | 3 => writeWith parseTerminal bs (p.writeTerminals i)
  | 4 => writeWith parseGroup bs (fun xs => .ok { p with groups := writeDefault GroupEntry.powerOn p.groups i xs })
  | 5 => writeWith parsePoint bs (p.writeSchedule i)
  | 6 => writeWith parsePass bs (fun xs => .ok { p with tfl := { p.tfl with passTable := writePlaces p.tfl.passTable i xs } })
  | _ => .error .badArgument

/-- Check 1 of R191, for the most entries allowed. -/
def rangeOk (lo places most i n : Nat) : Bool := decide (1 ≤ n ∧ n ≤ most ∧ lo ≤ i ∧ i + n ≤ lo + places)

/-- Table, first index and count, as a response gives them (R206). -/
def tableHead (t i n : Nat) : List Byte := beBytes 1 t ++ beBytes 2 i ++ beBytes 1 n

def Part.doTableWrite (p : Part) (f : Frame) : Answer :=
  let pl := f.payload
  let t := byteAt pl 1
  let i := field pl 2 2
  let n := byteAt pl 4
  match tableShape t with
  | none => p.refuse .badArgument
  | some (lo, places, w, most, _) =>
    if pl.length ≠ 5 + n * w ∨ !rangeOk lo places most i n then p.refuse .badArgument
    else match p.tableWrite t i (splitEntries w n (pl.drop 5)) with
      | .error r => p.refuse r
      | .ok q => q.answer .ok (tableHead t i n)

/-- TABLE_WRITE (R191). -/
def execTableWrite (s : State) : Host.Outcome State Fault Refusal :=
  .next { s with part := (s.part.requestRun .tableWrite Part.doTableWrite).lampRun }

/-! ## TABLE_READ -/

/-- The place of a table, as its entry's bytes (R192, R206). -/
def Part.tableEntry (p : Part) (t i : Nat) : List Byte :=
  match t with
  | 0 => (p.slotEntry i).bytes
  | 1 => mapEntryBytes (Table.look p.chanA.map i)
  | 2 => mapEntryBytes (Table.look p.chanB.map i)
  | 3 => (p.terminal i).bytes
  | 4 => (p.group i).bytes
  | 5 => pointBytes (Table.look p.schedule i)
  | 6 => passBytes (Table.look p.tfl.passTable i)
  | _ => []

def Part.doTableRead (p : Part) (f : Frame) : Answer :=
  let pl := f.payload
  let t := byteAt pl 1
  let i := field pl 2 2
  let n := byteAt pl 4
  match tableShape t with
  | none => p.refuse .badArgument
  | some (lo, places, _, _, most) =>
    if pl.length ≠ 5 ∨ !rangeOk lo places most i n then p.refuse .badArgument
    else p.answer .ok (tableHead t i n ++ (List.range n).flatMap (fun j => p.tableEntry t (i + j)))

/-- TABLE_READ (R192). -/
def execTableRead (s : State) : Host.Outcome State Fault Refusal :=
  .next { s with part := (s.part.requestRun .tableRead Part.doTableRead).lampRun }

/-! ## POLICY_SET -/

/-- A value brought into a plain range (R194). -/
def clampRange (lo hi v : Nat) : Nat := max lo (min hi v)

/-- The nearest of the link watch intervals, the larger when halfway; 0 is off (R194). -/
def nearestWatch (v : Nat) : Nat :=
  if v = 0 then 0 else if v < 15 then 10 else if v < 30 then 20 else if v < 60 then 40 else if v < 120 then 80 else 160

/-- The value written for a value received (R193, R194). -/
def policyClamp (field v : Nat) : Nat :=
  match field with
  | 0 => clampRange 0 120 v
  | 1 => clampRange 15 240 v
  | 2 => clampRange 1 24 v
  | 3 => clampRange 0 240 v
  | 4 => clampRange 30 2880 v
  | 5 => if v = 0 then 0 else clampRange 15 240 v
  | 6 => clampRange 5 120 v
  | 7 => (clampRange 100 2000 v + 50) / 100 * 100
  | 8 => clampRange 1 9 v
  | 9 => nearestWatch v
  | 10 => if v = 0 then 0 else clampRange 30 1440 v
  | _ => min 1 v

/-- A policy value by its field. -/
def Policy.get (p : Policy) (field : Nat) : Nat :=
  match field with
  | 0 => p.graceDefault
  | 1 => p.blockLen
  | 2 => p.blocksCap
  | 3 => p.dueSoon
  | 4 => p.escalation
  | 5 => p.reAlert
  | 6 => p.removalWindow
  | 7 => p.settle
  | 8 => p.attempts
  | 9 => p.linkWatch
  | 10 => p.censusInterval
  | _ => bit p.blankUnstaffed

/-- A policy value is written. -/
def Policy.set (p : Policy) (field v : Nat) : Policy :=
  match field with
  | 0 => { p with graceDefault := v }
  | 1 => { p with blockLen := v }
  | 2 => { p with blocksCap := v }
  | 3 => { p with dueSoon := v }
  | 4 => { p with escalation := v }
  | 5 => { p with reAlert := v }
  | 6 => { p with removalWindow := v }
  | 7 => { p with settle := v }
  | 8 => { p with attempts := v }
  | 9 => { p with linkWatch := v }
  | 10 => { p with censusInterval := v }
  | _ => { p with blankUnstaffed := v != 0 }

/-- The policy with every value carried written, brought into its range. -/
def Policy.writeAll (p : Policy) (vs : List (Nat × Nat)) : Policy := vs.foldl (fun q x => q.set x.1 (policyClamp x.1 x.2)) p

/-- The bytes of the value of a field. -/
def policyBytes (field v : Nat) : List Byte := beBytes ((policyWidth field).getD 1) v

/-- The twelve values in force. -/
def Policy.bytes (p : Policy) : List Byte := (List.range 12).flatMap (fun i => policyBytes i (p.get i))

/-- The owners act on their own values (R195); p holds the values before, vs those carried. -/
def Part.policyActs (p : Part) (new : Policy) (vs : List (Nat × Nat)) : Part :=
  let old := p.policy
  let q := { p with policy := new }
  let q := if old.dueSoon ≠ new.dueSoon ∨ old.escalation ≠ new.escalation then q.recomputeTiers else q
  let q := if old.reAlert ≠ new.reAlert then q.intervalChanged p.interval else q
  let q := if old.censusInterval ≠ new.censusInterval then q.cenPolicy else q
  let q := if vs.any (fun x => x.1 == 9) then q.watchAfresh else q
  if old.blankUnstaffed ≠ new.blankUnstaffed then q.blankingChanged p else q

def Part.doPolicySet (p : Part) (f : Frame) : Answer :=
  if f.payload.isEmpty then p.refuse .badArgument
  else match parsePolicy f.payload.length (f.payload.drop 1) with
    | none => p.refuse .badArgument
    | some vs =>
      if ¬ (vs.map (·.1)).Nodup then p.refuse .badArgument
      else
        let new := p.policy.writeAll vs
        let q := p.policyActs new vs
        let clamped := vs.filter (fun x => policyClamp x.1 x.2 != x.2)
        if clamped.isEmpty then q.answer .ok new.bytes
        else q.answer .okClamped (beBytes 1 clamped.length
          ++ clamped.flatMap (fun x => beBytes 1 x.1 ++ policyBytes x.1 (policyClamp x.1 x.2)) ++ new.bytes)

/-- POLICY_SET (R194, R195). -/
def execPolicySet (s : State) : Host.Outcome State Fault Refusal :=
  .next { s with part := (s.part.requestRun .policySet Part.doPolicySet).lampRun }

/-! ## STATUS_READ -/

/-- A channel's part of STATUS_READ (R196). -/
def Channel.status (ch : Channel) : List Byte :=
  beBytes 1 ch.state.code
    ++ [ModState.absent, .active, .silent, .down].flatMap (fun m =>
      beBytes 1 (ch.modules.filter (fun e => e.2.state == m)).length)
    ++ beBytes 1 ch.muted

/-- The key states in code order (R201). -/
def keyStates : List KeyState := [.inn, .misplaced, .assigned, .releasing, .out, .away, .missing, .dropped]

def Watch.code : Watch → Nat
  | .off => 0 | .watching _ => 1 | .silent _ => 2

/-- The fields of STATUS_READ (R196; log 10), the set flag SET 0 and UNSET 1, the limit flag RUNNING 0 and AT_LIMIT 1 (R84,
R201). -/
def Part.statusFields (p : Part) : List Byte :=
  let c := p.clock
  beBytes 1 (bit (!c.set)) ++ beBytes 3 c.minute ++ beBytes 1 c.second ++ beBytes 2 c.dayOffset ++ beBytes 1 (bit c.atLimit)
    ++ beBytes 2 c.minuteOfDay ++ beBytes 1 p.zone.code ++ p.chanA.status ++ p.chanB.status
    ++ keyStates.flatMap (fun k => beBytes 2 (p.keys.filter (fun e => e.2.state == k)).length) ++ beBytes 2 p.keys.length
    ++ beBytes 2 (p.rentals.filter (fun e => e.2.snap.isNone)).length
    ++ beBytes 2 (p.rentals.filter (fun e => e.2.snap.isSome)).length ++ beBytes 1 p.reserved.length
    ++ [AuthState.waiting, .active, .lockedOut].flatMap (fun a =>
      beBytes 1 (p.auths.filter (fun e => e.state == a)).length)
    ++ (List.range Config.contexts).flatMap (fun i =>
      beBytes 1 (((Table.look p.ctxs i).map (fun x => x.state.code)).getD 0))
    ++ beBytes 1 (p.waitQ.filter (fun w => w.ended.isNone)).length
    ++ beBytes 1 (p.waitQ.filter (fun w => w.ended.isSome)).length ++ beBytes 1 p.cen.state.code
    ++ beBytes 1 p.link.reports.length ++ beBytes 2 p.link.waiters.length ++ beBytes 1 (bit p.link.lossEpisode)
    ++ beBytes 1 p.link.watch.code ++ beBytes 1 (bit p.link.overrunBit)

def Part.doStatusRead (p : Part) (f : Frame) : Answer :=
  match parseNone f.payload with
  | none => p.refuse .badArgument
  | some _ => (p.onLink (fun l => { l with overrunBit := false })).answer .ok p.statusFields

/-- STATUS_READ (R196, R176). -/
def execStatusRead (s : State) : Host.Outcome State Fault Refusal :=
  .next { s with part := (s.part.requestRun .statusRead Part.doStatusRead).lampRun }

/-! ## COUNTERS_READ -/

/-- The eleven link counters, in the order of R177. -/
def LinkCounters.bytes (c : LinkCounters) : List Byte :=
  [c.syncError, c.framingError, c.headerCorrected, c.headerUncorrectable, c.lengthError, c.truncated, c.crcError,
    c.overrun, c.badOrigin, c.reportsDropped, c.passDropped].flatMap (beBytes 2)

def LinkCounters.zero : LinkCounters := ⟨0, 0, 0, 0, 0, 0, 0, 0, 0, 0, 0⟩

/-- A channel's four counters (R150). -/
def Channel.counterBytes (ch : Channel) : List Byte :=
  [ch.misses, ch.bounces, ch.recoveries, ch.strangers].flatMap (beBytes 2)

def Channel.clearCounters (ch : Channel) : Channel := { ch with misses := 0, bounces := 0, recoveries := 0, strangers := 0 }

/-- The fields of COUNTERS_READ (R197; log 10). -/
def Part.counterFields (p : Part) : List Byte :=
  p.link.counters.bytes ++ p.chanA.counterBytes ++ p.chanB.counterBytes
    ++ p.dropSlots.flatMap (fun s => beBytes 2 ((Table.look p.dupCounts s).getD 0) ++ beBytes 2 s)

/-- Every counter given is set to 0 (R197). -/
def Part.clearCounters (p : Part) : Part :=
  { p with
    link := { p.link with counters := LinkCounters.zero }
    chanA := p.chanA.clearCounters
    chanB := p.chanB.clearCounters
    dupCounts := p.dropSlots.foldl (fun t s => Table.del t s) p.dupCounts }

def Part.doCountersRead (p : Part) (f : Frame) : Answer :=
  match parseOption f.payload with
  | none => p.refuse .badArgument
  | some clear => (if clear then p.clearCounters else p).answer .ok p.counterFields

/-- COUNTERS_READ (R197). -/
def execCountersRead (s : State) : Host.Outcome State Fault Refusal :=
  .next { s with part := (s.part.requestRun .countersRead Part.doCountersRead).lampRun }

end Sys2Proof.Machine
end

