-- ==== Sys2Proof/Machine/Restart.lean ====
section
/-! DEFINITION. RESTART with its two options (R171, R198, R199). -/

namespace Sys2Proof.Machine
open Sys2Proof

/-! ## RESTART LOGIC -/

/-- Every row's guide expiry becomes absent (R7, R198). -/
def Part.guidesAbsent (p : Part) : Part :=
  let guided (e : Nat × SlotRow) : Bool := e.2.guide.isSome
  let clear (e : Nat × SlotRow) : Nat × SlotRow := (e.1, { e.2 with guide := none })
  let module (e : Nat × SlotRow) : Nat := lampKey (p.slotEntry e.1).chan (p.slotEntry e.1).addr
  { p with rows := List.map clear p.rows }.touch (List.map module (List.filter guided p.rows))

/-- A channel not OFF enters STARTING, its recovery history emptied (R170, R171). -/
def Part.restartChannel (p : Part) (c : Chan) : Part :=
  if (p.chan c).state = .off then p
  else
    let q := (p.rowsUnknown (p.chanSlots c)).lampChannelLost c
    q.onChan c (fun ch => { ch.enterStarting p.mono with history := [] })

/-- The BLP's and RET's parts: the Inbound Queue and the duplicate filters are emptied (R198). -/
def Part.restartEmpties (p : Part) : Part := { p.onLink (fun l => { l with inbound := [] }) with filters := [] }

/-- RESTART LOGIC, each block its own part (R198). -/
def Part.restartLogic (p : Part) : Part :=
  let q := { p.relRestart with holdSeq := .idle }.guidesAbsent
  let q := ((q.trackDropAll).restartChannel .A).restartChannel .B
  let q := (q.cenRestart.testEnd).clearOverrides allModules
  q.restartEmpties.watchAfresh

/-- RESTART LOGIC, or a RESTART of no known option (R198; log 26). -/
def Part.doRestartLogic (p : Part) (f : Frame) : Answer :=
  match parseNum 1 f.payload with
  | some 0 => p.restartLogic.answer .ok []
  | _ => p.refuse .badArgument

/-- RESTART_LOGIC (R198). -/
def execRestartLogic (s : State) : Host.Outcome State Fault Refusal :=
  .next { s with part := (s.part.requestRun .restartLogic Part.doRestartLogic).lampRun }

/-! ## RESTART ALL -/

/-- A channel after RESTART ALL: as after power-on, a reset pulse under way if it was not OFF (R171; log 14); one still being
driven on a channel that was OFF ends (log 14); the level another drives on its line is no state of the part's and stays
(log 38). -/
def Channel.restartAll (ch : Channel) (mono : Nat) : Channel :=
  { Channel.powerOn with held := ch.held, pulse := if ch.state = .off then none else some (mono + Config.pulseTime) }

/-- RESTART ALL: the power-on state, but for monotonic time, the receiver and the strap (R199, R200; log 28), and for the level
of the clear-to-send input, which is the gateway's (log 7). -/
def Part.restartAll (p : Part) : Part :=
  let r := Part.powerOn p.strapHigh
  { r with
    mono := p.mono
    link := { r.link with rx := p.link.rx, cts := p.link.cts, watch := .watching (p.mono + Config.powerOnWatch) }
    chanA := p.chanA.restartAll p.mono
    chanB := p.chanB.restartAll p.mono }

def Part.doRestartAll (p : Part) (_ : Frame) : Answer := p.restartAll.answer .ok []

/-- RESTART_ALL (R199). -/
def execRestartAll (s : State) : Host.Outcome State Fault Refusal :=
  .next { s with part := (s.part.requestRun .restartAll Part.doRestartAll).lampRun }

end Sys2Proof.Machine
end

