-- ==== Sys2Proof/Machine/Dispatch.lean ====
section
/-! DEFINITION. The meaning of every command: one arm for each constructor of Instr. -/

namespace Sys2Proof.Machine
open Sys2Proof

def exec (i : Instr) (s : State) : Host.Outcome State Fault Refusal :=
  match i with
  | .powerOn strapHigh => Sys2Proof.Machine.execPowerOn strapHigh s
  | .headerReceived dest origin kind len check => Sys2Proof.Machine.execHeaderReceived dest origin kind len check s
  | .framingError => Sys2Proof.Machine.execFramingError s
  | .syncError byte => Sys2Proof.Machine.execSyncError s byte
  | .frameTruncated => Sys2Proof.Machine.execFrameTruncated s
  | .frameReceived crcHigh crcLow => Sys2Proof.Machine.execFrameReceived crcHigh crcLow s
  | .linkWatchExpiry => Sys2Proof.Machine.execLinkWatchExpiry s
  | .clearToSendAsserted asserted => Sys2Proof.Machine.execClearToSendAsserted s asserted
  | .reportSent => Sys2Proof.Machine.execReportSent s
  | .waitingOwnerReportEnters => Sys2Proof.Machine.execWaitingOwnerReportEnters s
  | .tflFrameDropped => Sys2Proof.Machine.execTflFrameDropped s
  | .unknownRequest => Sys2Proof.Machine.execUnknownRequest s
  | .keyAdd => Sys2Proof.Machine.execKeyAdd s
  | .keyDelete => Sys2Proof.Machine.execKeyDelete s
  | .keyQuery => Sys2Proof.Machine.execKeyQuery s
  | .keyHold => Sys2Proof.Machine.execKeyHold s
  | .guide => Sys2Proof.Machine.execGuide s
  | .guideExpiry slot => Sys2Proof.Machine.execGuideExpiry slot s
  | .holdRangeStart => Sys2Proof.Machine.execHoldRangeStart s
  | .holdRangeEnd => Sys2Proof.Machine.execHoldRangeEnd s
  | .holdApply => Sys2Proof.Machine.execHoldApply s
  | .authAdd => Sys2Proof.Machine.execAuthAdd s
  | .authDelete => Sys2Proof.Machine.execAuthDelete s
  | .clearLockout => Sys2Proof.Machine.execClearLockout s
  | .release => Sys2Proof.Machine.execRelease s
  | .pickup => Sys2Proof.Machine.execPickup s
  | .serviceRelease => Sys2Proof.Machine.execServiceRelease s
  | .cancelRelease => Sys2Proof.Machine.execCancelRelease s
  | .rentalCloseManual => Sys2Proof.Machine.execRentalCloseManual s
  | .timeSet => Sys2Proof.Machine.execTimeSet s
  | .broadcastTimeSet => Sys2Proof.Machine.execBroadcastTimeSet s
  | .extend => Sys2Proof.Machine.execExtend s
  | .rentalQuery => Sys2Proof.Machine.execRentalQuery s
  | .overdueList => Sys2Proof.Machine.execOverdueList s
  | .ackAlert => Sys2Proof.Machine.execAckAlert s
  | .flagsRead => Sys2Proof.Machine.execFlagsRead s
  | .enableSet => Sys2Proof.Machine.execEnableSet s
  | .censusStart => Sys2Proof.Machine.execCensusStart s
  | .censusAbort => Sys2Proof.Machine.execCensusAbort s
  | .censusRead => Sys2Proof.Machine.execCensusRead s
  | .lampControlBlankOn => Sys2Proof.Machine.execLampControlBlankOn s
  | .lampControlBlankOff => Sys2Proof.Machine.execLampControlBlankOff s
  | .lampControlTest => Sys2Proof.Machine.execLampControlTest s
  | .lampTestPhaseExpiry => Sys2Proof.Machine.execLampTestPhaseExpiry s
  | .lampRelease => Sys2Proof.Machine.execLampRelease s
  | .channelControlOn => Sys2Proof.Machine.execChannelControlOn s
  | .channelControlOff => Sys2Proof.Machine.execChannelControlOff s
  | .channelControlReenumerate => Sys2Proof.Machine.execChannelControlReenumerate s
  | .tableWrite => Sys2Proof.Machine.execTableWrite s
  | .tableRead => Sys2Proof.Machine.execTableRead s
  | .policySet => Sys2Proof.Machine.execPolicySet s
  | .statusRead => Sys2Proof.Machine.execStatusRead s
  | .countersRead => Sys2Proof.Machine.execCountersRead s
  | .restartLogic => Sys2Proof.Machine.execRestartLogic s
  | .restartAll => Sys2Proof.Machine.execRestartAll s
  | .moduleFrame => Sys2Proof.Machine.execModuleFrame s
  | .passThroughExpiry entry => Sys2Proof.Machine.execPassThroughExpiry entry s
  | .monotonicSecond => Sys2Proof.Machine.execMonotonicSecond s
  | .minuteTick => Sys2Proof.Machine.execMinuteTick s
  | .authExpiry => Sys2Proof.Machine.execAuthExpiry s
  | .reAlert => Sys2Proof.Machine.execReAlert s
  | .scheduledCensusStart => Sys2Proof.Machine.execScheduledCensusStart s
  | .lineHang line => Sys2Proof.Machine.execLineHang line s
  | .resetPulseEnd chan => Sys2Proof.Machine.execResetPulseEnd chan s
  | .enumerationRound chan serial => Sys2Proof.Machine.execEnumerationRound chan serial s
  | .assignAnswer chan answer => Sys2Proof.Machine.execAssignAnswer chan answer s
  | .sendPoll chan => Sys2Proof.Machine.execSendPoll chan s
  | .sendReadTags chan => Sys2Proof.Machine.execSendReadTags chan s
  | .sendLockOpen chan => Sys2Proof.Machine.execSendLockOpen chan s
  | .sendLockClose chan => Sys2Proof.Machine.execSendLockClose chan s
  | .sendLamp chan => Sys2Proof.Machine.execSendLamp chan s
  | .sendPassedFrame chan => Sys2Proof.Machine.execSendPassedFrame chan s
  | .pollAnswer chan answer => Sys2Proof.Machine.execPollAnswer chan answer s
  | .settleExpiry slot => Sys2Proof.Machine.execSettleExpiry slot s
  | .lockOpenAnswer chan answer => Sys2Proof.Machine.execLockOpenAnswer chan answer s
  | .lockCloseAnswer chan answer => Sys2Proof.Machine.execLockCloseAnswer chan answer s
  | .lockLimitOpening context => Sys2Proof.Machine.execLockLimitOpening context s
  | .lockLimitClosing context => Sys2Proof.Machine.execLockLimitClosing context s
  | .removalWindowExpiry context => Sys2Proof.Machine.execRemovalWindowExpiry context s
  | .readTagsAnswer chan answer => Sys2Proof.Machine.execReadTagsAnswer chan answer s
  | .lampAnswer answer => Sys2Proof.Machine.execLampAnswer answer s
  | .passThroughAnswer chan ends data => Sys2Proof.Machine.execPassThroughAnswer chan ends data s
  | .commandMiss chan => Sys2Proof.Machine.execCommandMiss chan s
  | .syncPairFound => Sys2Proof.Machine.execSyncPairFound s
  | .payloadReceived bytes => Sys2Proof.Machine.execPayloadReceived bytes s

end Sys2Proof.Machine
end

