-- ==== Sys2Proof/Machine/Step.lean ====
section
/-! DEFINITION. One step: the command at the front of the queue, or on an empty queue the passing of a millisecond
with the part's own due steps put into the queue (log 2); and how a command that a word spells is put in front. -/

namespace Sys2Proof.Machine
open Sys2Proof

/-! ## The part's own steps that are due -/

/-- An expiry has been reached. -/
def Part.reached (p : Part) (t : Option Nat) : Bool := t.any (fun e => decide (e ≤ p.mono))

/-- Expiries of rows: guides (R25) and settles (R163). -/
def Part.dueRows (p : Part) : List Instr :=
  let guided (e : Nat × SlotRow) : Bool := p.reached e.2.guide
  let settled (e : Nat × SlotRow) : Bool := p.reached (e.2.settle.map Settle.expiry)
  (List.filter settled p.rows).map (fun e => .settleExpiry e.1) ++ (List.filter guided p.rows).map (fun e => .guideExpiry e.1)

/-- Expiries of the contexts (R45, R46, R49). -/
def Part.dueContexts (p : Part) : List Instr :=
  let due (e : Nat × Ctx) : List Instr :=
    match e.2.state with
    | .opening => if p.reached e.2.lockLimit then [.lockLimitOpening e.1] else []
    | .opened => if p.reached e.2.window then [.removalWindowExpiry e.1] else []
    | .closing => if p.reached e.2.lockLimit then [.lockLimitClosing e.1] else []
    | _ => []
  List.flatMap due p.ctxs

/-- Expiries of the receiver (R175), the link watch (R181), the lamp test (R142) and the Tracking entries (R189). -/
def Part.dueLinks (p : Part) : List Instr :=
  let live (t : TrackState) : Bool := match t with
    | .answering _ => false
    | _ => true
  let tracked (e : Nat × Track) : Bool := live e.2.state && decide (e.2.expiry ≤ p.mono)
  (if p.byteOverdue then [.frameTruncated] else [])
    ++ (match p.link.watch with
    | .watching e => if e ≤ p.mono then [.linkWatchExpiry] else []
    | _ => [])
    ++ (if p.reached (p.lmp.test.map (·.2)) then [.lampTestPhaseExpiry] else [])
    ++ (List.filter tracked p.tfl.tracking).map (fun e => .passThroughExpiry e.1)

/-- The minute ticks handed to a block and not yet taken (R85; log 4). -/
def Part.dueTicks (p : Part) : List Instr :=
  List.map (fun _ => .authExpiry) p.tickRel ++ List.map (fun _ => .reAlert) p.tickAlt
    ++ List.map (fun _ => .scheduledCensusStart) p.tickCen

/-- The row that sends a command of the queue. -/
def BusCmd.sendRow (c : Chan) : BusCmd → Instr
  | .lockOpen _ _ _ => .sendLockOpen c
  | .lockClose _ _ _ => .sendLockClose c
  | .passed _ _ _ _ => .sendPassedFrame c
  | .readTags _ => .sendReadTags c
  | .lamp _ _ => .sendLamp c

/-- What a channel does next: the end of its reset pulse (R152), or what its arbiter chooses (R160). -/
def Part.dueChannel (p : Part) (c : Chan) : List Instr :=
  (if p.reached (p.chan c).pulse then [.resetPulseEnd c] else [])
    ++ match (p.chan c).choice p.mono with
      | some b => [b.sendRow c]
      | none => if (p.chan c).pollTurn p.mono && ((p.chan c).nextPoll p.mono).isSome then [.sendPoll c] else []

/-- The report the transmitter begins (R172), the waiting owner whose turn it is (R180), and the frame the TFL takes (R183). -/
def Part.dueQueues (p : Part) : List Instr :=
  (if p.link.maySend then [.clearToSendAsserted true] else [])
    ++ (if !p.link.waiters.isEmpty && decide (p.link.reports.length < Config.reportCap) then [.waitingOwnerReportEnters] else [])
    ++ match p.link.inbound with
      | f :: _ => if p.tfl.held.isNone then [tflRow f] else []
      | [] => []

/-- Every step of the part's own that is due (log 2). -/
def Part.dueCommands (p : Part) : List Instr :=
  p.dueLinks ++ p.dueRows ++ p.dueContexts ++ p.dueTicks ++ p.dueChannel .A ++ p.dueChannel .B ++ p.dueQueues

/-! ## The step -/

/-- A millisecond passes; the one that completes a second is the row MINUTE_TICK or MONOTONIC_SECOND (log 2, log 3). -/
def State.idle (s : State) : State :=
  let next : Part := { s.part with mono := s.part.mono + 1 }
  if next.mono % 1000 = 0 then
    { s with pending := (if s.part.tickNext then [.minuteTick, .authExpiry, .reAlert, .scheduledCensusStart]
      else [.monotonicSecond]) ++ next.dueCommands }
  else { part := next, pending := next.dueCommands }

/-- The command at the front of the queue is run on the state with the queue's rest; an empty queue idles. -/
def step (s : State) : Host.Outcome State Fault Refusal :=
  match s.pending with
  | c :: rest => exec c { s with pending := rest }
  | [] => .next s.idle

/-- The command a word spells, put at the front of the queue; the state as it is where the word spells none. -/
def State.withFetchWord (s : State) (nbits w : Nat) : State :=
  match decodeTableWord nbits w with
  | some c => { s with pending := c :: s.pending }
  | none => s

end Sys2Proof.Machine
end

