-- ==== Sys2Proof/Safety.lean ====
section
/-! DEFINITION. What counts as a safe run, and the terms claims are stated in: the part with its lamps set aside, a
request as its owner finds it, a response entered, and the invariants of the part. -/

namespace Sys2Proof.Machine
open Sys2Proof

/-! ## Safe steps -/

/-- A step is safe when the machine goes on. -/
def State.Safe (s : State) : Prop := ∃ t, step s = .next t

/-! ## The part with its lamps set aside -/

/-- A channel without the LAMP commands that wait in its queue. -/
def Channel.unlit (ch : Channel) : Channel := { ch with queue := ch.queue.filter (fun b => !b.isLampAny) }

/-- The part without what the recomputation of lamps at the end of a step can write: the LAMP commands that wait, the
marks behind and the marks of modules touched (R139; log 9). Images, overrides, blank flag and test stay. -/
def Part.unlit (p : Part) : Part := { p with
  lmp := { p.lmp with behind := [], touched := [] }, chanA := p.chanA.unlit, chanB := p.chanB.unlit }

/-- The next state is the state with part p, up to the recomputed lamps; the commands that wait stay. -/
def State.Becomes (s : State) (o : Host.Outcome State Fault Refusal) (p : Part) : Prop :=
  ∃ t, o = .next t ∧ t.pending = s.pending ∧ t.part.unlit = p.unlit

/-! ## The lamps of a module -/

/-- Module a of channel c is served: ACTIVE or SILENT on a RUNNING channel (R140). -/
abbrev Part.Served (p : Part) (c : Chan) (a : Nat) : Prop :=
  (p.chan c).state = .running ∧ ((p.chan c).modState a = .active ∨ (p.chan c).modState a = .silent)

/-- The lamps of its eight positions, as the records stand (R136). -/
abbrev Part.eightLamps (p : Part) (c : Chan) (a : Nat) : List Lamp := (List.range 8).map (p.lampOf c a)

/-- From p to q the lamps of module a of channel c have been worked out afresh, and no other module's. Of a served module whose
Lamp Image is not its eight lamps, the LAMP command that waits takes them in its place; where none waits a new one enters at
the tail while fewer than 12 wait, or the module is marked behind. Where the image is its eight lamps, a waiting one is
withdrawn. A module that is not served is left alone (R138, R139, R140). -/
def Part.Relit (p q : Part) (c : Chan) (a : Nat) : Prop :=
  let queue := (p.chan c).queue
  let image := Table.look p.lmp.images (lampKey c a)
  let free : Prop := ∀ ls, BusCmd.lamp a ls ∉ queue
  (p.Served c a → image ≠ some (p.eightLamps c a) →
    (∀ pre ls post, queue = pre ++ .lamp a ls :: post → (∀ ls, BusCmd.lamp a ls ∉ pre ++ post) →
      (q.chan c).queue = pre ++ .lamp a (p.eightLamps c a) :: post)
    ∧ (free → queue.length < 12 →
      (q.chan c).queue = queue ++ [.lamp a (p.eightLamps c a)] ∧ lampKey c a ∉ q.lmp.behind)
    ∧ (free → 12 ≤ queue.length → (q.chan c).queue = queue ∧ lampKey c a ∈ q.lmp.behind))
  ∧ (p.Served c a → image = some (p.eightLamps c a) →
    (q.chan c).queue = queue.filter (fun b => !BusCmd.isLamp a b))
  ∧ (¬ p.Served c a → (q.chan c).queue = queue)
  ∧ (∀ d, d ≠ c → (q.chan d).queue = (p.chan d).queue)
  ∧ (∀ k, k ≠ lampKey c a → (k ∈ q.lmp.behind ↔ k ∈ p.lmp.behind))

/-- The lamps of module a of channel c are in hand, if it is served: where its Lamp Image is its eight lamps no LAMP command of
it waits, and otherwise one alone waits with them, or none waits and it is marked behind (R139). -/
def Part.Lit (p : Part) (c : Chan) (a : Nat) : Prop :=
  let waiting := (p.chan c).queue.filter (BusCmd.isLamp a)
  p.Served c a → if Table.look p.lmp.images (lampKey c a) = some (p.eightLamps c a) then waiting = []
    else waiting = [.lamp a (p.eightLamps c a)] ∨ (waiting = [] ∧ lampKey c a ∈ p.lmp.behind)

/-- The next state is the state with part p and the lamps of module a of channel c, and no other's, worked out afresh. -/
def State.Relights (s : State) (o : Host.Outcome State Fault Refusal) (p : Part) (c : Chan) (a : Nat) : Prop :=
  ∃ t, o = .next t ∧ t.pending = s.pending ∧ t.part.unlit = p.unlit ∧ p.Relit t.part c a

/-! ## Requests -/

/-- The TFL is free, frame f is at the head of the Inbound Queue before rest, its taking is row, and the TFL's checks
let it through (R183, R185). -/
abbrev State.Asks (s : State) (row : Instr) (f : Frame) (rest : List Frame) : Prop :=
  s.part.tfl.held = none ∧ s.part.link.inbound = f :: rest ∧ tflRow f = row ∧ s.part.tflCheck f = none

/-- The part as the owner of a request finds it: the frame is taken, and a Hold Sequence of the origin is reset where
R24 says so. -/
def Part.asked (p : Part) (f : Frame) (rest : List Frame) : Part :=
  { p with
    link := { p.link with inbound := rest }
    holdSeq := if p.sequenceReset f then .idle else p.holdSeq }

/-- The RESPONSE to a request: tag, kind, result, SEQ_RESET flag, fields (R185, R205). -/
def Part.replyTo (p : Part) (f : Frame) (r : Result) (fields : List Byte) : Report :=
  ⟨.response, f.origin, [BitVec.ofNat 8 (reqTag f.payload), BitVec.ofNat 8 f.kind, BitVec.ofNat 8 r.code,
    BitVec.ofNat 8 (bit (p.sequenceReset f))] ++ fields⟩

/-- A report has entered the Report Queue. -/
def Part.queued (p : Part) (r : Report) : Part := { p with link := { p.link with reports := p.link.reports ++ [r] } }

/-! ## Tiers -/

/-- The tier of the rental of record r goes to new, another one; p is the part with it written, and `becomes` says of a part that
it is the outcome. The ALT is asked for what the table of R98 gives, and a tier that becomes DUE_SOON offers its report (R99),
behind the ALERT_WITHDRAWN where one change brings both (the model's choice, log 22). -/
def Part.TierTold (p : Part) (r : Rental) (new : Tier) (becomes : Part → Prop) : Prop :=
  let subject := Subject.rental r.number
  let low (x : Tier) : Prop := x = .onTime ∨ x = .dueSoon ∨ x = .grace
  let falls (q : Part) : Prop := (new ≠ .dueSoon → becomes q)
    ∧ (new = .dueSoon → becomes (q.offerOrd ⟨.dueSoon, 255,
      beBytes 4 r.number ++ beBytes 2 r.key ++ beBytes 3 r.due ++ beBytes 1 (r.due - p.now)⟩))
  (low r.tier → new = .overdue → becomes (p.raise .overdue subject none))
    ∧ (low r.tier → new = .escalated → becomes (p.raise .escalated subject none))
    ∧ (r.tier = .overdue → new = .escalated → becomes (p.replaceAlert .overdue .escalated subject))
    ∧ (r.tier = .escalated → new = .overdue → becomes (p.replaceAlert .escalated .overdue subject))
    ∧ (¬ low r.tier → low new → falls ((p.remove .overdue subject).remove .escalated subject))
    ∧ (low r.tier → low new → falls p)

/-! ## The census -/

/-- CENSUS_DONE of a census record, byte by byte: cause and origin, scope, start and end minute, outcome, flags, the seven counts,
and the entries of each kind in the Mismatch List (R131, R201, R205; no presence byte, origin 0 of a scheduled census: log 10). -/
def Cen.doneSpelt (n : Cen) : Report :=
  let listed (k : MisKind) : List Byte := beBytes 1 (n.list.filter (fun m => m.kind == k)).length
  ⟨.censusDone, 255,
    [match n.cause with
      | some (.request _) => 0#8
      | some .schedule => 1#8
      | none => 0xFF#8,
    match n.cause with
      | some (.request t) => BitVec.ofNat 8 t
      | _ => 0#8,
    match n.scope with
      | some .A => 0#8
      | some .B => 1#8
      | some .both => 2#8
      | none => 0xFF#8]
    ++ beBytes 3 (n.startMin.getD 0) ++ beBytes 3 (n.endMin.getD 0)
    ++ [match n.outcome with
      | some .complete => 0#8
      | some .aborted => 1#8
      | none => 0xFF#8,
    (if n.lostA then 1#8 else 0#8) + (if n.lostB then 2#8 else 0#8)]
    ++ beBytes 2 n.counts.read ++ beBytes 2 n.counts.unverified ++ beBytes 2 n.counts.compared ++ beBytes 2 n.counts.consistent
    ++ beBytes 2 n.counts.busySkipped ++ beBytes 2 n.counts.recorded ++ beBytes 2 n.counts.lost
    ++ listed .relocated ++ listed .outKeyPresent ++ listed .foreign ++ listed .missing ++ listed .readDiffers
    ++ listed .unverified⟩

/-- The census of part p has ended with the record n: CENSUS_DONE is offered as an ordinary report, and after it CENSUS_MISMATCH
is raised where a mismatch was recorded, and removed where a COMPLETE census recorded none (R131, R179; the order of the reports
is that of R131's list, log 22). -/
def Part.censusOver (p : Part) (n : Cen) : Part :=
  let q := ({ p with cen := n } : Part).offerOrd n.doneSpelt
  if 0 < n.counts.recorded then q.raise .censusMismatch .none none
  else if n.outcome = some .complete then q.remove .censusMismatch .none
  else q

/-! ## Enumeration -/

/-- The addresses of channel c that are ABSENT. -/
abbrev Part.absent (p : Part) (c : Chan) : List Nat :=
  ((p.chan c).modules.filter (fun e => e.2.state == .absent)).map (·.1)

/-- The STANDARD slots of the ABSENT modules of channel c. -/
abbrev Part.absentSlots (p : Part) (c : Chan) : List Nat := (p.absent c).flatMap (p.moduleSlots c)

/-- What holds of a channel in STARTING: its tables rise, no context is bound to a slot of an ABSENT module of it, no READ_TAGS or
passed frame for one waits, and the census does not stand there. -/
abbrev Part.StartsAlone (p : Part) (c : Chan) : Prop :=
  Table.rising (p.chan c).modules = true ∧ Table.rising p.rows = true
    ∧ (∀ e ∈ p.ctxs, ∀ n, e.2.slot = some n → n ∉ p.absentSlots c)
    ∧ (∀ b ∈ (p.chan c).queue, b.addr ∈ p.absent c → b.isReadTags = false ∧ b.isFrame = false)
    ∧ ∀ a, p.cen.pos ≠ some (c, a)

/-- The part p as the rounds of channel c, in STARTING, end. Each entry still ABSENT takes a re-probe time 10 seconds ahead, and
with one the next identification is 30 seconds ahead; the loss of each, in ascending address, takes effect: its rows UNKNOWN but
for their guides, the commands for it withdrawn, its Lamp Image unknown, MODULE_DOWN raised and MODULE_EVENT offered, in that
order (log 22). The first poll follows, or RUNNING at once when no module is ACTIVE (R140, R152, R157, R179). -/
def Part.enumerated (p : Part) (c : Chan) : Part :=
  let ch := p.chan c
  let lost : Part := { p with
    rows := p.rows.map (fun e => if e.1 ∈ p.absentSlots c then
      (e.1, { e.2 with occ := none, lock := none, settle := none, ctx := none }) else e)
    lmp := { p.lmp with images := p.lmp.images.filter (fun e => !((p.absent c).map (lampKey c)).contains e.1) } }
  let goesOn : Part := lost.onChan c (fun _ => { ch with
    state := if (List.range 30).any (fun i => ch.modState (i + 1) == .active) then .starting .firstPoll else .running
    lastPolled := 0, kept := []
    queue := ch.queue.filter (fun b => !(p.absent c).contains b.addr)
    nextIdent := if p.absent c = [] then ch.nextIdent else some (p.mono + 30000)
    modules := ch.modules.map (fun e =>
      if e.2.state = .absent then (e.1, { e.2 with reprobe := some (p.mono + 10000) }) else e) })
  (p.absent c).foldl (fun q a => (q.raise .moduleDown (.module c a) none).offerOrd
    ⟨.moduleEvent, 255, beBytes 1 c.code ++ beBytes 1 a ++ [0#8]⟩) goesOn

/-- The part p as a round, the count of rounds becoming n, reads a serial that the Module Map of channel c does not hold: the
frames given have been sent, the muted count and the strangers counter go up, and STRANGER is raised (R153; the muted count stops
at 64, log 31). -/
def Part.muted (p : Part) (c : Chan) (serial : Nat) (frames : List (List Byte)) (n : Nat) : Part :=
  (p.onChan c (fun ch => { ch with
    rounds := n, muted := min 64 (ch.muted + 1), strangers := satUp ch.strangers, sent := frames })).raise
    .stranger (.chan c) (some (.serial serial))

/-- The part p as an identification pass of channel c, in RUNNING, ends: the next identification is 30 seconds ahead while some
entry is ABSENT or DOWN, and absent otherwise (R154). -/
def Part.identified (p : Part) (c : Chan) : Part :=
  p.onChan c (fun ch => { ch with
    passOn := false
    nextIdent := if ch.modules.any (fun e => e.2.state == .absent || e.2.state == .down) then some (p.mono + 30000) else none })

/-! ## Releases -/

/-- Context i runs on slot n, carrying the authorization a, ACTIVE and not past its valid until, and key h, with record k,
in RELEASING at that slot (R42); there is a place for a lock command. -/
abbrev Part.Carries (p : Part) (i n : Nat) (c : Ctx) (a : Auth) (h : Nat) (k : KeyRec) : Prop :=
  Table.look p.ctxs i = some c ∧ c.slot = some n ∧ c.key = some h ∧ c.req.subject = .rental a.rental
    ∧ p.auth a.rental = some a ∧ a.state = .active ∧ a.validUntil.all (fun v => decide (p.now ≤ v)) = true
    ∧ Table.look p.keys h = some k ∧ k.state = .releasing ∧ k.loc = some n
    ∧ (p.chan (p.slotEntry n).chan).queue.length < Config.queueCap

/-- That context has given up its release with result r (R45, R46, R54, R55): it closes with a new lock limit, the
authorization waits, the key is ASSIGNED again when the authorization names it and otherwise IN or MISPLACED, and a
LOCK_CLOSE of its own is queued. -/
def Part.GaveUp (p q : Part) (i n : Nat) (c : Ctx) (a : Auth) (h : Nat) (k : KeyRec) (r : CtxResult) : Prop :=
  Table.look q.ctxs i = some { c with
      state := .closing, result := some r, lockLimit := some (p.mono + 2000), window := none, lockSent := false }
    ∧ q.auths = p.auths.map (fun x => if x.rental = a.rental then { x with state := .waiting } else x)
    ∧ Table.look q.keys h = some { k with
      state := if a.target = .key h then .assigned else if k.home = none ∨ k.home = some n then .inn else .misplaced }
    ∧ BusCmd.lockClose (p.slotEntry n).addr (p.slotEntry n).pos (.ctx i) ∈ (q.chan (p.slotEntry n).chan).queue
    ∧ q.rentals = p.rentals ∧ q.waitQ = p.waitQ ∧ q.policy = p.policy ∧ q.clock = p.clock ∧ q.cen = p.cen

/-- Context i, bound to slot n, has ended by the loss of its channel or module (R57). In OPENING, OPEN or REMOVED_SETTLING: its
authorization waits, its key is back at the slot, and RELEASE_FAILED gives CHANNEL_RESET; in CLOSING a completed release is
reported as it was, and any other result is CHANNEL_RESET; in DONE_PENDING, where the table of R57 has it stay the same, it has
lost its slot (log 30). -/
def Part.LostCtx (p q : Part) (i n : Nat) (x : Ctx) : Prop :=
  let head (num : Nat) : List Byte :=
    [BitVec.ofNat 8 x.req.tag, BitVec.ofNat 8 x.req.kind.code] ++ beBytes 4 num ++ beIndex x.key ++ beBytes 2 n
  let failed (num : Nat) : Report := ⟨.releaseFailed, x.req.origin, head num ++ beBytes 4 0 ++ [0x45#8]⟩
  let stays : Prop := q.keys = p.keys ∧ q.auths = p.auths
  q.rentals = p.rentals
    ∧ (∀ a h k, p.Carries i n x a h k → x.state = .opening ∨ x.state = .opened ∨ x.state = .removedSettling →
      q.ctxs = Table.del p.ctxs i
        ∧ q.auths = p.auths.map (fun z => if z.rental = a.rental then { z with state := .waiting } else z)
        ∧ Table.look q.keys h = some { k with
          state := if a.target = .key h then .assigned else if k.home = none ∨ k.home = some n then .inn else .misplaced }
        ∧ failed a.rental ∈ q.link.reports)
    ∧ (∀ num, x.state = .closing → x.req.subject = .rental num → q.ctxs = Table.del p.ctxs i ∧ stays
      ∧ (∀ place, x.rental = some place →
        (x.result = some .released → ⟨.releaseDone, x.req.origin, head num ++ beBytes 2 place ++ beBytes 3 x.out
          ++ [0x06#8, if x.closeFault then 1#8 else 0#8]⟩ ∈ q.link.reports)
        ∧ (x.result = some .lateTake → ⟨.releaseDone, x.req.origin, head num ++ beBytes 2 place ++ beBytes 3 x.out
          ++ [0x07#8, if x.closeFault then 1#8 else 0#8]⟩ ∈ q.link.reports))
      ∧ (x.result ≠ some .released → x.result ≠ some .lateTake → failed num ∈ q.link.reports))
    ∧ (x.state = .donePending → stays ∧ Table.look q.ctxs i = some { x with slot := none })

/-! ## Answers of the slot bus -/

/-- An answer is good for a command sent to address a: its address is a and its CRC-8 agrees (R147, R207). -/
abbrev GoodReply (r : Reply) (a : Nat) : Prop :=
  r.addr = BitVec.ofNat 8 a ∧ crc8 (r.addr :: r.status :: r.data) = r.check

/-! ## Invariants -/

/-- No list of the part is over its capacity (R26, R39, R72, R130, R159, R176, R178). -/
def Part.Bounded (p : Part) : Prop :=
  p.link.reports.length ≤ Config.reportCap ∧ p.link.inbound.length ≤ Config.inboundCap
    ∧ p.chanA.queue.length ≤ Config.queueCap ∧ p.chanB.queue.length ≤ Config.queueCap
    ∧ p.auths.length ≤ Config.authCap ∧ p.waitQ.length ≤ Config.waitCap
    ∧ p.dropBin.length ≤ Config.dropCap ∧ p.cen.list.length ≤ Config.mismatchCap

/-- The Due List is in its order: every record in it is in use, the earlier due minute stands first, and of equal ones the
lower rental number (R95). -/
abbrev Part.DueOrdered (p : Part) : Prop :=
  (∀ i ∈ p.due, (Table.look p.rentals i).isSome) ∧ p.due.Pairwise (fun i j => ∀ a b, Table.look p.rentals i = some a →
    Table.look p.rentals j = some b → a.due < b.due ∨ (a.due = b.due ∧ a.number ≤ b.number))

/-- What every record of the part keeps from step to step. -/
structure Part.Sound (p : Part) : Prop where
  /-- Every table lists an index once, in ascending order. -/
  tablesRise : Table.rising p.keys ∧ Table.rising p.rows ∧ Table.rising p.slotMap ∧ Table.rising p.groups
    ∧ Table.rising p.ctxs ∧ Table.rising p.rentals ∧ Table.rising p.filters ∧ Table.rising p.dupCounts
    ∧ Table.rising p.schedule ∧ Table.rising p.tfl.terminals ∧ Table.rising p.tfl.passTable ∧ Table.rising p.tfl.tracking
    ∧ Table.rising p.lmp.images ∧ Table.rising p.lmp.overrides ∧ Table.rising p.alt.notices
    ∧ ∀ c, Table.rising (p.chan c).map ∧ Table.rising (p.chan c).modules
  /-- A handle, a tag id and a home slot belong to one key (R1, R15). -/
  keysDistinct : (∀ e ∈ p.keys, e.1 < Config.handles) ∧ (p.keys.map (·.2.tag)).Nodup ∧ (p.keys.filterMap (·.2.home)).Nodup
  /-- A rental number belongs to one authorization or rental record (R28). -/
  numbersDistinct : (p.auths.map (·.rental) ++ p.rentals.map (·.2.number)).Nodup
  /-- The OPEN records are exactly those of the Due List, which is in its order (R95). -/
  dueOpen : p.due.Nodup ∧ p.DueOrdered ∧ ∀ i, i ∈ p.due ↔ ∃ r, Table.look p.rentals i = some r ∧ r.snap = none
  /-- The tier of every OPEN record is that of the formula at the present minute (R96, R97). -/
  tiersCurrent : ∀ e ∈ p.rentals, e.2.snap = none →
    e.2.tier = tierOf p.policy.dueSoon p.policy.escalation e.2.due e.2.grace p.now
  /-- The Alert Register has 64 places, and one entry at most for a kind and subject (R103). -/
  alertsDistinct : (p.alt.entries.map (fun e => (e.kind, e.subject))).Nodup ∧ (p.alt.entries.map (·.place)).Nodup
    ∧ (∀ e ∈ p.alt.entries, e.place < Config.alertPlaces) ∧ ∀ e ∈ p.alt.notices, e.1 < Config.alertPlaces
  /-- The flag CLOCK_UNSET is set exactly while the clock is UNSET (R115). -/
  clockUnset : p.alt.flags.getLsbD 14 = !p.clock.set
  /-- An owner waits once, and the TFL exactly while it holds a response (R180). -/
  waitersOnce : p.link.waiters.Nodup ∧ (Waiter.tfl ∈ p.link.waiters ↔ p.tfl.held.isSome)
  /-- A request in the Release Wait Queue has a number of its own. -/
  queueNumbered : (p.waitQ.map (·.id)).Nodup ∧ ∀ w ∈ p.waitQ, w.id < p.nextId
  /-- A slot has a row exactly when it is STANDARD, no position carries two slots, and at most two are drop positions (R4,
  R5). -/
  slotsRowed : (∀ n, (Table.look p.rows n).isSome ↔ (p.slotEntry n).kind = .standard) ∧ slotMapOk p.slotMap
  /-- The Module Table of a channel holds exactly the addresses of its Module Map, which names no serial or address twice
  (R155). -/
  modulesMapped : ∀ c, moduleMapOk (p.chan c).map
    ∧ ∀ a, (Table.look (p.chan c).modules a).isSome ↔ ∃ e ∈ (p.chan c).map, e.2.addr = a
  /-- Some terminal is OFFICE with LOAD (R184). -/
  officeLoads : officeHasLoad p.tfl.terminals
  /-- Two points of the Zone Schedule have different minutes, and the zone is the one the schedule gives (R90, R91). -/
  zoneCurrent : (p.schedule.map (·.2.minuteOfDay)).Nodup ∧ p.zone = p.zoneEval
  /-- The clock keeps its ranges, and is AT_LIMIT exactly when it is SET and at its last minute (R84, R86). -/
  clockInRange : p.clock.minute ≤ Config.maxMinute ∧ p.clock.second ≤ 59 ∧ p.clock.dayOffset ≤ 1439
    ∧ (p.clock.atLimit = true ↔ p.clock.set = true ∧ p.clock.minute = Config.maxMinute)
  /-- Every policy value stands in its range (R193). -/
  policyInRange : ∀ i, i < 12 → policyClamp i (p.policy.get i) = p.policy.get i
  /-- Contexts, Tracking entries and overrides have the numbers the part gives them (R42, R143, R188). -/
  indexesInRange : (∀ e ∈ p.ctxs, e.1 < Config.contexts) ∧ (∀ e ∈ p.tfl.tracking, e.1 < Config.trackCap)
    ∧ ∀ e ∈ p.lmp.overrides, e.1 ∈ allModules

/-- No lamp is left to recompute between steps (R138; log 9). -/
def Part.Settled (p : Part) : Prop := p.lmp.touched = []

end Sys2Proof.Machine
end

