-- ==== Sys2Proof/Certificates/Slice0/Obligations.lean ====
section
/-! DEFINITION. The statements for the provers, each def Obligations.<Name> : Prop. In the statements about a request,
State.Asks says which frame the TFL takes, Part.asked is the part its owner finds, Part.replyTo the response, and
State.Becomes that exec answers a next state whose part is the one given, in every field but the recomputed lamps
(Safety.lean). -/

open Sys2Proof Sys2Proof.Machine

/-! ## The machine -/

/-- The step of a state whose queue has command c in front is c run on the state with the queue's rest (95). -/
def Obligations.StepRunsFrontCommand : Prop :=
  ∀ (c : Instr) (s : State), step { s with pending := c :: s.pending } = exec c s

/-- An empty queue: a millisecond passes, and nothing of the part changes but monotonic time. The millisecond that
completes a second is left to the row that takes it (the model's choice, logs 2 and 3). -/
def Obligations.IdleStepPassesAMillisecond : Prop :=
  ∀ s : State, s.pending = [] →
    ((s.part.mono + 1) % 1000 ≠ 0 → ∃ q, step s = .next ⟨{ s.part with mono := s.part.mono + 1 }, q⟩)
    ∧ ((s.part.mono + 1) % 1000 = 0 →
      ∃ c q, step s = .next ⟨s.part, c :: q⟩ ∧ c = if s.part.tickNext then .minuteTick else .monotonicSecond)

/-- Every command completes on every state, none touches the queue of commands, and every step answers a next state (95:
each step is whole). -/
def Obligations.EveryCommandCompletes : Prop :=
  (∀ (c : Instr) (s : State), ∃ t, exec c s = .next t ∧ t.pending = s.pending) ∧ ∀ s : State, s.Safe

/-- The values of the power-on table (R199), as the part has them at reset; POWER_ON in any state gives the same part,
the strap as read (R200). The level of the strap at reset is the model's choice (log 23). -/
def Obligations.PowerOnState : Prop :=
  (∀ (high : Bool) (s : State),
    exec (.powerOn high) s = .next { s with part := { State.reset.part with strapHigh := high } }) ∧
  let p := State.reset.part
  State.reset.pending = [] ∧ p.mono = 0
    ∧ p.link.rx = .hunt false false ∧ p.link.inbound = [] ∧ p.link.reports = [] ∧ p.link.waiters = []
    ∧ p.link.overrunBit = false ∧ p.link.lossEpisode = false ∧ p.link.watch = .watching 40000
    ∧ p.link.counters = ⟨0, 0, 0, 0, 0, 0, 0, 0, 0, 0, 0⟩
    ∧ (∀ t, p.terminal t = if t = 1 then ⟨.office, true, true⟩ else ⟨.none, false, false⟩)
    ∧ p.tfl.passTable = [] ∧ p.tfl.tracking = []
    ∧ (∀ c, (p.chan c).state = .off ∧ (p.chan c).map = [] ∧ (p.chan c).modules = [] ∧ (p.chan c).queue = []
        ∧ (p.chan c).misses = 0 ∧ (p.chan c).bounces = 0 ∧ (p.chan c).recoveries = 0 ∧ (p.chan c).strangers = 0
        ∧ (p.chan c).muted = 0 ∧ (p.chan c).history = [] ∧ (p.chan c).nextIdent = none)
    ∧ p.rows = [] ∧ p.keys = [] ∧ (∀ n, p.slotEntry n = ⟨.A, 1, 0, .disabled, 0⟩)
    ∧ (∀ g z r, r ≠ .none → (p.group g).permits z r = true) ∧ p.holdSeq = .idle
    ∧ p.auths = [] ∧ p.ctxs = [] ∧ p.waitQ = [] ∧ p.dropBin = [] ∧ p.filters = [] ∧ p.dupCounts = []
    ∧ p.clock.set = false ∧ p.zone = .staffed ∧ p.schedule = [] ∧ p.rentals = [] ∧ p.due = []
    ∧ p.alt.entries = [] ∧ p.alt.notices = [] ∧ (∀ i, p.alt.flags.getLsbD i = decide (i = 14))
    ∧ p.alt.enableStaffed = 0#16 ∧ p.alt.enableUnstaffed = 0#16 ∧ p.alt.lineEnable = false ∧ p.lineDriven = false
    ∧ p.cen.state = .idle ∧ p.cen.counts = ⟨0, 0, 0, 0, 0, 0, 0⟩ ∧ p.cen.list = [] ∧ p.cen.nextStart = none
    ∧ p.lmp.images = [] ∧ p.lmp.overrides = [] ∧ p.lmp.blank = false ∧ p.lmp.test = none
    ∧ p.policy = ⟨29, 60, 4, 60, 240, 60, 30, 500, 3, 40, 0, false⟩

/-! ## Invariants that every step keeps -/

/-- Every step keeps three invariants: no list of the part goes past its capacity (R26, R39, R72, R130, R159, R176, R178);
no lamp is left to recompute between steps (R138; the recomputation at the end of the step is the model's choice, log 9); and
the records are sound (Safety.lean): tables rise, keys, rental numbers, alert entries and waiting owners are distinct, the Due
List holds the OPEN records in order, their tiers and the zone are those of the present minute, rows stand for the STANDARD
slots and the Module Table for the Module Map, the clock and the policy keep their ranges (R4, R5, R91, R95, R97, R103, R155,
R180, R184, R193). -/
def Obligations.EveryStepKeepsTheInvariants : Prop :=
  ∀ s t : State, step s = .next t →
    (s.part.Bounded → t.part.Bounded) ∧ (s.part.Settled → t.part.Settled) ∧ (s.part.Sound → t.part.Sound)

/-- At reset no list is over its capacity, no lamp is left to recompute, and the records are sound. -/
def Obligations.ResetKeepsTheInvariants : Prop :=
  State.reset.part.Bounded ∧ State.reset.part.Settled ∧ State.reset.part.Sound

/-- Until the next POWER_ON, no step takes monotonic time back (R83) and none writes the strap as read (R200). -/
def Obligations.TimeAndStrapHoldUntilPowerOn : Prop :=
  ∀ s t : State, (∀ high, s.pending.head? ≠ some (.powerOn high)) → step s = .next t →
    s.part.mono ≤ t.part.mono ∧ t.part.strapHigh = s.part.strapHigh

/-! ## The receiver -/

/-- HUNT: 0x3A after 0xC5 is the sync pair; a 0xC5 may start one, and with a second 0xC5 the first, or with any other byte or a
framing error that byte and a 0xC5 before it, is no part of a pair, the first such byte of a run counting in SYNC_ERROR.
FRAMING_ERROR outside HUNT, and FRAME_TRUNCATED once 20 ms have passed since the last byte (R173, R175). That a byte of HUNT which
completes no pair is the row SYNC_ERROR is the model's choice (log 6). -/
def Obligations.ReceiverHuntsAndAbandons : Prop :=
  ∀ s : State,
    let l := s.part.link
    let goes (rx : Receiver) (n : LinkCounters) : Part := { s.part with link := { l with rx := rx, counters := n } }
    let framed : LinkCounters := { l.counters with framingError := satUp l.counters.framingError }
    (∀ run, l.rx = .hunt run true → s.Becomes (exec .syncPairFound s) (goes (.header [] s.part.mono) l.counters))
    ∧ (∀ run start, l.rx = .hunt run start →
      let counted (n : LinkCounters) : LinkCounters := if run = true then n else { n with syncError := satUp n.syncError }
      (start = false → s.Becomes (exec (.syncError 0xC5#8) s) (goes (.hunt run true) l.counters))
      ∧ (start = true → s.Becomes (exec (.syncError 0xC5#8) s) (goes (.hunt true true) (counted l.counters)))
      ∧ (∀ b, b ≠ 0xC5#8 → ¬ (start = true ∧ b = 0x3A#8) →
        s.Becomes (exec (.syncError b) s) (goes (.hunt true false) (counted l.counters)))
      ∧ s.Becomes (exec .framingError s) (goes (.hunt true false) (counted framed)))
    ∧ ((∀ run start, l.rx ≠ .hunt run start) → s.Becomes (exec .framingError s) (goes (.hunt false false) framed))
    ∧ (∀ last, l.rx.lastByte = some last →
      (last + 20 ≤ s.part.mono → s.Becomes (exec .frameTruncated s)
        (goes (.hunt false false) { l.counters with truncated := satUp l.counters.truncated }))
      ∧ (s.part.mono < last + 20 → s.Becomes (exec .frameTruncated s) s.part))

/-- HEADER_RECEIVED with the bytes that complete a header with the check byte the part would build, bit 7 aside: it goes on to
PAYLOAD, to CHECK when the length is 0, or is abandoned with LENGTH_ERROR above 240. A header corrected to g counts
HEADER_CORRECTED and goes on as g in the same three cases. An uncorrectable header is counted and its frame abandoned (R174).
Bytes that do not complete it are kept, with the time of the last (R175). That the bytes of a header come in one row or in
several is the model's choice (log 6). -/
def Obligations.HeaderIsTakenOrAbandoned : Prop :=
  ∀ (s : State) (got new : List Byte) (last : Nat) (a b c d e : Option Byte), s.part.link.rx = .header got last → new ≠ [] →
    let l := s.part.link
    let goes (rx : Receiver) (n : LinkCounters) : Part := { s.part with link := { l with rx := rx, counters := n } }
    let becomes (p : Part) : Prop := s.Becomes (exec (.headerReceived a b c d e) s) p
    let now := s.part.mono
    (∀ rest : Nat, 0 < rest → got.length + new.length + rest = 5 →
      [a, b, c, d, e] = List.replicate got.length none ++ new.map some ++ List.replicate rest none →
      becomes (goes (.header (got ++ new) now) l.counters))
    ∧ (∀ h : Header, [a, b, c, d, e] = List.replicate got.length none ++ new.map some →
      got ++ new = [h.dest, h.origin, h.kind, h.len, h.check] →
      ((h.check = h.build ∨ h.check = h.build ||| 0x80#8) →
        (1 ≤ h.len.toNat → h.len.toNat ≤ 240 → becomes (goes (.payload h [] now) l.counters))
        ∧ (h.len = 0#8 → becomes (goes (.check h [] [] now) l.counters))
        ∧ (240 < h.len.toNat →
          becomes (goes (.hunt false false) { l.counters with lengthError := satUp l.counters.lengthError })))
      ∧ (∀ g : Header, h.judge = some (g, true) →
        let n := { l.counters with headerCorrected := satUp l.counters.headerCorrected }
        (1 ≤ g.len.toNat → g.len.toNat ≤ 240 → becomes (goes (.payload g [] now) n))
        ∧ (g.len = 0#8 → becomes (goes (.check g [] [] now) n))
        ∧ (240 < g.len.toNat → becomes (goes (.hunt false false) { n with lengthError := satUp n.lengthError })))
      ∧ (h.judge = none → becomes (goes (.hunt false false)
        { l.counters with headerUncorrectable := satUp l.counters.headerUncorrectable })))

/-- A header with one of its 32 data bits in error is judged corrected, with that bit inverted back; one with one of the
seven check bits in error is judged corrected, its data as sent; one with two different bits in error, both of the data, both
of the check or one of each, is uncorrectable. The check sums over the nine characters 123456789, and the check byte of the
header of the example (R174, R202, R207). -/
def Obligations.HeaderCheckCorrectsOneBitAndFindsTwo : Prop :=
  (∀ h : Header, h.check = h.build →
    (∀ d, d < 32 → (h.flipData d).judge = some (h, true))
    ∧ (∀ k, k < 7 → ({ h with check := flipBit h.check k } : Header).judge = some (h, true))
    ∧ (∀ d e, d < 32 → e < 32 → d ≠ e → ((h.flipData d).flipData e).judge = none)
    ∧ (∀ k l, k < 7 → l < 7 → k ≠ l → ({ h with check := flipBit (flipBit h.check k) l } : Header).judge = none)
    ∧ (∀ d k, d < 32 → k < 7 → ({ h.flipData d with check := flipBit h.check k } : Header).judge = none))
  ∧ (let digits : List Byte := [0x31#8, 0x32#8, 0x33#8, 0x34#8, 0x35#8, 0x36#8, 0x37#8, 0x38#8, 0x39#8]
     crc16 digits = 0x29B1#16 ∧ crc8 digits = 0xF4#8 ∧ (⟨0x00#8, 0x01#8, 0x4B#8, 0x01#8, 0#8⟩ : Header).build = 0x17#8)

/-- FRAME_RECEIVED with the byte that completes the CRC, while the watch is WATCHING or OFF: a frame whose CRC agrees renews a
watch that is not OFF, and enters the Inbound Queue if its destination is the controller, a module or every node and the queue
holds fewer than 16; a full queue counts OVERRUN and sets the bit; another destination drops it; a CRC that differs counts
CRC_ERROR. PAYLOAD_RECEIVED before it collects bytes, with the time of the last, up to as many as the length gives, and then goes
to CHECK; the first CRC byte alone is kept in the same way (R175, R176, R181). That these bytes come in one row or in several is
the model's choice (log 6). -/
def Obligations.FrameReceivedIsJudged : Prop :=
  (∀ (s : State) (h : Header) (last : Nat) (got bs : List Byte), s.part.link.rx = .payload h got last → bs ≠ [] →
    let goes (rx : Receiver) : Part := { s.part with link := { s.part.link with rx := rx } }
    ((got ++ bs).length = h.len.toNat →
      s.Becomes (exec (.payloadReceived bs) s) (goes (.check h (got ++ bs) [] s.part.mono)))
    ∧ ((got ++ bs).length < h.len.toNat →
      s.Becomes (exec (.payloadReceived bs) s) (goes (.payload h (got ++ bs) s.part.mono))))
  ∧ (∀ (s : State) (h : Header) (bs : List Byte) (last : Nat) (hi : Byte), s.part.link.rx = .check h bs [] last →
    s.Becomes (exec (.frameReceived (some hi) none) s)
      { s.part with link := { s.part.link with rx := .check h bs [hi] s.part.mono } })
  ∧ ∀ (s : State) (h : Header) (bs crc : List Byte) (last e : Nat) (hi lo : Byte) (a : Option Byte),
    s.part.link.rx = .check h bs crc last → (crc = [] ∧ a = some hi) ∨ (crc = [hi] ∧ a = none) →
    s.part.link.watch = .watching e ∨ s.part.link.watch = .off →
    let l := s.part.link
    let w := if l.watch = .off then .off else Watch.watching (s.part.mono + 1000 * s.part.policy.linkWatch)
    let f : Frame := ⟨h.dest.toNat, h.origin.toNat, h.kind.toNat, bs⟩
    let taken : Prop := f.dest = 0 ∨ f.dest = 255 ∨ (0x41 ≤ f.dest ∧ f.dest ≤ 0x5E) ∨ (0x81 ≤ f.dest ∧ f.dest ≤ 0x9E)
    let becomes (l : Link) : Prop :=
      s.Becomes (exec (.frameReceived a (some lo)) s) { s.part with link := { l with rx := .hunt false false } }
    (frameCrc h bs = hi ++ lo → taken → l.inbound.length < 16 → becomes { l with watch := w, inbound := l.inbound ++ [f] })
    ∧ (frameCrc h bs = hi ++ lo → taken → 16 ≤ l.inbound.length → becomes { l with
        watch := w, overrunBit := true, counters := { l.counters with overrun := satUp l.counters.overrun } })
    ∧ (frameCrc h bs = hi ++ lo → ¬ taken → becomes { l with watch := w })
    ∧ (frameCrc h bs ≠ hi ++ lo → becomes { l with
        counters := { l.counters with crcError := satUp l.counters.crcError } })

/-! ## The link watch -/

/-- LINK_WATCH_EXPIRY: the watch becomes SILENT; LINK_SILENT is raised, an UNACKED entry standing for it where there is a free
place or one stood before; every override and the lamp test end, every Tracking entry is FREE with its frame withdrawn and its
waiting response given up, the Hold Sequence is reset. A valid frame while SILENT: LINK_SILENT is removed with ALERT_WITHDRAWN if
it stands, LINK_RESTORED is queued, the watch is set again, nothing the silence ended comes back, and the frame enters the Inbound
Queue, is dropped as overrun, or is not for the part, as any valid frame (R106, R107, R110, R176, R181, R182, R190). That
LINK_RESTORED gives the expiry the watch held (log 33), and that the detail value bytes of ALERT_WITHDRAWN are 0 where the entry
has no value (log 58), are the model's choice. -/
def Obligations.LinkWatchExpiresAndIsRestored : Prop :=
  (∀ (s : State) (e : Nat), s.part.link.watch = .watching e → e ≤ s.part.mono →
    (∀ o ∈ s.part.lmp.overrides, o.1 ∈ allModules) →
    ∃ t, exec .linkWatchExpiry s = .next t ∧ t.part.link.watch = .silent e ∧ t.part.holdSeq = .idle
      ∧ t.part.lmp.overrides = [] ∧ t.part.lmp.test = none ∧ t.part.tfl.tracking = []
      ∧ (∀ i, Waiter.tracking i ∉ t.part.link.waiters)
      ∧ (∀ c a cls d i, BusCmd.passed a cls d i ∉ (t.part.chan c).queue)
      ∧ t.part.alt.flags.getLsbD 11 = true
      ∧ (∀ i, s.part.alt.find .linkSilent .none = none → s.part.alt.freePlace = some i →
        ∃ x, t.part.alt.entries = s.part.alt.entries ++ [x] ∧ x.place = i ∧ x.kind = .linkSilent ∧ x.subject = .none
          ∧ x.detail = none ∧ x.raised = s.part.now ∧ x.acked = false)
      ∧ (∀ x, s.part.alt.find .linkSilent .none = some x →
        ∃ y ∈ t.part.alt.entries, y.kind = .linkSilent ∧ y.subject = .none ∧ y.place = x.place ∧ y.acked = false)
      ∧ t.part.keys = s.part.keys ∧ t.part.rows = s.part.rows ∧ t.part.auths = s.part.auths ∧ t.part.ctxs = s.part.ctxs
      ∧ t.part.rentals = s.part.rentals ∧ t.part.cen = s.part.cen ∧ t.part.policy = s.part.policy
      ∧ t.part.clock = s.part.clock ∧ t.part.lmp.images = s.part.lmp.images ∧ t.part.lmp.blank = s.part.lmp.blank)
  ∧ ∀ (s : State) (h : Header) (bs : List Byte) (last e : Nat) (hi lo : Byte),
    s.part.link.rx = .check h bs [] last → s.part.link.watch = .silent e → frameCrc h bs = hi ++ lo →
    s.part.link.reports.length < 47 → s.part.link.waiters = [] →
    (∀ x, s.part.alt.find .linkSilent .none = some x → x.pending = none) →
    ∃ t, exec (.frameReceived (some hi) (some lo)) s = .next t
      ∧ t.part.link.watch = .watching (s.part.mono + 1000 * s.part.policy.linkWatch)
      ∧ t.part.link.reports = s.part.link.reports
          ++ ((s.part.alt.find .linkSilent .none).map (fun x => x.withdrawn s.part.now)).toList
          ++ [⟨.linkRestored, 255, beBytes 6 e ++ beBytes 4 ((s.part.mono - e) / 1000)⟩]
      ∧ (∀ x, s.part.alt.find .linkSilent .none = some x →
          t.part.alt.entries = s.part.alt.entries.filter (fun y => y.place != x.place))
      ∧ t.part.lmp.overrides = s.part.lmp.overrides ∧ t.part.lmp.test = s.part.lmp.test ∧ t.part.tfl = s.part.tfl
      ∧ t.part.holdSeq = s.part.holdSeq
      ∧ (let f : Frame := ⟨h.dest.toNat, h.origin.toNat, h.kind.toNat, bs⟩
         let l := s.part.link
         let leaves (inbound : List Frame) (bit : Bool) (counters : LinkCounters) : Prop :=
           t.part.link.inbound = inbound ∧ t.part.link.overrunBit = bit ∧ t.part.link.counters = counters
         let taken : Prop :=
           f.dest = 0 ∨ f.dest = 255 ∨ (0x41 ≤ f.dest ∧ f.dest ≤ 0x5E) ∨ (0x81 ≤ f.dest ∧ f.dest ≤ 0x9E)
         (taken → l.inbound.length < 16 → leaves (l.inbound ++ [f]) l.overrunBit l.counters)
         ∧ (taken → 16 ≤ l.inbound.length → leaves l.inbound true { l.counters with overrun := satUp l.counters.overrun })
         ∧ (¬ taken → leaves l.inbound l.overrunBit l.counters))

/-! ## The transmitter and the waiting owners -/

/-- CLEAR_TO_SEND_ASSERTED, the input found asserted: an idle transmitter begins the head report, as a frame with origin 0, and
goes on with one begun; found not asserted, it begins none and goes on with one begun. While the input stays asserted, an idle
transmitter with a report waiting looks at it again of itself (the level and that row are the model's form, logs 2 and 7).
REPORT_SENT takes the report out of the queue, and the loss episode ends below 32. An ordinary report enters while the queue holds
fewer than 48, and is dropped and counted at 48 or more, raising QUEUE_LOSS at the start of an episode (R172, R179, R202). -/
def Obligations.ReportQueueEnds : Prop :=
  (∀ (s : State) (r : Report) (rest : List Report), s.part.link.reports = r :: rest →
    (s.part.link.tx = none →
      s.Becomes (exec (.clearToSendAsserted true) s) { s.part with
        link := { s.part.link with
          cts := true
          tx := some (
            let h : Header := ⟨BitVec.ofNat 8 r.dest, 0#8, BitVec.ofNat 8 r.kind.code, BitVec.ofNat 8 r.payload.length, 0#8⟩
            [0xC5#8, 0x3A#8, h.dest, h.origin, h.kind, h.len, h.build] ++ r.payload
              ++ beBytes 2 (crc16 ([h.dest, h.origin, h.kind, h.len, h.build] ++ r.payload)).toNat) } })
    ∧ (∀ bytes, s.part.link.tx = some bytes →
      s.Becomes (exec .reportSent s) { s.part with
        link := { s.part.link with
          tx := none, reports := rest
          lossEpisode := if rest.length < 32 then false else s.part.link.lossEpisode } }))
  ∧ (∀ s : State,
    s.Becomes (exec (.clearToSendAsserted false) s) { s.part with link := { s.part.link with cts := false } }
    ∧ (s.part.link.tx ≠ none ∨ s.part.link.reports = [] →
      s.Becomes (exec (.clearToSendAsserted true) s) { s.part with link := { s.part.link with cts := true } })
    ∧ (s.pending = [] → s.part.link.cts = true → s.part.link.tx = none → s.part.link.reports ≠ [] →
      (s.part.mono + 1) % 1000 ≠ 0 →
      ∃ q, step s = .next ⟨{ s.part with mono := s.part.mono + 1 }, q⟩ ∧ Instr.clearToSendAsserted true ∈ q))
  ∧ ∀ (p : Part) (r : Report),
    (p.link.reports.length < 48 → p.offerOrd r = { p with link := { p.link with reports := p.link.reports ++ [r] } })
    ∧ (48 ≤ p.link.reports.length → p.link.lossEpisode = true → p.offerOrd r = { p with
        link := { p.link with
          counters := { p.link.counters with reportsDropped := satUp p.link.counters.reportsDropped } } })
    ∧ (48 ≤ p.link.reports.length → p.link.lossEpisode = false →
        (p.offerOrd r).link.lossEpisode = true ∧ (p.offerOrd r).alt.flags.getLsbD 12 = true
        ∧ (p.offerOrd r).link.counters.reportsDropped = satUp p.link.counters.reportsDropped)

/-- WAITING_OWNER_REPORT_ENTERS: the report of the oldest waiting owner enters, and the owner goes on. The stalled TFL is free;
the rental in CLOSED_PENDING, the context in DONE_PENDING with no request waiting, the ENDED entry of the Release Wait Queue and
the Tracking entry in ANSWERING are freed; a place of the Alert Register sends its notice first, and keeps its turn for the ALERT
that is pending behind it (R53, R62, R180, R189). A LOCK_CLOSE of the freed context that still waits stays in its queue, as no
context's any more (R49, R159). That the detail value bytes of the ALERT are 0 where the entry has no value is the model's choice
(log 58). -/
def Obligations.WaitingOwnersReportEnters : Prop :=
  ∀ (s : State) (ws : List Waiter), s.part.link.reports.length < 64 →
    (∀ r, s.part.link.waiters = .tfl :: ws → s.part.tfl.held = some r →
      s.Becomes (exec .waitingOwnerReportEnters s) { s.part with
        link := { s.part.link with waiters := ws, reports := s.part.link.reports ++ [r] }
        tfl := { s.part.tfl with held := none } })
    ∧ (∀ i r x, s.part.link.waiters = .rental i :: ws → Table.look s.part.rentals i = some r → r.snap = some x →
      s.Becomes (exec .waitingOwnerReportEnters s) { s.part with
        link := { s.part.link with waiters := ws, reports := s.part.link.reports ++ [s.part.returnReport i r x] }
        rentals := Table.del s.part.rentals i })
    ∧ (∀ i c r, s.part.link.waiters = .context i :: ws → Table.look s.part.ctxs i = some c → c.held = some r →
      (∀ w ∈ s.part.waitQ, w.ended ≠ none) →
      let left (ch : Channel) : Channel := { ch with queue := ch.queue.map (fun b => match b with
        | .lockClose a pos (.ctx j) => .lockClose a pos (if j = i then .left else .ctx j)
        | b => b) }
      s.Becomes (exec .waitingOwnerReportEnters s) { s.part with
        link := { s.part.link with waiters := ws, reports := s.part.link.reports ++ [r] }
        chanA := left s.part.chanA, chanB := left s.part.chanB
        ctxs := Table.del s.part.ctxs i
        rows := match c.slot with
          | some n => Table.modify s.part.rows n (fun y => if y.ctx = some i then { y with ctx := none } else y)
          | none => s.part.rows })
    ∧ (∀ id w r, s.part.link.waiters = .waitEntry id :: ws → s.part.waitQ.find? (fun x => x.id == id) = some w →
      w.ended = some r →
      s.Becomes (exec .waitingOwnerReportEnters s) { s.part with
        link := { s.part.link with waiters := ws, reports := s.part.link.reports ++ [r] }
        waitQ := s.part.waitQ.filter (fun x => x.id != id) })
    ∧ (∀ i t r, s.part.link.waiters = .tracking i :: ws → Table.look s.part.tfl.tracking i = some t →
      t.state = .answering r →
      s.Becomes (exec .waitingOwnerReportEnters s) { s.part with
        link := { s.part.link with waiters := ws, reports := s.part.link.reports ++ [r] }
        tfl := { s.part.tfl with tracking := Table.del s.part.tfl.tracking i } })
    ∧ (∀ i, s.part.link.waiters = .alertPlace i :: ws →
      (∀ n, Table.look s.part.alt.notices i = some n →
        let pending : Prop := ∃ e, s.part.alt.entryAt i = some e ∧ e.pending ≠ none
        let q (rest : List Waiter) : Part := { s.part with
          link := { s.part.link with waiters := rest, reports := s.part.link.reports ++ [n] }
          alt := { s.part.alt with notices := Table.del s.part.alt.notices i } }
        (¬ pending → s.Becomes (exec .waitingOwnerReportEnters s) (q ws))
        ∧ (pending → s.Becomes (exec .waitingOwnerReportEnters s) (q (.alertPlace i :: ws))))
      ∧ (∀ e g, Table.look s.part.alt.notices i = none → s.part.alt.entryAt i = some e → e.pending = some g →
        let unacked := (s.part.alt.entries.filter (fun x => !x.acked)).length
        s.Becomes (exec .waitingOwnerReportEnters s) { s.part with
          link := { s.part.link with
            waiters := ws
            reports := s.part.link.reports ++ [⟨.alert, 255, e.head ++ beBytes 1 (if e.acked then 1 else 0)
              ++ beBytes 1 ((if g.again then 1 else 0) + (if g.renewed then 2 else 0) + (if g.replaced then 4 else 0))
              ++ beBytes 1 unacked⟩] }
          alt := { s.part.alt with
            entries := s.part.alt.entries.map (fun x => if x.place = i then { x with pending := none } else x) } }))

/-! ## Alerts -/

/-- A raise of a kind and subject not in the register, with a free place: an UNACKED entry at the youngest end, its factor flag
set, its ALERT queued (R106). A raise of an entry that stands: UNACKED, it stays but for the detail; ACKED, it is renewed; the
flag is set in both (R107). The change of a kind: the entry goes to the youngest end as the new kind, UNACKED, its ALERT flagged
REPLACED; without an entry of the old kind it is a raise (R108). A raise with no free place: the oldest ACKED entry whose place
holds no notice gives way, with ALERT_DROPPED unless its ALERT was pending; with no such entry the raise is not registered and
REGISTER_FULL is set (R109). That the detail value bytes of ALERT_DROPPED are 0 where the entry has no value is the model's choice
(log 58). -/
def Obligations.RaiseRegistersOrRenews : Prop :=
  (∀ (p : Part) (k : AlertKind) (sub : Subject) (d : Option Detail) (i : Nat),
    p.alt.find k sub = none → p.alt.freePlace = some i → p.essRoom = true →
    let e : AlertEntry := ⟨i, k, sub, d, p.now, false, if p.interval = 0 then none else some (p.now + p.interval), none⟩
    (p.raise k sub d).alt.entries = p.alt.entries ++ [e]
      ∧ (∀ j, (p.raise k sub d).alt.flags.getLsbD j = (p.alt.flags.getLsbD j || decide (j = k.code)))
      ∧ ∃ body, (p.raise k sub d).link.reports = p.link.reports ++ [⟨.alert, 255, body⟩] ∧ body.length = 16
          ∧ body.take 5 = BitVec.ofNat 8 k.code :: sub.bytes)
  ∧ (∀ (p : Part) (old k : AlertKind) (sub : Subject),
    (p.alt.find old sub = none → p.replaceAlert old k sub = p.raise k sub none)
    ∧ (∀ e, p.alt.find old sub = some e → p.alt.find k sub = none → e.pending = none → p.essRoom = true →
      (p.replaceAlert old k sub).alt.entries = p.alt.entries.filter (fun x => x.place != e.place) ++ [{ e with
          kind := k, acked := false, raised := p.now
          next := if p.interval = 0 then none else some (p.now + p.interval) }]
        ∧ (∀ j, (p.replaceAlert old k sub).alt.flags.getLsbD j = (p.alt.flags.getLsbD j || decide (j = k.code)))
        ∧ ∃ body, (p.replaceAlert old k sub).link.reports = p.link.reports ++ [⟨.alert, 255, body⟩] ∧ body.length = 16
            ∧ body.take 5 = BitVec.ofNat 8 k.code :: sub.bytes ∧ body[14]? = some 4#8))
  ∧ (∀ (p : Part) (k : AlertKind) (sub : Subject) (d : Option Detail), p.alt.find k sub = none → p.alt.freePlace = none →
    let gives (x : AlertEntry) : Prop := x.acked = true ∧ Table.look p.alt.notices x.place = none
    let q := p.raise k sub d
    (∀ pre e post, p.alt.entries = pre ++ e :: post → (∀ x ∈ pre, ¬ gives x) → gives e →
      let new : AlertEntry :=
        ⟨e.place, k, sub, d, p.now, false, if p.interval = 0 then none else some (p.now + p.interval), none⟩
      (∃ f, q.alt.entries = p.alt.entries.filter (fun x => x.place != e.place) ++ [{ new with pending := f }])
      ∧ (∀ j, q.alt.flags.getLsbD j = (p.alt.flags.getLsbD j || decide (j = k.code)))
      ∧ (e.pending = none → p.link.waiters = [] → p.link.reports.length < 63 →
        ∃ body, q.link.reports = p.link.reports ++ [⟨.alertDropped, 255, e.head⟩, ⟨.alert, 255, body⟩]
          ∧ body.take 5 = BitVec.ofNat 8 k.code :: sub.bytes)
      ∧ (e.pending ≠ none → ∀ r ∈ q.link.reports, r ∈ p.link.reports ∨ r.kind = .alert))
    ∧ ((∀ x ∈ p.alt.entries, ¬ gives x) → q.link = p.link ∧ q.alt.entries = p.alt.entries ∧ q.alt.notices = p.alt.notices
      ∧ ∀ j, q.alt.flags.getLsbD j = (p.alt.flags.getLsbD j || decide (j = k.code) || decide (j = 13))))
  ∧ ∀ (p : Part) (k : AlertKind) (sub : Subject) (d : Option Detail) (e : AlertEntry),
    p.alt.find k sub = some e → e.pending = none → p.essRoom = true →
    (∀ j, (p.raise k sub d).alt.flags.getLsbD j = (p.alt.flags.getLsbD j || decide (j = k.code)))
    ∧ (e.acked = false → (p.raise k sub d).link = p.link
        ∧ (p.raise k sub d).alt.entries = p.alt.entries.map (fun x =>
          if x.place = e.place then { e with detail := d.orElse (fun _ => e.detail) } else x))
    ∧ (e.acked = true → (p.raise k sub d).link.reports.length = p.link.reports.length + 1
        ∧ (p.raise k sub d).alt.entries = p.alt.entries.filter (fun x => x.place != e.place) ++ [{ e with
          detail := d.orElse (fun _ => e.detail), acked := false, raised := p.now
          next := if p.interval = 0 then none else some (p.now + p.interval) }])

/-- A removal takes the entry out with ALERT_WITHDRAWN, or, when its ALERT is still pending, with neither; its factor flag stays
(R110). That the detail value bytes of ALERT_WITHDRAWN are 0 where the entry has no value is the model's choice (log 58). -/
def Obligations.RemoveWithdrawsTheEntry : Prop :=
  ∀ (p : Part) (k : AlertKind) (sub : Subject) (e : AlertEntry), p.alt.find k sub = some e →
    (p.remove k sub).alt.flags = p.alt.flags
    ∧ (p.remove k sub).alt.entries = p.alt.entries.filter (fun x => x.place != e.place)
    ∧ (e.pending = none → p.essRoom = true →
        (p.remove k sub).link = { p.link with reports := p.link.reports ++ [e.withdrawn p.now] })
    ∧ (e.pending ≠ none → (p.remove k sub).link.reports = p.link.reports)

/-- The alert line is driven exactly while the line enable is set and some factor flag is set whose enable in the current
zone's enable set is set (R118). -/
def Obligations.AlertLineIsDrivenExactly : Prop :=
  ∀ p : Part, p.lineDriven = true ↔
    p.alt.lineEnable = true ∧ ∃ i, p.alt.flags.getLsbD i = true
      ∧ (match p.zone with
        | .staffed => p.alt.enableStaffed.getLsbD i
        | .unstaffed => p.alt.enableUnstaffed.getLsbD i) = true

/-! ## The Traffic Filter -/

/-- TFL_FRAME_DROPPED: an origin outside 1 to 62 is counted and dropped; a broadcast that is not TIME_SET is dropped
(R183). -/
def Obligations.StrayFramesAreDropped : Prop :=
  ∀ (s : State) (f : Frame) (rest : List Frame), s.part.tfl.held = none → s.part.link.inbound = f :: rest →
    ((f.origin = 0 ∨ 62 < f.origin) →
      s.Becomes (exec .tflFrameDropped s) { s.part with
        link := { s.part.link with
          inbound := rest
          counters := { s.part.link.counters with badOrigin := satUp s.part.link.counters.badOrigin } } })
    ∧ (1 ≤ f.origin → f.origin ≤ 62 → f.dest = 255 → f.kind ≠ 0x20 →
      s.Becomes (exec .tflFrameDropped s) { s.part with link := { s.part.link with inbound := rest } })

/-- The TFL's checks of a request, in their order, by the table of roles and rights, and what a request refused by them changes:
nothing but the Hold Sequence of its origin; a request that passes them goes to its owner (R24, R185, R203). That every kind that
is no request's, 0x60 and those from 0x80 among them, is an unknown request at destination 0 is the model's reading (log 25). -/
def Obligations.RequestsAreCheckedByTheFilter : Prop :=
  ∀ (s : State) (f : Frame) (rest : List Frame) (row : Instr),
    s.part.tfl.held = none → s.part.link.inbound = f :: rest → s.part.essRoom = true →
    1 ≤ f.origin → f.origin ≤ 62 → f.dest = 0 → tflRow f = row →
    let t := s.part.terminal f.origin
    let refused (r : Result) : Prop :=
      s.Becomes (exec row s) ((s.part.asked f rest).queued (s.part.replyTo f r []))
    let table : List (List Nat × List Role × Bool) :=
      [([0x01, 0x02, 0x06, 0x07, 0x08, 0x12, 0x15, 0x18, 0x29, 0x30, 0x31, 0x38, 0x40, 0x4C], [.office], true),
        ([0x03, 0x04, 0x05, 0x10, 0x11, 0x13, 0x21, 0x22, 0x23, 0x28, 0x32], [.counter, .office], true),
        ([0x14], [.kiosk], true), ([0x16, 0x4B], [.counter, .kiosk, .office], true),
        ([0x20], [.counter, .kiosk, .office], t.load), ([0x2A, 0x48, 0x49, 0x4A, 0x4D], [.office], t.load),
        ([0x39], [.counter, .kiosk, .office], t.maint)]
    (t.role = .none → refused .refusedRole)
    ∧ (t.role ≠ .none →
      (∀ x ∈ table, f.kind ∈ x.1 → row ≠ .unknownRequest
        ∧ (t.role ∉ x.2.1 → refused .refusedRole)
        ∧ (t.role ∈ x.2.1 → x.2.2 = false → refused .refusedRight)
        ∧ (t.role ∈ x.2.1 → x.2.2 = true → s.Asks row f rest))
      ∧ ((∀ x ∈ table, f.kind ∉ x.1) → row = .unknownRequest ∧ refused .unknownRequest))

/-- The Pass Table's action: that of the first place whose role and class match, DROP_REPORT where none does (R186).
MODULE_FRAME of any class and form, by the checks in their order: each refusal with its reason, DROP and DROP_REPORT with
PASS_DROPPED counted, and a frame that is passed: a Tracking entry in the lowest FREE place, the frame in the command queue, the
override of a LAMP_RAW frame set, no answer yet (R143, R187 to R189). The tag of a refused frame that is no MODULE_FRAME (log
48), and that a LAMP_RAW frame of other than eight bytes leaves the positions without a byte OFF and its bytes after the eighth
ignored (log 39), are the model's choice. -/
def Obligations.ModuleFramesAreJudged : Prop :=
  (∀ (p : Part) (role : Role) (cls : ModClass),
    let fits (e : PassEntry) : Prop := (e.role = some role ∨ e.role = none) ∧ (e.cls = some cls ∨ e.cls = none)
    (∀ pre i e post, p.tfl.passTable = pre ++ (i, e) :: post → fits e → (∀ x ∈ pre, ¬ fits x.2) →
      p.passAction role cls = e.action)
    ∧ ((∀ x ∈ p.tfl.passTable, ¬ fits x.2) → p.passAction role cls = .dropReport))
  ∧ ∀ (s : State) (f : Frame) (rest : List Frame) (c : Chan) (a : Nat),
    s.part.tfl.held = none → s.part.link.inbound = f :: rest → 1 ≤ f.origin → f.origin ≤ 62 →
    1 ≤ a → a ≤ 30 → f.dest = (match c with
      | .A => 0x40
      | .B => 0x80) + a →
    let t := s.part.terminal f.origin
    let p := { s.part with link := { s.part.link with inbound := rest } }
    let counted := { p with
      link := { p.link with counters := { p.link.counters with passDropped := satUp p.link.counters.passDropped } } }
    let refusedOn (q : Part) (reason : Byte) : Prop := s.part.essRoom = true →
      s.Becomes (exec .moduleFrame s) (q.queued
        ⟨.response, f.origin, [(f.payload[1]?).getD 0#8, BitVec.ofNat 8 f.kind, 0x50#8, 0#8, reason]⟩)
    let refused := refusedOn p
    ((f.kind ≠ 0x60 ∨ f.payload.length < 2 ∨ 18 < f.payload.length
        ∨ ∀ x ∈ [0x40#8, 0x41#8, 0x42#8, 0x43#8, 0x44#8], f.payload.head? ≠ some x) → refused 1#8)
    ∧ (∀ (code tag : Byte) (data : List Byte), f.kind = 0x60 → f.payload = code :: tag :: data → data.length ≤ 16 →
      (t.role = .none → code ∈ [0x40#8, 0x41#8, 0x42#8, 0x43#8, 0x44#8] → refused 2#8)
      ∧ (t.role ≠ .none → code = 0x44#8 → refused 3#8)
      ∧ (∀ cls : ModClass,
        (code, cls) ∈ [(0x40#8, ModClass.query), (0x41#8, .config), (0x42#8, .lampRaw), (0x43#8, .opaqueClass)] →
        t.role ≠ .none →
        (s.part.passAction t.role cls = .drop → s.Becomes (exec .moduleFrame s) counted)
        ∧ (s.part.passAction t.role cls = .dropReport → refusedOn counted 4#8)
        ∧ (s.part.passAction t.role cls = .pass →
          (t.maint = false → refused 5#8)
          ∧ (t.maint = true → (s.part.chan c).state ≠ .running → refused 6#8)
          ∧ (t.maint = true → (s.part.chan c).state = .running → (s.part.chan c).modState a ≠ .active → refused 7#8)
          ∧ (t.maint = true → (s.part.chan c).state = .running → (s.part.chan c).modState a = .active →
            ((∀ j, j < 8 → (Table.look s.part.tfl.tracking j).isSome) → refused 8#8)
            ∧ ∀ e, e < 8 → Table.look s.part.tfl.tracking e = none →
              (∀ j, j < e → (Table.look s.part.tfl.tracking j).isSome) →
              (12 ≤ (s.part.chan c).queue.length → refused 9#8)
              ∧ ((s.part.chan c).queue.length < 12 → s.Becomes (exec .moduleFrame s) ({ p with
                tfl := { p.tfl with
                  tracking := Table.put p.tfl.tracking e ⟨.queued, f.origin, tag.toNat, c, a, cls, p.mono + 400⟩ }
                lmp := if cls = ModClass.lampRaw then { p.lmp with
                    overrides := Table.put p.lmp.overrides (lampKey c a)
                      ((List.range 8).map (fun i => ((data[i]?).bind lampOfByte).getD .off)) }
                  else p.lmp }.onChan c
                (fun ch => { ch with queue := ch.queue ++ [BusCmd.passed a cls data e] })))))))

/-- PASS_THROUGH_ANSWER: the good reply of a SENT entry is answered PASS_REPLY with its status and data, and the entry is FREE; a
reply that is not good is the miss. COMMAND_MISS of the frame of an ACTIVE module: PASS_TIMEOUT with cause MISS.
PASS_THROUGH_EXPIRY: of a SENT entry PASS_TIMEOUT with cause EXPIRED is answered; of a QUEUED one the frame is withdrawn too
(R147, R167, R189). -/
def Obligations.PassThroughIsAnswered : Prop :=
  ∀ (s : State) (e : Nat) (t : Track), Table.look s.part.tfl.tracking e = some t → s.part.essRoom = true →
    let reply (code : Byte) (fields : List Byte) : Report :=
      ⟨.response, t.origin, [BitVec.ofNat 8 t.tag, 0x60#8, code, 0#8] ++ fields⟩
    (∀ (ends : ReplyEnds) data cls d, t.state = .sent →
      (s.part.chan t.chan).onLine = some (.queued (.passed t.addr cls d e)) →
      (GoodReply ⟨ends.addr, ends.status, data, ends.check⟩ t.addr →
        (s.part.chan t.chan).modState t.addr = .active ∨ (s.part.chan t.chan).modState t.addr = .silent →
        ∃ u, exec (.passThroughAnswer t.chan ends data) s = .next u
          ∧ u.part.tfl.tracking = Table.del s.part.tfl.tracking e ∧ (u.part.chan t.chan).onLine = none
          ∧ u.part.link.reports = s.part.link.reports ++ [reply 0x05#8 (ends.status :: data)]
          ∧ u.part.keys = s.part.keys ∧ u.part.rows = s.part.rows ∧ u.part.alt = s.part.alt)
      ∧ (¬ GoodReply ⟨ends.addr, ends.status, data, ends.check⟩ t.addr →
        exec (.passThroughAnswer t.chan ends data) s = exec (.commandMiss t.chan) s)
      ∧ ((s.part.chan t.chan).held = false → (s.part.chan t.chan).modState t.addr = .active →
        ∃ u, exec (.commandMiss t.chan) s = .next u
          ∧ u.part.tfl.tracking = Table.del s.part.tfl.tracking e ∧ (u.part.chan t.chan).onLine = none
          ∧ (u.part.chan t.chan).misses = satUp (s.part.chan t.chan).misses
          ∧ (u.part.chan t.chan).modState t.addr = .silent
          ∧ u.part.link.reports = s.part.link.reports ++ [reply 0x51#8 [1#8]]
          ∧ u.part.keys = s.part.keys ∧ u.part.rows = s.part.rows ∧ u.part.alt = s.part.alt))
    ∧ (t.expiry ≤ s.part.mono → t.state = .sent →
      s.Becomes (exec (.passThroughExpiry e) s) { s.part with
        tfl := { s.part.tfl with tracking := Table.del s.part.tfl.tracking e }
        link := { s.part.link with reports := s.part.link.reports ++ [reply 0x51#8 [2#8]] } })
    ∧ (t.expiry ≤ s.part.mono → t.state = .queued →
      ∃ u, exec (.passThroughExpiry e) s = .next u
        ∧ u.part.tfl.tracking = Table.del s.part.tfl.tracking e
        ∧ (∀ a cls d, BusCmd.passed a cls d e ∉ (u.part.chan t.chan).queue)
        ∧ u.part.link.reports = s.part.link.reports ++ [reply 0x51#8 [2#8]])

/-! ## Keys and holds -/

/-- KEY_ADD: the lowest free handle takes the record. With no settled occupancy of the tag the key is AWAY, cause NEW;
otherwise it is placed at the lowest such slot, IN or MISPLACED, and the slot's FOREIGN entry is removed. Its refusals in their
order: BAD_ARGUMENT, DUPLICATE, HOME_TAKEN, TABLE_FULL, the Key Table and the alerts as they were (R15, R16). -/
def Obligations.KeyAddEntersTheKey : Prop :=
  (∀ (s : State) (f : Frame) (rest : List Frame) (tag : Byte) (t v c home : Nat),
    s.Asks .keyAdd f rest → f.payload = tag :: (beBytes 4 t ++ (beBytes 3 v ++ (beBytes 1 c ++ beBytes 2 home))) →
    t < 4294967296 → v ≤ 16777215 → c < 256 → home < 65536 → s.part.essRoom = true →
    let refused (r : Result) : Prop := s.Becomes (exec .keyAdd s) ((s.part.asked f rest).queued (s.part.replyTo f r []))
    let good : Prop := t ≠ 0 ∧ c ≤ 15 ∧ (home = 0 ∨ home ≤ 480 ∧ (s.part.slotEntry home).kind = .standard)
    let homeTaken : Prop := home ≠ 0 ∧ ∃ e ∈ s.part.keys, e.2.home = some home
    (¬ good → refused .badArgument)
    ∧ (good → s.part.keyByTag t ≠ none → refused .duplicate)
    ∧ (good → s.part.keyByTag t = none → homeTaken → refused .homeTaken)
    ∧ (good → s.part.keyByTag t = none → ¬ homeTaken → (∀ i, i < 1024 → (Table.look s.part.keys i).isSome) →
      refused .tableFull))
  ∧ ∀ (s : State) (f : Frame) (rest : List Frame) (tag : Byte) (t v c i : Nat) (home : Option Nat),
    s.Asks .keyAdd f rest →
    f.payload = tag :: (beBytes 4 t ++ (beBytes 3 v ++ (beBytes 1 c ++ beSlot home))) →
    tagOk t = true → v ≤ 16777215 → c ≤ 15 →
    (∀ h, home = some h → 1 ≤ h ∧ h ≤ 480 ∧ (s.part.slotEntry h).kind = .standard) →
    s.part.keyByTag t = none → (∀ h, home = some h → ∀ e ∈ s.part.keys, e.2.home ≠ some h) →
    i < 1024 → Table.look s.part.keys i = none → (∀ j, j < i → (Table.look s.part.keys j).isSome) →
    let p := s.part.asked f rest
    ((∀ e ∈ s.part.rows, e.2.occ ≠ some (.tag t)) → s.part.essRoom = true →
      s.Becomes (exec .keyAdd s)
        (({ p with keys := Table.put p.keys i ⟨t, v, c, home, .away, none, none, none, none, some .new⟩ } : Part).queued
          (s.part.replyTo f .ok (beBytes 2 i ++ [5#8]))))
    ∧ (∀ n r pre post, s.part.rows = pre ++ (n, r) :: post → r.occ = some (.tag t) →
        (∀ e ∈ pre, e.2.occ ≠ some (.tag t)) →
        let st : KeyState := if home = none ∨ home = some n then .inn else .misplaced
        let q := ({ p with keys := Table.put p.keys i ⟨t, v, c, home, st, some n, some p.now, none, none, none⟩ } : Part).remove
          .foreign (.slot n)
        q.essRoom = true →
        s.Becomes (exec .keyAdd s) (q.queued (s.part.replyTo f .ok (beBytes 2 i ++ [BitVec.ofNat 8 st.code]))))

/-- KEY_DELETE of a key in AWAY, MISSING or DROPPED that no pending rental names: a DROPPED key leaves the Drop Bin
list, the TAKEN entry is removed, and the handle is free. A located key is refused IN_CABINET, one in OUT IN_USE, an
unknown tag NOT_FOUND, the records as they were (R17, R105). -/
def Obligations.KeyDeleteFreesTheHandle : Prop :=
  (∀ (s : State) (f : Frame) (rest : List Frame) (tag : Byte) (t h : Nat) (k : KeyRec),
    s.Asks .keyDelete f rest → f.payload = tag :: beBytes 4 t → t < 4294967296 →
    s.part.keyByTag t = some (h, k) → (∀ e ∈ s.part.rentals, e.2.snap.isSome → e.2.key ≠ h) →
    (k.state = .away ∨ k.state = .missing → (∀ x ∈ s.part.alt.entries, x.subject = .key h → x.kind = .taken) →
      let q := (s.part.asked f rest).remove .taken (.key h)
      q.essRoom = true →
      s.Becomes (exec .keyDelete s)
        (({ q with keys := Table.del q.keys h } : Part).queued (s.part.replyTo f .ok (beBytes 2 h))))
    ∧ (k.state = .dropped → ∃ u, exec .keyDelete s = .next u
        ∧ u.part.keys = Table.del s.part.keys h ∧ u.part.dropBin = s.part.dropBin.filter (fun e => e.key != h)
        ∧ u.part.rentals = s.part.rentals ∧ u.part.auths = s.part.auths ∧ u.part.rows = s.part.rows
        ∧ u.part.alt.flags = s.part.alt.flags))
  ∧ ∀ (s : State) (f : Frame) (rest : List Frame) (tag : Byte) (t : Nat),
    s.Asks .keyDelete f rest → f.payload = tag :: beBytes 4 t → t < 4294967296 → s.part.essRoom = true →
    let answers (r : Result) : Prop :=
      s.Becomes (exec .keyDelete s) ((s.part.asked f rest).queued (s.part.replyTo f r []))
    (s.part.keyByTag t = none → answers .notFound)
    ∧ (∀ h k, s.part.keyByTag t = some (h, k) →
      (k.state = .inn ∨ k.state = .misplaced ∨ k.state = .assigned ∨ k.state = .releasing → answers .inCabinet)
      ∧ (k.state = .out → answers .inUse))

/-- KEY_HOLD writes the hold, by reason or CLEAR, in every key state, and answers OK with the hold the key had (R19). That the
byte 3 is CLEAR is the model's choice (log 10).
GUIDE sets the guide expiry of the home slot's row 60 seconds ahead, in every key state; GUIDE_EXPIRY clears it when the
time has come (R25). -/
def Obligations.KeysAreHeldAndGuided : Prop :=
  (∀ (s : State) (f : Frame) (rest : List Frame) (tag : Byte) (t h : Nat) (k : KeyRec) (reason : Option HoldReason),
    s.Asks .keyHold f rest →
    f.payload = tag :: (beBytes 4 t ++ [match reason with
      | some .damage => 0#8
      | some .service => 1#8
      | some .office => 2#8
      | none => 3#8]) →
    t < 4294967296 → s.part.keyByTag t = some (h, k) → s.part.essRoom = true →
    let p := s.part.asked f rest
    s.Becomes (exec .keyHold s)
      (({ p with keys := Table.put p.keys h { k with hold := reason } } : Part).queued
        (s.part.replyTo f .ok [match k.hold with
          | some .damage => 0#8
          | some .service => 1#8
          | some .office => 2#8
          | none => 255#8])))
  ∧ (∀ (s : State) (f : Frame) (rest : List Frame) (tag : Byte) (t h n : Nat) (k : KeyRec),
    s.Asks .guide f rest → f.payload = tag :: beBytes 4 t → t < 4294967296 → s.part.keyByTag t = some (h, k) →
    s.part.essRoom = true →
    let p := s.part.asked f rest
    (k.home = some n → (s.part.slotEntry n).kind = .standard →
      s.Becomes (exec .guide s)
        (({ p with rows := Table.modify p.rows n (fun r => { r with guide := some (s.part.mono + 60000) }) } : Part).queued
          (s.part.replyTo f .ok (beBytes 2 n))))
    ∧ (k.home = none ∨ (k.home = some n ∧ (s.part.slotEntry n).kind ≠ .standard) →
      s.Becomes (exec .guide s) (p.queued (s.part.replyTo f .noHome []))))
  ∧ (∀ (s : State) (n : Nat) (r : SlotRow) (e : Nat), Table.look s.part.rows n = some r → r.guide = some e →
      e ≤ s.part.mono →
      s.Becomes (exec (.guideExpiry n) s)
        { s.part with rows := Table.modify s.part.rows n (fun r => { r with guide := none }) })

/-- HOLD_RANGE_START: a slot outside 1 to 480 or a reason outside the three is BAD_ARGUMENT, which resets the owner's
record; it is accepted in NONE and from the owner, and refused BUSY otherwise (R21). -/
def Obligations.HoldRangeStart : Prop :=
  ∀ (s : State) (f : Frame) (rest : List Frame) (tag reason : Byte) (n : Nat),
    s.Asks .holdRangeStart f rest → f.payload = tag :: (beBytes 2 n ++ [reason]) → n < 65536 → s.part.essRoom = true →
    let p := s.part.asked f rest
    let own := s.part.holdSeq.ownedBy f.origin
    let bad := n < 1 ∨ 480 < n ∨ 2 < reason.toNat
    (bad → own = true → s.Becomes (exec .holdRangeStart s)
      (({ p with holdSeq := .idle } : Part).queued (s.part.replyTo f .badArgument [])))
    ∧ (bad → own = false → s.Becomes (exec .holdRangeStart s) (p.queued (s.part.replyTo f .badArgument [])))
    ∧ (∀ r, ¬ bad → reason.toNat = HoldReason.code r → (s.part.holdSeq = .idle ∨ own = true) →
      s.Becomes (exec .holdRangeStart s)
        (({ p with holdSeq := .started f.origin n r } : Part).queued (s.part.replyTo f .ok [])))
    ∧ (¬ bad → s.part.holdSeq ≠ .idle → own = false →
      s.Becomes (exec .holdRangeStart s) (p.queued (s.part.replyTo f .busy [])))

/-- HOLD_RANGE_END, in its four cases (R22). -/
def Obligations.HoldRangeEnd : Prop :=
  ∀ (s : State) (f : Frame) (rest : List Frame) (tag : Byte) (n : Nat),
    s.Asks .holdRangeEnd f rest → f.payload = tag :: beBytes 2 n → n < 65536 → s.part.essRoom = true →
    let p := s.part.asked f rest
    let reset (r : Result) : Prop := s.Becomes (exec .holdRangeEnd s)
      (({ p with holdSeq := .idle } : Part).queued (s.part.replyTo f r []))
    (s.part.holdSeq.ownedBy f.origin = false →
      s.Becomes (exec .holdRangeEnd s) (p.queued (s.part.replyTo f .sequenceError [])))
    ∧ (s.part.holdSeq.ownedBy f.origin = true → n < 1 ∨ 480 < n → reset .badArgument)
    ∧ (∀ a b r, s.part.holdSeq = .ended f.origin a b r → 1 ≤ n → n ≤ 480 → reset .sequenceError)
    ∧ (∀ a r, s.part.holdSeq = .started f.origin a r → 1 ≤ n → n ≤ 480 →
      (n < a → reset .sequenceError)
      ∧ (a ≤ n → s.Becomes (exec .holdRangeEnd s)
        (({ p with holdSeq := .ended f.origin a n r } : Part).queued (s.part.replyTo f .ok []))))

/-- HOLD_APPLY from the owner in ENDED: every key whose home lies in the range takes the reason, but for those in RELEASING; the
record is reset; the answer gives the keys held and skipped. From another terminal, or in NONE, it is SEQUENCE_ERROR and the
record stays; from the owner in STARTED it is SEQUENCE_ERROR and the record is reset (R23). Any other request of the owner
resets the record and its response carries SEQ_RESET, and a request of another terminal leaves the record: said of RENTAL_QUERY,
a request that changes nothing else (R24, R101). That the count of keys skipped, at most four, takes one byte, and the form byte
of RENTAL_QUERY, are the model's choice (log 10). -/
def Obligations.HoldApplyOrReset : Prop :=
  (∀ (s : State) (f : Frame) (rest : List Frame) (tag : Byte) (a b : Nat) (r : HoldReason),
    s.Asks .holdApply f rest → f.payload = [tag] → s.part.holdSeq = .ended f.origin a b r → s.part.essRoom = true →
    Table.rising s.part.keys = true →
    let p := s.part.asked f rest
    let inRange := s.part.keys.filter (fun e => e.2.home.any (fun n => decide (a ≤ n ∧ n ≤ b)))
    let skipped := inRange.filter (fun e => e.2.state == .releasing)
    s.Becomes (exec .holdApply s)
      (({ p with
        holdSeq := .idle
        keys := p.keys.map (fun e => (e.1,
          if e.2.home.any (fun n => decide (a ≤ n ∧ n ≤ b)) && e.2.state != .releasing then { e.2 with hold := some r }
          else e.2)) } : Part).queued
        (s.part.replyTo f .ok (beBytes 2 (inRange.length - skipped.length) ++ beBytes 1 skipped.length))))
  ∧ (∀ (s : State) (f : Frame) (rest : List Frame) (tag : Byte), s.Asks .holdApply f rest → f.payload = [tag] →
    s.part.essRoom = true →
    let refusal := s.part.replyTo f .sequenceError []
    (s.part.holdSeq.ownedBy f.origin = false → s.Becomes (exec .holdApply s) ((s.part.asked f rest).queued refusal))
    ∧ (∀ a r, s.part.holdSeq = .started f.origin a r →
      s.Becomes (exec .holdApply s) (({ s.part.asked f rest with holdSeq := .idle } : Part).queued refusal)))
  ∧ ∀ (s : State) (f : Frame) (rest : List Frame) (tag : Byte) (n : Nat),
    s.Asks .rentalQuery f rest → f.payload = tag :: 0#8 :: beBytes 4 n → n < 4294967296 →
    s.part.rentalByNumber n = none → s.part.essRoom = true →
    (s.part.holdSeq.ownedBy f.origin = true →
      s.Becomes (exec .rentalQuery s) (({ s.part with
        link := { s.part.link with inbound := rest }, holdSeq := .idle } : Part).queued
          ⟨.response, f.origin, [tag, 0x22#8, 0x20#8, 1#8]⟩))
    ∧ (s.part.holdSeq.ownedBy f.origin = false →
      s.Becomes (exec .rentalQuery s) (({ s.part with link := { s.part.link with inbound := rest } } : Part).queued
        ⟨.response, f.origin, [tag, 0x22#8, 0x20#8, 0#8]⟩))

/-! ## Authorizations and releases -/

/-- AUTH_ADD enters the authorization in WAITING with the attempts in force and its origin; a named key, IN or MISPLACED
without a hold, goes to ASSIGNED. Its refusals in their order: BAD_ARGUMENT, DUPLICATE, TABLE_FULL, NOT_FOUND, NOT_AVAILABLE,
HELD, the list and the Key Table as they were (R28, R29, R205). -/
def Obligations.AuthAddEntersTheAuthorization : Prop :=
  (∀ (s : State) (f : Frame) (rest : List Frame) (tag : Byte) (n form tgt due pres g start stop : Nat) (ds : List Nat),
    s.Asks .authAdd f rest →
    f.payload = tag :: (beBytes 4 n ++ (beBytes 1 form ++ (beBytes 2 tgt ++ (beBytes 3 due ++ (beBytes 1 pres ++ (beBytes 1 g
      ++ (beBytes 3 start ++ (beBytes 3 stop ++ (beBytes 1 ds.length ++ ds.flatMap (beBytes 1)))))))))) →
    n < 4294967296 → form < 256 → tgt < 65536 → due ≤ 16777215 → pres < 4 → g < 256 → start ≤ 16777215 → stop ≤ 16777215 →
    ds.length < 256 → (∀ x ∈ ds, x < 256) → s.part.essRoom = true →
    let refused (r : Result) : Prop := s.Becomes (exec .authAdd s) ((s.part.asked f rest).queued (s.part.replyTo f r []))
    let good : Prop := n ≠ 0 ∧ (form = 0 ∧ tgt ≤ 1023 ∨ form = 1 ∧ tgt ≤ 15) ∧ (pres % 2 = 1 → g ≤ 120)
      ∧ (2 ≤ pres → start ≤ stop) ∧ (ds.length = 0 ∨ 4 ≤ ds.length ∧ ds.length ≤ 8) ∧ ∀ x ∈ ds, x ≤ 9
    (¬ good → refused .badArgument)
    ∧ (good → s.part.auth n ≠ none ∨ s.part.rentalByNumber n ≠ none → refused .duplicate)
    ∧ (good → s.part.auth n = none → s.part.rentalByNumber n = none →
      (192 ≤ s.part.auths.length → refused .tableFull)
      ∧ (s.part.auths.length < 192 → form = 0 →
        (Table.look s.part.keys tgt = none → refused .notFound)
        ∧ (∀ k, Table.look s.part.keys tgt = some k →
          (k.state ≠ .inn → k.state ≠ .misplaced → refused .notAvailable)
          ∧ (k.state = .inn ∨ k.state = .misplaced → k.hold ≠ none → refused .held)))))
  ∧ ∀ (s : State) (f : Frame) (rest : List Frame) (tag : Byte) (a : Auth),
    s.Asks .authAdd f rest →
    f.payload = tag :: (beBytes 4 a.rental
      ++ ((match a.target with
        | .key h => 0#8 :: beBytes 2 h
        | .cls c => 1#8 :: beBytes 2 c)
      ++ (beBytes 3 a.due
      ++ (beBytes 1 ((if a.grace.isSome then 1 else 0) + (if a.validUntil.isSome then 2 else 0))
      ++ (beBytes 1 (a.grace.getD 0)
      ++ (beBytes 3 a.validFrom
      ++ (beBytes 3 (a.validUntil.getD 0)
      ++ (beBytes 1 (a.code.getD []).length
      ++ (a.code.getD []).flatMap (beBytes 1))))))))) →
    0 < a.rental → a.rental < 4294967296 → a.due ≤ 16777215 → a.validFrom ≤ 16777215 →
    (∀ g, a.grace = some g → g ≤ 120) → (∀ v, a.validUntil = some v → a.validFrom ≤ v ∧ v ≤ 16777215) →
    (∀ ds, a.code = some ds → 4 ≤ ds.length ∧ ds.length ≤ 8 ∧ ∀ x ∈ ds, x ≤ 9) →
    a.state = .waiting → a.origin = f.origin → a.attempts = s.part.policy.attempts →
    s.part.auth a.rental = none → s.part.rentalByNumber a.rental = none → s.part.auths.length < 192 →
    s.part.essRoom = true →
    let p := s.part.asked f rest
    (∀ c, a.target = .cls c → c ≤ 15 →
      s.Becomes (exec .authAdd s) (({ p with auths := p.auths ++ [a] } : Part).queued
        (s.part.replyTo f .ok (beBytes 1 (s.part.auths.length + 1)))))
    ∧ (∀ h k, a.target = .key h → h ≤ 1023 → Table.look s.part.keys h = some k → k.hold = none →
      k.state = .inn ∨ k.state = .misplaced →
      s.Becomes (exec .authAdd s) (({ p with
          auths := p.auths ++ [a], keys := Table.put p.keys h { k with state := .assigned } } : Part).queued
        (s.part.replyTo f .ok (beBytes 1 (s.part.auths.length + 1)))))

/-- AUTH_EXPIRY, the REL's part of a minute tick: at the minute the tick carries every authorization past its valid until goes
unless it is ACTIVE, and no other; with it its LOCKOUT entry, a named key in ASSIGNED is restored, a queued request for its number
ends with RELEASE_FAILED and EXPIRED, and AUTH_EXPIRED goes to its origin: said of one that expires at the tick (R32). That the
ticks wait, oldest first, for this row (log 4), and the bytes of AUTH_EXPIRED's target (log 10), are the model's choice.
AUTH_DELETE of an authorization that is not ACTIVE removes it with its LOCKOUT entry, restores a named key in ASSIGNED, and ends a
queued request with NOT_FOUND (R30). -/
def Obligations.AuthorizationsAreRemoved : Prop :=
  let failed (w : WaitEntry) (n : Nat) (reason : Byte) : Report :=
    ⟨.releaseFailed, w.req.origin, [BitVec.ofNat 8 w.req.tag, BitVec.ofNat 8 w.req.kind.code] ++ beBytes 4 n
      ++ [0xFF#8, 0xFF#8] ++ beBytes 2 0 ++ beBytes 4 0 ++ [reason]⟩
  (∀ (s : State) (m : Nat) (ms : List Nat), s.part.tickRel = m :: ms → (s.part.auths.map (·.rental)).Nodup →
    ∃ u, exec .authExpiry s = .next u ∧ u.part.tickRel = ms
      ∧ u.part.auths = s.part.auths.filter (fun a =>
          a.state == .active || !a.validUntil.any (fun v => decide (v < m)))
      ∧ u.part.rentals = s.part.rentals ∧ u.part.ctxs = s.part.ctxs ∧ u.part.clock = s.part.clock)
  ∧ (∀ (s : State) (m v : Nat) (ms : List Nat) (pre post : List Auth) (a : Auth), s.part.tickRel = m :: ms →
    s.part.auths = pre ++ a :: post → (s.part.auths.map (·.rental)).Nodup → a.state ≠ .active → a.validUntil = some v → v < m →
    (∀ x ∈ pre ++ post, x.state = .active ∨ ∀ v, x.validUntil = some v → m ≤ v) →
    let gone (keys : Table KeyRec) : Part :=
      ({ s.part with tickRel := ms, auths := pre ++ post, keys := keys } : Part).remove .lockout (.rental a.rental)
    let expires (q : Part) (target : List Byte) : Prop :=
      let report : Report := ⟨.authExpired, a.origin, beBytes 4 a.rental ++ target⟩
      ((∀ w ∈ s.part.waitQ, w.ended = none → w.req.subject ≠ .rental a.rental) → q.link.reports.length < 48 →
        s.Becomes (exec .authExpiry s) (q.queued report))
      ∧ (∀ ahead w behind, s.part.waitQ = ahead ++ w :: behind → (s.part.waitQ.map (·.id)).Nodup → w.ended = none →
        w.req.subject = .rental a.rental → (∀ x ∈ ahead, x.ended = none → x.req.subject ≠ .rental a.rental) →
        q.essRoom = true → q.link.reports.length < 47 →
        s.Becomes (exec .authExpiry s)
          ((({ q with waitQ := ahead ++ behind } : Part).queued (failed w a.rental 0x47#8)).queued report))
    (∀ c, a.target = .cls c → expires (gone s.part.keys) (1#8 :: beBytes 2 c))
    ∧ (∀ h k loc, a.target = .key h → Table.look s.part.keys h = some k → k.state = .assigned → k.loc = some loc →
      expires (gone (Table.put s.part.keys h { k with
        state := if k.home = none ∨ k.home = some loc then .inn else .misplaced })) (0#8 :: beBytes 2 h)))
  ∧ ∀ (s : State) (f : Frame) (rest : List Frame) (tag : Byte) (n : Nat) (a : Auth),
    s.Asks .authDelete f rest → f.payload = tag :: beBytes 4 n → n < 4294967296 → s.part.auth n = some a →
    s.part.essRoom = true →
    (a.state = .active → s.Becomes (exec .authDelete s)
      ((s.part.asked f rest).queued (s.part.replyTo f .activeRelease [])))
    ∧ (a.state ≠ .active →
      let gone (keys : Table KeyRec) : Part :=
        ({ s.part.asked f rest with auths := s.part.auths.filter (fun x => x.rental != n), keys := keys } : Part).remove .lockout
          (.rental n)
      let deleted (q : Part) : Prop :=
        ((∀ w ∈ s.part.waitQ, w.req.subject ≠ .rental n) → q.essRoom = true →
          s.Becomes (exec .authDelete s) (q.queued (s.part.replyTo f .ok [])))
        ∧ (∀ ahead w behind, s.part.waitQ = ahead ++ w :: behind → (s.part.waitQ.map (·.id)).Nodup → w.ended = none →
          w.req.subject = .rental n → (∀ x ∈ ahead, x.ended = none → x.req.subject ≠ .rental n) → q.essRoom = true →
          q.link.reports.length < 63 →
          s.Becomes (exec .authDelete s) ((({ q with waitQ := ahead ++ behind } : Part).queued (failed w n 0x20#8)).queued
            (s.part.replyTo f .ok [])))
      (∀ c, a.target = .cls c → deleted (gone s.part.keys))
      ∧ (∀ h k loc, a.target = .key h → Table.look s.part.keys h = some k → k.state = .assigned → k.loc = some loc →
        deleted (gone (Table.put s.part.keys h { k with
          state := if k.home = none ∨ k.home = some loc then .inn else .misplaced }))))

/-- CLEAR_LOCKOUT: NOT_FOUND for no authorization, NOT_LOCKED_OUT in WAITING or ACTIVE; in LOCKED_OUT the state becomes
WAITING with the attempts of the policy, the LOCKOUT alert is removed, and every other field stays (R31). -/
def Obligations.ClearLockout : Prop :=
  ∀ (s : State) (f : Frame) (rest : List Frame) (tag : Byte) (n : Nat),
    s.Asks .clearLockout f rest → f.payload = tag :: beBytes 4 n → n < 4294967296 → s.part.essRoom = true →
    let p := s.part.asked f rest
    (s.part.auth n = none → s.Becomes (exec .clearLockout s) (p.queued (s.part.replyTo f .notFound [])))
    ∧ (∀ a, s.part.auth n = some a → a.state ≠ .lockedOut →
      s.Becomes (exec .clearLockout s) (p.queued (s.part.replyTo f .notLockedOut [])))
    ∧ (∀ a, s.part.auth n = some a → a.state = .lockedOut →
      let q := ({ p with auths := p.auths.map (fun x =>
        if x.rental = n then { x with state := .waiting, attempts := p.policy.attempts } else x) } : Part).remove
          .lockout (.rental n)
      q.essRoom = true → s.Becomes (exec .clearLockout s) (q.queued (s.part.replyTo f .ok [])))

/-- The key chosen for a class: in IN or MISPLACED, meeting the four conditions, and none that meets them has an earlier
in-since, or an equal one and a lower slot; one is chosen whenever some key meets them, and otherwise the reason is ROLE_ZONE when
a key of the class fails the last condition alone, or NO_KEY. A named key is chosen when it meets the four conditions, and is
refused by the first it fails: HELD, SLOT_BUSY, MODULE_DOWN, ROLE_ZONE (R35, R36). -/
def Obligations.KeyChoiceTakesTheEarliest : Prop :=
  ∀ (p : Part) (role : Role),
    let entry (k : KeyRec) : SlotEntry := p.slotEntry (k.loc.getD 0)
    let quiet (k : KeyRec) : Prop := ∀ r, Table.look p.rows (k.loc.getD 0) = some r → r.ctx = none ∧ r.settle = none
    let served (k : KeyRec) : Prop := p.moduleActive (entry k).chan (entry k).addr = true
    let permitted (k : KeyRec) : Prop := (p.group (entry k).group).permits p.zone role = true
    (∀ c h k, p.chooseKey (.cls c) role = .ok (h, k) →
      let candidate (e : Nat × KeyRec) : Prop := e ∈ p.keys ∧ e.2.cls = c ∧ (e.2.state = .inn ∨ e.2.state = .misplaced)
        ∧ e.2.hold = none ∧ quiet e.2 ∧ served e.2 ∧ permitted e.2
      candidate (h, k) ∧ ∀ e, candidate e →
        k.inSince.getD 0 < e.2.inSince.getD 0
          ∨ (k.inSince.getD 0 = e.2.inSince.getD 0 ∧ k.loc.getD 0 ≤ e.2.loc.getD 0))
    ∧ (∀ c,
      let unbarred (e : Nat × KeyRec) : Prop := e ∈ p.keys ∧ e.2.cls = c ∧ (e.2.state = .inn ∨ e.2.state = .misplaced)
        ∧ e.2.hold = none ∧ quiet e.2 ∧ served e.2
      ((∃ e, unbarred e ∧ permitted e.2) → ∃ h k, p.chooseKey (.cls c) role = .ok (h, k))
      ∧ ((∃ e, unbarred e) → (∀ e, unbarred e → ¬ permitted e.2) → p.chooseKey (.cls c) role = .error .roleZone)
      ∧ ((∀ e, ¬ unbarred e) → p.chooseKey (.cls c) role = .error .noKey))
    ∧ ∀ h k, Table.look p.keys h = some k →
      (k.hold ≠ none → p.chooseKey (.key h) role = .error .held)
      ∧ (k.hold = none → ¬ quiet k → p.chooseKey (.key h) role = .error .slotBusy)
      ∧ (k.hold = none → quiet k → ¬ served k → p.chooseKey (.key h) role = .error .moduleDown)
      ∧ (k.hold = none → quiet k → served k → ¬ permitted k → p.chooseKey (.key h) role = .error .roleZone)
      ∧ (k.hold = none → quiet k → served k → permitted k → p.chooseKey (.key h) role = .ok (h, k))

/-- RELEASE, and PICKUP with the right code, when every check passes: a context starts on the chosen key, takes a
reservation, makes the authorization ACTIVE and the key RELEASING, and queues LOCK_OPEN. The refusals in the order of the checks,
with nothing changed: NO_TIME, NOT_FOUND, ALREADY_ACTIVE, LOCKED_OUT, ALREADY_ACTIVE for a number that is queued, for PICKUP
CODE_NOT_SET, and for a release whose code, if any, is right NOT_YET_VALID, NO_RECORD_SPACE and the result of the key choice (R34,
R37, R38, R43). That the context is the lowest-numbered FREE one (log 11), and that an ENDED entry of the queue counts as a number
that is queued (log 12), are the model's choice. -/
def Obligations.ReleaseStartsAContext : Prop :=
  (∀ (s : State) (f : Frame) (rest : List Frame) (tag : Byte) (n : Nat) (ds : List Nat) (kind : RelKind),
    (kind = .release ∧ s.Asks .release f rest ∧ f.payload = tag :: beBytes 4 n
      ∨ kind = .pickup ∧ s.Asks .pickup f rest ∧ 1 ≤ ds.length ∧ ds.length ≤ 8 ∧ (∀ x ∈ ds, x ≤ 9)
        ∧ f.payload = tag :: (beBytes 4 n ++ (beBytes 1 ds.length ++ ds.flatMap (beBytes 1)))) →
    n < 4294967296 → s.part.essRoom = true →
    let refused (r : Result) : Prop :=
      s.Becomes (exec (if kind = .pickup then .pickup else .release) s)
        ((s.part.asked f rest).queued (s.part.replyTo f r []))
    (s.part.clock.set = false → refused .noTime)
    ∧ (s.part.clock.set = true → s.part.auth n = none → refused .notFound)
    ∧ (∀ a, s.part.clock.set = true → s.part.auth n = some a →
      (a.state = .active → refused .alreadyActive)
      ∧ (a.state = .lockedOut → refused .lockedOut)
      ∧ (a.state = .waiting → (∃ w ∈ s.part.waitQ, w.req.subject = .rental n) → refused .alreadyActive)
      ∧ (a.state = .waiting → (∀ w ∈ s.part.waitQ, w.req.subject ≠ .rental n) →
        (kind = .pickup → a.code = none → refused .codeNotSet)
        ∧ (kind = .release ∨ a.code = some ds →
          (s.part.now < a.validFrom → refused .notYetValid)
          ∧ (a.validFrom ≤ s.part.now →
            ((∀ i, i < 1024 → (Table.look s.part.rentals i).isSome ∨ ∃ e ∈ s.part.ctxs, e.2.reservation = some i) →
              refused .noRecordSpace)
            ∧ (∀ i r, i < 1024 → Table.look s.part.rentals i = none → (∀ e ∈ s.part.ctxs, e.2.reservation ≠ some i) →
              s.part.chooseKey a.target (s.part.terminal f.origin).role = .error r → refused r))))))
  ∧ ∀ (s : State) (f : Frame) (rest : List Frame) (tag : Byte) (n h i place slot : Nat) (a : Auth) (k : KeyRec)
    (kind : RelKind),
    (kind = .release ∧ s.Asks .release f rest ∧ f.payload = tag :: beBytes 4 n
      ∨ kind = .pickup ∧ s.Asks .pickup f rest ∧ (∃ ds, a.code = some ds ∧ 1 ≤ ds.length ∧ ds.length ≤ 8
        ∧ (∀ x ∈ ds, x ≤ 9)
        ∧ f.payload = tag :: (beBytes 4 n ++ (beBytes 1 ds.length ++ ds.flatMap (beBytes 1))))) →
    n < 4294967296 → s.part.clock.set = true → s.part.auth n = some a → a.state = .waiting →
    (∀ w ∈ s.part.waitQ, w.req.subject ≠ .rental n) → a.validFrom ≤ s.part.now →
    s.part.freeRentalPlace = some place →
    s.part.chooseKey a.target (s.part.terminal f.origin).role = .ok (h, k) → Table.look s.part.keys h = some k →
    k.loc = some slot → i < 4 → Table.look s.part.ctxs i = none → (∀ j, j < i → (Table.look s.part.ctxs j).isSome) →
    (s.part.chan (s.part.slotEntry slot).chan).queue.length < 16 → s.part.essRoom = true →
    let p := s.part.asked f rest
    let e := s.part.slotEntry slot
    let req : RelReq := ⟨kind, .rental n, f.origin, (s.part.terminal f.origin).role, tag.toNat⟩
    let ctx : Ctx := ⟨.opening, some slot, some h, req, some (s.part.mono + 2000), none, some place, none, none, false,
      false, 0, none⟩
    s.Becomes (exec (if kind = .pickup then .pickup else .release) s)
      ((({ p with
        auths := p.auths.map (fun x => if x.rental = n then { x with state := .active } else x)
        keys := Table.put p.keys h { k with state := .releasing }
        ctxs := Table.put p.ctxs i ctx
        rows := Table.modify p.rows slot (fun r => { r with ctx := some i }) } : Part).onChan e.chan
          (fun ch => { ch with queue := ch.queue ++ [.lockOpen e.addr e.pos i] })).queued
        (s.part.replyTo f .started (beBytes 1 i ++ (beBytes 2 h ++ beBytes 2 slot))))

/-- RELEASE, and PICKUP with the right code, with every check passed but the last, no context being FREE, and room in the Release
Wait Queue: the request is queued at the tail and answered with its place; without room it is answered BUSY (R37, R38, R39). -/
def Obligations.ReleaseIsQueuedWhenNoContextIsFree : Prop :=
  ∀ (s : State) (f : Frame) (rest : List Frame) (tag : Byte) (n h place : Nat) (a : Auth) (k : KeyRec) (kind : RelKind),
    (kind = .release ∧ s.Asks .release f rest ∧ f.payload = tag :: beBytes 4 n
      ∨ kind = .pickup ∧ s.Asks .pickup f rest ∧ (∃ ds, a.code = some ds ∧ 1 ≤ ds.length ∧ ds.length ≤ 8
        ∧ (∀ x ∈ ds, x ≤ 9)
        ∧ f.payload = tag :: (beBytes 4 n ++ (beBytes 1 ds.length ++ ds.flatMap (beBytes 1))))) →
    n < 4294967296 → s.part.clock.set = true →
    s.part.auth n = some a → a.state = .waiting → (∀ w ∈ s.part.waitQ, w.req.subject ≠ .rental n) →
    a.validFrom ≤ s.part.now → s.part.freeRentalPlace = some place →
    s.part.chooseKey a.target (s.part.terminal f.origin).role = .ok (h, k) →
    (∀ j, j < 4 → (Table.look s.part.ctxs j).isSome) → s.part.essRoom = true →
    let p := s.part.asked f rest
    let becomes (q : Part) : Prop := s.Becomes (exec (if kind = .pickup then .pickup else .release) s) q
    (s.part.waitQ.length < 8 → becomes (({ p with
        waitQ := p.waitQ ++ [⟨p.nextId, ⟨kind, .rental n, f.origin, (s.part.terminal f.origin).role, tag.toNat⟩, none⟩]
        nextId := p.nextId + 1 } : Part).queued (s.part.replyTo f .queued (beBytes 1 (s.part.waitQ.length + 1)))))
    ∧ (8 ≤ s.part.waitQ.length → becomes (p.queued (s.part.replyTo f .busy [])))

/-- PICKUP with a wrong code on an authorization in WAITING that carries one: attempts left goes down by one, and at 0
the authorization is LOCKED_OUT with its alert raised (R34). -/
def Obligations.WrongCodeIsCharged : Prop :=
  ∀ (s : State) (f : Frame) (rest : List Frame) (tag : Byte) (n : Nat) (a : Auth) (want ds : List Nat),
    s.Asks .pickup f rest → 1 ≤ ds.length → ds.length ≤ 8 → (∀ x ∈ ds, x ≤ 9) →
    f.payload = tag :: (beBytes 4 n ++ (beBytes 1 ds.length ++ ds.flatMap (beBytes 1))) → n < 4294967296 →
    s.part.clock.set = true → s.part.auth n = some a → a.state = .waiting → a.code = some want → want ≠ ds →
    (∀ w ∈ s.part.waitQ, w.req.subject ≠ .rental n) → s.part.essRoom = true →
    let p := s.part.asked f rest
    (2 ≤ a.attempts → s.Becomes (exec .pickup s) (({ p with
        auths := p.auths.map (fun x => if x.rental = n then { x with attempts := a.attempts - 1 } else x) } : Part).queued
      (s.part.replyTo f .badCode (beBytes 1 (a.attempts - 1)))))
    ∧ (a.attempts = 1 →
      let q := ({ p with
        auths := p.auths.map (fun x => if x.rental = n then { x with attempts := 0, state := .lockedOut } else x) } : Part).raise
          .lockout (.rental n) none
      q.essRoom = true → s.Becomes (exec .pickup s) (q.queued (s.part.replyTo f .lockedOut [])))

/-- SERVICE_RELEASE of a tag, the key IN or MISPLACED: a context starts on the key, with no reservation. Of a slot that
holds an unregistered fob: a context starts with no key (R41, R43). The removal that settles at its slot completes it: the key of
the tag form goes AWAY with cause SERVICE, also late in CLOSING with NOT_TAKEN; of the slot form any removal does, the FOREIGN
entry of the slot going, and a key added meanwhile going AWAY; the context closes with a new LOCK_CLOSE (R50, R51). The form byte
(log 10) and the lowest-numbered FREE context (log 11) are the model's choice. -/
def Obligations.ServiceReleaseStartsAContext : Prop :=
  (∀ (s : State) (n i m x : Nat) (r : SlotRow) (c : Ctx) (old : Occ),
    Table.look s.part.rows n = some r → r.ctx = some i → r.occ = some old → old ≠ .empty → r.settle = some ⟨.empty, m, x⟩ →
    x ≤ s.part.mono → Table.look s.part.ctxs i = some c → c.slot = some n →
    (s.part.chan (s.part.slotEntry n).chan).queue.length < 16 →
    let running : Prop := c.state = .opening ∨ c.state = .opened ∨ c.state = .removedSettling
    let completes (res : CtxResult) (u : State) : Prop :=
      Table.look u.part.ctxs i = some { c with
          state := .closing, result := some res, lockLimit := some (s.part.mono + 2000), window := none, lockSent := false }
        ∧ BusCmd.lockClose (s.part.slotEntry n).addr (s.part.slotEntry n).pos (.ctx i)
            ∈ (u.part.chan (s.part.slotEntry n).chan).queue
        ∧ u.part.rentals = s.part.rentals ∧ u.part.auths = s.part.auths
        ∧ Table.look u.part.rows n = some { r with occ := some .empty, settle := none }
    let away (k : KeyRec) : KeyRec :=
      { k with state := .away, loc := none, inSince := none, rental := none, away := some .service }
    (∀ t h k y, c.req.subject = .tag y → old = .tag t → s.part.keyByTag t = some (h, k) → c.key = some h → k.loc = some n →
      (running → k.state = .releasing → ∃ u, exec (.settleExpiry n) s = .next u ∧ completes .released u
        ∧ Table.look u.part.keys h = some (away k) ∧ u.part.alt = s.part.alt ∧ u.part.link = s.part.link)
      ∧ (c.state = .closing → c.result = some .notTaken → k.state = .inn ∨ k.state = .misplaced →
        ∃ u, exec (.settleExpiry n) s = .next u ∧ completes .lateTake u
        ∧ Table.look u.part.keys h = some (away k) ∧ u.part.alt = s.part.alt ∧ u.part.link = s.part.link))
    ∧ (∀ y, c.req.subject = .slot y → running →
      ((old = .unread ∨ ∃ t, old = .tag t ∧ s.part.keyByTag t = none) → ∃ u, exec (.settleExpiry n) s = .next u
        ∧ completes .released u ∧ u.part.keys = s.part.keys ∧ u.part.alt = (s.part.remove .foreign (.slot n)).alt)
      ∧ (∀ t h k, old = .tag t → s.part.keyByTag t = some (h, k) → k.loc = some n → k.state = .inn ∨ k.state = .misplaced →
        ∃ u, exec (.settleExpiry n) s = .next u ∧ completes .released u
          ∧ Table.look u.part.keys h = some (away k) ∧ u.part.alt = (s.part.remove .foreign (.slot n)).alt)))
  ∧ ∀ (s : State) (f : Frame) (rest : List Frame) (tag : Byte) (slot i : Nat) (r : SlotRow),
    s.Asks .serviceRelease f rest → i < 4 → Table.look s.part.ctxs i = none →
    (∀ j, j < i → (Table.look s.part.ctxs j).isSome) → Table.look s.part.rows slot = some r → r.ctx = none →
    r.settle = none → s.part.moduleActive (s.part.slotEntry slot).chan (s.part.slotEntry slot).addr = true →
    (s.part.chan (s.part.slotEntry slot).chan).queue.length < 16 → s.part.essRoom = true →
    let p := s.part.asked f rest
    let e := s.part.slotEntry slot
    let ctx (key : Option Nat) (sub : RelSubject) : Ctx := ⟨.opening, some slot, key,
      ⟨.service, sub, f.origin, (s.part.terminal f.origin).role, tag.toNat⟩, some (s.part.mono + 2000), none, none, none,
      none, false, false, 0, none⟩
    let run (q : Part) : Part := ({ q with rows := Table.modify q.rows slot (fun r => { r with ctx := some i }) } : Part).onChan
      e.chan (fun ch => { ch with queue := ch.queue ++ [.lockOpen e.addr e.pos i] })
    let reply := s.part.replyTo f .started (beBytes 1 i ++ beBytes 2 slot)
    (∀ t h k, f.payload = tag :: 0#8 :: beBytes 4 t → t < 4294967296 → s.part.keyByTag t = some (h, k) →
      Table.look s.part.keys h = some k → k.state = .inn ∨ k.state = .misplaced → k.loc = some slot →
      s.Becomes (exec .serviceRelease s) ((run { p with
        keys := Table.put p.keys h { k with state := .releasing }
        ctxs := Table.put p.ctxs i (ctx (some h) (.tag t)) }).queued reply))
    ∧ (f.payload = tag :: 1#8 :: beBytes 2 slot → 1 ≤ slot → slot ≤ 480 → e.kind = .standard →
      (r.occ = some .unread ∨ ∃ t, r.occ = some (.tag t) ∧ s.part.keyByTag t = none) →
      s.Becomes (exec .serviceRelease s) ((run { p with ctxs := Table.put p.ctxs i (ctx none (.slot slot)) }).queued reply))

/-- CANCEL_RELEASE of a context in OPENING or OPEN by its origin or an OFFICE terminal, no request for the number being
queued: the context gives up with CANCELLED and the answer is OK; in REMOVED_SETTLING it is TOO_LATE (R55). -/
def Obligations.CancelReleaseGivesUp : Prop :=
  ∀ (s : State) (f : Frame) (rest : List Frame) (tag : Byte) (n i slot h : Nat) (c : Ctx) (a : Auth) (k : KeyRec),
    s.Asks .cancelRelease f rest → f.payload = tag :: beBytes 4 n → n < 4294967296 → a.rental = n →
    s.part.Carries i slot c a h k → (∀ w ∈ s.part.waitQ, w.req.subject ≠ .rental n) →
    (∀ e ∈ s.part.ctxs, e.2.req.subject = .rental n → e.1 = i) → Table.rising s.part.ctxs = true →
    (c.req.origin = f.origin ∨ (s.part.terminal f.origin).role = .office) → s.part.essRoom = true →
    (c.state = .opening ∨ c.state = .opened → ∃ u, exec .cancelRelease s = .next u
      ∧ s.part.GaveUp u.part i slot c a h k .cancelled
      ∧ u.part.link.reports = s.part.link.reports ++ [s.part.replyTo f .ok []])
    ∧ (c.state = .removedSettling →
      s.Becomes (exec .cancelRelease s) ((s.part.asked f rest).queued (s.part.replyTo f .tooLate [])))

/-- REMOVAL_WINDOW_EXPIRY in OPEN: the context gives up with NOT_TAKEN; in REMOVED_SETTLING nothing happens (R46, R47). An
authorization past its valid until is removed then, with AUTH_EXPIRED to its origin, and the key is IN or MISPLACED (R54).
LOCK_LIMIT_OPENING: the row's lock is JAMMED, LOCK_JAM raised, and the context gives up with LOCK_FAULT (R45). The bytes of
AUTH_EXPIRED's target are the model's choice (log 10). -/
def Obligations.ContextTimersGiveUp : Prop :=
  (∀ (s : State) (i slot h w : Nat) (c : Ctx) (a : Auth) (k : KeyRec),
    s.part.Carries i slot c a h k → c.window = some w → w ≤ s.part.mono →
    (c.state = .opened → ∃ u, exec (.removalWindowExpiry i) s = .next u ∧ s.part.GaveUp u.part i slot c a h k .notTaken
      ∧ u.part.link = s.part.link ∧ u.part.alt = s.part.alt ∧ u.part.rows = s.part.rows)
    ∧ (c.state = .removedSettling → s.Becomes (exec (.removalWindowExpiry i) s) s.part))
  ∧ (∀ (s : State) (i slot h w v : Nat) (c : Ctx) (a : Auth) (k : KeyRec), Table.look s.part.ctxs i = some c →
    c.slot = some slot → c.key = some h → c.req.subject = .rental a.rental → c.state = .opened → c.window = some w →
    w ≤ s.part.mono → s.part.auth a.rental = some a → a.state = .active → a.validUntil = some v → v < s.part.now →
    Table.look s.part.keys h = some k → k.state = .releasing → k.loc = some slot → s.part.link.reports.length < 48 →
    (s.part.chan (s.part.slotEntry slot).chan).queue.length < 16 →
    ∃ u, exec (.removalWindowExpiry i) s = .next u
      ∧ Table.look u.part.ctxs i = some { c with
          state := .closing, result := some .notTaken, lockLimit := some (s.part.mono + 2000), window := none, lockSent := false }
      ∧ u.part.auths = s.part.auths.filter (fun x => x.rental != a.rental)
      ∧ Table.look u.part.keys h = some { k with
          state := if k.home = none ∨ k.home = some slot then .inn else .misplaced }
      ∧ u.part.link.reports = s.part.link.reports ++ [⟨.authExpired, a.origin, beBytes 4 a.rental ++ (match a.target with
        | .key h => 0#8 :: beBytes 2 h
        | .cls c => 1#8 :: beBytes 2 c)⟩]
      ∧ BusCmd.lockClose (s.part.slotEntry slot).addr (s.part.slotEntry slot).pos (.ctx i)
          ∈ (u.part.chan (s.part.slotEntry slot).chan).queue
      ∧ u.part.rentals = s.part.rentals ∧ u.part.alt = s.part.alt)
  ∧ ∀ (s : State) (i slot h w : Nat) (c : Ctx) (a : Auth) (k : KeyRec) (r : SlotRow),
    s.part.Carries i slot c a h k → c.state = .opening → c.lockLimit = some w → w ≤ s.part.mono →
    Table.look s.part.rows slot = some r →
    ∃ u, exec (.lockLimitOpening i) s = .next u ∧ s.part.GaveUp u.part i slot c a h k .lockFault
      ∧ Table.look u.part.rows slot = some { r with lock := some .jammed } ∧ u.part.alt.flags.getLsbD 5 = true

/-- LOCK_OPEN_ANSWER of OPEN to a context in OPENING whose command has been sent: the removal window starts (R44, R165); of
JAMMED: the row's lock is JAMMED, LOCK_JAM is raised and the context gives up with LOCK_FAULT (R45). A lock state that a POLL
reports to a context in OPEN or REMOVED_SETTLING is taken by the row, a JAMMED one with LOCK_JAM, and leaves the context (R52).
LOCK_CLOSE_ANSWER of LOCKED to a context in CLOSING whose command has been sent, with room in the Report Queue and no
request waiting: the final report enters and the context and its slot are free. Its report is RELEASE_DONE for a rental
made, RELEASE_FAILED for a key not taken (R49, R53, R205). With requests waiting the freed context takes the oldest live one: its
checks passing, it starts on the key as RELEASE would; failing, the request ends with RELEASE_FAILED, in each of its forms with
handle 0xFFFF and slot 0, since it never started (R40, R41). That the slot form of SERVICE_RELEASE gives slot 0 too, as R205 has it,
is the model's reading against R39 (log 13). -/
def Obligations.LockAnswersMoveTheContext : Prop :=
  (∀ (s : State) (ch : Chan) (a pos n i : Nat) (r : SlotRow) (c : Ctx) (y : Reply), GoodReply y a →
    (s.part.chan ch).onLine = some (.queued (.lockOpen a pos i)) → s.part.slotAt ch a pos = some n →
    (s.part.chan ch).modState a = .active ∨ (s.part.chan ch).modState a = .silent →
    Table.look s.part.rows n = some r → r.ctx = some i →
    Table.look s.part.ctxs i = some c → c.state = .opening → c.lockSent = true →
    ∃ u, exec (.lockOpenAnswer ch ⟨y, .opened⟩) s = .next u
      ∧ Table.look u.part.ctxs i = some { c with
          state := .opened, lockLimit := none, window := some (s.part.mono + 1000 * s.part.policy.removalWindow) }
      ∧ Table.look u.part.rows n = some { r with lock := some .opened } ∧ (u.part.chan ch).onLine = none
      ∧ u.part.keys = s.part.keys ∧ u.part.auths = s.part.auths ∧ u.part.link = s.part.link ∧ u.part.alt = s.part.alt)
  ∧ (∀ (s : State) (ch : Chan) (adr pos n i j h : Nat) (r : SlotRow) (c : Ctx) (a : Auth) (k : KeyRec) (y : Reply),
    GoodReply y adr → (s.part.chan ch).onLine = some (.queued (.lockOpen adr pos j)) → s.part.slotAt ch adr pos = some n →
    (s.part.chan ch).modState adr = .active ∨ (s.part.chan ch).modState adr = .silent →
    Table.look s.part.rows n = some r → r.ctx = some i → s.part.Carries i n c a h k → c.state = .opening → c.lockSent = true →
    ∃ u, exec (.lockOpenAnswer ch ⟨y, .jammed⟩) s = .next u ∧ s.part.GaveUp u.part i n c a h k .lockFault
      ∧ Table.look u.part.rows n = some { r with lock := some .jammed } ∧ u.part.alt.flags.getLsbD 5 = true
      ∧ (u.part.chan ch).onLine = none)
  ∧ (∀ (s : State) (ch : Chan) (a pos n i g : Nat) (ack : Bool) (y : Reply) (rs : List PosReport) (v : Occ) (l : LockState)
      (r : SlotRow) (c : Ctx), GoodReply y a →
    (s.part.chan ch).onLine = some (.poll a ack) → (s.part.chan ch).state = .running → (s.part.chan ch).modState a = .active →
    rs[pos]? = some ⟨v, l, none⟩ → s.part.slotAt ch a pos = some n → (∀ x, x ≠ pos → s.part.slotAt ch a x = none) →
    s.part.slotEntry n = ⟨ch, a, pos, .standard, g⟩ → Table.look s.part.rows n = some r → r.ctx = some i →
    (r.occ = some v ∧ r.settle = none ∨ r.occ ≠ none ∧ ∃ st, r.settle = some st ∧ st.cand = v) →
    Table.look s.part.ctxs i = some c → c.slot = some n → c.lockSent = true → c.state = .opened ∨ c.state = .removedSettling →
    let seen : Part := { s.part with rows := Table.modify s.part.rows n (fun r => { r with lock := some l }) }.onChan ch
      (fun x => { x with
        onLine := none, modules := Table.modify x.modules a (fun m => { m with misses := 0, ack := true }) })
    s.Becomes (exec (.pollAnswer ch ⟨y, rs⟩) s) (match l with
      | .jammed => seen.raise .lockJam (.slot n) none
      | .locked => if r.lock = some .locked then seen else seen.remove .lockJam (.slot n)
      | .opened => seen))
  ∧ ∀ (s : State) (ch : Chan) (a pos n i : Nat) (o : LockOwner) (r : SlotRow) (c : Ctx) (y : Reply), GoodReply y a →
    (s.part.chan ch).onLine = some (.queued (.lockClose a pos o)) → s.part.slotAt ch a pos = some n →
    Table.look s.part.rows n = some r → r.ctx = some i →
    Table.look s.part.ctxs i = some c → c.state = .closing → c.lockSent = true → c.slot = some n →
    s.part.alt.find .lockJam (.slot n) = none → s.part.essRoom = true →
    ((s.part.chan ch).modState a = .active ∨ (s.part.chan ch).modState a = .silent → (∀ w ∈ s.part.waitQ, w.ended ≠ none) →
      ∃ u, exec (.lockCloseAnswer ch ⟨y, .locked⟩) s = .next u
      ∧ u.part.ctxs = Table.del s.part.ctxs i
      ∧ Table.look u.part.rows n = some { r with lock := some .locked, ctx := none }
      ∧ u.part.keys = s.part.keys ∧ u.part.auths = s.part.auths ∧ u.part.rentals = s.part.rentals
      ∧ (∀ num place, c.req.subject = .rental num → c.rental = some place → c.result = some .released →
        c.closeFault = false → u.part.link.reports = s.part.link.reports ++ [⟨.releaseDone, c.req.origin,
          [BitVec.ofNat 8 c.req.tag, BitVec.ofNat 8 c.req.kind.code] ++ beBytes 4 num ++ beIndex c.key ++ beBytes 2 n
            ++ beBytes 2 place ++ beBytes 3 c.out ++ [0x06#8, 0#8]⟩])
      ∧ (∀ num, c.req.subject = .rental num → c.result = some .notTaken →
        u.part.link.reports = s.part.link.reports ++ [⟨.releaseFailed, c.req.origin,
          [BitVec.ofNat 8 c.req.tag, BitVec.ofNat 8 c.req.kind.code] ++ beBytes 4 num ++ beIndex c.key ++ beBytes 2 n
            ++ beBytes 4 0 ++ [0x43#8]⟩]))
    ∧ (∀ pre w post num, (s.part.chan ch).modState a = .active → s.part.waitQ = pre ++ w :: post →
      (∀ x ∈ pre, x.ended ≠ none) → w.ended = none → (s.part.waitQ.map (·.id)).Nodup → w.req.subject = .rental num →
      let freed : Part := { s.part with
        rows := Table.modify s.part.rows n (fun r => { r with lock := some .locked, ctx := none })
        ctxs := Table.del s.part.ctxs i }
      (∀ x h k slot place, s.part.auth num = some x → x.state = .waiting → x.validFrom ≤ s.part.now →
        freed.freeRentalPlace = some place → freed.chooseKey x.target w.req.role = .ok (h, k) →
        Table.look s.part.keys h = some k → k.loc = some slot →
        (s.part.chan (s.part.slotEntry slot).chan).queue.length < 16 →
        ∃ u, exec (.lockCloseAnswer ch ⟨y, .locked⟩) s = .next u
          ∧ u.part.waitQ = pre ++ post
          ∧ Table.look u.part.ctxs i = some ⟨.opening, some slot, some h, w.req, some (s.part.mono + 2000), none, some place,
              none, none, false, false, 0, none⟩
          ∧ u.part.auths = s.part.auths.map (fun z => if z.rental = num then { z with state := .active } else z)
          ∧ Table.look u.part.keys h = some { k with state := .releasing }
          ∧ BusCmd.lockOpen (s.part.slotEntry slot).addr (s.part.slotEntry slot).pos i
              ∈ (u.part.chan (s.part.slotEntry slot).chan).queue
          ∧ u.part.link.reports.length = s.part.link.reports.length + 1)
      ∧ (s.part.auth num = none → (∀ x ∈ post, x.ended ≠ none) → s.part.link.reports.length < 63 →
        ∃ u, exec (.lockCloseAnswer ch ⟨y, .locked⟩) s = .next u
          ∧ u.part.waitQ = pre ++ post ∧ u.part.ctxs = Table.del s.part.ctxs i
          ∧ ∃ last, u.part.link.reports = s.part.link.reports ++ [last, ⟨.releaseFailed, w.req.origin,
              [BitVec.ofNat 8 w.req.tag, BitVec.ofNat 8 w.req.kind.code] ++ beBytes 4 num ++ [0xFF#8, 0xFF#8] ++ beBytes 2 0
                ++ beBytes 4 0 ++ [0x20#8]⟩]))
    ∧ (∀ pre w post, (s.part.chan ch).modState a = .active → s.part.waitQ = pre ++ w :: post →
      (∀ x ∈ pre ++ post, x.ended ≠ none) → w.ended = none → (s.part.waitQ.map (·.id)).Nodup → s.part.link.reports.length < 63 →
      let ends (tag : Nat) (reason : Byte) : Prop :=
        ∃ u, exec (.lockCloseAnswer ch ⟨y, .locked⟩) s = .next u
          ∧ u.part.waitQ = pre ++ post ∧ u.part.ctxs = Table.del s.part.ctxs i ∧ u.part.keys = s.part.keys
          ∧ ∃ last, u.part.link.reports = s.part.link.reports ++ [last, ⟨.releaseFailed, w.req.origin,
              [BitVec.ofNat 8 w.req.tag, BitVec.ofNat 8 w.req.kind.code] ++ beBytes 4 0 ++ [0xFF#8, 0xFF#8] ++ beBytes 2 0
                ++ beBytes 4 tag ++ [reason]⟩]
      (∀ t, w.req.subject = .tag t → s.part.keyByTag t = none → ends t 0x20#8)
      ∧ (∀ x z, w.req.subject = .slot x → 1 ≤ x → x ≤ 480 → (s.part.slotEntry x).kind = .standard → x ≠ n →
        Table.look s.part.rows x = some z → z.settle ≠ none → ends 0 0x3C#8))

/-- LOCK_LIMIT_CLOSING: the row's lock is JAMMED and LOCK_JAM raised; a completed release keeps its result and is
reported with CLOSE_FAULT, and the context is free. Its LOCK_CLOSE, if it still waits, stays in its queue as no context's any more,
so that its sending opens no later context of the number to lock states (R44, R49, R53, R159). -/
def Obligations.LockLimitFailsTheClosing : Prop :=
  ∀ (s : State) (i n w num place : Nat) (c : Ctx) (r : SlotRow),
    Table.look s.part.ctxs i = some c → c.state = .closing → c.lockLimit = some w → w ≤ s.part.mono → c.slot = some n →
    Table.look s.part.rows n = some r → r.ctx = some i → (∀ e ∈ s.part.waitQ, e.ended ≠ none) → s.part.link.waiters = [] →
    s.part.link.reports.length < 62 → c.req.subject = .rental num → c.rental = some place → c.result = some .released →
    ∃ u, exec (.lockLimitClosing i) s = .next u
      ∧ u.part.ctxs = Table.del s.part.ctxs i
      ∧ Table.look u.part.rows n = some { r with lock := some .jammed, ctx := none }
      ∧ u.part.alt.flags.getLsbD 5 = true
      ∧ (∀ d, (u.part.chan d).queue.filter (fun b => !b.isLampAny)
        = ((s.part.chan d).queue.map (fun b => match b with
          | .lockClose a pos (.ctx j) => .lockClose a pos (if j = i then .left else .ctx j)
          | b => b)).filter (fun b => !b.isLampAny))
      ∧ u.part.link.reports.getLast? = some ⟨.releaseDone, c.req.origin,
          [BitVec.ofNat 8 c.req.tag, BitVec.ofNat 8 c.req.kind.code] ++ beBytes 4 num ++ beIndex c.key ++ beBytes 2 n
            ++ beBytes 2 place ++ beBytes 3 c.out ++ [0x06#8, 1#8]⟩

/-- SETTLE_EXPIRY of the removal of the key a context releases: the rental record is made in the reserved place, with the
first-seen minute as its out minute and its tier by the formula; the key is OUT, the authorization is gone, the context closes
with RELEASED (R48, R163); the late take in CLOSING with NOT_TAKEN does the same with LATE_TAKE, the context left as it was
otherwise and no lock command asked for (the model's reading, log 18); any other key located there is TAKEN, the context and its result as they were, and a removal of no key located there
takes the slot's FOREIGN entry away (R50). That the authorization a context carried is the one now in the list under its rental
number, one deleted and added again included (log 50), and that at a late take of a key that is not the context's own the
context's key and the handle of its report become that key (log 51), are the model's choice. Without a context the key located
there becomes MISSING with its TAKEN alert, the authorization that names it retargeted, and the FOREIGN entry of an unknown
occupant goes (R11, R33). SETTLE_EXPIRY of an arrival on an EMPTY slot: a key in OUT is returned (R60 to R63), one in AWAY,
MISSING or DROPPED is back or found, one located elsewhere is relocated, one in RELEASING ends its context, an unknown occupant
is FOREIGN (R10, R64 to R69). -/
def Obligations.SettledRemovalMakesTheRental : Prop :=
  (∀ (s : State) (i n h t m x place : Nat) (c : Ctx) (a : Auth) (k : KeyRec) (r : SlotRow),
    s.part.Carries i n c a h k → c.state = .removedSettling → c.reservation = some place →
    Table.look s.part.rows n = some r → r.ctx = some i → r.occ = some (.tag t) → r.settle = some ⟨.empty, m, x⟩ →
    x ≤ s.part.mono → s.part.keyByTag t = some (h, k) →
    ∃ u, exec (.settleExpiry n) s = .next u
      ∧ Table.look u.part.rows n = some { r with occ := some .empty, settle := none }
      ∧ (let g := a.grace.getD s.part.policy.graceDefault
         Table.look u.part.rentals place = some ⟨a.rental, h, m, a.due, g,
           tierOf s.part.policy.dueSoon s.part.policy.escalation a.due g s.part.now, 0,
           if c.req.kind = .pickup then .kiosk else .counter, none⟩)
      ∧ Table.look u.part.keys h = some { k with
          state := .out, loc := none, inSince := none, rental := some place, away := none }
      ∧ u.part.auths = s.part.auths.filter (fun y => y.rental != a.rental)
      ∧ Table.look u.part.ctxs i = some { c with
          state := .closing, reservation := none, rental := some place, out := m, result := some .released
          lockLimit := some (s.part.mono + 2000), window := none, lockSent := false }
      ∧ place ∈ u.part.due)
  ∧ (∀ (s : State) (i n h t m x place : Nat) (c : Ctx) (a : Auth) (k : KeyRec) (r : SlotRow),
    Table.look s.part.rows n = some r → r.ctx = some i → r.occ = some (.tag t) → r.settle = some ⟨.empty, m, x⟩ →
    x ≤ s.part.mono → s.part.keyByTag t = some (h, k) → k.loc = some n →
    Table.look s.part.ctxs i = some c → c.state = .closing → c.result = some .notTaken → c.reservation = some place →
    c.req.subject = .rental a.rental → s.part.auth a.rental = some a → a.state = .waiting →
    a.target = .key h ∨ (a.target = .cls k.cls ∧ k.state ≠ .assigned) →
    ∃ u, exec (.settleExpiry n) s = .next u
      ∧ (let g := a.grace.getD s.part.policy.graceDefault
         Table.look u.part.rentals place = some ⟨a.rental, h, m, a.due, g,
           tierOf s.part.policy.dueSoon s.part.policy.escalation a.due g s.part.now, 0,
           if c.req.kind = .pickup then .kiosk else .counter, none⟩)
      ∧ Table.look u.part.keys h = some { k with
          state := .out, loc := none, inSince := none, rental := some place, away := none }
      ∧ u.part.auths = s.part.auths.filter (fun y => y.rental != a.rental)
      ∧ Table.look u.part.ctxs i = some { c with
          reservation := none, rental := some place, out := m, key := some h, result := some .lateTake }
      ∧ (∀ d, (u.part.chan d).queue.filter (fun b => !b.isLampAny) = (s.part.chan d).queue.filter (fun b => !b.isLampAny))
      ∧ place ∈ u.part.due)
  ∧ (∀ (s : State) (i n m x : Nat) (c : Ctx) (r : SlotRow) (old : Occ),
    Table.look s.part.rows n = some r → r.ctx = some i → r.occ = some old → old ≠ .empty → r.settle = some ⟨.empty, m, x⟩ →
    x ≤ s.part.mono → Table.look s.part.ctxs i = some c → c.state = .closing ∨ c.state = .donePending →
    let q : Part := { s.part with
      rows := Table.modify s.part.rows n (fun r => { r with occ := some .empty, settle := none }) }
    (∀ t h k, old = .tag t → s.part.keyByTag t = some (h, k) → k.loc = some n →
      let late : Prop := c.state = .closing ∧ c.result = some .notTaken ∧ match c.req.subject with
        | .rental num => ∃ a, s.part.auth num = some a ∧ a.state = .waiting
            ∧ (a.target = .key h ∨ (a.target = .cls k.cls ∧ k.state ≠ .assigned))
        | .tag _ => c.key = some h ∧ (k.state = .inn ∨ k.state = .misplaced)
        | .slot _ => False
      ¬ late → ∃ u, exec (.settleExpiry n) s = .next u ∧ u.part.rows = q.rows ∧ u.part.ctxs = s.part.ctxs
        ∧ Table.look u.part.keys h = some { k with
            state := .missing, loc := none, inSince := none, rental := none, away := none }
        ∧ u.part.alt.flags.getLsbD 2 = true ∧ u.part.rentals = s.part.rentals
        ∧ (k.state ≠ .assigned → u.part.auths = s.part.auths)
        ∧ (∀ pre y post, k.state = .assigned → s.part.auths = pre ++ y :: post → y.state ≠ .active → y.target = .key h →
          (∀ z ∈ pre, ¬ (z.state ≠ .active ∧ z.target = .key h)) →
          u.part.auths = s.part.auths.map (fun z => if z.rental = y.rental then { z with target := .cls k.cls } else z)))
    ∧ (old = .unread ∨ (∃ t, old = .tag t ∧ ∀ h k, s.part.keyByTag t = some (h, k) → k.loc ≠ some n) →
      (s.part.alt.entries.map (fun e => (e.kind, e.subject))).Nodup →
      s.Becomes (exec (.settleExpiry n) s) (q.remove .foreign (.slot n))))
  ∧ (∀ (s : State) (n m x : Nat) (r : SlotRow) (old : Occ),
    Table.look s.part.rows n = some r → r.ctx = none → r.occ = some old → r.settle = some ⟨.empty, m, x⟩ →
    x ≤ s.part.mono → old ≠ .empty →
    let q : Part := { s.part with
      rows := Table.modify s.part.rows n (fun r => { r with occ := some .empty, settle := none }) }
    (∀ t h k, old = .tag t → s.part.keyByTag t = some (h, k) →
      (k.loc ≠ some n → s.Becomes (exec (.settleExpiry n) s) q)
      ∧ (k.loc = some n → ∃ u, exec (.settleExpiry n) s = .next u ∧ u.part.rows = q.rows
        ∧ Table.look u.part.keys h = some { k with
            state := .missing, loc := none, inSince := none, rental := none, away := none }
        ∧ u.part.alt.flags.getLsbD 2 = true ∧ u.part.rentals = s.part.rentals ∧ u.part.ctxs = s.part.ctxs
        ∧ (∀ y, s.part.alt.find .taken (.key h) = none → s.part.alt.freePlace = some y → k.state ≠ .assigned →
          u.part.alt.entries.map (fun e => (e.kind, e.subject))
            = s.part.alt.entries.map (fun e => (e.kind, e.subject)) ++ [(.taken, .key h)])
        ∧ (k.state ≠ .assigned → u.part.auths = s.part.auths)
        ∧ (∀ pre y post, k.state = .assigned → s.part.auths = pre ++ y :: post → y.state ≠ .active → y.target = .key h →
          (∀ z ∈ pre, ¬ (z.state ≠ .active ∧ z.target = .key h)) →
          u.part.auths = s.part.auths.map (fun z => if z.rental = y.rental then { z with target := .cls k.cls } else z))))
    ∧ (old = .unread ∨ (∃ t, old = .tag t ∧ s.part.keyByTag t = none) →
      s.Becomes (exec (.settleExpiry n) s) (q.remove .foreign (.slot n))))
  ∧ ∀ (s : State) (n m x : Nat) (r : SlotRow) (v : Occ),
    Table.look s.part.rows n = some r → r.occ = some .empty → r.settle = some ⟨v, m, x⟩ → x ≤ s.part.mono → v ≠ .empty →
    let q : Part := { s.part with
      rows := Table.modify s.part.rows n (fun r => { r with occ := some v, settle := none }) }
    (v = .unread → s.Becomes (exec (.settleExpiry n) s) (q.raise .foreign (.slot n) (some .unreadable)))
    ∧ (∀ t, v = .tag t → s.part.keyByTag t = none →
      s.Becomes (exec (.settleExpiry n) s) (q.raise .foreign (.slot n) (some (.unknownTag t))))
    ∧ (∀ t h k, v = .tag t → s.part.keyByTag t = some (h, k) →
      let st : KeyState := if k.home = none ∨ k.home = some n then .inn else .misplaced
      let here (st : KeyState) : KeyRec :=
        { k with state := st, loc := some n, inSince := some m, rental := none, away := none }
      let moved : Part := { q with keys := Table.put q.keys h (here st) }
      let back (cause : Byte) : Report := ⟨.keyBack, 255, beBytes 2 h ++ beBytes 2 n ++ [cause]⟩
      (∀ cause, k.state = .away → k.away = some cause → s.part.link.reports.length < 48 →
        s.Becomes (exec (.settleExpiry n) s) (moved.queued (back (match cause with
          | .service => 0#8
          | .manualClose => 1#8
          | .new => 2#8
          | .dropOverflow => 3#8))))
      ∧ (k.state = .missing → (moved.remove .taken (.key h)).link.reports.length < 48 →
        s.Becomes (exec (.settleExpiry n) s) ((moved.remove .taken (.key h)).queued
          ⟨.keyFound, 255, beBytes 2 h ++ beBytes 2 n⟩))
      ∧ (k.state = .dropped → s.part.link.reports.length < 48 →
        (∀ d ∈ s.part.dropSlots, s.part.alt.find .dropFull (.slot d) = none) →
        s.Becomes (exec (.settleExpiry n) s)
          (({ moved with dropBin := s.part.dropBin.filter (fun e => e.key != h) } : Part).queued (back 4#8)))
      ∧ (∀ o, k.state = .inn ∨ k.state = .misplaced ∨ k.state = .assigned → k.loc = some o →
        (o = n → s.Becomes (exec (.settleExpiry n) s) q)
        ∧ (o ≠ n → s.part.link.reports.length < 48 → s.Becomes (exec (.settleExpiry n) s)
          (({ q with keys := Table.put q.keys h (here (if k.state = .assigned then .assigned else st)) } : Part).queued
            ⟨.relocated, 255, beBytes 2 h ++ beBytes 2 o ++ beBytes 2 n⟩)))
      ∧ (∀ i o c a y, s.part.Carries i o c a h k → o ≠ n → Table.look s.part.rows o = some y →
        (∀ e ∈ s.part.ctxs, e.2.key = some h → e.1 = i) → Table.rising s.part.ctxs = true →
        c.state = .opening ∨ c.state = .opened ∨ c.state = .removedSettling →
        ∃ u, exec (.settleExpiry n) s = .next u
          ∧ Table.look u.part.ctxs i = some { c with
              state := .closing, result := some (if y.lock = some .opened then .lockFault else .notTaken)
              lockLimit := some (s.part.mono + 2000), window := none, lockSent := false }
          ∧ Table.look u.part.keys h = some (here (if a.target = .key h then .assigned else st))
          ∧ u.part.auths = s.part.auths.map (fun z => if z.rental = a.rental then { z with state := .waiting } else z)
          ∧ BusCmd.lockClose (s.part.slotEntry o).addr (s.part.slotEntry o).pos (.ctx i)
              ∈ (u.part.chan (s.part.slotEntry o).chan).queue
          ∧ u.part.rentals = s.part.rentals)
      ∧ (∀ i y, k.state = .out → k.rental = some i → Table.look s.part.rentals i = some y → y.key = h →
        s.part.link.waiters = [] → s.part.link.reports.length < 64 →
        s.part.alt.find .overdue (.rental y.number) = none → s.part.alt.find .escalated (.rental y.number) = none →
        let z := y.assess m s.part.policy.blockLen s.part.policy.blocksCap (some n) st false false false
        s.Becomes (exec (.settleExpiry n) s) (({ moved with
            rentals := Table.del s.part.rentals i
            due := s.part.due.filter (fun j => j != i) } : Part).queued
          ⟨.ret, 255, beBytes 4 y.number ++ beBytes 2 i ++ beBytes 2 h ++ beBytes 4 k.tag ++ beBytes 3 y.out ++ beBytes 3 y.due
            ++ beBytes 1 y.grace ++ beBytes 3 m ++ beBytes 2 n ++ beBytes 1 z.cls.code ++ beBytes 3 z.lateMinutes
            ++ beBytes 1 z.lateDays ++ beBytes 1 z.lateBlocks ++ beBytes 1 z.daysInUse ++ beBytes 1 st.code
            ++ beBytes 1 ((if z.flags.quick then 1 else 0) + (if z.flags.saturated then 8 else 0)
              + (if z.flags.clockAnomaly then 16 else 0))⟩)))

/-! ## Requests that read -/

/-- KEY_QUERY, RENTAL_QUERY, OVERDUE_LIST and CENSUS_READ answer OK with their fields and change nothing else (R18, R101,
R102, R134), which are spelled here. KEY_QUERY of a handle that is free or above 1023, or of a tag id of no key, is NOT_FOUND; that
of a foreign tag which stands in a slot's row gives that slot with it, the lowest of several (R18, R69), a field that is the model's
choice (log 54). The layout of the first two, and that of the request OVERDUE_LIST (a presence byte, then a
due minute and a rental number), are the model's choice (log 10). -/
def Obligations.QueriesChangeNothing : Prop :=
  ∀ (s : State) (f : Frame) (rest : List Frame) (tag : Byte), s.part.essRoom = true →
    let p := s.part
    let answers (row : Instr) (fields : List Byte) : Prop :=
      s.Becomes (exec row s) ((p.asked f rest).queued (p.replyTo f .ok fields))
    let flag (b : Bool) : Nat := if b then 1 else 0
    let keyBytes (h : Nat) (k : KeyRec) : List Byte :=
      let drop := p.dropBin.zipIdx.find? (fun e => e.1.key == h)
      let rental := k.rental.bind (fun i => Table.look p.rentals i)
      let row := k.loc.bind (fun n => Table.look p.rows n)
      beBytes 1 (flag k.inSince.isSome + 2 * flag drop.isSome) ++ beBytes 2 h ++ beBytes 4 k.tag ++ beBytes 3 k.vehicle
        ++ beBytes 1 k.cls ++ beBytes 2 (k.home.getD 0) ++ beBytes 1 k.state.code ++ beBytes 2 (k.loc.getD 0)
        ++ beBytes 3 (k.inSince.getD 0) ++ beBytes 1 ((k.hold.map HoldReason.code).getD 255)
        ++ beBytes 1 ((k.away.map AwayCause.code).getD 255) ++ beBytes 2 (k.rental.getD 65535)
        ++ beBytes 4 ((rental.map (·.number)).getD 0)
        ++ beBytes 1 ((row.map (fun r => match r.lock with
          | some .locked => 0
          | some .opened => 1
          | some .jammed => 2
          | none => 3)).getD 255)
        ++ beBytes 1 (flag (row.any (fun r => r.ctx.isSome))) ++ beBytes 2 ((drop.map (fun d => d.1.slot)).getD 0)
        ++ beBytes 3 ((drop.map (fun d => d.1.minute)).getD 0) ++ beBytes 1 ((drop.map (fun d => d.2 + 1)).getD 0)
    let rentalBytes (r : Rental) : List Byte :=
      let k := Table.look p.keys r.key
      beBytes 1 (flag r.snap.isSome) ++ beBytes 4 r.number ++ beBytes 2 r.key ++ beBytes 3 r.out ++ beBytes 3 r.due
        ++ beBytes 1 r.grace ++ beBytes 1 r.tier.code ++ beBytes 1 (flag r.snap.isSome) ++ beBytes 1 r.extensions
        ++ beBytes 1 r.kind.code
        ++ (match r.snap with
          | none => beBytes 14 0
          | some x => beBytes 3 x.ret ++ beBytes 2 (x.place.getD 0) ++ beBytes 1 x.cls.code ++ beBytes 3 x.lateMinutes
            ++ beBytes 1 x.lateDays ++ beBytes 1 x.lateBlocks ++ beBytes 1 x.daysInUse ++ beBytes 1 x.keyAfter.code
            ++ beBytes 1 (flag x.flags.quick + 2 * flag x.flags.lateSighting + 4 * flag x.flags.manual
              + 8 * flag x.flags.saturated + 16 * flag x.flags.clockAnomaly + 32 * flag x.flags.dropOverflow))
        ++ beBytes 4 ((k.map (·.tag)).getD 0) ++ beBytes 3 ((k.map (·.vehicle)).getD 0)
    let censusBytes : List Byte :=
      let c := p.cen
      beBytes 1 (flag c.startMin.isSome + 2 * flag c.endMin.isSome + 4 * flag c.nextStart.isSome)
        ++ beBytes 1 (match c.state with
          | .idle => 0
          | .sweeping => 1
          | .aborted => 2)
        ++ beBytes 1 (match c.cause with
          | none => 255
          | some (.request _) => 0
          | some .schedule => 1)
        ++ beBytes 1 (match c.cause with
          | some (.request origin) => origin
          | _ => 0)
        ++ beBytes 1 (match c.scope with
          | none => 255
          | some .A => 0
          | some .B => 1
          | some .both => 2)
        ++ beBytes 3 (c.startMin.getD 0) ++ beBytes 3 (c.endMin.getD 0)
        ++ (match c.pos with
          | none => [0#8, 0#8]
          | some (ch, a) => beBytes 1 ch.code ++ beBytes 1 a)
        ++ beBytes 1 (match c.read with
          | none => 255
          | some .notSent => 0
          | some .sent => 1)
        ++ beBytes 1 (match c.outcome with
          | none => 255
          | some .complete => 0
          | some .aborted => 1)
        ++ beBytes 1 (flag c.lostA + 2 * flag c.lostB)
        ++ beBytes 2 c.counts.read ++ beBytes 2 c.counts.unverified ++ beBytes 2 c.counts.compared
        ++ beBytes 2 c.counts.consistent ++ beBytes 2 c.counts.busySkipped ++ beBytes 2 c.counts.recorded
        ++ beBytes 2 c.counts.lost ++ beBytes 2 c.skipped ++ beBytes 3 (c.nextStart.getD 0)
    let seen (o : Option Occ) : List Byte := match o with
      | none => beBytes 1 255 ++ beBytes 4 0
      | some .empty => beBytes 1 0 ++ beBytes 4 0
      | some (.tag t) => beBytes 1 1 ++ beBytes 4 t
      | some .unread => beBytes 1 2 ++ beBytes 4 0
    let mismatchBytes (m : Mismatch) : List Byte :=
      beBytes 1 (match m.kind with
        | .relocated => 0
        | .outKeyPresent => 1
        | .foreign => 2
        | .missing => 3
        | .readDiffers => 4
        | .unverified => 5)
        ++ beBytes 2 m.slot ++ beBytes 2 (m.key.getD 65535) ++ seen m.read ++ seen m.settled
        ++ beBytes 1 ((m.before.map KeyState.code).getD 255)
    (∀ t h k, s.Asks .keyQuery f rest → f.payload = tag :: 0#8 :: beBytes 4 t → t < 4294967296 →
      p.keyByTag t = some (h, k) → answers .keyQuery (keyBytes h k))
    ∧ (∀ h k, s.Asks .keyQuery f rest → f.payload = tag :: 1#8 :: beBytes 2 h → h < 65536 → Table.look p.keys h = some k →
      answers .keyQuery (keyBytes h k))
    ∧ (let missing (fields : List Byte) : Prop :=
         s.Becomes (exec .keyQuery s) ((p.asked f rest).queued (p.replyTo f .notFound fields))
       (∀ h, s.Asks .keyQuery f rest → f.payload = tag :: 1#8 :: beBytes 2 h → h < 65536 → Table.look p.keys h = none → missing [])
       ∧ (∀ t, s.Asks .keyQuery f rest → f.payload = tag :: 0#8 :: beBytes 4 t → t < 4294967296 → p.keyByTag t = none →
         ((∀ e ∈ p.rows, e.2.occ ≠ some (.tag t)) → missing [])
         ∧ (∀ pre n r post, p.rows = pre ++ (n, r) :: post → (∀ e ∈ pre, e.2.occ ≠ some (.tag t)) → r.occ = some (.tag t) →
           missing (beBytes 2 n))))
    ∧ (∀ n i r, s.Asks .rentalQuery f rest → f.payload = tag :: 0#8 :: beBytes 4 n → n < 4294967296 →
      p.rentalByNumber n = some (i, r) → answers .rentalQuery (rentalBytes r))
    ∧ (∀ i r, s.Asks .rentalQuery f rest → f.payload = tag :: 1#8 :: beBytes 2 i → i < 65536 →
      Table.look p.rentals i = some r → answers .rentalQuery (rentalBytes r))
    ∧ (∀ (x : Option (Nat × Nat)) d n, s.Asks .overdueList f rest →
      f.payload = tag :: (beBytes 1 (if x.isSome then 1 else 0) ++ (beBytes 3 d ++ beBytes 4 n)) → d < 16777216 →
      n < 4294967296 → x = none ∨ x = some (d, n) →
      let late : List (Nat × Rental) := if p.clock.set then
          (p.due.filterMap (fun i => (Table.look p.rentals i).map (fun r => (i, r)))).filter (fun e =>
            e.2.tier = .grace ∨ e.2.tier = .overdue ∨ e.2.tier = .escalated)
        else []
      let after := late.filter (fun e => x.all (fun x => decide (x.1 < e.2.due ∨ (x.1 = e.2.due ∧ x.2 < e.2.number))))
      answers .overdueList (beBytes 2 late.length ++ beBytes 1 (if 12 < after.length then 1 else 0)
        ++ beBytes 1 (after.take 12).length ++ (after.take 12).flatMap (fun e =>
          beBytes 4 e.2.number ++ beBytes 2 e.1 ++ beBytes 2 e.2.key ++ beBytes 3 e.2.due ++ beBytes 1 e.2.grace
            ++ beBytes 1 e.2.tier.code ++ beBytes 3 (p.now - e.2.due) ++ beBytes 1 e.2.extensions
            ++ beBytes 1 e.2.kind.code)))
    ∧ (∀ i, s.Asks .censusRead f rest → f.payload = tag :: beBytes 2 i → i ≤ 63 →
      answers .censusRead (censusBytes ++ beBytes 1 p.cen.list.length ++ beBytes 1 ((p.cen.list.drop i).take 12).length
        ++ ((p.cen.list.drop i).take 12).flatMap mismatchBytes))

/-- FLAGS_READ, STATUS_READ and COUNTERS_READ answer OK with their fields, which are spelled here. CLEAR of the first clears
every flag but CLOCK_UNSET, of the last every counter given; STATUS_READ clears the OVERRUN bit; nothing else changes (R116,
R176, R196, R197). The layout of the fields (log 10), and that FLAGS_READ with CLEAR gives the alert line as it stands before the
clearing (log 55), are the model's choice. -/
def Obligations.StatusReadsAndClears : Prop :=
  ∀ (s : State) (f : Frame) (rest : List Frame) (tag : Byte), s.part.essRoom = true →
    let p := s.part
    let q := p.asked f rest
    let flag (b : Bool) : Nat := if b then 1 else 0
    let c := p.clock
    let unacked := (p.alt.entries.filter (fun e => !e.acked)).length
    let flagBytes : List Byte :=
      beBytes 2 p.alt.flags.toNat ++ beBytes 2 p.alt.enableStaffed.toNat ++ beBytes 2 p.alt.enableUnstaffed.toNat
        ++ beBytes 1 (flag p.alt.lineEnable) ++ beBytes 1 p.zone.code ++ beBytes 1 (flag p.lineDriven) ++ beBytes 1 unacked
        ++ beBytes 1 (p.alt.entries.length - unacked) ++ beBytes 1 p.alt.notices.length
    let chanBytes (ch : Channel) : List Byte :=
      let inState (m : ModState) : List Byte := beBytes 1 (ch.modules.filter (fun e => e.2.state == m)).length
      beBytes 1 ch.state.code ++ inState .absent ++ inState .active ++ inState .silent ++ inState .down ++ beBytes 1 ch.muted
    let keysIn (st : KeyState) : List Byte := beBytes 2 (p.keys.filter (fun e => e.2.state == st)).length
    let authsIn (st : AuthState) : List Byte := beBytes 1 (p.auths.filter (fun a => a.state == st)).length
    let ctxByte (i : Nat) : List Byte := beBytes 1 (match Table.look p.ctxs i with
      | none => 0
      | some x => x.state.code)
    let statusBytes : List Byte :=
      beBytes 1 (if c.set then 0 else 1) ++ beBytes 3 c.minute ++ beBytes 1 c.second ++ beBytes 2 c.dayOffset
        ++ beBytes 1 (flag c.atLimit) ++ beBytes 2 ((c.minute + c.dayOffset) % 1440) ++ beBytes 1 p.zone.code
        ++ chanBytes p.chanA ++ chanBytes p.chanB
        ++ keysIn .inn ++ keysIn .misplaced ++ keysIn .assigned ++ keysIn .releasing ++ keysIn .out ++ keysIn .away
        ++ keysIn .missing ++ keysIn .dropped ++ beBytes 2 p.keys.length
        ++ beBytes 2 (p.rentals.filter (fun e => e.2.snap.isNone)).length
        ++ beBytes 2 (p.rentals.filter (fun e => e.2.snap.isSome)).length
        ++ beBytes 1 (p.ctxs.filter (fun e => e.2.reservation.isSome)).length
        ++ authsIn .waiting ++ authsIn .active ++ authsIn .lockedOut
        ++ ctxByte 0 ++ ctxByte 1 ++ ctxByte 2 ++ ctxByte 3
        ++ beBytes 1 (p.waitQ.filter (fun w => w.ended.isNone)).length
        ++ beBytes 1 (p.waitQ.filter (fun w => w.ended.isSome)).length
        ++ beBytes 1 (match p.cen.state with
          | .idle => 0
          | .sweeping => 1
          | .aborted => 2)
        ++ beBytes 1 p.link.reports.length ++ beBytes 2 p.link.waiters.length ++ beBytes 1 (flag p.link.lossEpisode)
        ++ beBytes 1 (match p.link.watch with
          | .off => 0
          | .watching _ => 1
          | .silent _ => 2)
        ++ beBytes 1 (flag p.link.overrunBit)
    let l := p.link.counters
    let chanCounters (ch : Channel) : List Byte :=
      beBytes 2 ch.misses ++ beBytes 2 ch.bounces ++ beBytes 2 ch.recoveries ++ beBytes 2 ch.strangers
    let counterBytes : List Byte :=
      beBytes 2 l.syncError ++ beBytes 2 l.framingError ++ beBytes 2 l.headerCorrected ++ beBytes 2 l.headerUncorrectable
        ++ beBytes 2 l.lengthError ++ beBytes 2 l.truncated ++ beBytes 2 l.crcError ++ beBytes 2 l.overrun
        ++ beBytes 2 l.badOrigin ++ beBytes 2 l.reportsDropped ++ beBytes 2 l.passDropped
        ++ chanCounters p.chanA ++ chanCounters p.chanB
        ++ ((p.slotMap.filter (fun e => e.2.kind == .drop)).map (·.1)).flatMap (fun n =>
          beBytes 2 ((Table.look p.dupCounts n).getD 0) ++ beBytes 2 n)
    (s.Asks .flagsRead f rest →
      (f.payload = [tag, 0#8] → s.Becomes (exec .flagsRead s) (q.queued (p.replyTo f .ok flagBytes)))
      ∧ (f.payload = [tag, 1#8] → s.Becomes (exec .flagsRead s)
        (({ q with alt := { q.alt with flags := q.alt.flags &&& 0x4000#16 } } : Part).queued (p.replyTo f .ok flagBytes))))
    ∧ (s.Asks .statusRead f rest → f.payload = [tag] → s.Becomes (exec .statusRead s)
      (({ q with link := { q.link with overrunBit := false } } : Part).queued (p.replyTo f .ok statusBytes)))
    ∧ (s.Asks .countersRead f rest →
      (f.payload = [tag, 0#8] → s.Becomes (exec .countersRead s) (q.queued (p.replyTo f .ok counterBytes)))
      ∧ (f.payload = [tag, 1#8] → s.Becomes (exec .countersRead s)
        (({ q with
          link := { q.link with counters := ⟨0, 0, 0, 0, 0, 0, 0, 0, 0, 0, 0⟩ }
          chanA := { q.chanA with misses := 0, bounces := 0, recoveries := 0, strangers := 0 }
          chanB := { q.chanB with misses := 0, bounces := 0, recoveries := 0, strangers := 0 }
          dupCounts := q.dropSlots.foldl (fun t n => Table.del t n) q.dupCounts } : Part).queued
          (p.replyTo f .ok counterBytes))))

/-! ## Branch time -/

/-- TIME_SET, and BROADCAST_TIME_SET of a terminal with LOAD: the clock takes the values given, CLOCK_UNSET is cleared and
CLOCK_LIMIT is set exactly at the last minute; zone and tiers stand as at the new minute; the ticks made before it are carried
out, and none is left for the REL, the ALT and the CEN (log 4); TIME_SET's response is the last report, or waits. A broadcast of
a terminal without LOAD changes nothing (R86, R88, R89, R96). -/
def Obligations.TimeSetSetsTheClock : Prop :=
  ∀ (s : State) (f : Frame) (rest : List Frame) (tag : Byte) (m sec w : Nat),
    f.payload = tag :: (beBytes 3 m ++ (beBytes 1 sec ++ beBytes 2 w)) → m ≤ 16777215 → sec ≤ 59 → w ≤ 1439 →
    let old := s.part.clock
    let clock : Clock := ⟨true, m, if m = 16777215 then 0 else sec, (w + 1440 - m % 1440) % 1440, decide (m = 16777215)⟩
    let isSet (u : State) : Prop :=
      u.part.clock = clock ∧ clock.minuteOfDay = w ∧ u.part.zone = ({ s.part with clock := clock } : Part).zoneEval
        ∧ u.part.alt.flags.getLsbD 14 = false ∧ u.part.alt.flags.getLsbD 15 = decide (m = 16777215)
        ∧ u.part.mono = s.part.mono ∧ u.part.due = s.part.due
        ∧ u.part.tickRel = [] ∧ u.part.tickAlt = [] ∧ u.part.tickCen = []
        ∧ (∀ t e, t ∈ s.part.tickAlt → e ∈ s.part.alt.entries → (s.part.alt.entries.map (·.place)).Nodup →
          e.kind ≠ .lockout → e.acked = false → (∃ n, e.next = some n ∧ n ≤ t) →
          u.part.alt.flags.getLsbD e.kind.code = true)
        ∧ (∀ i r, i ∈ u.part.due → Table.look u.part.rentals i = some r → r.snap = none →
          r.tier = tierOf s.part.policy.dueSoon s.part.policy.escalation r.due r.grace m)
        ∧ u.part.policy = s.part.policy ∧ u.part.rows = s.part.rows ∧ u.part.ctxs = s.part.ctxs
    (s.Asks .timeSet f rest → ∃ u, exec .timeSet s = .next u ∧ isSet u
      ∧ (let r := s.part.replyTo f .ok (beBytes 3 old.minute ++ beBytes 1 (if old.set then 0 else 1) ++ beBytes 2 w
          ++ beBytes 1 u.part.zone.code)
         u.part.tfl.held = some r ∨ u.part.link.reports.getLast? = some r))
    ∧ (s.part.tfl.held = none → s.part.link.inbound = f :: rest → 1 ≤ f.origin → f.origin ≤ 62 → f.dest = 255 →
      f.kind = 0x20 →
      ((s.part.terminal f.origin).load = true → ∃ u, exec .broadcastTimeSet s = .next u ∧ isSet u)
      ∧ ((s.part.terminal f.origin).load = false →
        s.Becomes (exec .broadcastTimeSet s) { s.part with link := { s.part.link with inbound := rest } }))

/-- A monotonic second advances the second of a clock that is SET and RUNNING; the one that wraps it is the minute tick: the
minute goes up, zone and tiers stand as at the new minute, and REL, ALT and CEN are handed the tick. Any other clock stands still
(R83, R85, R86, R87, R96). A tier that the tick changes asks the ALT for what the table of R98 gives, and one that becomes
DUE_SOON offers its report: said of one OPEN rental, at a tick that leaves the zone (R98, R99). That the row moves monotonic time
to its next multiple of 1,000 (log 3), that the tick is kept for the three blocks until their own rows (log 4), and that
ALERT_WITHDRAWN is queued before DUE_SOON where one change brings both, of which R98 and R99 give no order (log 22), are the
model's choice. -/
def Obligations.SecondsMakeMinuteTicks : Prop :=
  ∀ s : State,
    let next := (s.part.mono / 1000 + 1) * 1000
    let c := s.part.clock
    ((c.set = false ∨ c.atLimit = true) → s.Becomes (exec .monotonicSecond s) { s.part with mono := next })
    ∧ (c.set = true → c.atLimit = false → c.second < 59 →
      s.Becomes (exec .monotonicSecond s) { s.part with mono := next, clock := { c with second := c.second + 1 } })
    ∧ (c.set = true → c.atLimit = false → 59 ≤ c.second → ∀ row ∈ [Instr.monotonicSecond, .minuteTick],
      let clock : Clock := ⟨true, c.minute + 1, 0, c.dayOffset, decide (c.minute + 1 = 16777215)⟩
      ∃ u, exec row s = .next u ∧ u.part.clock = clock ∧ u.part.mono = next
        ∧ u.part.zone = ({ s.part with clock := clock } : Part).zoneEval
        ∧ u.part.alt.flags.getLsbD 15 = (s.part.alt.flags.getLsbD 15 || decide (c.minute + 1 = 16777215))
        ∧ u.part.tickRel = s.part.tickRel ++ [c.minute + 1] ∧ u.part.tickAlt = s.part.tickAlt ++ [c.minute + 1]
        ∧ u.part.tickCen = s.part.tickCen ++ [c.minute + 1]
        ∧ (∀ i r, i ∈ u.part.due → Table.look u.part.rentals i = some r → r.snap = none →
          r.tier = tierOf s.part.policy.dueSoon s.part.policy.escalation r.due r.grace (c.minute + 1))
        ∧ u.part.auths = s.part.auths ∧ u.part.cen = s.part.cen ∧ u.part.keys = s.part.keys ∧ u.part.due = s.part.due)
    ∧ (c.set = true → c.atLimit = false → 59 ≤ c.second → c.minute + 1 ≠ 16777215 →
      ({ s.part with clock := { c with second := 0, minute := c.minute + 1 } } : Part).zoneEval = s.part.zone →
      ∀ i r, s.part.due = [i] → Table.look s.part.rentals i = some r → r.snap = none →
      let new := tierOf s.part.policy.dueSoon s.part.policy.escalation r.due r.grace (c.minute + 1)
      new ≠ r.tier → ∀ row ∈ [Instr.monotonicSecond, .minuteTick],
      let after : Part := { s.part with
        mono := next, clock := { c with second := 0, minute := c.minute + 1 }
        rentals := Table.put s.part.rentals i { r with tier := new }
        tickRel := s.part.tickRel ++ [c.minute + 1], tickAlt := s.part.tickAlt ++ [c.minute + 1]
        tickCen := s.part.tickCen ++ [c.minute + 1] }
      after.TierTold r new (fun p => s.Becomes (exec row s) p))

/-! ## Rentals -/

/-- The late assessment of a rental closed at T, stage by stage, with the quotient rounded up as R77 gives it: class and
late minutes, the cap, the saturation, the days in use and the flags SATURATED and CLOCK_ANOMALY (R78 to R82). The late
blocks stay below C and both late parts are zero unless the lateness exceeds the grace (R77). The tier of an OPEN rental
follows its five conditions, of which exactly one holds (R96). -/
def Obligations.LateAssessmentAndTiers : Prop :=
  (∀ (r : Rental) (T L C : Nat) (place : Option Nat) (st : KeyState) (late man overflow : Bool), 1 ≤ L → 1 ≤ C →
    let x := r.assess T L C place st late man overflow
    let R := T - r.due
    let M := if r.grace < R then R else 0
    let d0 := M / 1440
    let b0 := (M - 1440 * d0 + L - 1) / L
    let d := if C ≤ b0 then d0 + 1 else d0
    let b := if C ≤ b0 then 0 else b0
    let E := T - r.out
    let U := max 1 ((E - r.grace + 1439) / 1440)
    (x.cls = .early ↔ T < r.due) ∧ (x.cls = .onTime ↔ T = r.due) ∧ (x.cls = .inGrace ↔ 0 < R ∧ R ≤ r.grace)
      ∧ (x.cls = .late ↔ r.grace < R)
      ∧ x.lateMinutes = M
      ∧ x.lateDays = (if 255 < d then 255 else d) ∧ x.lateBlocks = (if 255 < d then 0 else b)
      ∧ x.daysInUse = (if 255 < U then 255 else U)
      ∧ x.flags.saturated = (decide (255 < d) || decide (255 < U)) ∧ x.flags.clockAnomaly = decide (T < r.out)
      ∧ x.flags.quick = decide (r.out ≤ T ∧ T - r.out ≤ 3)
      ∧ x.lateBlocks < C ∧ (R ≤ r.grace → x.lateDays = 0 ∧ x.lateBlocks = 0))
  ∧ ∀ S X D G now : Nat, 1 ≤ X →
    (tierOf S X D G now = .onTime ↔ now + S < D ∨ (S = 0 ∧ now ≤ D))
    ∧ (tierOf S X D G now = .dueSoon ↔ 0 < S ∧ D ≤ now + S ∧ now ≤ D)
    ∧ (tierOf S X D G now = .grace ↔ D < now ∧ now ≤ D + G)
    ∧ (tierOf S X D G now = .overdue ↔ D + G < now ∧ now < D + G + X)
    ∧ (tierOf S X D G now = .escalated ↔ D + G + X ≤ now)

/-- EXTEND of an OPEN rental with fewer than nine extensions: the due minute, the count, the tier and the place in the Due List,
which is in its order after if it was before (R95); the refusals NOT_FOUND, NOT_OPEN and LIMIT. RENTAL_CLOSE_MANUAL of an OPEN
rental: its key goes AWAY with cause MANUAL_CLOSE, its RETURN enters before the response, and its record is free (R76, R100). -/
def Obligations.RentalsAreExtendedAndClosed : Prop :=
  ∀ (s : State) (f : Frame) (rest : List Frame) (tag : Byte) (n : Nat), n < 4294967296 →
    (∀ i r d, s.Asks .extend f rest → f.payload = tag :: (beBytes 4 n ++ beBytes 3 d) → d ≤ 16777215 →
      s.part.rentalByNumber n = some (i, r) → Table.look s.part.rentals i = some r → r.snap = none → r.extensions < 9 →
      r.out ≤ d →
      let tier := tierOf s.part.policy.dueSoon s.part.policy.escalation d r.grace s.part.now
      ∃ u, exec .extend s = .next u
        ∧ Table.look u.part.rentals i = some { r with due := d, extensions := r.extensions + 1, tier := tier }
        ∧ (s.part.DueOrdered → u.part.DueOrdered)
        ∧ i ∈ u.part.due ∧ u.part.due.filter (fun j => j != i) = s.part.due.filter (fun j => j != i)
        ∧ (∀ j, j ≠ i → Table.look u.part.rentals j = Table.look s.part.rentals j)
        ∧ u.part.keys = s.part.keys ∧ u.part.clock = s.part.clock ∧ u.part.auths = s.part.auths
        ∧ (let reply := s.part.replyTo f .ok (beBytes 3 d ++ beBytes 1 (r.extensions + 1) ++ beBytes 1 tier.code)
           u.part.tfl.held = some reply ∨ u.part.link.reports.getLast? = some reply))
    ∧ (∀ d, s.Asks .extend f rest → f.payload = tag :: (beBytes 4 n ++ beBytes 3 d) → d ≤ 16777215 →
      s.part.essRoom = true →
      let refused (x : Result) : Prop := s.Becomes (exec .extend s) ((s.part.asked f rest).queued (s.part.replyTo f x []))
      (s.part.rentalByNumber n = none → refused .notFound)
      ∧ (∀ i r, s.part.rentalByNumber n = some (i, r) → r.snap ≠ none → refused .notOpen)
      ∧ (∀ i r, s.part.rentalByNumber n = some (i, r) → r.snap = none → 9 ≤ r.extensions → refused .limit))
    ∧ (∀ i r k, s.Asks .rentalCloseManual f rest → f.payload = tag :: beBytes 4 n →
      s.part.rentalByNumber n = some (i, r) → r.snap = none → Table.look s.part.keys r.key = some k →
      s.part.link.reports.length < 63 → s.part.link.waiters = [] →
      s.part.alt.find .overdue (.rental r.number) = none → s.part.alt.find .escalated (.rental r.number) = none →
      let p := s.part.asked f rest
      let x := r.assess s.part.now s.part.policy.blockLen s.part.policy.blocksCap none .away false true false
      s.Becomes (exec .rentalCloseManual s) ((({ p with
          keys := Table.put p.keys r.key { k with
            state := .away, loc := none, inSince := none, rental := none, away := some .manualClose }
          rentals := Table.del p.rentals i
          due := p.due.filter (fun j => j != i) } : Part).queued (s.part.returnReport i r x)).queued
        (s.part.replyTo f .ok (beBytes 1 x.cls.code ++ beBytes 1 x.lateDays ++ beBytes 1 x.lateBlocks))))

/-! ## Requests and ticks of the Alert Unit -/

/-- ACK_ALERT: an entry of STRANGER, CENSUS_MISMATCH, QUEUE_LOSS or FOREIGN of a drop position goes, with the flag REMOVED in the
answer and no ALERT_WITHDRAWN; any other becomes ACKED with no next re-alert; no flag is cleared (R112). ENABLE_SET replaces its
three values together and answers those it held (R117). RE_ALERT, the ALT's part of a minute tick, re-alerts exactly the UNACKED
entries whose next re-alert has come at the minute the tick carries: the flag of each kind is set, its next re-alert is one
interval after the tick, and its ALERT with the flag REPEAT is queued where there is room for an essential report; where there is
none it is pending with REPEAT and its place waits; one already pending takes REPEAT beside its flags and offers no second report;
the entry stays in all else (R111, R114, R178, R180). That any logical slot is a subject of FOREIGN, LOCK_JAM and DROP_FULL, one
of the wrong kind being NOT_FOUND (log 34), the layout of ENABLE_SET (log 10), that the ticks wait, oldest first, for RE_ALERT
(log 4), that the entries of one tick are taken oldest first (log 22), that a place freed in the queue is that of the oldest
waiting owner (log 8), and that the detail value bytes of an entry without a value are 0 (log 58) are the model's choice. -/
def Obligations.AlertsAreAcknowledgedAndRepeated : Prop :=
  (∀ (s : State) (f : Frame) (rest : List Frame) (tag : Byte) (k : AlertKind) (sub : Subject) (e : AlertEntry),
    s.Asks .ackAlert f rest → f.payload = tag :: (beBytes 1 k.code ++ sub.bytes) →
    parseSubject k (beNat sub.bytes) = some sub → s.part.essRoom = true →
    let p := s.part.asked f rest
    let goes : Prop := k = .stranger ∨ k = .censusMismatch ∨ k = .queueLoss
      ∨ (k = .foreign ∧ ∃ n, sub = .slot n ∧ (s.part.slotEntry n).kind = .drop)
    (s.part.alt.find k sub = none → s.Becomes (exec .ackAlert s) (p.queued (s.part.replyTo f .notFound [])))
    ∧ (s.part.alt.find k sub = some e → goes → e.pending = none → s.Becomes (exec .ackAlert s)
      (({ p with alt := { p.alt with entries := p.alt.entries.filter (fun x => x.place != e.place) } } : Part).queued
        ⟨.response, f.origin, [tag, 0x28#8, 0#8, BitVec.ofNat 8 (bit (s.part.sequenceReset f) + 2)]⟩))
    ∧ (s.part.alt.find k sub = some e → ¬ goes → s.Becomes (exec .ackAlert s)
      (({ p with alt := { p.alt with entries := p.alt.entries.map (fun x =>
          if x.place = e.place then { x with acked := true, next := none } else x) } } : Part).queued
        (s.part.replyTo f .ok []))))
  ∧ (∀ (s : State) (f : Frame) (rest : List Frame) (tag : Byte) (a b : BitVec 16) (line : Bool),
    s.Asks .enableSet f rest →
    f.payload = tag :: (beBytes 2 a.toNat ++ (beBytes 2 b.toNat ++ beBytes 1 (if line then 1 else 0))) →
    s.part.essRoom = true →
    let p := s.part.asked f rest
    let q : Part := { p with alt := { p.alt with enableStaffed := a, enableUnstaffed := b, lineEnable := line } }
    s.Becomes (exec .enableSet s) (q.queued (s.part.replyTo f .ok (beBytes 2 s.part.alt.enableStaffed.toNat
      ++ beBytes 2 s.part.alt.enableUnstaffed.toNat ++ beBytes 1 (if s.part.alt.lineEnable then 1 else 0)
      ++ beBytes 1 (if q.lineDriven then 1 else 0)))))
  ∧ (∀ (s : State) (m : Nat) (ms : List Nat), s.part.tickAlt = m :: ms → (s.part.alt.entries.map (·.place)).Nodup →
    let link := s.part.link
    let alt := s.part.alt
    let due (e : AlertEntry) : Bool := !e.acked && e.next.any (fun n => decide (n ≤ m))
    let fresh := alt.entries.filter (fun e => due e && e.pending.isNone)
    let room := if link.waiters = [] then 64 - link.reports.length else 0
    let repeated (e : AlertEntry) : Report := ⟨.alert, 255,
      e.head ++ [0#8, 1#8] ++ beBytes 1 (alt.entries.filter (fun e => !e.acked)).length⟩
    let pending (e : AlertEntry) : Option AlertFlags := match e.pending with
      | some g => some { g with again := true }
      | none => if e ∈ fresh.take room then none else some ⟨true, false, false⟩
    ∃ flags, (∀ j, flags.getLsbD j = (alt.flags.getLsbD j || alt.entries.any (fun e => due e && e.kind.code == j)))
      ∧ s.Becomes (exec .reAlert s) { s.part with
        tickAlt := ms
        link := { link with
          reports := link.reports ++ (fresh.take room).map repeated
          waiters := link.waiters ++ ((fresh.drop room).map (fun e => .alertPlace e.place)).filter (fun w =>
            !link.waiters.contains w) }
        alt := { alt with
          flags := flags
          entries := alt.entries.map (fun e => if due e then { e with
            next := if s.part.interval = 0 then none else some (m + s.part.interval), pending := pending e } else e) } })

/-! ## The census -/

/-- CENSUS_START in IDLE, and a scheduled start that is due: cause, scope, start minute and next start. The sweep passes over the
addresses before the first ACTIVE module with STANDARD slots, counts each module among them that has STANDARD slots and is not
ACTIVE as unverified and lists the keys located there UNVERIFIED in ascending slot, and reads that ACTIVE module; where the scope
has none the census ends COMPLETE at once: CENSUS_DONE is offered with the record, its outcome, flags and counts, and
CENSUS_MISMATCH is raised when a key was listed and removed when none was. Not in IDLE the request is BUSY and the scheduled start
is skipped and counted (R120 to R124, R130, R131, R205). The scheduled start goes by the minute of the tick taken, and the ticks
wait for its row, oldest first (log 4); that a start requested while the clock is unset sets the next start to 0 plus the interval
(log 41), that a next start above the largest minute is kept as the sum (log 29), that CENSUS_DONE comes before the ALERT (log
22), and the bytes of CENSUS_DONE that R205 does not give (log 10) are the model's choice. -/
def Obligations.CensusStarts : Prop :=
  let nextStart (p : Part) : Option Nat :=
    if p.policy.censusInterval = 0 then p.cen.nextStart else some (p.now + p.policy.censusInterval)
  let passed (p : Part) (as : List (Chan × Nat)) : Prop :=
    ∀ x ∈ as, p.moduleSlots x.1 x.2 = [] ∨ p.moduleActive x.1 x.2 = false
  let missed (p : Part) (as : List (Chan × Nat)) : List (Chan × Nat) := as.filter (fun x => !(p.moduleSlots x.1 x.2).isEmpty)
  let entries (p : Part) (as : List (Chan × Nat)) : List Mismatch :=
    ((missed p as).flatMap (fun x => p.moduleSlots x.1 x.2)).filterMap (fun n =>
      (p.keyAt n).map (fun e => ⟨.unverified, n, some e.1, none, none, none⟩))
  let counts (p : Part) (as : List (Chan × Nat)) : CenCounts :=
    ⟨0, (missed p as).length, 0, 0, 0, min (entries p as).length 65535, min ((entries p as).length - 64) 65535⟩
  let counted (p : Part) (as : List (Chan × Nat)) (q : Part) : Prop :=
    q.cen.list = (entries p as).take 64 ∧ q.cen.counts = counts p as
  let overRecord (p : Part) (cause : CenCause) (sc : Scope) : Cen :=
    ⟨.idle, some cause, some sc, some p.now, some p.now, none, none, false, some .complete, false, false, false, false,
      counts p (scopeSweep sc), p.cen.skipped, nextStart p, (entries p (scopeSweep sc)).take 64⟩
  let started (s u : State) (cause : CenCause) (sc : Scope) : Prop :=
    u.part.cen.cause = some cause ∧ u.part.cen.scope = some sc ∧ u.part.cen.startMin = some s.part.now
      ∧ u.part.cen.nextStart = nextStart s.part ∧ u.part.cen.skipped = s.part.cen.skipped
      ∧ (∀ pre c a post, scopeSweep sc = pre ++ (c, a) :: post → passed s.part pre → s.part.moduleSlots c a ≠ [] →
        s.part.moduleActive c a = true →
        u.part.cen.state = .sweeping ∧ u.part.cen.pos = some (c, a) ∧ u.part.cen.read = some .notSent
          ∧ counted s.part pre u.part ∧ u.part.cen.outcome = none
          ∧ ((s.part.chan c).queue.length < 12 → BusCmd.readTags a ∈ (u.part.chan c).queue)
          ∧ (12 ≤ (s.part.chan c).queue.length → u.part.cen.deferred = true))
      ∧ (passed s.part (scopeSweep sc) →
        u.part.cen.state = .idle ∧ u.part.cen.outcome = some .complete ∧ u.part.cen.endMin = some s.part.now
          ∧ u.part.cen.pos = none ∧ counted s.part (scopeSweep sc) u.part
          ∧ (u.part.cen.list ≠ [] → u.part.alt.flags.getLsbD 10 = true))
      ∧ u.part.keys = s.part.keys ∧ u.part.rows = s.part.rows ∧ u.part.rentals = s.part.rentals
  (∀ (s : State) (f : Frame) (rest : List Frame) (tag : Byte) (sc : Scope), s.Asks .censusStart f rest →
    f.payload = [tag, match sc with
      | .A => 0#8
      | .B => 1#8
      | .both => 2#8] →
    let r := s.part.replyTo f .ok (beBytes 3 s.part.now)
    (s.part.cen.state = .idle → ∃ u, exec .censusStart s = .next u ∧ started s u (.request f.origin) sc
      ∧ (u.part.tfl.held = some r ∨ u.part.link.reports.getLast? = some r))
    ∧ (s.part.cen.state = .idle → passed s.part (scopeSweep sc) →
      let q := (s.part.asked f rest).censusOver (overRecord s.part (.request f.origin) sc)
      q.essRoom = true → s.Becomes (exec .censusStart s) (q.queued r))
    ∧ (s.part.cen.state ≠ .idle → s.part.essRoom = true →
      s.Becomes (exec .censusStart s) ((s.part.asked f rest).queued (s.part.replyTo f .busy []))))
  ∧ (∀ (s : State) (m : Nat) (ms : List Nat), s.part.tickCen = m :: ms → s.part.policy.censusInterval ≠ 0 →
    let next := some (m + s.part.policy.censusInterval)
    (s.part.cen.nextStart = none → s.Becomes (exec .scheduledCensusStart s)
      { s.part with tickCen := ms, cen := { s.part.cen with nextStart := next } })
    ∧ (∀ t, s.part.cen.nextStart = some t → m < t →
      s.Becomes (exec .scheduledCensusStart s) { s.part with tickCen := ms })
    ∧ (∀ t, s.part.cen.nextStart = some t → t ≤ m → s.part.cen.state ≠ .idle →
      s.Becomes (exec .scheduledCensusStart s) { s.part with
        tickCen := ms
        cen := { s.part.cen with nextStart := next, skipped := satUp s.part.cen.skipped } })
    ∧ (∀ t, s.part.cen.nextStart = some t → t ≤ m → s.part.cen.state = .idle →
      (∃ u, exec .scheduledCensusStart s = .next u ∧ started s u .schedule .both ∧ u.part.tickCen = ms)
      ∧ (passed s.part (scopeSweep .both) → s.Becomes (exec .scheduledCensusStart s)
        (({ s.part with tickCen := ms } : Part).censusOver (overRecord s.part .schedule .both)))))

/-- A channel lost while the census is SWEEPING: the channel being swept gives up its modules from the position on as unverified,
with its flag CHANNEL_LOST, and the sweep goes on with the next channel in scope or ends COMPLETE; one not yet reached is dealt
with as not ACTIVE when it is, with its flag then (log 20); for one already swept the census stays as it is; in ABORTED the read
ends: said of a hang (R123, R132). CENSUS_ABORT: with the read not sent the state becomes IDLE and the READ_TAGS is withdrawn,
with it sent ABORTED; in IDLE or ABORTED it is NOT_ACTIVE. READ_TAGS_ANSWER: in ABORTED the state becomes IDLE and nothing is
compared; in SWEEPING a good answer goes up in modules read and changes no row, one that is not good being the miss of the read
(R124, R132, R147, R167). SEND_READ_TAGS makes the read SENT and puts its frame on the line (R124, R160, R207). At each end, by a
hang, by CENSUS_ABORT, and by the answer or the miss of the last read, CENSUS_DONE is offered with the record as it then stands,
its cause, outcome, flags and counts; CENSUS_MISMATCH is raised when a mismatch was recorded, and removed when a COMPLETE census
recorded none (R131, R205). That CENSUS_ABORT answers channel and address, and the bytes of CENSUS_DONE that R205 does not give
(log 10), and that CENSUS_DONE comes before the ALERT (log 22), are the model's choice. -/
def Obligations.CensusReadsAndAborts : Prop :=
  (∀ (s : State) (c : Chan) (ms : Nat), (s.part.chan c).state = .running → 50 < ms → (s.part.chan c).pulse = none →
    let hangs (f : Cen → Prop) : Prop := ∃ u, exec (.lineHang ⟨c, ms⟩) s = .next u ∧ f u.part.cen
      ∧ (u.part.cen.outcome = some .complete → s.part.cen.outcome = none → s.part.ctxs = [] → s.part.link.reports.length < 48 →
        u.part.link.reports[s.part.link.reports.length]? = some u.part.cen.doneSpelt
          ∧ (0 < u.part.cen.counts.recorded → u.part.alt.flags.getLsbD 10 = true))
    let left (a : Nat) : List Nat :=
      ((List.range 30).map (· + 1)).filter (fun x => decide (a ≤ x) && !(s.part.moduleSlots c x).isEmpty)
    let swept (a : Nat) (n : Cen) : Prop := n.read = none ∧ n.counts.read = s.part.cen.counts.read
      ∧ n.counts.unverified = (left a).foldl (fun k _ => satUp k) s.part.cen.counts.unverified
      ∧ n.lostA = (s.part.cen.lostA || c == .A) ∧ n.lostB = (s.part.cen.lostB || c == .B)
      ∧ n.state = .idle ∧ n.outcome = some .complete ∧ n.endMin = some s.part.now ∧ n.pos = none
    (s.part.cen.state = .sweeping → ∀ sc d a, s.part.cen.scope = some sc → s.part.cen.pos = some (d, a) →
      (d, a) ∈ scopeSweep sc →
      (d = c → (c = .B ∨ sc = .A) → hangs (swept a))
      ∧ (d = c → c = .A → sc = .both → s.part.cen.pendB = false → ∀ b, 1 ≤ b → b ≤ 30 →
        (∀ x, x < b → s.part.moduleSlots .B x = []) → s.part.moduleSlots .B b ≠ [] → s.part.moduleActive .B b = true →
        hangs (fun n => n.state = .sweeping ∧ n.pos = some (.B, b) ∧ n.read = some .notSent ∧ n.lostA = true
          ∧ n.lostB = s.part.cen.lostB
          ∧ n.counts.unverified = (left a).foldl (fun k _ => satUp k) s.part.cen.counts.unverified))
      ∧ (d = .A → c = .B → sc = .both → hangs (fun n => n = { s.part.cen with pendB := true }))
      ∧ (d = .B → c = .A → hangs (fun n => n = s.part.cen)))
    ∧ (s.part.cen.state = .aborted → ∀ a, (s.part.chan c).onLine = some (.queued (.readTags a)) →
      hangs (fun n => n = { s.part.cen with state := .idle, read := none })))
  ∧ (∀ (s : State) (a : Nat) (y : Reply) (vs : List Occ), GoodReply y a → s.part.chanA.onLine = some (.queued (.readTags a)) →
    s.part.cen.state = .sweeping → s.part.cen.pos = some (.A, a) → 1 ≤ a → a ≤ 30 → s.part.cen.scope = some .both →
    s.part.cen.pendB = true → (∀ x, a < x → s.part.moduleSlots .A x = []) →
    ∃ u, exec (.readTagsAnswer .A (some ⟨y, vs⟩)) s = .next u ∧ u.part.cen.state = .idle
      ∧ u.part.cen.outcome = some .complete ∧ u.part.cen.lostB = true
      ∧ u.part.cen.counts.unverified = (((List.range 30).map (· + 1)).filter (fun x =>
        !(s.part.moduleSlots .B x).isEmpty)).foldl (fun k _ => satUp k) s.part.cen.counts.unverified)
  ∧ (∀ (s : State) (c : Chan) (a : Nat) (sc : Scope) (pre post : List (Chan × Nat)),
    (s.part.chan c).onLine = some (.queued (.readTags a)) → (s.part.chan c).held = false → (s.part.chan c).modState a = .active →
    s.part.cen.state = .sweeping → s.part.cen.pos = some (c, a) → s.part.cen.scope = some sc →
    scopeSweep sc = pre ++ (c, a) :: post → (∀ x ∈ post, s.part.moduleSlots x.1 x.2 = []) →
    let ends (row : Instr) (q : Part) : Prop := s.Becomes (exec row s) (q.censusOver { q.cen with
      state := .idle, outcome := some .complete, endMin := some s.part.now, pos := none, read := none, deferred := false
      lostA := q.cen.lostA || (q.cen.pendA && post.any (fun x => x.1 == .A))
      lostB := q.cen.lostB || (q.cen.pendB && post.any (fun x => x.1 == .B)) })
    let answered (misses : Nat → Nat) (g : ModEntry → ModEntry) (n : Cen) : Part :=
      ({ s.part with cen := n } : Part).onChan c (fun ch => { ch with
        onLine := none, misses := misses ch.misses, modules := Table.modify ch.modules a g })
    (∀ y vs, GoodReply y a → ends (.readTagsAnswer c (some ⟨y, vs⟩))
      ((answered id (fun m => { m with misses := 0 }) { s.part.cen with
        counts := { s.part.cen.counts with read := satUp s.part.cen.counts.read } }).cenCompare c a vs))
    ∧ ends (.commandMiss c)
      ((answered satUp (fun m => { m with misses := 1, state := .silent }) s.part.cen).moduleUnverified c a))
  ∧ (∀ (s : State) (f : Frame) (rest : List Frame) (tag : Byte), s.Asks .censusAbort f rest → f.payload = [tag] →
    (s.part.cen.state = .sweeping → ∀ c a, s.part.cen.pos = some (c, a) →
      let reply := s.part.replyTo f .ok (beBytes 1 c.code ++ beBytes 1 a)
      let p := s.part.asked f rest
      let ended (q : Part) (st : CenState) (read : Option ReadOut) : Prop :=
        let e := q.censusOver { s.part.cen with
          state := st, outcome := some .aborted, endMin := some s.part.now, pos := none, read := read, deferred := false }
        e.essRoom = true → s.Becomes (exec .censusAbort s) (e.queued reply)
      (s.part.cen.read = some .notSent →
        ended (p.onChan c (fun ch => { ch with queue := ch.queue.filter (fun b => !b.isReadTags) })) .idle none)
      ∧ (s.part.cen.read = some .sent → ended p .aborted (some .sent))
      ∧ (s.part.cen.read = none → ended p .idle none)
      ∧ ∃ u, exec .censusAbort s = .next u
      ∧ u.part.cen.outcome = some .aborted ∧ u.part.cen.endMin = some s.part.now ∧ u.part.cen.pos = none
      ∧ u.part.cen.list = s.part.cen.list ∧ u.part.cen.counts = s.part.cen.counts ∧ u.part.keys = s.part.keys
      ∧ (s.part.cen.read = some .notSent → u.part.cen.state = .idle ∧ u.part.cen.read = none
        ∧ ∀ b, BusCmd.readTags b ∉ (u.part.chan c).queue)
      ∧ (s.part.cen.read = some .sent → u.part.cen.state = .aborted ∧ u.part.cen.read = some .sent)
      ∧ (u.part.tfl.held = some reply ∨ u.part.link.reports.getLast? = some reply))
    ∧ (s.part.cen.state ≠ .sweeping → s.part.essRoom = true →
      s.Becomes (exec .censusAbort s) ((s.part.asked f rest).queued (s.part.replyTo f .notActive []))))
  ∧ (∀ (s : State) (c : Chan) (a : Nat),
    (s.part.chan c).onLine = some (.queued (.readTags a)) →
    (∀ y vs, GoodReply y a →
      (s.part.cen.state = .aborted → ∃ u, exec (.readTagsAnswer c (some ⟨y, vs⟩)) s = .next u
        ∧ u.part.cen = { s.part.cen with state := .idle, read := none } ∧ (u.part.chan c).onLine = none)
      ∧ (s.part.cen.state = .sweeping → s.part.cen.pos = some (c, a) →
        ∃ u, exec (.readTagsAnswer c (some ⟨y, vs⟩)) s = .next u ∧ (u.part.chan c).onLine = none
          ∧ u.part.rows = s.part.rows ∧ u.part.cen.counts.read = satUp s.part.cen.counts.read
          ∧ u.part.rentals = s.part.rentals))
    ∧ (∀ y vs, ¬ GoodReply y a → exec (.readTagsAnswer c (some ⟨y, vs⟩)) s = exec (.commandMiss c) s)
    ∧ exec (.readTagsAnswer c none) s = exec (.commandMiss c) s
    ∧ ((s.part.chan c).held = false → (s.part.chan c).modState a = .active → s.part.cen.state = .aborted →
      ∃ u, exec (.commandMiss c) s = .next u ∧ u.part.cen = { s.part.cen with state := .idle, read := none }
        ∧ (u.part.chan c).onLine = none ∧ (u.part.chan c).modState a = .silent
        ∧ (u.part.chan c).misses = satUp (s.part.chan c).misses))
  ∧ (∀ (s : State) (c : Chan) (a : Nat), (s.part.chan c).choice s.part.mono = some (.readTags a) →
    s.part.cen.deferred = false →
    s.Becomes (exec (.sendReadTags c) s) ({ s.part with cen := { s.part.cen with read := some .sent } }.onChan c (fun ch =>
      { ch with
        queue := ch.queue.erase (.readTags a), onLine := some (.queued (.readTags a))
        sent := [[BitVec.ofNat 8 a, 0x02#8, crc8 [BitVec.ofNat 8 a, 0x02#8]]] })))

/-- The comparison of one slot: a key found where it is located is consistent, one in OUT stays OUT and is listed; any other key
found there is placed there, its AWAY cause, TAKEN entry or place in the Drop Bin list gone, its authorization kept or its release
ended, and listed RELOCATED with no report of its own; an unknown tag or an unread fob raises FOREIGN and is listed; an EMPTY read
of a located key makes it MISSING with its TAKEN alert; both EMPTY with no key located is consistent; any other difference is
listed with no key changed (R56, R68, R126 to R129). That a MISSING entry gives the key's handle and no tag is the model's choice
(log 46). -/
def Obligations.CensusComparesASlot : Prop :=
  ∀ (p : Part) (n : Nat) (v o : Occ),
    let listed (q : Part) (m : Mismatch) : Prop :=
      q.cen.counts.recorded = satUp p.cen.counts.recorded
        ∧ (p.cen.list.length < 64 → q.cen.list = p.cen.list ++ [m])
        ∧ (64 ≤ p.cen.list.length → q.cen.list = p.cen.list ∧ q.cen.counts.lost = satUp p.cen.counts.lost)
    (∀ t h k, v = .tag t → o = v → p.keyByTag t = some (h, k) →
      (k.loc = some n → p.cenJudge n v o = { p with
        cen := { p.cen with counts := { p.cen.counts with consistent := satUp p.cen.counts.consistent } } })
      ∧ (k.loc ≠ some n → k.state = .out → (p.cenJudge n v o).keys = p.keys ∧ (p.cenJudge n v o).rentals = p.rentals
        ∧ listed (p.cenJudge n v o) ⟨.outKeyPresent, n, some h, some v, none, none⟩)
      ∧ (k.loc ≠ some n → k.state ≠ .out →
        let q := p.cenJudge n v o
        let st : KeyState := if k.home = none ∨ k.home = some n then .inn else .misplaced
        let here (st : KeyState) : KeyRec :=
          { k with state := st, loc := some n, inSince := some p.now, rental := none, away := none }
        listed q ⟨.relocated, n, some h, some v, none, some k.state⟩ ∧ q.rows = p.rows ∧ q.rentals = p.rentals
        ∧ (k.state = .away ∨ k.state = .inn ∨ k.state = .misplaced → q.keys = Table.put p.keys h (here st)
          ∧ q.alt = p.alt ∧ q.link = p.link ∧ q.auths = p.auths ∧ q.dropBin = p.dropBin)
        ∧ (k.state = .assigned → q.keys = Table.put p.keys h (here .assigned) ∧ q.alt = p.alt ∧ q.link = p.link
          ∧ q.auths = p.auths)
        ∧ (k.state = .missing → q.keys = Table.put p.keys h (here st) ∧ q.alt = (p.remove .taken (.key h)).alt
          ∧ q.link = (p.remove .taken (.key h)).link ∧ q.auths = p.auths)
        ∧ (k.state = .dropped → q.keys = Table.put p.keys h (here st)
          ∧ q.dropBin = p.dropBin.filter (fun e => e.key != h) ∧ q.auths = p.auths)
        ∧ (∀ i m c a y, p.Carries i m c a h k → Table.look p.rows m = some y →
          (∀ e ∈ p.ctxs, e.2.key = some h → e.1 = i) → Table.rising p.ctxs = true →
          c.state = .opening ∨ c.state = .opened ∨ c.state = .removedSettling →
          Table.look q.ctxs i = some { c with
              state := .closing, result := some (if y.lock = some .opened then .lockFault else .notTaken)
              lockLimit := some (p.mono + 2000), window := none, lockSent := false }
            ∧ Table.look q.keys h = some (here (if a.target = .key h then .assigned else st))
            ∧ q.auths = p.auths.map (fun z => if z.rental = a.rental then { z with state := .waiting } else z)
            ∧ BusCmd.lockClose (p.slotEntry m).addr (p.slotEntry m).pos (.ctx i) ∈ (q.chan (p.slotEntry m).chan).queue)))
    ∧ (∀ d, v = o → (v = .unread ∧ d = .unreadable ∨ ∃ t, v = .tag t ∧ p.keyByTag t = none ∧ d = .unknownTag t) →
      let q := p.cenJudge n v o
      listed q ⟨.foreign, n, none, some v, none, none⟩ ∧ q.alt = (p.raise .foreign (.slot n) (some d)).alt
        ∧ q.link = (p.raise .foreign (.slot n) (some d)).link ∧ q.keys = p.keys ∧ q.rows = p.rows ∧ q.auths = p.auths)
    ∧ (v = .empty → p.keyAt n = none →
      (o = .empty → p.cenJudge n v o = { p with
        cen := { p.cen with counts := { p.cen.counts with consistent := satUp p.cen.counts.consistent } } })
      ∧ (o ≠ .empty → (p.cenJudge n v o).keys = p.keys ∧ (p.cenJudge n v o).alt = p.alt ∧ (p.cenJudge n v o).auths = p.auths
        ∧ listed (p.cenJudge n v o) ⟨.readDiffers, n, none, some v, some o, none⟩))
    ∧ (∀ h k, v = .empty → p.keyAt n = some (h, k) →
      (p.cenJudge n v o).keys = Table.put p.keys h { k with
          state := .missing, loc := none, inSince := none, rental := none, away := none }
        ∧ (p.cenJudge n v o).alt.flags.getLsbD 2 = true ∧ (p.cenJudge n v o).rows = p.rows
        ∧ listed (p.cenJudge n v o) ⟨.missing, n, some h, some v, none, some k.state⟩)
    ∧ (v ≠ .empty → v ≠ o → (p.cenJudge n v o).keys = p.keys ∧ (p.cenJudge n v o).alt = p.alt
      ∧ (p.cenJudge n v o).auths = p.auths
      ∧ listed (p.cenJudge n v o) ⟨.readDiffers, n, none, some v, some o, none⟩)

/-! ## The lamps -/

/-- The lamp of a position: the lamp test, the override, for a drop position the level of the Drop Bin list, for a STANDARD
one blanking and then conditions 4 to 11 in their order, OFF where no slot stands. The tier of condition 9 is that of the OPEN
rental of the key in OUT whose home is the slot (R136, R137). That the override stands
above blanking, as R141 and R143 say, is the model's choice between them and the table of R136 (log 40). -/
def Obligations.LampOfAPosition : Prop :=
  ∀ (p : Part) (c : Chan) (a pos : Nat),
    (∀ n,
      let homed (e : Nat × KeyRec) : Prop := e ∈ p.keys ∧ e.2.state = .out ∧ e.2.home = some n
      ((∀ e, ¬ homed e) → p.homeTier n = none)
      ∧ (∀ e i r, homed e → (∀ x, homed x → x = e) → e.2.rental = some i → Table.look p.rentals i = some r → r.snap = none →
        p.homeTier n = some r.tier))
    ∧ (∀ col t, p.lmp.test = some (col, t) → p.lampOf c a pos = .lit col .steady)
    ∧ (p.lmp.test = none → ∀ ls, Table.look p.lmp.overrides (lampKey c a) = some ls →
      p.lampOf c a pos = (ls[pos]?).getD .off)
    ∧ (p.lmp.test = none → Table.look p.lmp.overrides (lampKey c a) = none →
      (p.slotAt c a pos = none → p.lampOf c a pos = .off)
      ∧ (∀ n, p.slotAt c a pos = some n → (p.slotEntry n).kind = .drop →
        p.lampOf c a pos = if 96 ≤ p.dropBin.length then .lit .red .steady else .lit .green .steady)
      ∧ (∀ n, p.slotAt c a pos = some n → (p.slotEntry n).kind ≠ .drop →
        ((p.lmp.blank = true ∨ (p.policy.blankUnstaffed = true ∧ p.zone = .unstaffed)) → p.lampOf c a pos = .off)
        ∧ (p.lmp.blank = false → (p.policy.blankUnstaffed = false ∨ p.zone = .staffed) →
          ∀ row, Table.look p.rows n = some row →
          let c4 : Prop := ∃ i x, row.ctx = some i ∧ Table.look p.ctxs i = some x
            ∧ (x.state = .opening ∨ x.state = .opened ∨ x.state = .removedSettling)
          let c5 : Prop := row.lock = some .jammed
          let c6 : Prop := row.occ = some .unread ∨ ∃ t, row.occ = some (.tag t) ∧ p.keyByTag t = none
          let here (f : KeyRec → Prop) : Prop :=
            ∃ t h k, row.occ = some (.tag t) ∧ p.keyByTag t = some (h, k) ∧ k.loc = some n ∧ f k
          let c7 : Prop := here (fun k => k.state = .misplaced)
          let c8 : Prop := row.guide ≠ none
          let c9 (tier : Tier) : Prop := p.homeTier n = some tier
          let c10 : Prop := here (fun k => k.hold ≠ none)
          (c4 → p.lampOf c a pos = .lit .green .fast)
          ∧ (¬ c4 → c5 → p.lampOf c a pos = .lit .red .steady)
          ∧ (¬ c4 → ¬ c5 → c6 → p.lampOf c a pos = .lit .red .fast)
          ∧ (¬ c4 → ¬ c5 → ¬ c6 → c7 → p.lampOf c a pos = .lit .amber .fast)
          ∧ (¬ c4 → ¬ c5 → ¬ c6 → ¬ c7 → c8 → p.lampOf c a pos = .lit .green .steady)
          ∧ (¬ c4 → ¬ c5 → ¬ c6 → ¬ c7 → ¬ c8 →
            (c9 .escalated → p.lampOf c a pos = .lit .amber .slow)
            ∧ (c9 .overdue → p.lampOf c a pos = .lit .amber .steady)
            ∧ (¬ c9 .escalated → ¬ c9 .overdue → c10 → p.lampOf c a pos = .lit .red .slow)
            ∧ (¬ c9 .escalated → ¬ c9 .overdue → ¬ c10 → p.lampOf c a pos = .off)))))

/-- LAMP_CONTROL writes the blank flag or starts the test in phase RED, LAMP_RELEASE clears one override, each answered OK;
LAMP_TEST_PHASE_EXPIRY goes to the next phase or ends the test; SEND_LAMP takes its command out of the queue, where the commands
of modules marked behind may then enter at the tail, and makes the image the eight states sent, and a good LAMP_ANSWER leaves it
so and counts as a good answer (R139, R142, R144, R145, R146, R147, R156, R159, R160). The lamps of the modules that a step has
touched are worked out afresh at its end, and no others: so of all modules at the lamp test, at a change of the blank flag,
whatever the zone, and of the zone's blanking by POLICY_SET, whatever the flag; and of the one module at a KEY_HOLD, a TABLE_WRITE
that changes the group of a slot, a GUIDE_EXPIRY, a removal that settles, a missed LAMP command, a LAMP_RELEASE and a POLL answer
that finds the module (R138 to R140). The layout of LAMP_CONTROL's fields (log 10), and that the lamps of a module are worked out
once, at the end of the step, and of several modules in ascending number (log 9), are the model's choice. -/
def Obligations.LampCommandsAct : Prop :=
  (∀ (s : State) (f : Frame) (rest : List Frame) (tag : Byte), s.part.essRoom = true →
    let p := s.part.asked f rest
    let zoneBlanks : Bool := s.part.policy.blankUnstaffed && s.part.zone == .unstaffed
    let control (row : Instr) (q : Part) : Prop := s.Becomes (exec row s) (q.queued (s.part.replyTo f .ok ([
        if q.lmp.blank then 1#8 else 0#8,
        if q.lmp.blank || zoneBlanks then 1#8 else 0#8,
        (if q.lmp.blank then 1#8 else 0#8) + (if zoneBlanks then 2#8 else 0#8)]
      ++ (match q.lmp.test with
        | none => [0#8, 0xFF#8]
        | some (.red, _) => [1#8, 0#8]
        | some (.amber, _) => [1#8, 1#8]
        | some (.green, _) => [1#8, 2#8])
      ++ beBytes 1 q.lmp.overrides.length)))
    (s.Asks .lampControlBlankOn f rest → f.payload = [tag, 0#8] →
      control .lampControlBlankOn { p with lmp := { p.lmp with blank := true } })
    ∧ (s.Asks .lampControlBlankOff f rest → f.payload = [tag, 1#8] →
      control .lampControlBlankOff { p with lmp := { p.lmp with blank := false } })
    ∧ (s.Asks .lampControlTest f rest → f.payload = [tag, 2#8] →
      control .lampControlTest { p with lmp := { p.lmp with test := some (.red, s.part.mono + 4000) } })
    ∧ (∀ c a, s.Asks .lampRelease f rest → f.payload = tag :: (beBytes 1 c.code ++ beBytes 1 a) → 1 ≤ a → a ≤ 30 →
      s.Becomes (exec .lampRelease s)
        (({ p with lmp := { p.lmp with overrides := p.lmp.overrides.filter (fun e => e.1 != lampKey c a) } } : Part).queued
          (s.part.replyTo f .ok (beBytes 1 (if (Table.look p.lmp.overrides (lampKey c a)).isSome then 1 else 0))))))
  ∧ (∀ (s : State) (col : Colour) (t : Nat), s.part.lmp.test = some (col, t) → t ≤ s.part.mono →
    s.Becomes (exec .lampTestPhaseExpiry s) { s.part with
      lmp := { s.part.lmp with
        test := match col with
          | .red => some (.amber, s.part.mono + 4000)
          | .amber => some (.green, s.part.mono + 4000)
          | .green => none } })
  ∧ (∀ (s : State) (c : Chan) (a : Nat) (ls : List Lamp),
    ((s.part.chan c).choice s.part.mono = some (.lamp a ls) → s.part.cen.deferred = false →
      s.Becomes (exec (.sendLamp c) s)
        ({ s.part with lmp := { s.part.lmp with images := Table.put s.part.lmp.images (lampKey c a) ls } }.onChan c (fun ch =>
          let body := [BitVec.ofNat 8 a, 0x20#8] ++ ls.map Lamp.byte
          { ch with onLine := some (.queued (.lamp a ls)), sent := [body ++ [crc8 body]] }))
      ∧ (s.part.lmp.touched = [] →
        (∃ u more, exec (.sendLamp c) s = .next u
          ∧ (u.part.chan c).queue = (s.part.chan c).queue.erase (.lamp a ls) ++ more
          ∧ (∀ x ∈ more, ∃ d, lampKey c d ∈ s.part.lmp.behind ∧ x = .lamp d (s.part.eightLamps c d))
          ∧ ∀ d, d ≠ c → (u.part.chan d).queue = (s.part.chan d).queue)
        ∧ ((∀ d, 1 ≤ d → d ≤ 30 → lampKey c d ∉ s.part.lmp.behind) → ∃ u, exec (.sendLamp c) s = .next u
          ∧ u.part.lmp.behind = s.part.lmp.behind
          ∧ (u.part.chan c).queue = (s.part.chan c).queue.erase (.lamp a ls))))
    ∧ (∀ y, (s.part.chan c).onLine = some (.queued (.lamp a ls)) → (s.part.chan c).modState a = .active → GoodReply y a →
      s.Becomes (exec (.lampAnswer ⟨c, y⟩) s) (s.part.onChan c (fun ch => { ch with
        onLine := none, modules := Table.modify ch.modules a (fun m => { m with misses := 0 }) }))))
  ∧ (∀ (p : Part) (c : Chan) (a : Nat), 1 ≤ a → a ≤ 30 →
    ((∀ k, k ∈ p.lmp.touched ↔ k = lampKey c a) → p.Relit p.lampRun c a)
    ∧ (lampKey c a ∈ p.lmp.touched → ((p.chan c).queue.filter (BusCmd.isLamp a)).length ≤ 1 → p.lampRun.Lit c a)
    ∧ (lampKey c a ∉ p.lmp.touched →
      (p.lampRun.chan c).queue.filter (BusCmd.isLamp a) = (p.chan c).queue.filter (BusCmd.isLamp a)
        ∧ (lampKey c a ∈ p.lampRun.lmp.behind ↔ lampKey c a ∈ p.lmp.behind)))
  ∧ (∀ (s : State) (f : Frame) (rest : List Frame) (tag : Byte), s.part.essRoom = true → s.part.lmp.touched = [] →
    let p := s.part.asked f rest
    let allLit (row : Instr) : Prop := ∃ u, exec row s = .next u ∧ ∀ c a, 1 ≤ a → a ≤ 30 →
      ((s.part.chan c).queue.filter (BusCmd.isLamp a)).length ≤ 1 → u.part.Lit c a
    (s.Asks .lampControlTest f rest → f.payload = [tag, 2#8] → allLit .lampControlTest)
    ∧ (s.Asks .lampControlBlankOn f rest → f.payload = [tag, 0#8] → s.part.lmp.blank = false → allLit .lampControlBlankOn)
    ∧ (s.Asks .lampControlBlankOff f rest → f.payload = [tag, 1#8] → s.part.lmp.blank = true → allLit .lampControlBlankOff)
    ∧ (∀ on : Bool, s.Asks .policySet f rest → f.payload = [tag, 11#8, if on then 1#8 else 0#8] →
      s.part.policy.blankUnstaffed = !on → s.part.zone = .unstaffed → allLit .policySet)
    ∧ (∀ (i g : Nat) (e : SlotEntry), s.Asks .tableWrite f rest → 1 ≤ i → i ≤ 480 → Table.look s.part.slotMap i = some e →
      Table.rising s.part.slotMap = true → slotMapOk s.part.slotMap = true → e.kind = .standard → 1 ≤ e.addr → e.addr ≤ 30 →
      e.pos ≤ 7 → g ≤ 15 → g ≠ e.group →
      f.payload = tag :: (beBytes 1 0 ++ (beBytes 2 i ++ (beBytes 1 1 ++ ({ e with group := g } : SlotEntry).bytes))) →
      s.Relights (exec .tableWrite s)
        (({ p with slotMap := Table.put p.slotMap i { e with group := g } } : Part).queued
          (s.part.replyTo f .ok (beBytes 1 0 ++ beBytes 2 i ++ [1#8]))) e.chan e.addr)
    ∧ (∀ (c : Chan) (a : Nat) (ls : List Lamp), s.Asks .lampRelease f rest →
      f.payload = tag :: (beBytes 1 c.code ++ beBytes 1 a) → 1 ≤ a → a ≤ 30 →
      Table.look s.part.lmp.overrides (lampKey c a) = some ls →
      s.Relights (exec .lampRelease s)
        (({ p with lmp := { p.lmp with overrides := p.lmp.overrides.filter (fun e => e.1 != lampKey c a) } } : Part).queued
          (s.part.replyTo f .ok (beBytes 1 1))) c a)
    ∧ (∀ (t h n : Nat) (k : KeyRec), s.Asks .keyHold f rest → f.payload = tag :: (beBytes 4 t ++ [2#8]) → t < 4294967296 →
      s.part.keyByTag t = some (h, k) → Table.look s.part.keys h = some k → k.loc = some n → k.home = none ∨ k.home = some n →
      1 ≤ (s.part.slotEntry n).addr → (s.part.slotEntry n).addr ≤ 30 →
      s.Relights (exec .keyHold s)
        (({ p with keys := Table.put p.keys h { k with hold := some .office } } : Part).queued
          (s.part.replyTo f .ok [match k.hold with
            | some .damage => 0#8
            | some .service => 1#8
            | some .office => 2#8
            | none => 255#8]))
        (s.part.slotEntry n).chan (s.part.slotEntry n).addr))
  ∧ (∀ (s : State) (n : Nat) (r : SlotRow), s.part.lmp.touched = [] → Table.look s.part.rows n = some r →
    1 ≤ (s.part.slotEntry n).addr → (s.part.slotEntry n).addr ≤ 30 →
    let relit (row : Instr) (f : SlotRow → SlotRow) : Prop :=
      s.Relights (exec row s) { s.part with rows := Table.modify s.part.rows n f }
        (s.part.slotEntry n).chan (s.part.slotEntry n).addr
    (∀ e, r.guide = some e → e ≤ s.part.mono → relit (.guideExpiry n) (fun r => { r with guide := none }))
    ∧ (∀ st t h k, r.settle = some st → st.expiry ≤ s.part.mono → st.cand = .empty → r.occ = some (.tag t) → r.ctx = none →
      s.part.keyByTag t = some (h, k) → k.loc ≠ some n →
      relit (.settleExpiry n) (fun r => { r with occ := some .empty, settle := none })))
  ∧ (∀ (s : State) (c : Chan) (a : Nat) (m : ModEntry), s.part.lmp.touched = [] → 1 ≤ a → a ≤ 30 →
    (s.part.chan c).held = false → Table.look (s.part.chan c).modules a = some m →
    (∀ ls, (s.part.chan c).onLine = some (.queued (.lamp a ls)) →
      let missed (g : ModEntry → ModEntry) : Prop := s.Relights (exec (.commandMiss c) s)
        (({ s.part with lmp := { s.part.lmp with images := Table.del s.part.lmp.images (lampKey c a) } } : Part).onChan c
          (fun ch => { ch with onLine := none, misses := satUp ch.misses, modules := Table.modify ch.modules a g })) c a
      (m.state = .active → missed (fun m => { m with misses := 1, state := .silent }))
      ∧ (m.state = .silent → m.misses < 6 → missed (fun m => { m with misses := m.misses + 1 })))
    ∧ (∀ ack y rs, (s.part.chan c).onLine = some (.poll a ack) → GoodReply y a → (s.part.chan c).state = .running →
      m.state = .absent ∨ m.state = .down → (∀ x, s.part.slotAt c a x = none) →
      s.part.alt.find .moduleDown (.module c a) = none → s.part.link.reports.length < 48 →
      s.Relights (exec (.pollAnswer c ⟨y, rs⟩) s)
        ((s.part.onChan c (fun ch => { ch with
          onLine := none
          modules := Table.modify ch.modules a (fun m => { m with
            state := .active, misses := 0, reprobe := none, ack := true }) })).queued
          ⟨.moduleEvent, 255, beBytes 1 c.code ++ beBytes 1 a ++ [1#8]⟩) c a))

/-! ## The slot bus -/

/-- CHANNEL_CONTROL ON from OFF or FAULTED enters STARTING with a reset pulse, from another state the channel stays as it is; in
each the CHANNEL_FAULT entry of the channel is removed (R105, R169; the table of R151 has no effect there, log 49). OFF makes
the channel OFF and its rows UNKNOWN, guides kept; REENUMERATE starts an identification pass on a RUNNING channel (R151,
R152, R154, R170). That the pulse of OFF is kept in the state is the model's choice (log 14). -/
def Obligations.ChannelControlActs : Prop :=
  ∀ (s : State) (f : Frame) (rest : List Frame) (tag : Byte) (c : Chan), s.part.essRoom = true →
    let p := s.part.asked f rest
    let ch := s.part.chan c
    let ok (before after : Nat) : Report := s.part.replyTo f .ok (beBytes 1 before ++ beBytes 1 after)
    (s.Asks .channelControlOn f rest → f.payload = tag :: (beBytes 1 c.code ++ [0#8]) →
      let q := p.remove .channelFault (.chan c)
      q.essRoom = true →
      (ch.state = .off ∨ ch.state = .faulted →
        s.Becomes (exec .channelControlOn s) ((q.onChan c (fun ch => { ch with
          state := .starting .pulse, history := [], modules := ch.freshModules, muted := 0, nextIdent := none
          queue := [], onLine := none, passOn := false, kept := [], pulse := some (s.part.mono + 20) })).queued
          (ok ch.state.code 1)))
      ∧ (ch.state ≠ .off → ch.state ≠ .faulted →
        s.Becomes (exec .channelControlOn s) (q.queued (ok ch.state.code ch.state.code))))
    ∧ (s.Asks .channelControlOff f rest → f.payload = tag :: (beBytes 1 c.code ++ [1#8]) →
      (ch.state = .off ∨ ch.state = .faulted → s.Becomes (exec .channelControlOff s)
        ((p.onChan c (fun ch => { ch with state := .off })).queued (ok ch.state.code 0)))
      ∧ (ch.state ≠ .off → ch.state ≠ .faulted → ∃ u, exec .channelControlOff s = .next u
        ∧ (u.part.chan c).state = .off ∧ (u.part.chan c).queue = [] ∧ (u.part.chan c).onLine = none
        ∧ (u.part.chan c).modules = ch.freshModules ∧ (u.part.chan c).pulse = some (s.part.mono + 20)
        ∧ (u.part.chan c).map = ch.map
        ∧ (Table.rising s.part.slotMap = true → ∀ n ∈ s.part.chanSlots c, ∀ r, Table.look s.part.rows n = some r →
          Table.look u.part.rows n = some { r with occ := none, lock := none, settle := none, ctx := none })
        ∧ (∀ k ∈ chanModules c, Table.look u.part.lmp.images k = none ∧ Table.look u.part.lmp.overrides k = none)
        ∧ u.part.rentals = s.part.rentals ∧ u.part.clock = s.part.clock ∧ u.part.policy = s.part.policy
        ∧ (u.part.tfl.held = some (ok ch.state.code 0) ∨ u.part.link.reports.getLast? = some (ok ch.state.code 0))))
    ∧ (s.Asks .channelControlReenumerate f rest → f.payload = tag :: (beBytes 1 c.code ++ [2#8]) →
      (ch.state = .running → ch.passOn = false → s.Becomes (exec .channelControlReenumerate s)
        ((p.onChan c (fun ch => { ch with passOn := true, rounds := 0 })).queued (ok 2 2)))
      ∧ (ch.state ≠ .running →
        s.Becomes (exec .channelControlReenumerate s) (p.queued (s.part.replyTo f .notRunning []))))

/-- LINE_HANG of a line held dominant for more than 50 ms, of a channel that is RUNNING or STARTING: a recovery is begun and
counted, or with three in the last ten minutes the channel is FAULTED with CHANNEL_FAULT raised; its rows are UNKNOWN. Up to 50
ms the line is held and no more, and so while the part drives a reset pulse and up to 50 ms after its end; while it is held
nothing is sent and no miss is charged. A context bound to a slot of a channel that is lost ends and goes straight to its final
report: said of a hang (R57). RESET_PULSE_END goes from RECOVERING to STARTING, and in STARTING from PULSE to ENUMERATION, with
LOCK_ALL sent (R147, R152, R168, R169, R170, R207). That a row says how long the line has been held, and how that time stands to
a pulse of the part's own (log 38), that the command abandoned counts no miss on the channel (log 15), that a hang in another
state has no effect (log 1), that a time of exactly ten minutes has dropped out (log 21), that STARTING after RECOVERING drives a
pulse of its own (log 14), and that a context in DONE_PENDING loses its slot, where the table of R57 has it stay the same (log
30), are the model's choice. -/
def Obligations.HangsAndPulses : Prop :=
  (∀ (s : State) (c : Chan) (ms : Nat), ms ≤ 50 →
    s.Becomes (exec (.lineHang ⟨c, ms⟩) s) (s.part.onChan c (fun ch => { ch with held := decide (0 < ms) })))
  ∧ (∀ (s : State) (c : Chan), (s.part.chan c).held = true →
    ∀ row ∈ [Instr.sendPoll c, .sendReadTags c, .sendLockOpen c, .sendLockClose c, .sendLamp c, .sendPassedFrame c,
      .commandMiss c], s.Becomes (exec row s) s.part)
  ∧ (∀ (s : State) (c : Chan) (n : Option Nat), (s.part.chan c).held = true →
    s.Becomes (exec (.enumerationRound c n) s) s.part)
  ∧ (∀ (s : State) (c : Chan) (ms t : Nat), (s.part.chan c).pulse = some t → s.part.mono ≤ t + 50 → 0 < ms →
    s.Becomes (exec (.lineHang ⟨c, ms⟩) s) (s.part.onChan c (fun ch => { ch with held := true })))
  ∧ (∀ (s : State) (c : Chan) (ms i n : Nat) (x : Ctx), 50 < ms → (s.part.chan c).pulse = none →
    (s.part.chan c).state = .running → Table.look s.part.ctxs i = some x → i < 4 → x.slot = some n → n ∈ s.part.chanSlots c →
    (∀ e ∈ s.part.ctxs, e.1 ≠ i → ∀ m, e.2.slot = some m → m ∉ s.part.chanSlots c) → (∀ w ∈ s.part.waitQ, w.ended ≠ none) →
    (x.state ≠ .donePending → s.part.link.waiters = [] ∧ s.part.link.reports.length < 64) →
    ∃ u, exec (.lineHang ⟨c, ms⟩) s = .next u ∧ s.part.LostCtx u.part i n x)
  ∧ (∀ (s : State) (c : Chan) (ms : Nat), 50 < ms → (∀ t, (s.part.chan c).pulse = some t → t + 50 < s.part.mono) →
    let ch := s.part.chan c
    let recent := ch.history.filter (fun t => decide (s.part.mono < t + 600000))
    ((ch.state = .off ∨ ch.state = .recovering ∨ ch.state = .faulted) →
      s.Becomes (exec (.lineHang ⟨c, ms⟩) s) (s.part.onChan c (fun ch => { ch with held := true })))
    ∧ (ch.state ≠ .off → ch.state ≠ .recovering → ch.state ≠ .faulted → ∃ u, exec (.lineHang ⟨c, ms⟩) s = .next u
      ∧ (u.part.chan c).held = true ∧ (u.part.chan c).queue = [] ∧ (u.part.chan c).onLine = none ∧ (u.part.chan c).map = ch.map
      ∧ (u.part.chan c).misses = ch.misses
      ∧ (recent.length < 3 → (u.part.chan c).state = .recovering ∧ (u.part.chan c).history = recent ++ [s.part.mono]
        ∧ (u.part.chan c).recoveries = satUp ch.recoveries ∧ (u.part.chan c).pulse = some (s.part.mono + 20))
      ∧ (3 ≤ recent.length → (u.part.chan c).state = .faulted ∧ (u.part.chan c).modules = ch.freshModules
        ∧ (u.part.chan c).nextIdent = none ∧ u.part.alt.flags.getLsbD 8 = true)
      ∧ (Table.rising s.part.slotMap = true → ∀ n ∈ s.part.chanSlots c, ∀ r, Table.look s.part.rows n = some r →
        Table.look u.part.rows n = some { r with occ := none, lock := none, settle := none, ctx := none })
      ∧ u.part.rentals = s.part.rentals))
  ∧ (∀ (s : State) (c : Chan) (t : Nat), (s.part.chan c).pulse = some t → t ≤ s.part.mono →
    ((s.part.chan c).state = .recovering → s.Becomes (exec (.resetPulseEnd c) s) (s.part.onChan c (fun ch => { ch with
      state := .starting .pulse, modules := ch.freshModules, muted := 0, nextIdent := none
      queue := [], onLine := none, passOn := false, kept := [], pulse := some (s.part.mono + 20) })))
    ∧ ((s.part.chan c).state = .starting .pulse →
      ((s.part.chan c).held = true → s.Becomes (exec (.resetPulseEnd c) s) s.part)
      ∧ ((s.part.chan c).held = false → s.Becomes (exec (.resetPulseEnd c) s) (s.part.onChan c (fun ch => { ch with
        pulse := none, state := .starting .enumeration, rounds := 0
        sent := [[31#8, 0x12#8, crc8 [31#8, 0x12#8]]] })))))

/-- ENUMERATION_ROUND in STARTING, and in an identification pass of a RUNNING channel, the line free: IDENTIFY is sent; a serial
of the Module Map is assigned its address, another is muted with an ASSIGN to address 0 and counted with STRANGER raised; a round
with no answer and the 64th round end the rounds, the latter once its ASSIGN to a mapped address is answered or missed. In
STARTING the modules still ABSENT are then lost, with MODULE_DOWN and MODULE_EVENT, a re-probe time and the next identification,
and the first poll follows, or RUNNING at once when no module is ACTIVE. A pass is due at its time or once begun, waits for lock
commands, starts its count at 0, and at its end sets the next identification, or none with no module ABSENT or DOWN. A good
ASSIGN_ANSWER makes an ABSENT or DOWN module ACTIVE, its Lamp Image unknown; any other is the miss, which is counted. A row that
is UNKNOWN is sighted at the answer of an ASSIGN on a RUNNING channel, and at the last answer of the first poll, as the channel
enters RUNNING (R140, R147, R148, R152, R153, R154, R157, R158, R160, R161, R164, R207). That the muted count stops at 64 (log
31), and the order of the reports of a loss and of several losses (log 22), are the model's choice. -/
def Obligations.EnumerationAddressesModules : Prop :=
  let framed (body : List Byte) : List Byte := body ++ [crc8 body]
  let assign (n a : Nat) : List Byte := framed ([0#8, 0x31#8] ++ beBytes 4 n ++ [BitVec.ofNat 8 a])
  (∀ (s : State) (c : Chan), (s.part.chan c).state = .starting .enumeration → (s.part.chan c).onLine = none →
    (s.part.chan c).held = false →
    (∀ n i e, (s.part.chan c).map.find? (fun x => x.2.serial == n) = some (i, e) →
      s.Becomes (exec (.enumerationRound c (some n)) s) (s.part.onChan c (fun ch => { ch with
        rounds := ch.rounds + 1, onLine := some (.assign n e.addr)
        sent := [framed [0#8, 0x30#8], assign n e.addr]
        modules := Table.modify ch.modules e.addr (fun m => { m with ack := false }) })))
    ∧ (∀ n, (s.part.chan c).map.find? (fun x => x.2.serial == n) = none → (s.part.chan c).rounds < 63 →
      ∃ u, exec (.enumerationRound c (some n)) s = .next u
        ∧ (u.part.chan c).unlit = { (s.part.chan c).unlit with
            rounds := (s.part.chan c).rounds + 1, muted := min 64 ((s.part.chan c).muted + 1)
            strangers := satUp (s.part.chan c).strangers
            sent := [framed [0#8, 0x30#8], assign n 0] }
        ∧ u.part.alt.flags.getLsbD 7 = true ∧ u.part.rows = s.part.rows ∧ u.part.keys = s.part.keys)
    ∧ ((∀ e ∈ (s.part.chan c).modules, e.2.state = .active) →
      (∃ a, 1 ≤ a ∧ a ≤ 30 ∧ (s.part.chan c).modState a = .active) →
      s.Becomes (exec (.enumerationRound c none) s) (s.part.onChan c (fun ch => { ch with
        state := .starting .firstPoll, lastPolled := 0, kept := [], sent := [framed [0#8, 0x30#8]] })))
    ∧ (s.part.StartsAlone c → s.Becomes (exec (.enumerationRound c none) s)
      ((s.part.onChan c (fun ch => { ch with sent := [framed [0#8, 0x30#8]] })).enumerated c))
    ∧ (∀ n, (s.part.chan c).map.find? (fun x => x.2.serial == n) = none →
      let q := s.part.muted c n [framed [0#8, 0x30#8], assign n 0] ((s.part.chan c).rounds + 1)
      ((s.part.chan c).rounds < 63 → s.Becomes (exec (.enumerationRound c (some n)) s) q)
      ∧ (63 ≤ (s.part.chan c).rounds → s.part.StartsAlone c →
        s.Becomes (exec (.enumerationRound c (some n)) s) (q.enumerated c))))
  ∧ (∀ (s : State) (c : Chan), (s.part.chan c).state = .running →
    let ch := s.part.chan c
    let due : Prop := ch.passOn = true ∨ ∃ t, ch.nextIdent = some t ∧ t ≤ s.part.mono
    let turn : Prop := ch.onLine = none ∧ ch.held = false ∧ due ∧ ∀ b ∈ ch.queue, b.isLock = false
    let rounds := if ch.passOn then ch.rounds else 0
    (¬ turn → ∀ n, s.Becomes (exec (.enumerationRound c n) s) s.part)
    ∧ (turn → s.Becomes (exec (.enumerationRound c none) s) ((s.part.onChan c (fun ch => { ch with
        rounds := rounds, sent := [framed [0#8, 0x30#8]] })).identified c))
    ∧ (∀ n, turn →
      (∀ i e, ch.map.find? (fun x => x.2.serial == n) = some (i, e) →
        s.Becomes (exec (.enumerationRound c (some n)) s) (s.part.onChan c (fun ch => { ch with
          passOn := true, rounds := rounds + 1, onLine := some (.assign n e.addr)
          sent := [framed [0#8, 0x30#8], assign n e.addr]
          modules := Table.modify ch.modules e.addr (fun m => { m with ack := false }) })))
      ∧ (ch.map.find? (fun x => x.2.serial == n) = none →
        let q := ((s.part.onChan c (fun ch => { ch with passOn := true })).muted c n [framed [0#8, 0x30#8], assign n 0]
          (rounds + 1))
        (rounds < 63 → s.Becomes (exec (.enumerationRound c (some n)) s) q)
        ∧ (63 ≤ rounds → s.Becomes (exec (.enumerationRound c (some n)) s) (q.identified c)))))
  ∧ (∀ (s : State) (c : Chan) (n a : Nat), (s.part.chan c).onLine = some (.assign n a) →
    (∀ y rs, ¬ GoodReply y a → exec (.assignAnswer c ⟨y, rs⟩) s = exec (.commandMiss c) s)
    ∧ ((s.part.chan c).held = false → (s.part.chan c).rounds < 64 →
      s.Becomes (exec (.commandMiss c) s) (s.part.onChan c (fun ch => { ch with
        onLine := none, misses := satUp ch.misses })))
    ∧ ((s.part.chan c).held = false → 64 ≤ (s.part.chan c).rounds →
      let q := s.part.onChan c (fun ch => { ch with onLine := none, misses := satUp ch.misses })
      ((s.part.chan c).state = .starting .enumeration → s.part.StartsAlone c →
        s.Becomes (exec (.commandMiss c) s) (q.enumerated c))
      ∧ ((s.part.chan c).state = .running → s.Becomes (exec (.commandMiss c) s) (q.identified c))))
  ∧ (∀ (s : State) (c : Chan) (n a : Nat) (y : Reply) (rs : List PosReport), GoodReply y a →
    (s.part.chan c).onLine = some (.assign n a) → (s.part.chan c).state = .starting .enumeration →
    64 ≤ (s.part.chan c).rounds → (s.part.chan c).modState a = .absent ∨ (s.part.chan c).modState a = .down →
    let found : Part := ((({ s.part with lmp := { s.part.lmp with
        images := Table.del s.part.lmp.images (lampKey c a) } } : Part).onChan c (fun ch => { ch with
        onLine := none, modules := Table.modify ch.modules a (fun m => { m with state := .active, misses := 0, reprobe := none })
        })).remove .moduleDown (.module c a)).offerOrd ⟨.moduleEvent, 255, beBytes 1 c.code ++ beBytes 1 a ++ [1#8]⟩
    found.StartsAlone c → s.Becomes (exec (.assignAnswer c ⟨y, rs⟩) s) (found.enumerated c))
  ∧ (∀ (s : State) (c : Chan) (n a : Nat) (m : ModEntry) (y : Reply) (rs : List PosReport), GoodReply y a →
    (s.part.chan c).onLine = some (.assign n a) → (s.part.chan c).state = .starting .enumeration →
    (s.part.chan c).rounds < 64 → Table.look (s.part.chan c).modules a = some m → m.state = .absent ∨ m.state = .down →
    ∃ u, exec (.assignAnswer c ⟨y, rs⟩) s = .next u
      ∧ (u.part.chan c).onLine = none ∧ (u.part.chan c).state = .starting .enumeration
      ∧ Table.look (u.part.chan c).modules a = some { m with state := .active, misses := 0, reprobe := none }
      ∧ Table.look u.part.lmp.images (lampKey c a) = none
      ∧ (s.part.alt.find .moduleDown (.module c a) = none → s.part.link.reports.length < 48 →
        u.part.link.reports = s.part.link.reports ++ [⟨.moduleEvent, 255, beBytes 1 c.code ++ beBytes 1 a ++ [1#8]⟩])
      ∧ u.part.rows = s.part.rows ∧ u.part.keys = s.part.keys)
  ∧ (∀ (s : State) (c : Chan) (a pos n g : Nat) (y : Reply) (rs : List PosReport) (v : Occ) (row : Instr), GoodReply y a →
    rs[pos]? = some ⟨v, .locked, none⟩ → s.part.slotAt c a pos = some n → (∀ x, x ≠ pos → s.part.slotAt c a x = none) →
    s.part.slotEntry n = ⟨c, a, pos, .standard, g⟩ → Table.look s.part.rows n = some ⟨none, none, none, none, none⟩ →
    let sights (q : Part) : Prop :=
      (v = .empty → s.part.keyAt n = none → s.Becomes (exec row s) ((q.remove .lockJam (.slot n)).remove .foreign (.slot n)))
      ∧ (∀ t h k, v = .tag t → s.part.keyByTag t = some (h, k) → s.part.keyAt n = some (h, k) → k.tag = t → k.loc = some n →
        k.state = .inn ∨ k.state = .misplaced ∨ k.state = .assigned → s.Becomes (exec row s) (q.remove .lockJam (.slot n)))
    let seen : Part := { s.part with
      rows := Table.modify s.part.rows n (fun r => { r with lock := some .locked, occ := some v }) }
    (∀ num, row = .assignAnswer c ⟨y, rs⟩ → (s.part.chan c).onLine = some (.assign num a) → (s.part.chan c).state = .running →
      (s.part.chan c).modState a = .absent ∨ (s.part.chan c).modState a = .down →
      s.part.alt.find .moduleDown (.module c a) = none → s.part.link.reports.length < 48 →
      let found := ({ seen with lmp := { seen.lmp with images := Table.del seen.lmp.images (lampKey c a) } }.onChan c (fun ch =>
        { ch with
          onLine := none
          modules := Table.modify ch.modules a (fun m => { m with state := .active, misses := 0, reprobe := none }) })).queued
        ⟨.moduleEvent, 255, beBytes 1 c.code ++ beBytes 1 a ++ [1#8]⟩
      ((s.part.chan c).rounds < 64 → sights found) ∧ (64 ≤ (s.part.chan c).rounds → sights (found.identified c)))
    ∧ (∀ ack, row = .pollAnswer c ⟨y, rs⟩ → (s.part.chan c).onLine = some (.poll a ack) →
      (s.part.chan c).state = .starting .firstPoll → (s.part.chan c).modState a = .active → (s.part.chan c).kept = [] →
      (∀ x, (s.part.chan c).lastPolled < x → x ≤ 30 → (s.part.chan c).modState x ≠ .active) →
      sights (seen.onChan c (fun ch => { ch with
        state := .running, onLine := none, lastPolled := 0
        modules := Table.modify ch.modules a (fun m => { m with misses := 0, ack := true }) }))))

/-- SEND_POLL puts the POLL of the turn, which the statement of the arbiter spells, on the line with the module's acknowledge; a
re-probe leaves the turn of the round robin and is due again 10 seconds later. A good POLL_ANSWER of a module, ACTIVE or SILENT
and ACTIVE by it, with one position in the Slot Map. A STANDARD one, LOCKED as before: the settle of its row starts, goes on, is
cancelled as a bounce or restarts, and a context is told of a start toward EMPTY and of its cancellation; an UNKNOWN row is
sighted, also by the answer of a re-probe, which makes the module ACTIVE; a changed lock without a context raises or removes
LOCK_JAM, an OPEN one with a LOCK_CLOSE of the channel's own. A drop position: the duplicate filter, the duplicate count, and the
entry of the key into the Drop Bin list. An answer that is not good is the miss. COMMAND_MISS of a POLL is counted on the channel
and charged to the module, which is DOWN at its seventh, the context bound to a slot of it ending (R13, R44, R46, R47, R57, R70 to
R75, R147, R154, R156 to R158, R161 to R166). That a re-probe leaves the turn (log 42), that DROP_FULL is raised before
DROP_UNEXPECTED is queued (log 45), that it is raised at no read of a foreign tag but also at one of a key already DROPPED while
the list is full, whose DROP_UNEXPECTED has no DROP_OVERFLOW (log 19), that DROP_OVERFLOW is bit 0 of the flags byte of
DROP_UNEXPECTED (log 10), that of the entries of a full duplicate filter that share the earliest time the first of the list is
replaced (log 57), and that a context in DONE_PENDING loses its slot, where the table of R57 has it stay the same (log 30), are
the model's choice. -/
def Obligations.PollsSettleRows : Prop :=
  let pollFrame (a : Nat) (ack : Bool) : List Byte :=
    let body := [BitVec.ofNat 8 a, 0x01#8, if ack then 1#8 else 0#8]
    body ++ [crc8 body]
  (∀ (s : State) (c : Chan) (a : Nat), (s.part.chan c).pollTurn s.part.mono = true →
    let ack (ch : Channel) : Bool := ch.state == .running && ((Table.look ch.modules a).map (·.ack)).getD false
    ((s.part.chan c).nextPoll s.part.mono = some (a, false) →
      s.Becomes (exec (.sendPoll c) s) (s.part.onChan c (fun ch => { ch with
        lastPolled := a, onLine := some (.poll a (ack ch)), sent := [pollFrame a (ack ch)] })))
    ∧ ((s.part.chan c).nextPoll s.part.mono = some (a, true) →
      s.Becomes (exec (.sendPoll c) s) (s.part.onChan c (fun ch => { ch with
        onLine := some (.poll a (ack ch)), sent := [pollFrame a (ack ch)]
        modules := Table.modify ch.modules a (fun m => { m with reprobe := some (s.part.mono + 10000) }) }))))
  ∧ (∀ (s : State) (c : Chan) (a : Nat) (ack : Bool) (y : Reply) (rs : List PosReport), ¬ GoodReply y a →
    (s.part.chan c).onLine = some (.poll a ack) → exec (.pollAnswer c ⟨y, rs⟩) s = exec (.commandMiss c) s)
  ∧ (∀ (s : State) (c : Chan) (b : BusCmd) (y : Reply), ¬ GoodReply y b.addr → (s.part.chan c).onLine = some (.queued b) →
    (∀ a pos i l, b = .lockOpen a pos i → exec (.lockOpenAnswer c ⟨y, l⟩) s = exec (.commandMiss c) s)
    ∧ (∀ a pos i l, b = .lockClose a pos i → exec (.lockCloseAnswer c ⟨y, l⟩) s = exec (.commandMiss c) s)
    ∧ (∀ a ls, b = .lamp a ls → exec (.lampAnswer ⟨c, y⟩) s = exec (.commandMiss c) s))
  ∧ (∀ (s : State) (c : Chan) (a pos n g : Nat) (ack : Bool) (y : Reply) (rs : List PosReport) (v : Occ) (l : LockState)
      (r : SlotRow), GoodReply y a →
    (s.part.chan c).onLine = some (.poll a ack) → (s.part.chan c).state = .running →
    (s.part.chan c).modState a = .active ∨ (s.part.chan c).modState a = .silent →
    rs[pos]? = some ⟨v, l, none⟩ → s.part.slotAt c a pos = some n → (∀ x, x ≠ pos → s.part.slotAt c a x = none) →
    s.part.slotEntry n = ⟨c, a, pos, .standard, g⟩ → Table.look s.part.rows n = some r → r.ctx = none →
    let answered (bounce : Nat → Nat) (g : SlotRow → SlotRow) : Part :=
      { s.part with rows := Table.modify s.part.rows n g }.onChan c (fun ch => { ch with
        onLine := none, bounces := bounce ch.bounces
        modules := Table.modify ch.modules a (fun m => { m with misses := 0, state := .active, ack := true }) })
    let becomes (p : Part) : Prop := s.Becomes (exec (.pollAnswer c ⟨y, rs⟩) s) p
    let settling : SlotRow → SlotRow := fun r => { r with
      settle := some ⟨v, s.part.now, s.part.mono + s.part.policy.settle⟩ }
    (∀ o, l = .locked → r.lock = some .locked → r.occ = some o →
      (r.settle = none → v = o → becomes (answered id id))
      ∧ (r.settle = none → v ≠ o → becomes (answered id settling))
      ∧ (∀ st, r.settle = some st → v = st.cand → becomes (answered id id))
      ∧ (∀ st, r.settle = some st → v ≠ st.cand → v = o →
        becomes (answered satUp (fun r => { r with settle := none })))
      ∧ (∀ st, r.settle = some st → v ≠ st.cand → v ≠ o → becomes (answered id settling)))
    ∧ (r.occ = some v → r.settle = none →
      let seen := answered id (fun r => { r with lock := some l })
      let jam := seen.raise .lockJam (.slot n) none
      (l = .locked → r.lock ≠ some .locked → becomes (seen.remove .lockJam (.slot n)))
      ∧ (l = .jammed → becomes jam)
      ∧ (l = .opened → (s.part.chan c).queue.length < 12 →
        (∀ x i, x = BusCmd.lockClose a pos i → x ∉ (s.part.chan c).queue) →
        (∀ m t, Table.look (s.part.chan c).modules a = some m → Table.look m.ownClose pos = some t →
          t + 2000 ≤ s.part.mono) →
        becomes (jam.onChan c (fun ch => { ch with queue := ch.queue ++ [.lockClose a pos .own] })))
      ∧ (l = .opened → (∃ m t, Table.look (s.part.chan c).modules a = some m ∧ Table.look m.ownClose pos = some t
          ∧ s.part.mono < t + 2000) → becomes jam))
    ∧ (r.occ = none → r.settle = none → l = .locked →
      let seen := (answered id (fun r => { r with lock := some .locked, occ := some v })).remove .lockJam (.slot n)
      (r.lock = none → v = .empty → s.part.keyAt n = none → becomes (seen.remove .foreign (.slot n)))
      ∧ (∀ t h k, r.lock = none → v = .tag t → s.part.keyByTag t = some (h, k) → s.part.keyAt n = some (h, k) →
        k.tag = t → k.loc = some n → k.state = .inn ∨ k.state = .misplaced ∨ k.state = .assigned → becomes seen)
      ∧ (∀ h k, s.part.keyAt n = some (h, k) → v = .empty → ∃ u, exec (.pollAnswer c ⟨y, rs⟩) s = .next u
        ∧ u.part.rows = seen.rows ∧ u.part.alt.flags.getLsbD 2 = true ∧ u.part.rentals = s.part.rentals
        ∧ Table.look u.part.keys h = some { k with
            state := .missing, loc := none, inSince := none, rental := none, away := none })
      ∧ (∀ t h k i z, r.lock = none → v = .tag t → s.part.keyAt n = none → s.part.keyByTag t = some (h, k) →
        k.state = .out → k.rental = some i → Table.look s.part.rentals i = some z → z.key = h →
        s.part.alt.find .lockJam (.slot n) = none → s.part.link.waiters = [] → s.part.link.reports.length < 64 →
        s.part.alt.find .overdue (.rental z.number) = none → s.part.alt.find .escalated (.rental z.number) = none →
        let st : KeyState := if k.home = none ∨ k.home = some n then .inn else .misplaced
        let x := z.assess s.part.now s.part.policy.blockLen s.part.policy.blocksCap (some n) st true false false
        becomes (({ seen with
            keys := Table.put s.part.keys h
              { k with state := st, loc := some n, inSince := some s.part.now, rental := none, away := none }
            rentals := Table.del s.part.rentals i
            due := s.part.due.filter (fun j => j != i) } : Part).queued
          ⟨.ret, 255, beBytes 4 z.number ++ beBytes 2 i ++ beBytes 2 h ++ beBytes 4 k.tag ++ beBytes 3 z.out ++ beBytes 3 z.due
            ++ beBytes 1 z.grace ++ beBytes 3 s.part.now ++ beBytes 2 n ++ beBytes 1 x.cls.code ++ beBytes 3 x.lateMinutes
            ++ beBytes 1 x.lateDays ++ beBytes 1 x.lateBlocks ++ beBytes 1 x.daysInUse ++ beBytes 1 st.code
            ++ beBytes 1 (2 + (if x.flags.quick then 1 else 0) + (if x.flags.saturated then 8 else 0)
              + (if x.flags.clockAnomaly then 16 else 0))⟩))))
  ∧ (∀ (s : State) (c : Chan) (a pos n g : Nat) (ack : Bool) (y : Reply) (rs : List PosReport) (v : Occ), GoodReply y a →
    (s.part.chan c).onLine = some (.poll a ack) → (s.part.chan c).state = .running →
    (s.part.chan c).modState a = .absent ∨ (s.part.chan c).modState a = .down →
    rs[pos]? = some ⟨v, .locked, none⟩ → s.part.slotAt c a pos = some n → (∀ x, x ≠ pos → s.part.slotAt c a x = none) →
    s.part.slotEntry n = ⟨c, a, pos, .standard, g⟩ → Table.look s.part.rows n = some ⟨none, none, none, none, none⟩ →
    s.part.alt.find .moduleDown (.module c a) = none → s.part.link.reports.length < 48 →
    let found : Part := ({ s.part with
        rows := Table.modify s.part.rows n (fun r => { r with lock := some .locked, occ := some v }) }.onChan c (fun ch =>
        { ch with
          onLine := none
          modules := Table.modify ch.modules a (fun m => { m with
            state := .active, misses := 0, reprobe := none, ack := true }) })).queued
      ⟨.moduleEvent, 255, beBytes 1 c.code ++ beBytes 1 a ++ [1#8]⟩
    let becomes (p : Part) : Prop := s.Becomes (exec (.pollAnswer c ⟨y, rs⟩) s) p
    (v = .empty → s.part.keyAt n = none → becomes ((found.remove .lockJam (.slot n)).remove .foreign (.slot n)))
    ∧ (∀ t h k, v = .tag t → s.part.keyByTag t = some (h, k) → s.part.keyAt n = some (h, k) → k.tag = t → k.loc = some n →
      k.state = .inn ∨ k.state = .misplaced ∨ k.state = .assigned → becomes (found.remove .lockJam (.slot n))))
  ∧ (∀ (s : State) (c : Chan) (a pos n g i : Nat) (ack : Bool) (y : Reply) (rs : List PosReport) (v o : Occ) (r : SlotRow)
      (x : Ctx), GoodReply y a →
    (s.part.chan c).onLine = some (.poll a ack) → (s.part.chan c).state = .running → (s.part.chan c).modState a = .active →
    rs[pos]? = some ⟨v, .locked, none⟩ → s.part.slotAt c a pos = some n → (∀ z, z ≠ pos → s.part.slotAt c a z = none) →
    s.part.slotEntry n = ⟨c, a, pos, .standard, g⟩ → Table.look s.part.rows n = some r → r.lock = some .locked →
    r.occ = some o → o ≠ .empty → r.ctx = some i → Table.look s.part.ctxs i = some x →
    x.state = .opening ∨ x.state = .opened ∨ x.state = .removedSettling →
    let told (bounce : Nat → Nat) (f : SlotRow → SlotRow) (h : Ctx → Ctx) : Prop :=
      s.Becomes (exec (.pollAnswer c ⟨y, rs⟩) s) ({ s.part with
        rows := Table.modify s.part.rows n f, ctxs := Table.modify s.part.ctxs i h }.onChan c (fun ch => { ch with
          onLine := none, bounces := bounce ch.bounces
          modules := Table.modify ch.modules a (fun m => { m with misses := 0, ack := true }) }))
    let settling : SlotRow → SlotRow := fun r => { r with
      settle := some ⟨v, s.part.now, s.part.mono + s.part.policy.settle⟩ }
    let leaves (x : Ctx) : Ctx := match x.state with
      | .opening => { x with
          state := .removedSettling, lockLimit := none, window := some (s.part.mono + 1000 * s.part.policy.removalWindow) }
      | _ => { x with state := .removedSettling }
    (v = .empty → (r.settle = none ∨ ∃ st, r.settle = some st ∧ st.cand ≠ .empty ∧ st.cand ≠ o) → told id settling leaves)
    ∧ (∀ st w, v ≠ .empty → r.settle = some st → st.cand = .empty → x.state = .removedSettling → x.window = some w →
      (s.part.mono < w →
        (v = o → told satUp (fun r => { r with settle := none }) (fun x => { x with state := .opened }))
        ∧ (v ≠ o → told id settling (fun x => { x with state := .opened })))
      ∧ (∀ h b k, w ≤ s.part.mono → s.part.Carries i n x b h k → ∃ u, exec (.pollAnswer c ⟨y, rs⟩) s = .next u
        ∧ s.part.GaveUp u.part i n x b h k .notTaken)))
  ∧ (∀ (s : State) (c : Chan) (a i n : Nat) (ack : Bool) (m : ModEntry) (x : Ctx),
    (s.part.chan c).onLine = some (.poll a ack) → (s.part.chan c).state = .running → (s.part.chan c).held = false →
    Table.look (s.part.chan c).modules a = some m → m.state = .silent → 6 ≤ m.misses → Table.look s.part.ctxs i = some x →
    i < 4 → x.slot = some n → n ∈ s.part.moduleSlots c a →
    (∀ e ∈ s.part.ctxs, e.1 ≠ i → ∀ m, e.2.slot = some m → m ∉ s.part.moduleSlots c a) →
    (∀ w ∈ s.part.waitQ, w.ended ≠ none) →
    (x.state ≠ .donePending → s.part.link.waiters = [] ∧ s.part.link.reports.length < 64) →
    ∃ u, exec (.commandMiss c) s = .next u ∧ s.part.LostCtx u.part i n x)
  ∧ (∀ (s : State) (c : Chan) (a pos n t : Nat) (ack : Bool) (y : Reply) (rs : List PosReport) (v : Occ) (l : LockState),
    GoodReply y a →
    (s.part.chan c).onLine = some (.poll a ack) → (s.part.chan c).state = .running → (s.part.chan c).modState a = .active →
    rs[pos]? = some ⟨v, l, some t⟩ → s.part.slotAt c a pos = some n → (∀ x, x ≠ pos → s.part.slotAt c a x = none) →
    (s.part.slotEntry n).kind = .drop →
    let answered : Part := s.part.onChan c (fun ch => { ch with
      onLine := none
      modules := Table.modify ch.modules a (fun m => { m with misses := 0, ack := true }) })
    let becomes (p : Part) : Prop := s.Becomes (exec (.pollAnswer c ⟨y, rs⟩) s) p
    let live := ((Table.look s.part.filters n).getD []).filter (fun e => decide (s.part.mono < e.2 + 10000))
    ((∃ e ∈ live, e.1 = t) → becomes { answered with
      filters := Table.put s.part.filters n (live.map (fun e => if e.1 = t then (t, s.part.mono) else e))
      dupCounts := Table.put s.part.dupCounts n (satUp ((Table.look s.part.dupCounts n).getD 0)) })
    ∧ (∀ pre x post, (∀ e ∈ live, e.1 ≠ t) → live = pre ++ x :: post → live.length = 8 → (∀ e ∈ pre, x.2 < e.2) →
      (∀ e ∈ post, x.2 ≤ e.2) → ∃ u, exec (.pollAnswer c ⟨y, rs⟩) s = .next u
      ∧ Table.look u.part.filters n = some (pre ++ post ++ [(t, s.part.mono)]) ∧ u.part.dupCounts = s.part.dupCounts)
    ∧ ((∀ e ∈ live, e.1 ≠ t) → live.length < 8 →
      let read : Part := { answered with filters := Table.put s.part.filters n (live ++ [(t, s.part.mono)]) }
      let unexpected (h : Nat) (k : KeyRec) (flags : Byte) : Report :=
        ⟨.dropUnexpected, 255, beBytes 2 h ++ beBytes 2 n ++ [BitVec.ofNat 8 k.state.code, flags]⟩
      let binned (h : Nat) (k : KeyRec) : Part := { read with
        keys := Table.put s.part.keys h
          { k with state := .dropped, loc := none, inSince := none, rental := none, away := none }
        dropBin := s.part.dropBin ++ [⟨h, n, s.part.now⟩] }
      let overflow (h : Nat) (k : KeyRec) : Part := ({ read with
        keys := Table.put s.part.keys h
          { k with state := .away, loc := none, inSince := none, rental := none, away := some .dropOverflow } } : Part).raise
            .dropFull (.slot n) none
      (s.part.keyByTag t = none → becomes (read.raise .foreign (.slot n) (some (.unknownTag t))))
      ∧ (∀ h k, s.part.keyByTag t = some (h, k) → k.state = .away ∨ k.state = .inn ∨ k.state = .misplaced →
        (s.part.dropBin.length < 95 → s.part.link.reports.length < 48 →
          becomes ((binned h k).queued (unexpected h k 0#8)))
        ∧ (s.part.dropBin.length = 95 →
          let full := (binned h k).raise .dropFull (.slot n) none
          full.link.reports.length < 48 → becomes (full.queued (unexpected h k 0#8)))
        ∧ (96 ≤ s.part.dropBin.length → (overflow h k).link.reports.length < 48 →
          becomes ((overflow h k).queued (unexpected h k 1#8))))
      ∧ (∀ h k, s.part.keyByTag t = some (h, k) → k.state = .dropped →
        let full := read.raise .dropFull (.slot n) none
        (s.part.dropBin.length < 96 → s.part.link.reports.length < 48 → becomes (read.queued (unexpected h k 0#8)))
        ∧ (96 ≤ s.part.dropBin.length → full.link.reports.length < 48 → becomes (full.queued (unexpected h k 0#8))))
      ∧ (∀ h k i z, s.part.keyByTag t = some (h, k) → k.state = .out → k.rental = some i →
        Table.look s.part.rentals i = some z → z.key = h → s.part.dropBin.length < 95 →
        s.part.link.waiters = [] → s.part.link.reports.length < 64 →
        s.part.alt.find .overdue (.rental z.number) = none → s.part.alt.find .escalated (.rental z.number) = none →
        let x := z.assess s.part.now s.part.policy.blockLen s.part.policy.blocksCap (some n) .dropped false false false
        becomes (({ binned h k with
            rentals := Table.del s.part.rentals i
            due := s.part.due.filter (fun j => j != i) } : Part).queued
          ⟨.ret, 255, beBytes 4 z.number ++ beBytes 2 i ++ beBytes 2 h ++ beBytes 4 k.tag ++ beBytes 3 z.out ++ beBytes 3 z.due
            ++ beBytes 1 z.grace ++ beBytes 3 s.part.now ++ beBytes 2 n ++ beBytes 1 x.cls.code ++ beBytes 3 x.lateMinutes
            ++ beBytes 1 x.lateDays ++ beBytes 1 x.lateBlocks ++ beBytes 1 x.daysInUse ++ [7#8]
            ++ beBytes 1 ((if x.flags.quick then 1 else 0) + (if x.flags.saturated then 8 else 0)
              + (if x.flags.clockAnomaly then 16 else 0))⟩))))
  ∧ (∀ (s : State) (c : Chan) (a : Nat) (ack : Bool) (m : ModEntry),
    (s.part.chan c).onLine = some (.poll a ack) → (s.part.chan c).state = .running → (s.part.chan c).held = false →
    Table.look (s.part.chan c).modules a = some m →
    let missed (g : ModEntry → ModEntry) : Prop :=
      s.Becomes (exec (.commandMiss c) s) (s.part.onChan c (fun ch => { ch with
        onLine := none, misses := satUp ch.misses, modules := Table.modify ch.modules a g }))
    (m.state = .active → missed (fun m => { m with ack := false, misses := 1, state := .silent }))
    ∧ (m.state = .silent → m.misses < 6 → missed (fun m => { m with ack := false, misses := m.misses + 1 }))
    ∧ (m.state = .absent ∨ m.state = .down → missed (fun m => { m with ack := false }))
    ∧ (m.state = .silent → 6 ≤ m.misses → ∃ u, exec (.commandMiss c) s = .next u
      ∧ Table.look (u.part.chan c).modules a = some { m with
          ack := false, misses := m.misses + 1, state := .down, reprobe := some (s.part.mono + 10000) }
      ∧ (u.part.chan c).misses = satUp (s.part.chan c).misses ∧ u.part.alt.flags.getLsbD 6 = true
      ∧ (∀ b ∈ (u.part.chan c).queue, b.addr ≠ a) ∧ Table.look u.part.lmp.images (lampKey c a) = none
      ∧ u.part.rentals = s.part.rentals))

/-- What the arbiter takes from the queue of a RUNNING channel whose line is free: a lock command first, a passed-through frame, a
READ_TAGS and a LAMP in that order behind a due pass, the oldest of its kind; and it takes one whenever a lock command waits, or
any command with no pass due. With nothing waiting and no pass due it is the turn of a POLL: of the lowest module whose re-probe
time has come, and else of the ACTIVE or SILENT module with the next address after the one last polled, or of the first, none
being above; the first poll of STARTING goes once through the ACTIVE ones in ascending address; no other state polls (R152, R154,
R160, R161). The command taken leaves the queue and is on the line, its bytes as R207 gives them; its owner is told (R143, R165,
R189). The READ_TAGS that the census has deferred is offered again as the command leaves, and after it the LAMP command of a
module marked behind: each enters while fewer than 12 wait, and otherwise stays deferred (R124, R139, R159). A LOCK_CLOSE left by
a context that has been freed is sent and concerns no context (R44, R49). That a mark behind is cleared with no command where the
image is already the module's eight lamps (log 44), and that a re-probe does not count as the one last polled (log 42), are the
model's choice. -/
def Obligations.ArbiterSendsInOrder : Prop :=
  (∀ (ch : Channel) (mono : Nat) (b : BusCmd), ch.choice mono = some b →
    ch.onLine = none ∧ ch.held = false ∧ ch.state = .running
      ∧ (∃ pre post, ch.queue = pre ++ b :: post
        ∧ ∀ x ∈ pre, ¬ (x.isLock = b.isLock ∧ x.isFrame = b.isFrame ∧ x.isReadTags = b.isReadTags))
      ∧ (∀ x ∈ ch.queue, x.isLock = true → b.isLock = true)
      ∧ (b.isLock = false → ch.passDue mono = false ∧ (∀ x ∈ ch.queue, x.isFrame = true → b.isFrame = true)
        ∧ (b.isFrame = false → ∀ x ∈ ch.queue, x.isReadTags = true → b.isReadTags = true)))
  ∧ (∀ (ch : Channel) (mono : Nat) (b : BusCmd), ch.onLine = none → ch.held = false → ch.state = .running → b ∈ ch.queue →
    b.isLock = true ∨ ch.passDue mono = false → ∃ x, ch.choice mono = some x ∧ (b.isLock = true → x.isLock = true))
  ∧ (∀ (ch : Channel) (mono : Nat),
    let free : Prop := ch.onLine = none ∧ ch.held = false
    let listed (a : Nat) (f : ModEntry → Prop) : Prop := 1 ≤ a ∧ a ≤ 30 ∧ ∃ m, Table.look ch.modules a = some m ∧ f m
    let active (a : Nat) : Prop := listed a (fun m => m.state = .active)
    let served (a : Nat) : Prop := listed a (fun m => m.state = .active ∨ m.state = .silent)
    let due (a : Nat) : Prop := listed a (fun m => ∃ t, m.reprobe = some t ∧ t ≤ mono)
    let next (f : Nat → Prop) (n a : Nat) : Prop := n < a ∧ f a ∧ ∀ b, n < b → f b → a ≤ b
    (ch.state = .running →
      (ch.pollTurn mono = true ↔
        free ∧ ch.queue = [] ∧ ch.passOn = false ∧ ∀ t, ch.nextIdent = some t → mono < t)
      ∧ (∀ a, next due 0 a → ch.nextPoll mono = some (a, true))
      ∧ ((∀ a, ¬ due a) →
        (∀ a, next served ch.lastPolled a → ch.nextPoll mono = some (a, false))
        ∧ (∀ a, (∀ b, ch.lastPolled < b → ¬ served b) → next served 0 a → ch.nextPoll mono = some (a, false))
        ∧ ((∀ a, ¬ served a) → ch.nextPoll mono = none)))
    ∧ (ch.state = .starting .firstPoll →
      (ch.pollTurn mono = true ↔ free)
      ∧ (∀ a, next active ch.lastPolled a → ch.nextPoll mono = some (a, false))
      ∧ ((∀ a, ch.lastPolled < a → ¬ active a) → ch.nextPoll mono = none))
    ∧ (ch.state ≠ .running → ch.state ≠ .starting .firstPoll → ch.pollTurn mono = false))
  ∧ (∀ (s : State) (c : Chan), s.part.cen.deferred = false →
    let sent (b : BusCmd) (body : List Byte) (p : Part) : Part :=
      p.onChan c (fun ch => { ch with
        queue := ch.queue.erase b, onLine := some (.queued b), sent := [body ++ [crc8 body]] })
    (∀ a pos i, (s.part.chan c).choice s.part.mono = some (.lockOpen a pos i) →
      s.Becomes (exec (.sendLockOpen c) s) (sent (.lockOpen a pos i) [BitVec.ofNat 8 a, 0x10#8, BitVec.ofNat 8 pos] { s.part with
        ctxs := Table.modify s.part.ctxs i (fun x => { x with lockSent := true }) }))
    ∧ (∀ a pos i, (s.part.chan c).choice s.part.mono = some (.lockClose a pos (.ctx i)) →
      s.Becomes (exec (.sendLockClose c) s) (sent (.lockClose a pos (.ctx i))
        [BitVec.ofNat 8 a, 0x11#8, BitVec.ofNat 8 pos] { s.part with
        ctxs := Table.modify s.part.ctxs i (fun x => { x with lockSent := true }) }))
    ∧ (∀ a pos, (s.part.chan c).choice s.part.mono = some (.lockClose a pos .own) →
      s.Becomes (exec (.sendLockClose c) s) (sent (.lockClose a pos .own)
        [BitVec.ofNat 8 a, 0x11#8, BitVec.ofNat 8 pos] (s.part.onChan c (fun ch => { ch with
        modules := Table.modify ch.modules a (fun m => { m with ownClose := Table.put m.ownClose pos s.part.mono }) }))))
    ∧ (∀ a pos, (s.part.chan c).choice s.part.mono = some (.lockClose a pos .left) →
      s.Becomes (exec (.sendLockClose c) s) (sent (.lockClose a pos .left) [BitVec.ofNat 8 a, 0x11#8, BitVec.ofNat 8 pos] s.part))
    ∧ (∀ a cls d e t, (s.part.chan c).choice s.part.mono = some (.passed a cls d e) →
      Table.look s.part.tfl.tracking e = some t → t.state = .queued →
      let q : Part := { s.part with tfl := { s.part.tfl with
        tracking := Table.modify s.part.tfl.tracking e (fun t => { t with state := .sent }) } }
      let body : List Byte := [BitVec.ofNat 8 a, match cls with
        | .query => 0x40#8
        | .config => 0x41#8
        | .lampRaw => 0x42#8
        | .opaqueClass => 0x43#8] ++ d
      (cls ≠ .lampRaw → s.Becomes (exec (.sendPassedFrame c) s) (sent (.passed a cls d e) body q))
      ∧ (∀ ls, cls = .lampRaw → d.length = 8 → d.map lampOfByte = ls.map some →
        s.Becomes (exec (.sendPassedFrame c) s) (sent (.passed a cls d e) body
          { q with lmp := { q.lmp with images := Table.put q.lmp.images (lampKey c a) ls } }))))
  ∧ (∀ (s : State) (c : Chan) (b : BusCmd), (s.part.chan c).choice s.part.mono = some b →
    let rest := (s.part.chan c).queue.erase b
    (∀ a, s.part.cen.deferred = true → s.part.cen.pos = some (c, a) → (∀ x, b ≠ .readTags x) →
      ∃ u, exec (b.sendRow c) s = .next u
        ∧ (rest.length < 12 → u.part.cen = { s.part.cen with deferred := false }
          ∧ (u.part.chan c).queue.filter (fun x => !x.isLampAny) = rest.filter (fun x => !x.isLampAny) ++ [.readTags a])
        ∧ (12 ≤ rest.length → u.part.cen = s.part.cen
          ∧ (u.part.chan c).queue.filter (fun x => !x.isLampAny) = rest.filter (fun x => !x.isLampAny)))
    ∧ (∀ d, (∀ x y z, b ≠ .passed x .lampRaw y z) → s.part.lmp.touched = [] → s.part.lmp.behind = [lampKey c d] → 1 ≤ d → d ≤ 30 →
      s.part.Served c d → (∀ ls, BusCmd.lamp d ls ∉ (s.part.chan c).queue) →
      let needed := Table.look s.part.lmp.images (lampKey c d) ≠ some (s.part.eightLamps c d)
      let becomes (queue : List BusCmd) (behind : List Nat) : Prop :=
        ∃ u, exec (b.sendRow c) s = .next u ∧ (u.part.chan c).queue = queue ∧ u.part.lmp.behind = behind
      (s.part.cen.deferred = false →
        (needed → rest.length < 12 → becomes (rest ++ [.lamp d (s.part.eightLamps c d)]) [])
        ∧ (needed → 12 ≤ rest.length → becomes rest [lampKey c d])
        ∧ (¬ needed → becomes rest []))
      ∧ (∀ a, s.part.cen.deferred = true → s.part.cen.pos = some (c, a) → needed →
        (rest.length < 11 → becomes (rest ++ [.readTags a, .lamp d (s.part.eightLamps c d)]) [])
        ∧ (rest.length = 11 → becomes (rest ++ [.readTags a]) [lampKey c d])
        ∧ (12 ≤ rest.length → becomes rest [lampKey c d]))))

/-! ## Tables, policy and restart -/

/-- TABLE_READ: OK with the places asked for, in index order, as the entries stand, or BAD_ARGUMENT for a table, index or count
outside; the tables stay (R192, R206). That an empty place of the Module Map, the Zone Schedule and the Pass Table is sent as
present 0 with every byte after it 0 is the model's choice (log 59). -/
def Obligations.TableReadGivesThePlaces : Prop :=
  ∀ (s : State) (f : Frame) (rest : List Frame) (tag : Byte) (t i n : Nat), s.Asks .tableRead f rest →
    f.payload = tag :: (beBytes 1 t ++ (beBytes 2 i ++ beBytes 1 n)) → t < 256 → i < 65536 → n < 256 →
    s.part.essRoom = true →
    let p := s.part
    let within (lo places most : Nat) : Prop := 1 ≤ n ∧ n ≤ most ∧ lo ≤ i ∧ i + n ≤ lo + places
    let gives (lo places most : Nat) (entry : Nat → List Byte) : Prop :=
      (within lo places most → s.Becomes (exec .tableRead s) ((p.asked f rest).queued (p.replyTo f .ok
        (beBytes 1 t ++ beBytes 2 i ++ beBytes 1 n ++ (List.range n).flatMap (fun j => entry (i + j))))))
      ∧ (¬ within lo places most →
        s.Becomes (exec .tableRead s) ((p.asked f rest).queued (p.replyTo f .badArgument [])))
    (t = 0 → gives 1 480 46 (fun j => (p.slotEntry j).bytes))
    ∧ (t = 1 → gives 0 30 30 (fun j => mapEntryBytes (Table.look p.chanA.map j)))
    ∧ (t = 2 → gives 0 30 30 (fun j => mapEntryBytes (Table.look p.chanB.map j)))
    ∧ (t = 3 → gives 1 62 62 (fun j => (p.terminal j).bytes))
    ∧ (t = 4 → gives 0 16 16 (fun j => (p.group j).bytes))
    ∧ (t = 5 → gives 0 8 8 (fun j => pointBytes (Table.look p.schedule j)))
    ∧ (t = 6 → gives 0 16 16 (fun j => passBytes (Table.look p.tfl.passTable j)))
    ∧ (6 < t → s.Becomes (exec .tableRead s) ((p.asked f rest).queued (p.replyTo f .badArgument [])))

/-- TABLE_WRITE of one entry: of the Group Table and the Terminal Table, of a Module Map while its channel is OFF and IN_USE
otherwise; of the Slot Map, for a change of group at any time, for any other change while its channels are OFF and no key is
located there, when the slot's row is made anew or goes and its duplicate filter is emptied, IN_USE otherwise and BAD_ARGUMENT for
a map with more than two drop positions or two slots at one position; of the Zone Schedule, the zone being worked out anew; of the
Pass Table, BAD_ARGUMENT for LOCK_RAW. The zone that the schedule gives (R5, R71, R90, R91, R186). POLICY_SET of one value writes
it brought into its range, and answers OK or OK_CLAMPED with the values in force (R155, R184, R191, R193, R194, R206). Its owner
acts on a changed value, and on an unchanged one for the link watch alone: the tiers of all OPEN rentals stand as by the new
due-soon window or escalation delay, with the alert and the report of the change, said of one OPEN rental (R97 to R99); the next
re-alerts go with an interval that becomes 0, and are set for the UNACKED entries by one that was 0, and stay otherwise (R113);
the next census start is the start minute, or else the present minute, plus the new interval, or absent (R121); the watch is set
afresh (R181, R195); a change of the zone's blanking is written, its lamps being stated with LAMP_CONTROL. The layout of
POLICY_SET (log 10), that a Slot Map write keeps the duplicate counts, and that it empties the filter of every slot whose entry
changes in more than its group (log 43), that ALERT_WITHDRAWN is queued before DUE_SOON (log 22), and that a change of the census
interval while the clock is unset makes the next start absent (log 41), are the model's choice. -/
def Obligations.TablesAndPolicyAreWritten : Prop :=
  (∀ (s : State) (f : Frame) (rest : List Frame) (tag : Byte) (i : Nat), s.Asks .tableWrite f rest → s.part.essRoom = true →
    let p := s.part.asked f rest
    let written (t : Nat) (q : Part) : Prop :=
      s.Becomes (exec .tableWrite s) (q.queued (s.part.replyTo f .ok (beBytes 1 t ++ beBytes 2 i ++ [1#8])))
    let one (t : Nat) (entry : List Byte) : List Byte := tag :: (beBytes 1 t ++ (beBytes 2 i ++ (beBytes 1 1 ++ entry)))
    (∀ g : GroupEntry, i ≤ 15 → f.payload = one 4 g.bytes →
      written 4 { p with groups := if g = GroupEntry.powerOn then Table.del p.groups i else Table.put p.groups i g })
    ∧ (∀ e : Terminal, 1 ≤ i → i ≤ 62 → f.payload = one 3 e.bytes →
      let table := if e = Terminal.powerOn then Table.del p.tfl.terminals i else Table.put p.tfl.terminals i e
      ((∃ x ∈ table, x.2.role = .office ∧ x.2.load = true) → written 3 { p with tfl := { p.tfl with terminals := table } })
      ∧ ((∀ x ∈ table, x.2.role = .office → x.2.load = false) →
        s.Becomes (exec .tableWrite s) (p.queued (s.part.replyTo f .badArgument []))))
    ∧ (∀ (e : MapEntry) (c : Chan), i ≤ 29 → f.payload = one (1 + c.code) (mapEntryBytes (some e)) →
      e.serial < 4294967296 → 1 ≤ e.addr → e.addr ≤ 30 → (s.part.chan c).map = [] →
      ((s.part.chan c).state = .off → written (1 + c.code) (p.onChan c (fun ch => { ch with
        map := [(i, e)], modules := [(e.addr, (Table.look ch.modules e.addr).getD ModEntry.fresh)] })))
      ∧ ((s.part.chan c).state ≠ .off →
        s.Becomes (exec .tableWrite s) (p.queued (s.part.replyTo f .inUse []))))
    ∧ (∀ (e : SlotEntry), 1 ≤ i → i ≤ 480 → Table.look s.part.slotMap i = some e → Table.rising s.part.slotMap = true →
      slotMapOk s.part.slotMap = true → e.kind = .standard → 1 ≤ e.addr → e.addr ≤ 30 → e.pos ≤ 7 → ∀ g, g ≤ 15 →
      f.payload = one 0 ({ e with group := g } : SlotEntry).bytes →
      written 0 { p with slotMap := Table.put p.slotMap i { e with group := g } })
    ∧ (∀ e : SlotEntry, 1 ≤ i → i ≤ 480 → 1 ≤ e.addr → e.addr ≤ 30 → e.pos ≤ 7 → e.group ≤ 15 → f.payload = one 0 e.bytes →
      let old := s.part.slotEntry i
      let table := if e = SlotEntry.powerOn then Table.del p.slotMap i else Table.put p.slotMap i e
      let live := (table.map (·.2)).filter (fun x => x.kind != .disabled)
      let ok : Prop := (live.filter (fun x => x.kind == .drop)).length ≤ 2
        ∧ (live.map (fun x => (x.chan, x.addr, x.pos))).Nodup
      let free : Prop := (s.part.chan old.chan).state = .off ∧ (s.part.chan e.chan).state = .off ∧ s.part.keyAt i = none
      (¬ ok → s.Becomes (exec .tableWrite s) (p.queued (s.part.replyTo f .badArgument [])))
      ∧ (ok → { old with group := e.group } ≠ e →
        (¬ free → s.Becomes (exec .tableWrite s) (p.queued (s.part.replyTo f .inUse [])))
        ∧ (free → (∀ x ∈ s.part.alt.entries, x.subject ≠ .slot i) →
          written 0 { p with
            slotMap := table, filters := Table.del p.filters i
            rows := if e.kind = .standard then Table.put p.rows i ⟨none, none, none, none, none⟩
              else Table.del p.rows i })))
    ∧ (∀ z : Option ZonePoint, i ≤ 7 → (∀ x, z = some x → x.minuteOfDay ≤ 1439) → f.payload = one 5 (pointBytes z) →
      let table := match z with
        | some x => Table.put p.schedule i x
        | none => Table.del p.schedule i
      (¬ (table.map (·.2.minuteOfDay)).Nodup →
        s.Becomes (exec .tableWrite s) (p.queued (s.part.replyTo f .badArgument [])))
      ∧ ((table.map (·.2.minuteOfDay)).Nodup →
        let q : Part := { p with schedule := table }
        (q.zoneEval = s.part.zone → written 5 q)
        ∧ ∃ u, exec .tableWrite s = .next u ∧ u.part.schedule = table ∧ u.part.zone = q.zoneEval
          ∧ u.part.link.reports = s.part.link.reports ++ [s.part.replyTo f .ok (beBytes 1 5 ++ beBytes 2 i ++ [1#8])]))
    ∧ (i ≤ 15 →
      (∀ x : PassEntry, x.role ≠ some .none → f.payload = one 6 (passBytes (some x)) →
        written 6 { p with tfl := { p.tfl with passTable := Table.put p.tfl.passTable i x } })
      ∧ (f.payload = one 6 (passBytes none) →
        written 6 { p with tfl := { p.tfl with passTable := Table.del p.tfl.passTable i } })
      ∧ (∀ role act : Byte, f.payload = one 6 [1#8, role, 0x44#8, act] →
        s.Becomes (exec .tableWrite s) (p.queued (s.part.replyTo f .badArgument [])))))
  ∧ (∀ p : Part,
    let M := (p.clock.minute + p.clock.dayOffset) % 1440
    (p.clock.set = false ∨ p.schedule = [] → p.zoneEval = .staffed)
    ∧ (p.clock.set = true → (p.schedule.map (·.2.minuteOfDay)).Nodup → ∀ x ∈ p.schedule,
      (x.2.minuteOfDay ≤ M → (∀ y ∈ p.schedule, y.2.minuteOfDay ≤ M → y.2.minuteOfDay ≤ x.2.minuteOfDay) →
        p.zoneEval = x.2.zone)
      ∧ ((∀ y ∈ p.schedule, M < y.2.minuteOfDay) → (∀ y ∈ p.schedule, y.2.minuteOfDay ≤ x.2.minuteOfDay) →
        p.zoneEval = x.2.zone)))
  ∧ (∀ (s : State) (f : Frame) (rest : List Frame) (tag : Byte) (fld v : Nat), s.Asks .policySet f rest → fld < 12 →
    v < (if fld = 4 ∨ fld = 7 ∨ fld = 10 then 65536 else 256) →
    f.payload = tag :: (beBytes 1 fld ++ policyBytes fld v) →
    let x := policyClamp fld v
    let new := s.part.policy.set fld x
    let reply := if x = v then s.part.replyTo f .ok new.bytes
      else s.part.replyTo f .okClamped (beBytes 1 1 ++ (beBytes 1 fld ++ policyBytes fld x) ++ new.bytes)
    ∃ u, exec .policySet s = .next u ∧ u.part.policy = new
      ∧ (u.part.tfl.held = some reply ∨ u.part.link.reports.getLast? = some reply)
      ∧ (fld ∈ [0, 1, 2, 6, 7, 8] → u.part.alt = s.part.alt ∧ u.part.rentals = s.part.rentals ∧ u.part.cen = s.part.cen
        ∧ u.part.link.watch = s.part.link.watch)
      ∧ (fld = 9 → u.part.link.watch = if x = 0 then .off else .watching (s.part.mono + 1000 * x))
      ∧ (fld = 3 ∨ fld = 4 → x ≠ s.part.policy.get fld → ∀ i r, i ∈ u.part.due → Table.look u.part.rentals i = some r →
        r.snap = none → r.tier = tierOf new.dueSoon new.escalation r.due r.grace s.part.now))
  ∧ (∀ (s : State) (f : Frame) (rest : List Frame) (tag : Byte) (fld v : Nat), s.Asks .policySet f rest → fld < 12 →
    v < (if fld = 4 ∨ fld = 7 ∨ fld = 10 then 65536 else 256) →
    f.payload = tag :: (beBytes 1 fld ++ policyBytes fld v) →
    let x := policyClamp fld v
    let new := s.part.policy.set fld x
    let reply := if x = v then s.part.replyTo f .ok new.bytes
      else s.part.replyTo f .okClamped (beBytes 1 1 ++ (beBytes 1 fld ++ policyBytes fld x) ++ new.bytes)
    let changes : Prop := x ≠ s.part.policy.get fld
    let p : Part := { s.part.asked f rest with policy := new }
    let becomes (q : Part) : Prop := q.essRoom = true → s.Becomes (exec .policySet s) (q.queued reply)
    (fld ≠ 9 → ¬ changes → becomes p)
    ∧ (fld ∈ [0, 1, 2, 6, 7, 8] → becomes p)
    ∧ (fld = 3 ∨ fld = 4 → changes → ∀ i r, s.part.due = [i] → Table.look s.part.rentals i = some r → r.snap = none →
      let tier := tierOf new.dueSoon new.escalation r.due r.grace s.part.now
      (tier = r.tier → becomes p)
      ∧ (tier ≠ r.tier →
        ({ p with rentals := Table.put s.part.rentals i { r with tier := tier } } : Part).TierTold r tier becomes))
    ∧ (fld = 5 → changes →
      let nexts (g : AlertEntry → Option Nat) : Part := { p with
        alt := { s.part.alt with entries := s.part.alt.entries.map (fun e => { e with next := g e }) } }
      let interval := match s.part.zone with
        | .staffed => x
        | .unstaffed => 2 * x
      (x = 0 → becomes (nexts (fun _ => none)))
      ∧ (x ≠ 0 → s.part.policy.reAlert = 0 →
        becomes (nexts (fun e => if e.acked then e.next else some (s.part.now + interval))))
      ∧ (x ≠ 0 → s.part.policy.reAlert ≠ 0 → becomes p))
    ∧ (fld = 10 → changes → becomes { p with
      cen := { s.part.cen with
        nextStart := if x = 0 ∨ s.part.clock.set = false then none else some (s.part.cen.startMin.getD s.part.now + x) } })
    ∧ (fld = 11 → changes → becomes p))
  ∧ (∀ v, policyClamp 0 v = min 120 v ∧ policyClamp 1 v = max 15 (min 240 v) ∧ policyClamp 2 v = max 1 (min 24 v)
    ∧ policyClamp 3 v = min 240 v ∧ policyClamp 4 v = max 30 (min 2880 v)
    ∧ policyClamp 5 v = (if v = 0 then 0 else max 15 (min 240 v)) ∧ policyClamp 6 v = max 5 (min 120 v)
    ∧ policyClamp 8 v = max 1 (min 9 v) ∧ policyClamp 10 v = (if v = 0 then 0 else max 30 (min 1440 v))
    ∧ policyClamp 11 v = min 1 v
    ∧ policyClamp 7 v % 100 = 0 ∧ 100 ≤ policyClamp 7 v ∧ policyClamp 7 v ≤ 2000
    ∧ (100 ≤ v → v ≤ 2000 → policyClamp 7 v ≤ v + 50 ∧ v < policyClamp 7 v + 50)
    ∧ policyClamp 9 v ∈ [0, 10, 20, 40, 80, 160] ∧ (policyClamp 9 v = 0 ↔ v = 0)
    ∧ (v ≠ 0 → ∀ w ∈ [10, 20, 40, 80, 160],
      (v - policyClamp 9 v) + (policyClamp 9 v - v) ≤ (v - w) + (w - v)
        ∧ ((v - policyClamp 9 v) + (policyClamp 9 v - v) = (v - w) + (w - v) → w ≤ policyClamp 9 v)))

/-- RESTART ALL: every piece of state at its power-on value but monotonic time, the receiver and the strap, the watch 40 seconds
ahead, the response first in the emptied queue (R199, R200); that a channel that was not OFF has the end of a new reset pulse
and one that was OFF none (log 14), that the report being sent is given up (log 28), and that the level of a line another holds
(log 38) and that of the clear-to-send input (log 7) stay are the model's choice. RESTART LOGIC ends what R198 names and keeps
the tables, the clock, the policy, the rentals, the Drop Bin list and, with no context and no queued request, keys,
authorizations and alerts. -/
def Obligations.RestartsBringAKnownState : Prop :=
  ∀ (s : State) (f : Frame) (rest : List Frame) (tag : Byte),
    (s.Asks .restartAll f rest → f.payload = [tag, 1#8] →
      let r := State.reset.part
      let chan (ch : Channel) : Channel :=
        { Channel.powerOn with held := ch.held, pulse := if ch.state = .off then none else some (s.part.mono + 20) }
      s.Becomes (exec .restartAll s) (({ r with
        mono := s.part.mono, strapHigh := s.part.strapHigh
        link := { r.link with rx := s.part.link.rx, cts := s.part.link.cts, watch := .watching (s.part.mono + 40000) }
        chanA := chan s.part.chanA, chanB := chan s.part.chanB } : Part).queued (s.part.replyTo f .ok [])))
    ∧ (s.Asks .restartLogic f rest → f.payload = [tag, 0#8] → (∀ o ∈ s.part.lmp.overrides, o.1 ∈ allModules) →
      ∃ u, exec .restartLogic s = .next u
      ∧ u.part.holdSeq = .idle ∧ u.part.link.inbound = [] ∧ u.part.filters = [] ∧ u.part.tfl.tracking = []
      ∧ u.part.lmp.overrides = [] ∧ u.part.lmp.test = none ∧ u.part.cen.state = .idle ∧ u.part.cen.list = []
      ∧ u.part.cen.nextStart = s.part.cen.nextStart ∧ u.part.cen.skipped = s.part.cen.skipped
      ∧ u.part.link.watch = (if s.part.policy.linkWatch = 0 then .off
          else .watching (s.part.mono + 1000 * s.part.policy.linkWatch))
      ∧ (∀ c, ((s.part.chan c).state = .off → (u.part.chan c).state = .off)
        ∧ ((s.part.chan c).state ≠ .off → (u.part.chan c).state = .starting .pulse ∧ (u.part.chan c).history = []
          ∧ (u.part.chan c).queue = [] ∧ (u.part.chan c).pulse = some (s.part.mono + 20)
          ∧ ∀ n ∈ s.part.chanSlots c, ∀ r, Table.look s.part.rows n = some r →
            Table.look u.part.rows n = some ⟨none, none, none, none, none⟩)
        ∧ (u.part.chan c).map = (s.part.chan c).map ∧ (u.part.chan c).misses = (s.part.chan c).misses)
      ∧ (∀ e ∈ u.part.rows, e.2.guide = none)
      ∧ u.part.mono = s.part.mono ∧ u.part.clock = s.part.clock ∧ u.part.zone = s.part.zone
      ∧ u.part.policy = s.part.policy ∧ u.part.slotMap = s.part.slotMap ∧ u.part.groups = s.part.groups
      ∧ u.part.tfl.terminals = s.part.tfl.terminals ∧ u.part.tfl.passTable = s.part.tfl.passTable
      ∧ u.part.schedule = s.part.schedule ∧ u.part.rentals = s.part.rentals ∧ u.part.due = s.part.due
      ∧ u.part.dropBin = s.part.dropBin ∧ u.part.dupCounts = s.part.dupCounts ∧ u.part.lmp.blank = s.part.lmp.blank
      ∧ (s.part.ctxs = [] → s.part.waitQ = [] → u.part.keys = s.part.keys ∧ u.part.auths = s.part.auths
        ∧ u.part.alt = s.part.alt)
      ∧ (let r := s.part.replyTo f .ok []
         u.part.tfl.held = some r ∨ u.part.link.reports.getLast? = some r))
end

