-- ==== Sys2Proof/Laws/State.lean ====
section
/-! SUPPORT. The named record updates of Part: what each leaves as it was, field by field, and what it writes. Each is
true by rfl (onChan by cases on the channel) and a simp lemma, so that no proof unfolds a record update. -/

namespace Sys2Proof.Machine
set_option Elab.async false
open Sys2Proof

@[simp] theorem Part.onLink_fields (p : Part) (f : Link → Link) :
    (p.onLink f).mono = p.mono ∧ (p.onLink f).strapHigh = p.strapHigh ∧ (p.onLink f).tfl = p.tfl ∧
    (p.onLink f).chanA = p.chanA ∧ (p.onLink f).chanB = p.chanB ∧ (p.onLink f).rows = p.rows ∧
    (p.onLink f).keys = p.keys ∧ (p.onLink f).slotMap = p.slotMap ∧ (p.onLink f).groups = p.groups ∧
    (p.onLink f).holdSeq = p.holdSeq ∧ (p.onLink f).auths = p.auths ∧ (p.onLink f).ctxs = p.ctxs ∧
    (p.onLink f).waitQ = p.waitQ ∧ (p.onLink f).nextId = p.nextId ∧ (p.onLink f).dropBin = p.dropBin ∧
    (p.onLink f).filters = p.filters ∧ (p.onLink f).dupCounts = p.dupCounts ∧ (p.onLink f).clock = p.clock ∧
    (p.onLink f).zone = p.zone ∧ (p.onLink f).schedule = p.schedule ∧ (p.onLink f).rentals = p.rentals ∧
    (p.onLink f).due = p.due ∧ (p.onLink f).tickRel = p.tickRel ∧ (p.onLink f).tickAlt = p.tickAlt ∧
    (p.onLink f).tickCen = p.tickCen ∧ (p.onLink f).alt = p.alt ∧ (p.onLink f).cen = p.cen ∧
    (p.onLink f).lmp = p.lmp ∧ (p.onLink f).policy = p.policy ∧ (p.onLink f).link = f p.link := ⟨rfl, rfl, rfl, rfl, rfl, rfl, rfl, rfl, rfl, rfl, rfl, rfl, rfl, rfl, rfl, rfl, rfl, rfl, rfl, rfl,
    rfl, rfl, rfl, rfl, rfl, rfl, rfl, rfl, rfl, rfl⟩

@[simp] theorem Part.setRx_fields (p : Part) (r : Receiver) :
    (p.setRx r).mono = p.mono ∧ (p.setRx r).strapHigh = p.strapHigh ∧ (p.setRx r).tfl = p.tfl ∧
    (p.setRx r).chanA = p.chanA ∧ (p.setRx r).chanB = p.chanB ∧ (p.setRx r).rows = p.rows ∧
    (p.setRx r).keys = p.keys ∧ (p.setRx r).slotMap = p.slotMap ∧ (p.setRx r).groups = p.groups ∧
    (p.setRx r).holdSeq = p.holdSeq ∧ (p.setRx r).auths = p.auths ∧ (p.setRx r).ctxs = p.ctxs ∧
    (p.setRx r).waitQ = p.waitQ ∧ (p.setRx r).nextId = p.nextId ∧ (p.setRx r).dropBin = p.dropBin ∧
    (p.setRx r).filters = p.filters ∧ (p.setRx r).dupCounts = p.dupCounts ∧ (p.setRx r).clock = p.clock ∧
    (p.setRx r).zone = p.zone ∧ (p.setRx r).schedule = p.schedule ∧ (p.setRx r).rentals = p.rentals ∧
    (p.setRx r).due = p.due ∧ (p.setRx r).tickRel = p.tickRel ∧ (p.setRx r).tickAlt = p.tickAlt ∧
    (p.setRx r).tickCen = p.tickCen ∧ (p.setRx r).alt = p.alt ∧ (p.setRx r).cen = p.cen ∧ (p.setRx r).lmp = p.lmp ∧
    (p.setRx r).policy = p.policy ∧ (p.setRx r).link = { p.link with rx := r } := ⟨rfl, rfl, rfl, rfl, rfl, rfl, rfl, rfl, rfl, rfl, rfl, rfl, rfl, rfl, rfl, rfl, rfl, rfl, rfl, rfl,
    rfl, rfl, rfl, rfl, rfl, rfl, rfl, rfl, rfl, rfl⟩

@[simp] theorem Part.linkCount_fields (p : Part) (f : LinkCounters → LinkCounters) :
    (p.linkCount f).mono = p.mono ∧ (p.linkCount f).strapHigh = p.strapHigh ∧ (p.linkCount f).tfl = p.tfl ∧
    (p.linkCount f).chanA = p.chanA ∧ (p.linkCount f).chanB = p.chanB ∧ (p.linkCount f).rows = p.rows ∧
    (p.linkCount f).keys = p.keys ∧ (p.linkCount f).slotMap = p.slotMap ∧ (p.linkCount f).groups = p.groups ∧
    (p.linkCount f).holdSeq = p.holdSeq ∧ (p.linkCount f).auths = p.auths ∧ (p.linkCount f).ctxs = p.ctxs ∧
    (p.linkCount f).waitQ = p.waitQ ∧ (p.linkCount f).nextId = p.nextId ∧ (p.linkCount f).dropBin = p.dropBin ∧
    (p.linkCount f).filters = p.filters ∧ (p.linkCount f).dupCounts = p.dupCounts ∧ (p.linkCount f).clock = p.clock ∧
    (p.linkCount f).zone = p.zone ∧ (p.linkCount f).schedule = p.schedule ∧ (p.linkCount f).rentals = p.rentals ∧
    (p.linkCount f).due = p.due ∧ (p.linkCount f).tickRel = p.tickRel ∧ (p.linkCount f).tickAlt = p.tickAlt ∧
    (p.linkCount f).tickCen = p.tickCen ∧ (p.linkCount f).alt = p.alt ∧ (p.linkCount f).cen = p.cen ∧
    (p.linkCount f).lmp = p.lmp ∧ (p.linkCount f).policy = p.policy ∧
    (p.linkCount f).link = { p.link with counters := f p.link.counters } := ⟨rfl, rfl, rfl, rfl, rfl, rfl, rfl, rfl, rfl, rfl, rfl, rfl, rfl, rfl, rfl, rfl, rfl, rfl, rfl, rfl,
    rfl, rfl, rfl, rfl, rfl, rfl, rfl, rfl, rfl, rfl⟩

@[simp] theorem Part.enter_fields (p : Part) (r : Report) :
    (p.enter r).mono = p.mono ∧ (p.enter r).strapHigh = p.strapHigh ∧ (p.enter r).tfl = p.tfl ∧
    (p.enter r).chanA = p.chanA ∧ (p.enter r).chanB = p.chanB ∧ (p.enter r).rows = p.rows ∧
    (p.enter r).keys = p.keys ∧ (p.enter r).slotMap = p.slotMap ∧ (p.enter r).groups = p.groups ∧
    (p.enter r).holdSeq = p.holdSeq ∧ (p.enter r).auths = p.auths ∧ (p.enter r).ctxs = p.ctxs ∧
    (p.enter r).waitQ = p.waitQ ∧ (p.enter r).nextId = p.nextId ∧ (p.enter r).dropBin = p.dropBin ∧
    (p.enter r).filters = p.filters ∧ (p.enter r).dupCounts = p.dupCounts ∧ (p.enter r).clock = p.clock ∧
    (p.enter r).zone = p.zone ∧ (p.enter r).schedule = p.schedule ∧ (p.enter r).rentals = p.rentals ∧
    (p.enter r).due = p.due ∧ (p.enter r).tickRel = p.tickRel ∧ (p.enter r).tickAlt = p.tickAlt ∧
    (p.enter r).tickCen = p.tickCen ∧ (p.enter r).alt = p.alt ∧ (p.enter r).cen = p.cen ∧ (p.enter r).lmp = p.lmp ∧
    (p.enter r).policy = p.policy ∧ (p.enter r).link = { p.link with reports := p.link.reports ++ [r] } := ⟨rfl, rfl, rfl, rfl, rfl, rfl, rfl, rfl, rfl, rfl, rfl, rfl, rfl, rfl, rfl, rfl, rfl, rfl, rfl, rfl,
    rfl, rfl, rfl, rfl, rfl, rfl, rfl, rfl, rfl, rfl⟩

@[simp] theorem Part.await_fields (p : Part) (w : Waiter) :
    (p.await w).mono = p.mono ∧ (p.await w).strapHigh = p.strapHigh ∧ (p.await w).tfl = p.tfl ∧
    (p.await w).chanA = p.chanA ∧ (p.await w).chanB = p.chanB ∧ (p.await w).rows = p.rows ∧
    (p.await w).keys = p.keys ∧ (p.await w).slotMap = p.slotMap ∧ (p.await w).groups = p.groups ∧
    (p.await w).holdSeq = p.holdSeq ∧ (p.await w).auths = p.auths ∧ (p.await w).ctxs = p.ctxs ∧
    (p.await w).waitQ = p.waitQ ∧ (p.await w).nextId = p.nextId ∧ (p.await w).dropBin = p.dropBin ∧
    (p.await w).filters = p.filters ∧ (p.await w).dupCounts = p.dupCounts ∧ (p.await w).clock = p.clock ∧
    (p.await w).zone = p.zone ∧ (p.await w).schedule = p.schedule ∧ (p.await w).rentals = p.rentals ∧
    (p.await w).due = p.due ∧ (p.await w).tickRel = p.tickRel ∧ (p.await w).tickAlt = p.tickAlt ∧
    (p.await w).tickCen = p.tickCen ∧ (p.await w).alt = p.alt ∧ (p.await w).cen = p.cen ∧ (p.await w).lmp = p.lmp ∧
    (p.await w).policy = p.policy ∧ (p.await w).link = p.link.await w := ⟨rfl, rfl, rfl, rfl, rfl, rfl, rfl, rfl, rfl, rfl, rfl, rfl, rfl, rfl, rfl, rfl, rfl, rfl, rfl, rfl,
    rfl, rfl, rfl, rfl, rfl, rfl, rfl, rfl, rfl, rfl⟩

@[simp] theorem Part.unwait_fields (p : Part) (w : Waiter) :
    (p.unwait w).mono = p.mono ∧ (p.unwait w).strapHigh = p.strapHigh ∧ (p.unwait w).tfl = p.tfl ∧
    (p.unwait w).chanA = p.chanA ∧ (p.unwait w).chanB = p.chanB ∧ (p.unwait w).rows = p.rows ∧
    (p.unwait w).keys = p.keys ∧ (p.unwait w).slotMap = p.slotMap ∧ (p.unwait w).groups = p.groups ∧
    (p.unwait w).holdSeq = p.holdSeq ∧ (p.unwait w).auths = p.auths ∧ (p.unwait w).ctxs = p.ctxs ∧
    (p.unwait w).waitQ = p.waitQ ∧ (p.unwait w).nextId = p.nextId ∧ (p.unwait w).dropBin = p.dropBin ∧
    (p.unwait w).filters = p.filters ∧ (p.unwait w).dupCounts = p.dupCounts ∧ (p.unwait w).clock = p.clock ∧
    (p.unwait w).zone = p.zone ∧ (p.unwait w).schedule = p.schedule ∧ (p.unwait w).rentals = p.rentals ∧
    (p.unwait w).due = p.due ∧ (p.unwait w).tickRel = p.tickRel ∧ (p.unwait w).tickAlt = p.tickAlt ∧
    (p.unwait w).tickCen = p.tickCen ∧ (p.unwait w).alt = p.alt ∧ (p.unwait w).cen = p.cen ∧
    (p.unwait w).lmp = p.lmp ∧ (p.unwait w).policy = p.policy ∧ (p.unwait w).link = p.link.unwait w := ⟨rfl, rfl, rfl, rfl, rfl, rfl, rfl, rfl, rfl, rfl, rfl, rfl, rfl, rfl, rfl, rfl, rfl, rfl, rfl, rfl,
    rfl, rfl, rfl, rfl, rfl, rfl, rfl, rfl, rfl, rfl⟩

@[simp] theorem Part.popWaiter_fields (p : Part) :
    (p.popWaiter).mono = p.mono ∧ (p.popWaiter).strapHigh = p.strapHigh ∧ (p.popWaiter).tfl = p.tfl ∧
    (p.popWaiter).chanA = p.chanA ∧ (p.popWaiter).chanB = p.chanB ∧ (p.popWaiter).rows = p.rows ∧
    (p.popWaiter).keys = p.keys ∧ (p.popWaiter).slotMap = p.slotMap ∧ (p.popWaiter).groups = p.groups ∧
    (p.popWaiter).holdSeq = p.holdSeq ∧ (p.popWaiter).auths = p.auths ∧ (p.popWaiter).ctxs = p.ctxs ∧
    (p.popWaiter).waitQ = p.waitQ ∧ (p.popWaiter).nextId = p.nextId ∧ (p.popWaiter).dropBin = p.dropBin ∧
    (p.popWaiter).filters = p.filters ∧ (p.popWaiter).dupCounts = p.dupCounts ∧ (p.popWaiter).clock = p.clock ∧
    (p.popWaiter).zone = p.zone ∧ (p.popWaiter).schedule = p.schedule ∧ (p.popWaiter).rentals = p.rentals ∧
    (p.popWaiter).due = p.due ∧ (p.popWaiter).tickRel = p.tickRel ∧ (p.popWaiter).tickAlt = p.tickAlt ∧
    (p.popWaiter).tickCen = p.tickCen ∧ (p.popWaiter).alt = p.alt ∧ (p.popWaiter).cen = p.cen ∧
    (p.popWaiter).lmp = p.lmp ∧ (p.popWaiter).policy = p.policy ∧
    p.popWaiter.link = { p.link with waiters := p.link.waiters.drop 1 } := ⟨rfl, rfl, rfl, rfl, rfl, rfl, rfl, rfl, rfl, rfl, rfl, rfl, rfl, rfl, rfl, rfl, rfl, rfl, rfl, rfl,
    rfl, rfl, rfl, rfl, rfl, rfl, rfl, rfl, rfl, rfl⟩

@[simp] theorem Part.touch_fields (p : Part) (ks : List Nat) :
    (p.touch ks).mono = p.mono ∧ (p.touch ks).strapHigh = p.strapHigh ∧ (p.touch ks).link = p.link ∧
    (p.touch ks).tfl = p.tfl ∧ (p.touch ks).chanA = p.chanA ∧ (p.touch ks).chanB = p.chanB ∧
    (p.touch ks).rows = p.rows ∧ (p.touch ks).keys = p.keys ∧ (p.touch ks).slotMap = p.slotMap ∧
    (p.touch ks).groups = p.groups ∧ (p.touch ks).holdSeq = p.holdSeq ∧ (p.touch ks).auths = p.auths ∧
    (p.touch ks).ctxs = p.ctxs ∧ (p.touch ks).waitQ = p.waitQ ∧ (p.touch ks).nextId = p.nextId ∧
    (p.touch ks).dropBin = p.dropBin ∧ (p.touch ks).filters = p.filters ∧ (p.touch ks).dupCounts = p.dupCounts ∧
    (p.touch ks).clock = p.clock ∧ (p.touch ks).zone = p.zone ∧ (p.touch ks).schedule = p.schedule ∧
    (p.touch ks).rentals = p.rentals ∧ (p.touch ks).due = p.due ∧ (p.touch ks).tickRel = p.tickRel ∧
    (p.touch ks).tickAlt = p.tickAlt ∧ (p.touch ks).tickCen = p.tickCen ∧ (p.touch ks).alt = p.alt ∧
    (p.touch ks).cen = p.cen ∧ (p.touch ks).policy = p.policy ∧
    (p.touch ks).lmp = { p.lmp with touched := p.lmp.touched ++ ks } := ⟨rfl, rfl, rfl, rfl, rfl, rfl, rfl, rfl, rfl, rfl, rfl, rfl, rfl, rfl, rfl, rfl, rfl, rfl, rfl, rfl,
    rfl, rfl, rfl, rfl, rfl, rfl, rfl, rfl, rfl, rfl⟩

@[simp] theorem Part.touchSlot_fields (p : Part) (s : Nat) :
    (p.touchSlot s).mono = p.mono ∧ (p.touchSlot s).strapHigh = p.strapHigh ∧ (p.touchSlot s).link = p.link ∧
    (p.touchSlot s).tfl = p.tfl ∧ (p.touchSlot s).chanA = p.chanA ∧ (p.touchSlot s).chanB = p.chanB ∧
    (p.touchSlot s).rows = p.rows ∧ (p.touchSlot s).keys = p.keys ∧ (p.touchSlot s).slotMap = p.slotMap ∧
    (p.touchSlot s).groups = p.groups ∧ (p.touchSlot s).holdSeq = p.holdSeq ∧ (p.touchSlot s).auths = p.auths ∧
    (p.touchSlot s).ctxs = p.ctxs ∧ (p.touchSlot s).waitQ = p.waitQ ∧ (p.touchSlot s).nextId = p.nextId ∧
    (p.touchSlot s).dropBin = p.dropBin ∧ (p.touchSlot s).filters = p.filters ∧
    (p.touchSlot s).dupCounts = p.dupCounts ∧ (p.touchSlot s).clock = p.clock ∧ (p.touchSlot s).zone = p.zone ∧
    (p.touchSlot s).schedule = p.schedule ∧ (p.touchSlot s).rentals = p.rentals ∧ (p.touchSlot s).due = p.due ∧
    (p.touchSlot s).tickRel = p.tickRel ∧ (p.touchSlot s).tickAlt = p.tickAlt ∧ (p.touchSlot s).tickCen = p.tickCen ∧
    (p.touchSlot s).alt = p.alt ∧ (p.touchSlot s).cen = p.cen ∧ (p.touchSlot s).policy = p.policy := ⟨rfl, rfl, rfl, rfl, rfl, rfl, rfl, rfl, rfl, rfl, rfl, rfl, rfl, rfl, rfl, rfl, rfl, rfl, rfl, rfl,
    rfl, rfl, rfl, rfl, rfl, rfl, rfl, rfl, rfl⟩

@[simp] theorem Part.onRow_fields (p : Part) (s : Nat) (f : SlotRow → SlotRow) :
    (p.onRow s f).mono = p.mono ∧ (p.onRow s f).strapHigh = p.strapHigh ∧ (p.onRow s f).link = p.link ∧
    (p.onRow s f).tfl = p.tfl ∧ (p.onRow s f).chanA = p.chanA ∧ (p.onRow s f).chanB = p.chanB ∧
    (p.onRow s f).keys = p.keys ∧ (p.onRow s f).slotMap = p.slotMap ∧ (p.onRow s f).groups = p.groups ∧
    (p.onRow s f).holdSeq = p.holdSeq ∧ (p.onRow s f).auths = p.auths ∧ (p.onRow s f).ctxs = p.ctxs ∧
    (p.onRow s f).waitQ = p.waitQ ∧ (p.onRow s f).nextId = p.nextId ∧ (p.onRow s f).dropBin = p.dropBin ∧
    (p.onRow s f).filters = p.filters ∧ (p.onRow s f).dupCounts = p.dupCounts ∧ (p.onRow s f).clock = p.clock ∧
    (p.onRow s f).zone = p.zone ∧ (p.onRow s f).schedule = p.schedule ∧ (p.onRow s f).rentals = p.rentals ∧
    (p.onRow s f).due = p.due ∧ (p.onRow s f).tickRel = p.tickRel ∧ (p.onRow s f).tickAlt = p.tickAlt ∧
    (p.onRow s f).tickCen = p.tickCen ∧ (p.onRow s f).alt = p.alt ∧ (p.onRow s f).cen = p.cen ∧
    (p.onRow s f).lmp = p.lmp ∧ (p.onRow s f).policy = p.policy ∧ (p.onRow s f).rows = Table.modify p.rows s f := ⟨rfl, rfl, rfl, rfl, rfl, rfl, rfl, rfl, rfl, rfl, rfl, rfl, rfl, rfl, rfl, rfl, rfl, rfl, rfl, rfl,
    rfl, rfl, rfl, rfl, rfl, rfl, rfl, rfl, rfl, rfl⟩

@[simp] theorem Part.setFlag_fields (p : Part) (i : Nat) :
    (p.setFlag i).mono = p.mono ∧ (p.setFlag i).strapHigh = p.strapHigh ∧ (p.setFlag i).link = p.link ∧
    (p.setFlag i).tfl = p.tfl ∧ (p.setFlag i).chanA = p.chanA ∧ (p.setFlag i).chanB = p.chanB ∧
    (p.setFlag i).rows = p.rows ∧ (p.setFlag i).keys = p.keys ∧ (p.setFlag i).slotMap = p.slotMap ∧
    (p.setFlag i).groups = p.groups ∧ (p.setFlag i).holdSeq = p.holdSeq ∧ (p.setFlag i).auths = p.auths ∧
    (p.setFlag i).ctxs = p.ctxs ∧ (p.setFlag i).waitQ = p.waitQ ∧ (p.setFlag i).nextId = p.nextId ∧
    (p.setFlag i).dropBin = p.dropBin ∧ (p.setFlag i).filters = p.filters ∧ (p.setFlag i).dupCounts = p.dupCounts ∧
    (p.setFlag i).clock = p.clock ∧ (p.setFlag i).zone = p.zone ∧ (p.setFlag i).schedule = p.schedule ∧
    (p.setFlag i).rentals = p.rentals ∧ (p.setFlag i).due = p.due ∧ (p.setFlag i).tickRel = p.tickRel ∧
    (p.setFlag i).tickAlt = p.tickAlt ∧ (p.setFlag i).tickCen = p.tickCen ∧ (p.setFlag i).cen = p.cen ∧
    (p.setFlag i).lmp = p.lmp ∧ (p.setFlag i).policy = p.policy ∧
    (p.setFlag i).alt = { p.alt with flags := setBit p.alt.flags i } := ⟨rfl, rfl, rfl, rfl, rfl, rfl, rfl, rfl, rfl, rfl, rfl, rfl, rfl, rfl, rfl, rfl, rfl, rfl, rfl, rfl,
    rfl, rfl, rfl, rfl, rfl, rfl, rfl, rfl, rfl, rfl⟩

@[simp] theorem Part.clearFlag_fields (p : Part) (i : Nat) :
    (p.clearFlag i).mono = p.mono ∧ (p.clearFlag i).strapHigh = p.strapHigh ∧ (p.clearFlag i).link = p.link ∧
    (p.clearFlag i).tfl = p.tfl ∧ (p.clearFlag i).chanA = p.chanA ∧ (p.clearFlag i).chanB = p.chanB ∧
    (p.clearFlag i).rows = p.rows ∧ (p.clearFlag i).keys = p.keys ∧ (p.clearFlag i).slotMap = p.slotMap ∧
    (p.clearFlag i).groups = p.groups ∧ (p.clearFlag i).holdSeq = p.holdSeq ∧ (p.clearFlag i).auths = p.auths ∧
    (p.clearFlag i).ctxs = p.ctxs ∧ (p.clearFlag i).waitQ = p.waitQ ∧ (p.clearFlag i).nextId = p.nextId ∧
    (p.clearFlag i).dropBin = p.dropBin ∧ (p.clearFlag i).filters = p.filters ∧
    (p.clearFlag i).dupCounts = p.dupCounts ∧ (p.clearFlag i).clock = p.clock ∧ (p.clearFlag i).zone = p.zone ∧
    (p.clearFlag i).schedule = p.schedule ∧ (p.clearFlag i).rentals = p.rentals ∧ (p.clearFlag i).due = p.due ∧
    (p.clearFlag i).tickRel = p.tickRel ∧ (p.clearFlag i).tickAlt = p.tickAlt ∧ (p.clearFlag i).tickCen = p.tickCen ∧
    (p.clearFlag i).cen = p.cen ∧ (p.clearFlag i).lmp = p.lmp ∧ (p.clearFlag i).policy = p.policy ∧
    (p.clearFlag i).alt = { p.alt with flags := clearBit p.alt.flags i } := ⟨rfl, rfl, rfl, rfl, rfl, rfl, rfl, rfl, rfl, rfl, rfl, rfl, rfl, rfl, rfl, rfl, rfl, rfl, rfl, rfl,
    rfl, rfl, rfl, rfl, rfl, rfl, rfl, rfl, rfl, rfl⟩

@[simp] theorem Part.onCtx_fields (p : Part) (i : Nat) (f : Ctx → Ctx) :
    (p.onCtx i f).mono = p.mono ∧ (p.onCtx i f).strapHigh = p.strapHigh ∧ (p.onCtx i f).link = p.link ∧
    (p.onCtx i f).tfl = p.tfl ∧ (p.onCtx i f).chanA = p.chanA ∧ (p.onCtx i f).chanB = p.chanB ∧
    (p.onCtx i f).rows = p.rows ∧ (p.onCtx i f).keys = p.keys ∧ (p.onCtx i f).slotMap = p.slotMap ∧
    (p.onCtx i f).groups = p.groups ∧ (p.onCtx i f).holdSeq = p.holdSeq ∧ (p.onCtx i f).auths = p.auths ∧
    (p.onCtx i f).waitQ = p.waitQ ∧ (p.onCtx i f).nextId = p.nextId ∧ (p.onCtx i f).dropBin = p.dropBin ∧
    (p.onCtx i f).filters = p.filters ∧ (p.onCtx i f).dupCounts = p.dupCounts ∧ (p.onCtx i f).clock = p.clock ∧
    (p.onCtx i f).zone = p.zone ∧ (p.onCtx i f).schedule = p.schedule ∧ (p.onCtx i f).rentals = p.rentals ∧
    (p.onCtx i f).due = p.due ∧ (p.onCtx i f).tickRel = p.tickRel ∧ (p.onCtx i f).tickAlt = p.tickAlt ∧
    (p.onCtx i f).tickCen = p.tickCen ∧ (p.onCtx i f).alt = p.alt ∧ (p.onCtx i f).cen = p.cen ∧
    (p.onCtx i f).lmp = p.lmp ∧ (p.onCtx i f).policy = p.policy ∧ (p.onCtx i f).ctxs = Table.modify p.ctxs i f := ⟨rfl, rfl, rfl, rfl, rfl, rfl, rfl, rfl, rfl, rfl, rfl, rfl, rfl, rfl, rfl, rfl, rfl, rfl, rfl, rfl,
    rfl, rfl, rfl, rfl, rfl, rfl, rfl, rfl, rfl, rfl⟩

@[simp] theorem Part.setResult_fields (p : Part) (i : Nat) (r : CtxResult) :
    (p.setResult i r).mono = p.mono ∧ (p.setResult i r).strapHigh = p.strapHigh ∧ (p.setResult i r).link = p.link ∧
    (p.setResult i r).tfl = p.tfl ∧ (p.setResult i r).chanA = p.chanA ∧ (p.setResult i r).chanB = p.chanB ∧
    (p.setResult i r).rows = p.rows ∧ (p.setResult i r).keys = p.keys ∧ (p.setResult i r).slotMap = p.slotMap ∧
    (p.setResult i r).groups = p.groups ∧ (p.setResult i r).holdSeq = p.holdSeq ∧ (p.setResult i r).auths = p.auths ∧
    (p.setResult i r).waitQ = p.waitQ ∧ (p.setResult i r).nextId = p.nextId ∧ (p.setResult i r).dropBin = p.dropBin ∧
    (p.setResult i r).filters = p.filters ∧ (p.setResult i r).dupCounts = p.dupCounts ∧
    (p.setResult i r).clock = p.clock ∧ (p.setResult i r).zone = p.zone ∧ (p.setResult i r).schedule = p.schedule ∧
    (p.setResult i r).rentals = p.rentals ∧ (p.setResult i r).due = p.due ∧ (p.setResult i r).tickRel = p.tickRel ∧
    (p.setResult i r).tickAlt = p.tickAlt ∧ (p.setResult i r).tickCen = p.tickCen ∧ (p.setResult i r).alt = p.alt ∧
    (p.setResult i r).cen = p.cen ∧ (p.setResult i r).lmp = p.lmp ∧ (p.setResult i r).policy = p.policy := ⟨rfl, rfl, rfl, rfl, rfl, rfl, rfl, rfl, rfl, rfl, rfl, rfl, rfl, rfl, rfl, rfl, rfl, rfl, rfl, rfl,
    rfl, rfl, rfl, rfl, rfl, rfl, rfl, rfl, rfl⟩

@[simp] theorem Part.onAuth_fields (p : Part) (n : Nat) (f : Auth → Auth) :
    (p.onAuth n f).mono = p.mono ∧ (p.onAuth n f).strapHigh = p.strapHigh ∧ (p.onAuth n f).link = p.link ∧
    (p.onAuth n f).tfl = p.tfl ∧ (p.onAuth n f).chanA = p.chanA ∧ (p.onAuth n f).chanB = p.chanB ∧
    (p.onAuth n f).rows = p.rows ∧ (p.onAuth n f).keys = p.keys ∧ (p.onAuth n f).slotMap = p.slotMap ∧
    (p.onAuth n f).groups = p.groups ∧ (p.onAuth n f).holdSeq = p.holdSeq ∧ (p.onAuth n f).ctxs = p.ctxs ∧
    (p.onAuth n f).waitQ = p.waitQ ∧ (p.onAuth n f).nextId = p.nextId ∧ (p.onAuth n f).dropBin = p.dropBin ∧
    (p.onAuth n f).filters = p.filters ∧ (p.onAuth n f).dupCounts = p.dupCounts ∧ (p.onAuth n f).clock = p.clock ∧
    (p.onAuth n f).zone = p.zone ∧ (p.onAuth n f).schedule = p.schedule ∧ (p.onAuth n f).rentals = p.rentals ∧
    (p.onAuth n f).due = p.due ∧ (p.onAuth n f).tickRel = p.tickRel ∧ (p.onAuth n f).tickAlt = p.tickAlt ∧
    (p.onAuth n f).tickCen = p.tickCen ∧ (p.onAuth n f).alt = p.alt ∧ (p.onAuth n f).cen = p.cen ∧
    (p.onAuth n f).lmp = p.lmp ∧ (p.onAuth n f).policy = p.policy ∧
    (p.onAuth n f).auths = p.auths.map (fun a => if a.rental = n then f a else a) := ⟨rfl, rfl, rfl, rfl, rfl, rfl, rfl, rfl, rfl, rfl, rfl, rfl, rfl, rfl, rfl, rfl, rfl, rfl, rfl, rfl,
    rfl, rfl, rfl, rfl, rfl, rfl, rfl, rfl, rfl, rfl⟩

@[simp] theorem Part.delAuth_fields (p : Part) (n : Nat) :
    (p.delAuth n).mono = p.mono ∧ (p.delAuth n).strapHigh = p.strapHigh ∧ (p.delAuth n).link = p.link ∧
    (p.delAuth n).tfl = p.tfl ∧ (p.delAuth n).chanA = p.chanA ∧ (p.delAuth n).chanB = p.chanB ∧
    (p.delAuth n).rows = p.rows ∧ (p.delAuth n).keys = p.keys ∧ (p.delAuth n).slotMap = p.slotMap ∧
    (p.delAuth n).groups = p.groups ∧ (p.delAuth n).holdSeq = p.holdSeq ∧ (p.delAuth n).ctxs = p.ctxs ∧
    (p.delAuth n).waitQ = p.waitQ ∧ (p.delAuth n).nextId = p.nextId ∧ (p.delAuth n).dropBin = p.dropBin ∧
    (p.delAuth n).filters = p.filters ∧ (p.delAuth n).dupCounts = p.dupCounts ∧ (p.delAuth n).clock = p.clock ∧
    (p.delAuth n).zone = p.zone ∧ (p.delAuth n).schedule = p.schedule ∧ (p.delAuth n).rentals = p.rentals ∧
    (p.delAuth n).due = p.due ∧ (p.delAuth n).tickRel = p.tickRel ∧ (p.delAuth n).tickAlt = p.tickAlt ∧
    (p.delAuth n).tickCen = p.tickCen ∧ (p.delAuth n).alt = p.alt ∧ (p.delAuth n).cen = p.cen ∧
    (p.delAuth n).lmp = p.lmp ∧ (p.delAuth n).policy = p.policy ∧
    (p.delAuth n).auths = p.auths.filter (fun a => a.rental != n) := ⟨rfl, rfl, rfl, rfl, rfl, rfl, rfl, rfl, rfl, rfl, rfl, rfl, rfl, rfl, rfl, rfl, rfl, rfl, rfl, rfl,
    rfl, rfl, rfl, rfl, rfl, rfl, rfl, rfl, rfl, rfl⟩

@[simp] theorem Part.onCen_fields (p : Part) (f : Cen → Cen) :
    (p.onCen f).mono = p.mono ∧ (p.onCen f).strapHigh = p.strapHigh ∧ (p.onCen f).link = p.link ∧
    (p.onCen f).tfl = p.tfl ∧ (p.onCen f).chanA = p.chanA ∧ (p.onCen f).chanB = p.chanB ∧ (p.onCen f).rows = p.rows ∧
    (p.onCen f).keys = p.keys ∧ (p.onCen f).slotMap = p.slotMap ∧ (p.onCen f).groups = p.groups ∧
    (p.onCen f).holdSeq = p.holdSeq ∧ (p.onCen f).auths = p.auths ∧ (p.onCen f).ctxs = p.ctxs ∧
    (p.onCen f).waitQ = p.waitQ ∧ (p.onCen f).nextId = p.nextId ∧ (p.onCen f).dropBin = p.dropBin ∧
    (p.onCen f).filters = p.filters ∧ (p.onCen f).dupCounts = p.dupCounts ∧ (p.onCen f).clock = p.clock ∧
    (p.onCen f).zone = p.zone ∧ (p.onCen f).schedule = p.schedule ∧ (p.onCen f).rentals = p.rentals ∧
    (p.onCen f).due = p.due ∧ (p.onCen f).tickRel = p.tickRel ∧ (p.onCen f).tickAlt = p.tickAlt ∧
    (p.onCen f).tickCen = p.tickCen ∧ (p.onCen f).alt = p.alt ∧ (p.onCen f).lmp = p.lmp ∧
    (p.onCen f).policy = p.policy ∧ (p.onCen f).cen = f p.cen := ⟨rfl, rfl, rfl, rfl, rfl, rfl, rfl, rfl, rfl, rfl, rfl, rfl, rfl, rfl, rfl, rfl, rfl, rfl, rfl, rfl,
    rfl, rfl, rfl, rfl, rfl, rfl, rfl, rfl, rfl, rfl⟩

@[simp] theorem Part.dueRemove_fields (p : Part) (i : Nat) :
    (p.dueRemove i).mono = p.mono ∧ (p.dueRemove i).strapHigh = p.strapHigh ∧ (p.dueRemove i).link = p.link ∧
    (p.dueRemove i).tfl = p.tfl ∧ (p.dueRemove i).chanA = p.chanA ∧ (p.dueRemove i).chanB = p.chanB ∧
    (p.dueRemove i).rows = p.rows ∧ (p.dueRemove i).keys = p.keys ∧ (p.dueRemove i).slotMap = p.slotMap ∧
    (p.dueRemove i).groups = p.groups ∧ (p.dueRemove i).holdSeq = p.holdSeq ∧ (p.dueRemove i).auths = p.auths ∧
    (p.dueRemove i).ctxs = p.ctxs ∧ (p.dueRemove i).waitQ = p.waitQ ∧ (p.dueRemove i).nextId = p.nextId ∧
    (p.dueRemove i).dropBin = p.dropBin ∧ (p.dueRemove i).filters = p.filters ∧
    (p.dueRemove i).dupCounts = p.dupCounts ∧ (p.dueRemove i).clock = p.clock ∧ (p.dueRemove i).zone = p.zone ∧
    (p.dueRemove i).schedule = p.schedule ∧ (p.dueRemove i).rentals = p.rentals ∧
    (p.dueRemove i).tickRel = p.tickRel ∧ (p.dueRemove i).tickAlt = p.tickAlt ∧ (p.dueRemove i).tickCen = p.tickCen ∧
    (p.dueRemove i).alt = p.alt ∧ (p.dueRemove i).cen = p.cen ∧ (p.dueRemove i).lmp = p.lmp ∧
    (p.dueRemove i).policy = p.policy ∧ (p.dueRemove i).due = p.due.filter (fun j => j != i) := ⟨rfl, rfl, rfl, rfl, rfl, rfl, rfl, rfl, rfl, rfl, rfl, rfl, rfl, rfl, rfl, rfl, rfl, rfl, rfl, rfl,
    rfl, rfl, rfl, rfl, rfl, rfl, rfl, rfl, rfl, rfl⟩

@[simp] theorem Part.dueInsert_fields (p : Part) (i : Nat) :
    (p.dueInsert i).mono = p.mono ∧ (p.dueInsert i).strapHigh = p.strapHigh ∧ (p.dueInsert i).link = p.link ∧
    (p.dueInsert i).tfl = p.tfl ∧ (p.dueInsert i).chanA = p.chanA ∧ (p.dueInsert i).chanB = p.chanB ∧
    (p.dueInsert i).rows = p.rows ∧ (p.dueInsert i).keys = p.keys ∧ (p.dueInsert i).slotMap = p.slotMap ∧
    (p.dueInsert i).groups = p.groups ∧ (p.dueInsert i).holdSeq = p.holdSeq ∧ (p.dueInsert i).auths = p.auths ∧
    (p.dueInsert i).ctxs = p.ctxs ∧ (p.dueInsert i).waitQ = p.waitQ ∧ (p.dueInsert i).nextId = p.nextId ∧
    (p.dueInsert i).dropBin = p.dropBin ∧ (p.dueInsert i).filters = p.filters ∧
    (p.dueInsert i).dupCounts = p.dupCounts ∧ (p.dueInsert i).clock = p.clock ∧ (p.dueInsert i).zone = p.zone ∧
    (p.dueInsert i).schedule = p.schedule ∧ (p.dueInsert i).rentals = p.rentals ∧
    (p.dueInsert i).tickRel = p.tickRel ∧ (p.dueInsert i).tickAlt = p.tickAlt ∧ (p.dueInsert i).tickCen = p.tickCen ∧
    (p.dueInsert i).alt = p.alt ∧ (p.dueInsert i).cen = p.cen ∧ (p.dueInsert i).lmp = p.lmp ∧
    (p.dueInsert i).policy = p.policy := ⟨rfl, rfl, rfl, rfl, rfl, rfl, rfl, rfl, rfl, rfl, rfl, rfl, rfl, rfl, rfl, rfl, rfl, rfl, rfl, rfl,
    rfl, rfl, rfl, rfl, rfl, rfl, rfl, rfl, rfl⟩

@[simp] theorem Part.freeRental_fields (p : Part) (i : Nat) :
    (p.freeRental i).mono = p.mono ∧ (p.freeRental i).strapHigh = p.strapHigh ∧ (p.freeRental i).link = p.link ∧
    (p.freeRental i).tfl = p.tfl ∧ (p.freeRental i).chanA = p.chanA ∧ (p.freeRental i).chanB = p.chanB ∧
    (p.freeRental i).rows = p.rows ∧ (p.freeRental i).keys = p.keys ∧ (p.freeRental i).slotMap = p.slotMap ∧
    (p.freeRental i).groups = p.groups ∧ (p.freeRental i).holdSeq = p.holdSeq ∧ (p.freeRental i).auths = p.auths ∧
    (p.freeRental i).ctxs = p.ctxs ∧ (p.freeRental i).waitQ = p.waitQ ∧ (p.freeRental i).nextId = p.nextId ∧
    (p.freeRental i).dropBin = p.dropBin ∧ (p.freeRental i).filters = p.filters ∧
    (p.freeRental i).dupCounts = p.dupCounts ∧ (p.freeRental i).clock = p.clock ∧ (p.freeRental i).zone = p.zone ∧
    (p.freeRental i).schedule = p.schedule ∧ (p.freeRental i).due = p.due ∧ (p.freeRental i).tickRel = p.tickRel ∧
    (p.freeRental i).tickAlt = p.tickAlt ∧ (p.freeRental i).tickCen = p.tickCen ∧ (p.freeRental i).alt = p.alt ∧
    (p.freeRental i).cen = p.cen ∧ (p.freeRental i).lmp = p.lmp ∧ (p.freeRental i).policy = p.policy ∧
    (p.freeRental i).rentals = Table.del p.rentals i := ⟨rfl, rfl, rfl, rfl, rfl, rfl, rfl, rfl, rfl, rfl, rfl, rfl, rfl, rfl, rfl, rfl, rfl, rfl, rfl, rfl,
    rfl, rfl, rfl, rfl, rfl, rfl, rfl, rfl, rfl, rfl⟩

@[simp] theorem Part.markBehind_fields (p : Part) (k : Nat) :
    (p.markBehind k).mono = p.mono ∧ (p.markBehind k).strapHigh = p.strapHigh ∧ (p.markBehind k).link = p.link ∧
    (p.markBehind k).tfl = p.tfl ∧ (p.markBehind k).chanA = p.chanA ∧ (p.markBehind k).chanB = p.chanB ∧
    (p.markBehind k).rows = p.rows ∧ (p.markBehind k).keys = p.keys ∧ (p.markBehind k).slotMap = p.slotMap ∧
    (p.markBehind k).groups = p.groups ∧ (p.markBehind k).holdSeq = p.holdSeq ∧ (p.markBehind k).auths = p.auths ∧
    (p.markBehind k).ctxs = p.ctxs ∧ (p.markBehind k).waitQ = p.waitQ ∧ (p.markBehind k).nextId = p.nextId ∧
    (p.markBehind k).dropBin = p.dropBin ∧ (p.markBehind k).filters = p.filters ∧
    (p.markBehind k).dupCounts = p.dupCounts ∧ (p.markBehind k).clock = p.clock ∧ (p.markBehind k).zone = p.zone ∧
    (p.markBehind k).schedule = p.schedule ∧ (p.markBehind k).rentals = p.rentals ∧ (p.markBehind k).due = p.due ∧
    (p.markBehind k).tickRel = p.tickRel ∧ (p.markBehind k).tickAlt = p.tickAlt ∧
    (p.markBehind k).tickCen = p.tickCen ∧ (p.markBehind k).alt = p.alt ∧ (p.markBehind k).cen = p.cen ∧
    (p.markBehind k).policy = p.policy := ⟨rfl, rfl, rfl, rfl, rfl, rfl, rfl, rfl, rfl, rfl, rfl, rfl, rfl, rfl, rfl, rfl, rfl, rfl, rfl, rfl,
    rfl, rfl, rfl, rfl, rfl, rfl, rfl, rfl, rfl⟩

@[simp] theorem Part.clearBehind_fields (p : Part) (k : Nat) :
    (p.clearBehind k).mono = p.mono ∧ (p.clearBehind k).strapHigh = p.strapHigh ∧ (p.clearBehind k).link = p.link ∧
    (p.clearBehind k).tfl = p.tfl ∧ (p.clearBehind k).chanA = p.chanA ∧ (p.clearBehind k).chanB = p.chanB ∧
    (p.clearBehind k).rows = p.rows ∧ (p.clearBehind k).keys = p.keys ∧ (p.clearBehind k).slotMap = p.slotMap ∧
    (p.clearBehind k).groups = p.groups ∧ (p.clearBehind k).holdSeq = p.holdSeq ∧ (p.clearBehind k).auths = p.auths ∧
    (p.clearBehind k).ctxs = p.ctxs ∧ (p.clearBehind k).waitQ = p.waitQ ∧ (p.clearBehind k).nextId = p.nextId ∧
    (p.clearBehind k).dropBin = p.dropBin ∧ (p.clearBehind k).filters = p.filters ∧
    (p.clearBehind k).dupCounts = p.dupCounts ∧ (p.clearBehind k).clock = p.clock ∧ (p.clearBehind k).zone = p.zone ∧
    (p.clearBehind k).schedule = p.schedule ∧ (p.clearBehind k).rentals = p.rentals ∧ (p.clearBehind k).due = p.due ∧
    (p.clearBehind k).tickRel = p.tickRel ∧ (p.clearBehind k).tickAlt = p.tickAlt ∧
    (p.clearBehind k).tickCen = p.tickCen ∧ (p.clearBehind k).alt = p.alt ∧ (p.clearBehind k).cen = p.cen ∧
    (p.clearBehind k).policy = p.policy := ⟨rfl, rfl, rfl, rfl, rfl, rfl, rfl, rfl, rfl, rfl, rfl, rfl, rfl, rfl, rfl, rfl, rfl, rfl, rfl, rfl,
    rfl, rfl, rfl, rfl, rfl, rfl, rfl, rfl, rfl⟩

@[simp] theorem Part.imageUnknown_fields (p : Part) (k : Nat) :
    (p.imageUnknown k).mono = p.mono ∧ (p.imageUnknown k).strapHigh = p.strapHigh ∧ (p.imageUnknown k).link = p.link ∧
    (p.imageUnknown k).tfl = p.tfl ∧ (p.imageUnknown k).chanA = p.chanA ∧ (p.imageUnknown k).chanB = p.chanB ∧
    (p.imageUnknown k).rows = p.rows ∧ (p.imageUnknown k).keys = p.keys ∧ (p.imageUnknown k).slotMap = p.slotMap ∧
    (p.imageUnknown k).groups = p.groups ∧ (p.imageUnknown k).holdSeq = p.holdSeq ∧
    (p.imageUnknown k).auths = p.auths ∧ (p.imageUnknown k).ctxs = p.ctxs ∧ (p.imageUnknown k).waitQ = p.waitQ ∧
    (p.imageUnknown k).nextId = p.nextId ∧ (p.imageUnknown k).dropBin = p.dropBin ∧
    (p.imageUnknown k).filters = p.filters ∧ (p.imageUnknown k).dupCounts = p.dupCounts ∧
    (p.imageUnknown k).clock = p.clock ∧ (p.imageUnknown k).zone = p.zone ∧ (p.imageUnknown k).schedule = p.schedule ∧
    (p.imageUnknown k).rentals = p.rentals ∧ (p.imageUnknown k).due = p.due ∧ (p.imageUnknown k).tickRel = p.tickRel ∧
    (p.imageUnknown k).tickAlt = p.tickAlt ∧ (p.imageUnknown k).tickCen = p.tickCen ∧ (p.imageUnknown k).alt = p.alt ∧
    (p.imageUnknown k).cen = p.cen ∧ (p.imageUnknown k).policy = p.policy ∧
    (p.imageUnknown k).lmp = { p.lmp with images := Table.del p.lmp.images k } := ⟨rfl, rfl, rfl, rfl, rfl, rfl, rfl, rfl, rfl, rfl, rfl, rfl, rfl, rfl, rfl, rfl, rfl, rfl, rfl, rfl,
    rfl, rfl, rfl, rfl, rfl, rfl, rfl, rfl, rfl, rfl⟩

@[simp] theorem Part.imageTakes_fields (p : Part) (k : Nat) (ls : List Lamp) :
    (p.imageTakes k ls).mono = p.mono ∧ (p.imageTakes k ls).strapHigh = p.strapHigh ∧
    (p.imageTakes k ls).link = p.link ∧ (p.imageTakes k ls).tfl = p.tfl ∧ (p.imageTakes k ls).chanA = p.chanA ∧
    (p.imageTakes k ls).chanB = p.chanB ∧ (p.imageTakes k ls).rows = p.rows ∧ (p.imageTakes k ls).keys = p.keys ∧
    (p.imageTakes k ls).slotMap = p.slotMap ∧ (p.imageTakes k ls).groups = p.groups ∧
    (p.imageTakes k ls).holdSeq = p.holdSeq ∧ (p.imageTakes k ls).auths = p.auths ∧
    (p.imageTakes k ls).ctxs = p.ctxs ∧ (p.imageTakes k ls).waitQ = p.waitQ ∧ (p.imageTakes k ls).nextId = p.nextId ∧
    (p.imageTakes k ls).dropBin = p.dropBin ∧ (p.imageTakes k ls).filters = p.filters ∧
    (p.imageTakes k ls).dupCounts = p.dupCounts ∧ (p.imageTakes k ls).clock = p.clock ∧
    (p.imageTakes k ls).zone = p.zone ∧ (p.imageTakes k ls).schedule = p.schedule ∧
    (p.imageTakes k ls).rentals = p.rentals ∧ (p.imageTakes k ls).due = p.due ∧
    (p.imageTakes k ls).tickRel = p.tickRel ∧ (p.imageTakes k ls).tickAlt = p.tickAlt ∧
    (p.imageTakes k ls).tickCen = p.tickCen ∧ (p.imageTakes k ls).alt = p.alt ∧ (p.imageTakes k ls).cen = p.cen ∧
    (p.imageTakes k ls).policy = p.policy ∧
    (p.imageTakes k ls).lmp = { p.lmp with images := Table.put p.lmp.images k ls } := ⟨rfl, rfl, rfl, rfl, rfl, rfl, rfl, rfl, rfl, rfl, rfl, rfl, rfl, rfl, rfl, rfl, rfl, rfl, rfl, rfl,
    rfl, rfl, rfl, rfl, rfl, rfl, rfl, rfl, rfl, rfl⟩

@[simp] theorem Part.toNextSecond_fields (p : Part) :
    (p.toNextSecond).strapHigh = p.strapHigh ∧ (p.toNextSecond).link = p.link ∧ (p.toNextSecond).tfl = p.tfl ∧
    (p.toNextSecond).chanA = p.chanA ∧ (p.toNextSecond).chanB = p.chanB ∧ (p.toNextSecond).rows = p.rows ∧
    (p.toNextSecond).keys = p.keys ∧ (p.toNextSecond).slotMap = p.slotMap ∧ (p.toNextSecond).groups = p.groups ∧
    (p.toNextSecond).holdSeq = p.holdSeq ∧ (p.toNextSecond).auths = p.auths ∧ (p.toNextSecond).ctxs = p.ctxs ∧
    (p.toNextSecond).waitQ = p.waitQ ∧ (p.toNextSecond).nextId = p.nextId ∧ (p.toNextSecond).dropBin = p.dropBin ∧
    (p.toNextSecond).filters = p.filters ∧ (p.toNextSecond).dupCounts = p.dupCounts ∧
    (p.toNextSecond).clock = p.clock ∧ (p.toNextSecond).zone = p.zone ∧ (p.toNextSecond).schedule = p.schedule ∧
    (p.toNextSecond).rentals = p.rentals ∧ (p.toNextSecond).due = p.due ∧ (p.toNextSecond).tickRel = p.tickRel ∧
    (p.toNextSecond).tickAlt = p.tickAlt ∧ (p.toNextSecond).tickCen = p.tickCen ∧ (p.toNextSecond).alt = p.alt ∧
    (p.toNextSecond).cen = p.cen ∧ (p.toNextSecond).lmp = p.lmp ∧ (p.toNextSecond).policy = p.policy ∧
    p.toNextSecond.mono = (p.mono / 1000 + 1) * 1000 := ⟨rfl, rfl, rfl, rfl, rfl, rfl, rfl, rfl, rfl, rfl, rfl, rfl, rfl, rfl, rfl, rfl, rfl, rfl, rfl, rfl,
    rfl, rfl, rfl, rfl, rfl, rfl, rfl, rfl, rfl, rfl⟩

@[simp] theorem Part.onChan_fields (p : Part) (c : Chan) (f : Channel → Channel) :
    (p.onChan c f).mono = p.mono ∧ (p.onChan c f).strapHigh = p.strapHigh ∧ (p.onChan c f).link = p.link ∧
    (p.onChan c f).tfl = p.tfl ∧ (p.onChan c f).rows = p.rows ∧ (p.onChan c f).keys = p.keys ∧
    (p.onChan c f).slotMap = p.slotMap ∧ (p.onChan c f).groups = p.groups ∧ (p.onChan c f).holdSeq = p.holdSeq ∧
    (p.onChan c f).auths = p.auths ∧ (p.onChan c f).ctxs = p.ctxs ∧ (p.onChan c f).waitQ = p.waitQ ∧
    (p.onChan c f).nextId = p.nextId ∧ (p.onChan c f).dropBin = p.dropBin ∧ (p.onChan c f).filters = p.filters ∧
    (p.onChan c f).dupCounts = p.dupCounts ∧ (p.onChan c f).clock = p.clock ∧ (p.onChan c f).zone = p.zone ∧
    (p.onChan c f).schedule = p.schedule ∧ (p.onChan c f).rentals = p.rentals ∧ (p.onChan c f).due = p.due ∧
    (p.onChan c f).tickRel = p.tickRel ∧ (p.onChan c f).tickAlt = p.tickAlt ∧ (p.onChan c f).tickCen = p.tickCen ∧
    (p.onChan c f).alt = p.alt ∧ (p.onChan c f).cen = p.cen ∧ (p.onChan c f).lmp = p.lmp ∧
    (p.onChan c f).policy = p.policy ∧ (p.onChan c f).chan c = f (p.chan c) := by
  cases c <;> exact ⟨rfl, rfl, rfl, rfl, rfl, rfl, rfl, rfl, rfl, rfl, rfl, rfl, rfl, rfl, rfl, rfl, rfl, rfl, rfl, rfl,
    rfl, rfl, rfl, rfl, rfl, rfl, rfl, rfl, rfl⟩

/-- The other channel stays as it was. -/
theorem Part.onChan_other (p : Part) (c d : Chan) (f : Channel → Channel) (h : d ≠ c) : (p.onChan c f).chan d = p.chan d := by
  cases c <;> cases d <;> first | rfl | exact absurd rfl h

end Sys2Proof.Machine
end

