-- ==== Sys2Proof/Laws/Alerts.lean ====
section
/-! SUPPORT. What the operations of the Alert Unit and the offers of reports can change: the Alert Unit and the Branch
Link Port, and nothing else. -/

namespace Sys2Proof.Machine
set_option Elab.async false
open Sys2Proof

/-- The part with the Alert Unit and the Branch Link Port blotted out. -/
def Part.restA (p : Part) : Part := { p with
  alt := ⟨[], [], 0#16, 0#16, 0#16, false⟩
  link := ⟨.hunt false false, [], false, ⟨0, 0, 0, 0, 0, 0, 0, 0, 0, 0, 0⟩, [], none, false, [], false, .off⟩ }

/-- Parts alike but for those two agree in every other field. -/
theorem Part.fields_of_restA {p q : Part} (h : q.restA = p.restA) :
    (q).mono = p.mono ∧ (q).strapHigh = p.strapHigh ∧ (q).tfl = p.tfl ∧ (q).chanA = p.chanA ∧ (q).chanB = p.chanB ∧
    (q).rows = p.rows ∧ (q).keys = p.keys ∧ (q).slotMap = p.slotMap ∧ (q).groups = p.groups ∧
    (q).holdSeq = p.holdSeq ∧ (q).auths = p.auths ∧ (q).ctxs = p.ctxs ∧ (q).waitQ = p.waitQ ∧ (q).nextId = p.nextId ∧
    (q).dropBin = p.dropBin ∧ (q).filters = p.filters ∧ (q).dupCounts = p.dupCounts ∧ (q).clock = p.clock ∧
    (q).zone = p.zone ∧ (q).schedule = p.schedule ∧ (q).rentals = p.rentals ∧ (q).due = p.due ∧
    (q).tickRel = p.tickRel ∧ (q).tickAlt = p.tickAlt ∧ (q).tickCen = p.tickCen ∧ (q).cen = p.cen ∧ (q).lmp = p.lmp ∧
    (q).policy = p.policy := by
  have k {α : Type} (g : Part → α) : g q.restA = g p.restA := congrArg g h
  exact ⟨k Part.mono, k Part.strapHigh, k Part.tfl, k Part.chanA,
    k Part.chanB, k Part.rows, k Part.keys, k Part.slotMap,
    k Part.groups, k Part.holdSeq, k Part.auths, k Part.ctxs,
    k Part.waitQ, k Part.nextId, k Part.dropBin, k Part.filters,
    k Part.dupCounts, k Part.clock, k Part.zone, k Part.schedule,
    k Part.rentals, k Part.due, k Part.tickRel, k Part.tickAlt,
    k Part.tickCen, k Part.cen, k Part.lmp, k Part.policy,
    ⟩

@[simp] theorem Part.onLink_restA (p : Part) (f : Link → Link) : (p.onLink f).restA = p.restA := rfl

@[simp] theorem Part.setRx_restA (p : Part) (r : Receiver) : (p.setRx r).restA = p.restA := rfl

@[simp] theorem Part.linkCount_restA (p : Part) (f : LinkCounters → LinkCounters) : (p.linkCount f).restA = p.restA := rfl

@[simp] theorem Part.enter_restA (p : Part) (r : Report) : (p.enter r).restA = p.restA := rfl

@[simp] theorem Part.await_restA (p : Part) (w : Waiter) : (p.await w).restA = p.restA := rfl

@[simp] theorem Part.unwait_restA (p : Part) (w : Waiter) : (p.unwait w).restA = p.restA := rfl

@[simp] theorem Part.setFlag_restA (p : Part) (i : Nat) : (p.setFlag i).restA = p.restA := rfl

@[simp] theorem Part.clearFlag_restA (p : Part) (i : Nat) : (p.clearFlag i).restA = p.restA := rfl

/-- Writing the Alert Unit or the Branch Link Port is such a change. -/
@[simp] theorem Part.setAlt_restA (p : Part) (a : Alt) : ({ p with alt := a } : Part).restA = p.restA := rfl

@[simp] theorem Part.setLink_restA (p : Part) (l : Link) : ({ p with link := l } : Part).restA = p.restA := rfl

@[simp] theorem Part.offerAlert_restA (p : Part) (i : Nat) (f : AlertFlags) : (p.offerAlert i f).restA = p.restA := by
  unfold Part.offerAlert
  try dsimp only
  (repeat' split) <;> simp

@[simp] theorem Part.offerAlert_fields (p : Part) (i : Nat) (f : AlertFlags) :
    (p.offerAlert i f).mono = p.mono ∧ (p.offerAlert i f).strapHigh = p.strapHigh ∧ (p.offerAlert i f).tfl = p.tfl ∧
    (p.offerAlert i f).chanA = p.chanA ∧ (p.offerAlert i f).chanB = p.chanB ∧ (p.offerAlert i f).rows = p.rows ∧
    (p.offerAlert i f).keys = p.keys ∧ (p.offerAlert i f).slotMap = p.slotMap ∧ (p.offerAlert i f).groups = p.groups ∧
    (p.offerAlert i f).holdSeq = p.holdSeq ∧ (p.offerAlert i f).auths = p.auths ∧ (p.offerAlert i f).ctxs = p.ctxs ∧
    (p.offerAlert i f).waitQ = p.waitQ ∧ (p.offerAlert i f).nextId = p.nextId ∧
    (p.offerAlert i f).dropBin = p.dropBin ∧ (p.offerAlert i f).filters = p.filters ∧
    (p.offerAlert i f).dupCounts = p.dupCounts ∧ (p.offerAlert i f).clock = p.clock ∧
    (p.offerAlert i f).zone = p.zone ∧ (p.offerAlert i f).schedule = p.schedule ∧
    (p.offerAlert i f).rentals = p.rentals ∧ (p.offerAlert i f).due = p.due ∧ (p.offerAlert i f).tickRel = p.tickRel ∧
    (p.offerAlert i f).tickAlt = p.tickAlt ∧ (p.offerAlert i f).tickCen = p.tickCen ∧ (p.offerAlert i f).cen = p.cen ∧
    (p.offerAlert i f).lmp = p.lmp ∧ (p.offerAlert i f).policy = p.policy := Part.fields_of_restA (Part.offerAlert_restA p i f)

@[simp] theorem Part.offerNotice_restA (p : Part) (i : Nat) (r : Report) : (p.offerNotice i r).restA = p.restA := by
  unfold Part.offerNotice
  try dsimp only
  (repeat' split) <;> simp

@[simp] theorem Part.offerNotice_fields (p : Part) (i : Nat) (r : Report) :
    (p.offerNotice i r).mono = p.mono ∧ (p.offerNotice i r).strapHigh = p.strapHigh ∧
    (p.offerNotice i r).tfl = p.tfl ∧ (p.offerNotice i r).chanA = p.chanA ∧ (p.offerNotice i r).chanB = p.chanB ∧
    (p.offerNotice i r).rows = p.rows ∧ (p.offerNotice i r).keys = p.keys ∧ (p.offerNotice i r).slotMap = p.slotMap ∧
    (p.offerNotice i r).groups = p.groups ∧ (p.offerNotice i r).holdSeq = p.holdSeq ∧
    (p.offerNotice i r).auths = p.auths ∧ (p.offerNotice i r).ctxs = p.ctxs ∧ (p.offerNotice i r).waitQ = p.waitQ ∧
    (p.offerNotice i r).nextId = p.nextId ∧ (p.offerNotice i r).dropBin = p.dropBin ∧
    (p.offerNotice i r).filters = p.filters ∧ (p.offerNotice i r).dupCounts = p.dupCounts ∧
    (p.offerNotice i r).clock = p.clock ∧ (p.offerNotice i r).zone = p.zone ∧
    (p.offerNotice i r).schedule = p.schedule ∧ (p.offerNotice i r).rentals = p.rentals ∧
    (p.offerNotice i r).due = p.due ∧ (p.offerNotice i r).tickRel = p.tickRel ∧
    (p.offerNotice i r).tickAlt = p.tickAlt ∧ (p.offerNotice i r).tickCen = p.tickCen ∧
    (p.offerNotice i r).cen = p.cen ∧ (p.offerNotice i r).lmp = p.lmp ∧ (p.offerNotice i r).policy = p.policy := Part.fields_of_restA (Part.offerNotice_restA p i r)

@[simp] theorem Part.giveUpAlert_restA (p : Part) (i : Nat) : (p.giveUpAlert i).restA = p.restA := by
  unfold Part.giveUpAlert
  try dsimp only
  (repeat' split) <;> simp

@[simp] theorem Part.giveUpAlert_fields (p : Part) (i : Nat) :
    (p.giveUpAlert i).mono = p.mono ∧ (p.giveUpAlert i).strapHigh = p.strapHigh ∧ (p.giveUpAlert i).tfl = p.tfl ∧
    (p.giveUpAlert i).chanA = p.chanA ∧ (p.giveUpAlert i).chanB = p.chanB ∧ (p.giveUpAlert i).rows = p.rows ∧
    (p.giveUpAlert i).keys = p.keys ∧ (p.giveUpAlert i).slotMap = p.slotMap ∧ (p.giveUpAlert i).groups = p.groups ∧
    (p.giveUpAlert i).holdSeq = p.holdSeq ∧ (p.giveUpAlert i).auths = p.auths ∧ (p.giveUpAlert i).ctxs = p.ctxs ∧
    (p.giveUpAlert i).waitQ = p.waitQ ∧ (p.giveUpAlert i).nextId = p.nextId ∧ (p.giveUpAlert i).dropBin = p.dropBin ∧
    (p.giveUpAlert i).filters = p.filters ∧ (p.giveUpAlert i).dupCounts = p.dupCounts ∧
    (p.giveUpAlert i).clock = p.clock ∧ (p.giveUpAlert i).zone = p.zone ∧ (p.giveUpAlert i).schedule = p.schedule ∧
    (p.giveUpAlert i).rentals = p.rentals ∧ (p.giveUpAlert i).due = p.due ∧ (p.giveUpAlert i).tickRel = p.tickRel ∧
    (p.giveUpAlert i).tickAlt = p.tickAlt ∧ (p.giveUpAlert i).tickCen = p.tickCen ∧ (p.giveUpAlert i).cen = p.cen ∧
    (p.giveUpAlert i).lmp = p.lmp ∧ (p.giveUpAlert i).policy = p.policy := Part.fields_of_restA (Part.giveUpAlert_restA p i)

@[simp] theorem Part.register_restA (p : Part) (i : Nat) (k : AlertKind) (s : Subject) (d : Option Detail) : (p.register i k s d).restA = p.restA := by
  simp [Part.register]

@[simp] theorem Part.register_fields (p : Part) (i : Nat) (k : AlertKind) (s : Subject) (d : Option Detail) :
    (p.register i k s d).mono = p.mono ∧ (p.register i k s d).strapHigh = p.strapHigh ∧
    (p.register i k s d).tfl = p.tfl ∧ (p.register i k s d).chanA = p.chanA ∧ (p.register i k s d).chanB = p.chanB ∧
    (p.register i k s d).rows = p.rows ∧ (p.register i k s d).keys = p.keys ∧
    (p.register i k s d).slotMap = p.slotMap ∧ (p.register i k s d).groups = p.groups ∧
    (p.register i k s d).holdSeq = p.holdSeq ∧ (p.register i k s d).auths = p.auths ∧
    (p.register i k s d).ctxs = p.ctxs ∧ (p.register i k s d).waitQ = p.waitQ ∧
    (p.register i k s d).nextId = p.nextId ∧ (p.register i k s d).dropBin = p.dropBin ∧
    (p.register i k s d).filters = p.filters ∧ (p.register i k s d).dupCounts = p.dupCounts ∧
    (p.register i k s d).clock = p.clock ∧ (p.register i k s d).zone = p.zone ∧
    (p.register i k s d).schedule = p.schedule ∧ (p.register i k s d).rentals = p.rentals ∧
    (p.register i k s d).due = p.due ∧ (p.register i k s d).tickRel = p.tickRel ∧
    (p.register i k s d).tickAlt = p.tickAlt ∧ (p.register i k s d).tickCen = p.tickCen ∧
    (p.register i k s d).cen = p.cen ∧ (p.register i k s d).lmp = p.lmp ∧ (p.register i k s d).policy = p.policy := Part.fields_of_restA (Part.register_restA p i k s d)

@[simp] theorem Part.raise_restA (p : Part) (k : AlertKind) (s : Subject) (d : Option Detail) : (p.raise k s d).restA = p.restA := by
  unfold Part.raise
  try dsimp only
  (repeat' split) <;> simp

@[simp] theorem Part.raise_fields (p : Part) (k : AlertKind) (s : Subject) (d : Option Detail) :
    (p.raise k s d).mono = p.mono ∧ (p.raise k s d).strapHigh = p.strapHigh ∧ (p.raise k s d).tfl = p.tfl ∧
    (p.raise k s d).chanA = p.chanA ∧ (p.raise k s d).chanB = p.chanB ∧ (p.raise k s d).rows = p.rows ∧
    (p.raise k s d).keys = p.keys ∧ (p.raise k s d).slotMap = p.slotMap ∧ (p.raise k s d).groups = p.groups ∧
    (p.raise k s d).holdSeq = p.holdSeq ∧ (p.raise k s d).auths = p.auths ∧ (p.raise k s d).ctxs = p.ctxs ∧
    (p.raise k s d).waitQ = p.waitQ ∧ (p.raise k s d).nextId = p.nextId ∧ (p.raise k s d).dropBin = p.dropBin ∧
    (p.raise k s d).filters = p.filters ∧ (p.raise k s d).dupCounts = p.dupCounts ∧ (p.raise k s d).clock = p.clock ∧
    (p.raise k s d).zone = p.zone ∧ (p.raise k s d).schedule = p.schedule ∧ (p.raise k s d).rentals = p.rentals ∧
    (p.raise k s d).due = p.due ∧ (p.raise k s d).tickRel = p.tickRel ∧ (p.raise k s d).tickAlt = p.tickAlt ∧
    (p.raise k s d).tickCen = p.tickCen ∧ (p.raise k s d).cen = p.cen ∧ (p.raise k s d).lmp = p.lmp ∧
    (p.raise k s d).policy = p.policy := Part.fields_of_restA (Part.raise_restA p k s d)

@[simp] theorem Part.removeQuietly_restA (p : Part) (e : AlertEntry) : (p.removeQuietly e).restA = p.restA := by
  unfold Part.removeQuietly
  try dsimp only
  (repeat' split) <;> simp

@[simp] theorem Part.removeQuietly_fields (p : Part) (e : AlertEntry) :
    (p.removeQuietly e).mono = p.mono ∧ (p.removeQuietly e).strapHigh = p.strapHigh ∧
    (p.removeQuietly e).tfl = p.tfl ∧ (p.removeQuietly e).chanA = p.chanA ∧ (p.removeQuietly e).chanB = p.chanB ∧
    (p.removeQuietly e).rows = p.rows ∧ (p.removeQuietly e).keys = p.keys ∧ (p.removeQuietly e).slotMap = p.slotMap ∧
    (p.removeQuietly e).groups = p.groups ∧ (p.removeQuietly e).holdSeq = p.holdSeq ∧
    (p.removeQuietly e).auths = p.auths ∧ (p.removeQuietly e).ctxs = p.ctxs ∧ (p.removeQuietly e).waitQ = p.waitQ ∧
    (p.removeQuietly e).nextId = p.nextId ∧ (p.removeQuietly e).dropBin = p.dropBin ∧
    (p.removeQuietly e).filters = p.filters ∧ (p.removeQuietly e).dupCounts = p.dupCounts ∧
    (p.removeQuietly e).clock = p.clock ∧ (p.removeQuietly e).zone = p.zone ∧
    (p.removeQuietly e).schedule = p.schedule ∧ (p.removeQuietly e).rentals = p.rentals ∧
    (p.removeQuietly e).due = p.due ∧ (p.removeQuietly e).tickRel = p.tickRel ∧
    (p.removeQuietly e).tickAlt = p.tickAlt ∧ (p.removeQuietly e).tickCen = p.tickCen ∧
    (p.removeQuietly e).cen = p.cen ∧ (p.removeQuietly e).lmp = p.lmp ∧ (p.removeQuietly e).policy = p.policy := Part.fields_of_restA (Part.removeQuietly_restA p e)

@[simp] theorem Part.replaceAlert_restA (p : Part) (a b : AlertKind) (s : Subject) : (p.replaceAlert a b s).restA = p.restA := by
  unfold Part.replaceAlert
  dsimp only
  (repeat' split) <;> first | (simp; done) | (simp; rfl)

@[simp] theorem Part.replaceAlert_fields (p : Part) (a b : AlertKind) (s : Subject) :
    (p.replaceAlert a b s).mono = p.mono ∧ (p.replaceAlert a b s).strapHigh = p.strapHigh ∧
    (p.replaceAlert a b s).tfl = p.tfl ∧ (p.replaceAlert a b s).chanA = p.chanA ∧
    (p.replaceAlert a b s).chanB = p.chanB ∧ (p.replaceAlert a b s).rows = p.rows ∧
    (p.replaceAlert a b s).keys = p.keys ∧ (p.replaceAlert a b s).slotMap = p.slotMap ∧
    (p.replaceAlert a b s).groups = p.groups ∧ (p.replaceAlert a b s).holdSeq = p.holdSeq ∧
    (p.replaceAlert a b s).auths = p.auths ∧ (p.replaceAlert a b s).ctxs = p.ctxs ∧
    (p.replaceAlert a b s).waitQ = p.waitQ ∧ (p.replaceAlert a b s).nextId = p.nextId ∧
    (p.replaceAlert a b s).dropBin = p.dropBin ∧ (p.replaceAlert a b s).filters = p.filters ∧
    (p.replaceAlert a b s).dupCounts = p.dupCounts ∧ (p.replaceAlert a b s).clock = p.clock ∧
    (p.replaceAlert a b s).zone = p.zone ∧ (p.replaceAlert a b s).schedule = p.schedule ∧
    (p.replaceAlert a b s).rentals = p.rentals ∧ (p.replaceAlert a b s).due = p.due ∧
    (p.replaceAlert a b s).tickRel = p.tickRel ∧ (p.replaceAlert a b s).tickAlt = p.tickAlt ∧
    (p.replaceAlert a b s).tickCen = p.tickCen ∧ (p.replaceAlert a b s).cen = p.cen ∧
    (p.replaceAlert a b s).lmp = p.lmp ∧ (p.replaceAlert a b s).policy = p.policy := Part.fields_of_restA (Part.replaceAlert_restA p a b s)

@[simp] theorem Part.remove_restA (p : Part) (k : AlertKind) (s : Subject) : (p.remove k s).restA = p.restA := by
  unfold Part.remove
  try dsimp only
  (repeat' split) <;> simp

@[simp] theorem Part.remove_fields (p : Part) (k : AlertKind) (s : Subject) :
    (p.remove k s).mono = p.mono ∧ (p.remove k s).strapHigh = p.strapHigh ∧ (p.remove k s).tfl = p.tfl ∧
    (p.remove k s).chanA = p.chanA ∧ (p.remove k s).chanB = p.chanB ∧ (p.remove k s).rows = p.rows ∧
    (p.remove k s).keys = p.keys ∧ (p.remove k s).slotMap = p.slotMap ∧ (p.remove k s).groups = p.groups ∧
    (p.remove k s).holdSeq = p.holdSeq ∧ (p.remove k s).auths = p.auths ∧ (p.remove k s).ctxs = p.ctxs ∧
    (p.remove k s).waitQ = p.waitQ ∧ (p.remove k s).nextId = p.nextId ∧ (p.remove k s).dropBin = p.dropBin ∧
    (p.remove k s).filters = p.filters ∧ (p.remove k s).dupCounts = p.dupCounts ∧ (p.remove k s).clock = p.clock ∧
    (p.remove k s).zone = p.zone ∧ (p.remove k s).schedule = p.schedule ∧ (p.remove k s).rentals = p.rentals ∧
    (p.remove k s).due = p.due ∧ (p.remove k s).tickRel = p.tickRel ∧ (p.remove k s).tickAlt = p.tickAlt ∧
    (p.remove k s).tickCen = p.tickCen ∧ (p.remove k s).cen = p.cen ∧ (p.remove k s).lmp = p.lmp ∧
    (p.remove k s).policy = p.policy := Part.fields_of_restA (Part.remove_restA p k s)

@[simp] theorem Part.removeSubject_restA (p : Part) (s : Subject) : (p.removeSubject s).restA = p.restA := by
  simp [Part.removeSubject, alertKinds]

@[simp] theorem Part.removeSubject_fields (p : Part) (s : Subject) :
    (p.removeSubject s).mono = p.mono ∧ (p.removeSubject s).strapHigh = p.strapHigh ∧
    (p.removeSubject s).tfl = p.tfl ∧ (p.removeSubject s).chanA = p.chanA ∧ (p.removeSubject s).chanB = p.chanB ∧
    (p.removeSubject s).rows = p.rows ∧ (p.removeSubject s).keys = p.keys ∧ (p.removeSubject s).slotMap = p.slotMap ∧
    (p.removeSubject s).groups = p.groups ∧ (p.removeSubject s).holdSeq = p.holdSeq ∧
    (p.removeSubject s).auths = p.auths ∧ (p.removeSubject s).ctxs = p.ctxs ∧ (p.removeSubject s).waitQ = p.waitQ ∧
    (p.removeSubject s).nextId = p.nextId ∧ (p.removeSubject s).dropBin = p.dropBin ∧
    (p.removeSubject s).filters = p.filters ∧ (p.removeSubject s).dupCounts = p.dupCounts ∧
    (p.removeSubject s).clock = p.clock ∧ (p.removeSubject s).zone = p.zone ∧
    (p.removeSubject s).schedule = p.schedule ∧ (p.removeSubject s).rentals = p.rentals ∧
    (p.removeSubject s).due = p.due ∧ (p.removeSubject s).tickRel = p.tickRel ∧
    (p.removeSubject s).tickAlt = p.tickAlt ∧ (p.removeSubject s).tickCen = p.tickCen ∧
    (p.removeSubject s).cen = p.cen ∧ (p.removeSubject s).lmp = p.lmp ∧ (p.removeSubject s).policy = p.policy := Part.fields_of_restA (Part.removeSubject_restA p s)

@[simp] theorem Part.reAlertPlace_restA (p : Part) (m i : Nat) : (Part.reAlertPlace m p i).restA = p.restA := by
  unfold Part.reAlertPlace
  try dsimp only
  (repeat' split) <;> simp

@[simp] theorem Part.reAlertPlace_fields (p : Part) (m i : Nat) :
    (Part.reAlertPlace m p i).mono = p.mono ∧ (Part.reAlertPlace m p i).strapHigh = p.strapHigh ∧ (Part.reAlertPlace m p i).tfl = p.tfl ∧
    (Part.reAlertPlace m p i).chanA = p.chanA ∧ (Part.reAlertPlace m p i).chanB = p.chanB ∧ (Part.reAlertPlace m p i).rows = p.rows ∧
    (Part.reAlertPlace m p i).keys = p.keys ∧ (Part.reAlertPlace m p i).slotMap = p.slotMap ∧ (Part.reAlertPlace m p i).groups = p.groups ∧
    (Part.reAlertPlace m p i).holdSeq = p.holdSeq ∧ (Part.reAlertPlace m p i).auths = p.auths ∧ (Part.reAlertPlace m p i).ctxs = p.ctxs ∧
    (Part.reAlertPlace m p i).waitQ = p.waitQ ∧ (Part.reAlertPlace m p i).nextId = p.nextId ∧
    (Part.reAlertPlace m p i).dropBin = p.dropBin ∧ (Part.reAlertPlace m p i).filters = p.filters ∧
    (Part.reAlertPlace m p i).dupCounts = p.dupCounts ∧ (Part.reAlertPlace m p i).clock = p.clock ∧
    (Part.reAlertPlace m p i).zone = p.zone ∧ (Part.reAlertPlace m p i).schedule = p.schedule ∧
    (Part.reAlertPlace m p i).rentals = p.rentals ∧ (Part.reAlertPlace m p i).due = p.due ∧ (Part.reAlertPlace m p i).tickRel = p.tickRel ∧
    (Part.reAlertPlace m p i).tickAlt = p.tickAlt ∧ (Part.reAlertPlace m p i).tickCen = p.tickCen ∧ (Part.reAlertPlace m p i).cen = p.cen ∧
    (Part.reAlertPlace m p i).lmp = p.lmp ∧ (Part.reAlertPlace m p i).policy = p.policy := Part.fields_of_restA (Part.reAlertPlace_restA p m i)

@[simp] theorem Part.offerOrd_restA (p : Part) (r : Report) : (p.offerOrd r).restA = p.restA := by
  unfold Part.offerOrd
  try dsimp only
  (repeat' split) <;> simp

@[simp] theorem Part.offerOrd_fields (p : Part) (r : Report) :
    (p.offerOrd r).mono = p.mono ∧ (p.offerOrd r).strapHigh = p.strapHigh ∧ (p.offerOrd r).tfl = p.tfl ∧
    (p.offerOrd r).chanA = p.chanA ∧ (p.offerOrd r).chanB = p.chanB ∧ (p.offerOrd r).rows = p.rows ∧
    (p.offerOrd r).keys = p.keys ∧ (p.offerOrd r).slotMap = p.slotMap ∧ (p.offerOrd r).groups = p.groups ∧
    (p.offerOrd r).holdSeq = p.holdSeq ∧ (p.offerOrd r).auths = p.auths ∧ (p.offerOrd r).ctxs = p.ctxs ∧
    (p.offerOrd r).waitQ = p.waitQ ∧ (p.offerOrd r).nextId = p.nextId ∧ (p.offerOrd r).dropBin = p.dropBin ∧
    (p.offerOrd r).filters = p.filters ∧ (p.offerOrd r).dupCounts = p.dupCounts ∧ (p.offerOrd r).clock = p.clock ∧
    (p.offerOrd r).zone = p.zone ∧ (p.offerOrd r).schedule = p.schedule ∧ (p.offerOrd r).rentals = p.rentals ∧
    (p.offerOrd r).due = p.due ∧ (p.offerOrd r).tickRel = p.tickRel ∧ (p.offerOrd r).tickAlt = p.tickAlt ∧
    (p.offerOrd r).tickCen = p.tickCen ∧ (p.offerOrd r).cen = p.cen ∧ (p.offerOrd r).lmp = p.lmp ∧
    (p.offerOrd r).policy = p.policy := Part.fields_of_restA (Part.offerOrd_restA p r)

@[simp] theorem Part.intervalChanged_restA (p : Part) (n : Nat) : (p.intervalChanged n).restA = p.restA := by
  unfold Part.intervalChanged
  try dsimp only
  (repeat' split) <;> simp

@[simp] theorem Part.intervalChanged_fields (p : Part) (n : Nat) :
    (p.intervalChanged n).mono = p.mono ∧ (p.intervalChanged n).strapHigh = p.strapHigh ∧
    (p.intervalChanged n).tfl = p.tfl ∧ (p.intervalChanged n).chanA = p.chanA ∧
    (p.intervalChanged n).chanB = p.chanB ∧ (p.intervalChanged n).rows = p.rows ∧
    (p.intervalChanged n).keys = p.keys ∧ (p.intervalChanged n).slotMap = p.slotMap ∧
    (p.intervalChanged n).groups = p.groups ∧ (p.intervalChanged n).holdSeq = p.holdSeq ∧
    (p.intervalChanged n).auths = p.auths ∧ (p.intervalChanged n).ctxs = p.ctxs ∧
    (p.intervalChanged n).waitQ = p.waitQ ∧ (p.intervalChanged n).nextId = p.nextId ∧
    (p.intervalChanged n).dropBin = p.dropBin ∧ (p.intervalChanged n).filters = p.filters ∧
    (p.intervalChanged n).dupCounts = p.dupCounts ∧ (p.intervalChanged n).clock = p.clock ∧
    (p.intervalChanged n).zone = p.zone ∧ (p.intervalChanged n).schedule = p.schedule ∧
    (p.intervalChanged n).rentals = p.rentals ∧ (p.intervalChanged n).due = p.due ∧
    (p.intervalChanged n).tickRel = p.tickRel ∧ (p.intervalChanged n).tickAlt = p.tickAlt ∧
    (p.intervalChanged n).tickCen = p.tickCen ∧ (p.intervalChanged n).cen = p.cen ∧
    (p.intervalChanged n).lmp = p.lmp ∧ (p.intervalChanged n).policy = p.policy := Part.fields_of_restA (Part.intervalChanged_restA p n)

@[simp] theorem Part.clampReAlerts_restA (p : Part) : (p.clampReAlerts).restA = p.restA := rfl

@[simp] theorem Part.clampReAlerts_fields (p : Part) :
    (p.clampReAlerts).mono = p.mono ∧ (p.clampReAlerts).strapHigh = p.strapHigh ∧ (p.clampReAlerts).tfl = p.tfl ∧
    (p.clampReAlerts).chanA = p.chanA ∧ (p.clampReAlerts).chanB = p.chanB ∧ (p.clampReAlerts).rows = p.rows ∧
    (p.clampReAlerts).keys = p.keys ∧ (p.clampReAlerts).slotMap = p.slotMap ∧ (p.clampReAlerts).groups = p.groups ∧
    (p.clampReAlerts).holdSeq = p.holdSeq ∧ (p.clampReAlerts).auths = p.auths ∧ (p.clampReAlerts).ctxs = p.ctxs ∧
    (p.clampReAlerts).waitQ = p.waitQ ∧ (p.clampReAlerts).nextId = p.nextId ∧ (p.clampReAlerts).dropBin = p.dropBin ∧
    (p.clampReAlerts).filters = p.filters ∧ (p.clampReAlerts).dupCounts = p.dupCounts ∧
    (p.clampReAlerts).clock = p.clock ∧ (p.clampReAlerts).zone = p.zone ∧ (p.clampReAlerts).schedule = p.schedule ∧
    (p.clampReAlerts).rentals = p.rentals ∧ (p.clampReAlerts).due = p.due ∧ (p.clampReAlerts).tickRel = p.tickRel ∧
    (p.clampReAlerts).tickAlt = p.tickAlt ∧ (p.clampReAlerts).tickCen = p.tickCen ∧ (p.clampReAlerts).cen = p.cen ∧
    (p.clampReAlerts).lmp = p.lmp ∧ (p.clampReAlerts).policy = p.policy := Part.fields_of_restA (Part.clampReAlerts_restA p)

end Sys2Proof.Machine
end

