-- ==== Sys2Proof/Laws/Bus.lean ====
section
/-! SUPPORT. The line of a slot bus channel: an answer is judged good or a miss, the module that is polled next, and nothing
is sent while another holds the line. -/

namespace Sys2Proof.Machine
set_option Elab.async false
open Sys2Proof

/-! ## Answers -/

/-- replyGood decides GoodReply (R147). -/
theorem replyGood_iff (r : Reply) (a : Nat) : replyGood r a = true ↔ GoodReply r a := by
  simp [replyGood]

/-- A good answer frees the line and is taken. -/
theorem Part.judged_good (p : Part) (c : Chan) (a : Nat) (r : Reply) (act : Part → Part) (h : GoodReply r a) :
    p.judged c a r act = act (p.lineFree c) := by
  simp [Part.judged, (replyGood_iff r a).2 h]

/-- Any other answer is the miss of the command. -/
theorem Part.judged_bad (p : Part) (c : Chan) (a : Nat) (r : Reply) (act : Part → Part) (h : ¬ GoodReply r a) :
    p.judged c a r act = p.commandMiss c := by
  have : replyGood r a = false := by rw [← Bool.not_eq_true, replyGood_iff]; exact h
  simp [Part.judged, this]

/-! ## The module polled next (R152, R154, R161) -/

/-- The address found is the lowest above n, from 1 to 30, that satisfies f. -/
theorem addrAfter_some {n a : Nat} {f : Nat → Bool} : addrAfter n f = some a ↔
    n < a ∧ 1 ≤ a ∧ a ≤ Config.modules ∧ f a = true ∧ ∀ b, n < b → 1 ≤ b → b ≤ Config.modules → f b = true → a ≤ b := by
  unfold addrAfter
  rw [List.find?_map, Option.map_eq_some_iff]
  constructor
  · rintro ⟨m, h, rfl⟩
    rw [List.find?_range_eq_some] at h
    simp only [Function.comp_apply, Bool.and_eq_true, decide_eq_true_eq, Bool.not_eq_true', Bool.and_eq_false_iff,
      decide_eq_false_iff_not] at h
    obtain ⟨⟨h1, h2⟩, h3, h4⟩ := h
    refine ⟨h1, by omega, by have := List.mem_range.1 h3; omega, h2, fun b hb h1b _ hf => ?_⟩
    by_contra hlt
    rcases h4 (b - 1) (by omega) with h | h
    · exact h (by omega)
    · rw [Nat.sub_add_cancel h1b, hf] at h; exact Bool.noConfusion h
  · rintro ⟨h1, h2, h3, h4, h5⟩
    refine ⟨a - 1, ?_, by omega⟩
    rw [List.find?_range_eq_some]
    refine ⟨?_, List.mem_range.2 (by omega), fun j hj => ?_⟩
    · simp only [Function.comp_apply, Nat.sub_add_cancel h2, Bool.and_eq_true, decide_eq_true_eq]; exact ⟨h1, h4⟩
    · rw [Bool.not_eq_true', Function.comp_apply]
      by_contra hc
      simp only [Bool.not_eq_false, Bool.and_eq_true, decide_eq_true_eq] at hc
      have := h5 (j + 1) hc.1 (by omega) (by omega) hc.2
      omega

/-- None is found exactly when no address above n, from 1 to 30, satisfies f. -/
theorem addrAfter_none {n : Nat} {f : Nat → Bool} :
    addrAfter n f = none ↔ ∀ b, n < b → 1 ≤ b → b ≤ Config.modules → f b = false := by
  unfold addrAfter
  rw [List.find?_eq_none]
  constructor
  · intro h b hb h1 h2
    have := h b (List.mem_map.2 ⟨b - 1, List.mem_range.2 (by omega), by omega⟩)
    simpa [hb] using this
  · intro h x hx
    obtain ⟨m, hm, rfl⟩ := List.mem_map.1 hx
    have hm := List.mem_range.1 hm
    by_cases hn : n < m + 1
    · simp [h (m + 1) hn (by omega) (by omega)]
    · simp [hn]

/-! ## A line that another holds (R147, R168) -/

theorem Channel.free_held (ch : Channel) (h : ch.held = true) : ch.free = false := by simp [Channel.free, h]

theorem Channel.choice_held (ch : Channel) (mono : Nat) (h : ch.held = true) : ch.choice mono = none := by
  simp [Channel.choice, ch.free_held h]

theorem Channel.pollTurn_held (ch : Channel) (mono : Nat) (h : ch.held = true) : ch.pollTurn mono = false := by
  simp [Channel.pollTurn, ch.free_held h]

theorem Channel.roundTurn_held (ch : Channel) (mono : Nat) (h : ch.held = true) : ch.roundTurn mono = false := by
  simp [Channel.roundTurn, ch.free_held h]

theorem Part.commandMiss_held (p : Part) (c : Chan) (h : (p.chan c).held = true) : p.commandMiss c = p := by
  simp [Part.commandMiss, h]

/-- Up to the hang time the line is held, and no more. -/
theorem Part.lineHang_short (p : Part) (c : Chan) (ms : Nat) (h : ms ≤ Config.hangTime) :
    p.lineHang c ms = p.onChan c (fun ch => { ch with held := decide (0 < ms) }) := by
  simp [Part.lineHang, Channel.hung, Nat.not_lt.2 h]

/-- While the part drives its own reset pulse, and up to the hang time after it, no line is hung (R168). -/
theorem Part.lineHang_pulse (p : Part) (c : Chan) (ms t : Nat) (h : (p.chan c).pulse = some t)
    (ht : p.mono ≤ t + Config.hangTime) :
    p.lineHang c ms = p.onChan c (fun ch => { ch with held := decide (0 < ms) }) := by
  simp [Part.lineHang, Channel.hung, h, Nat.not_lt.2 ht]

/-- A channel that is OFF, RECOVERING or FAULTED does not hang (log 1). -/
theorem Part.hang_idle (p : Part) (c : Chan)
    (h : (p.chan c).state = .off ∨ (p.chan c).state = .recovering ∨ (p.chan c).state = .faulted) : p.hang c = p := by
  unfold Part.hang
  rcases h with h | h | h <;> rw [h]

/-- An identification pass ends as Part.identified says. -/
theorem Part.passEnd_identified (p : Part) (c : Chan) : p.passEnd c = p.identified c := rfl

/-- A round whose turn it is not changes nothing. -/
theorem Part.round_not_turn (p : Part) (c : Chan) (n : Option Nat) (h : (p.chan c).roundTurn p.mono = false) : p.round c n = p := by
  simp [Part.round, h]

end Sys2Proof.Machine
end

