-- ==== Sys2Proof/Laws/Census.lean ====
section
/-! SUPPORT. The end of a census, said once: the report CENSUS_DONE byte by byte, what its end asks of the Report Queue and the
Alert Unit, and the end of a sweep with no module left to read. -/

namespace Sys2Proof.Machine
set_option Elab.async false
open Sys2Proof

/-- CENSUS_DONE is the report that Cen.doneSpelt spells. -/
theorem Cen.doneReport_spelt (n : Cen) : n.doneReport = n.doneSpelt := by
  have cause : beName (n.cause.map CenCause.code) = [match n.cause with
        | some (.request _) => 0#8
        | some .schedule => 1#8
        | none => 0xFF#8] := by
    rcases n.cause with _ | _ | _ <;> simp [beName, beBytes, CenCause.code]
  have origin : beBytes 1 ((n.cause.map CenCause.origin).getD 0) = [match n.cause with
        | some (.request t) => BitVec.ofNat 8 t
        | _ => 0#8] := by
    rcases n.cause with _ | _ | _ <;> simp [beBytes, CenCause.origin]
  have scope : beName (n.scope.map Scope.code) = [match n.scope with
        | some .A => 0#8
        | some .B => 1#8
        | some .both => 2#8
        | none => 0xFF#8] := by rcases n.scope with _ | _ | _ | _ <;> decide
  have outcome : beName (n.outcome.map Outcome.code) = [match n.outcome with
        | some .complete => 0#8
        | some .aborted => 1#8
        | none => 0xFF#8] := by rcases n.outcome with _ | _ | _ <;> decide
  have flags : beBytes 1 (bit n.lostA + 2 * bit n.lostB)
      = [(if n.lostA then 1#8 else 0#8) + (if n.lostB then 2#8 else 0#8)] := by
    cases n.lostA <;> cases n.lostB <;> decide
  simp only [Cen.doneReport, Cen.doneSpelt, cause, origin, scope, outcome, flags, CenCounts.bytes, misKinds,
    List.flatMap_cons, List.flatMap_nil, List.append_nil, List.append_assoc, List.cons_append, List.nil_append]
  rfl

/-- A census ends as Part.censusOver says of the record it leaves. -/
theorem Part.cenEnd_over (p : Part) (o : Outcome) (st : CenState) :
    p.cenEnd o st = p.censusOver { p.cen with
      state := st, outcome := some o, endMin := some p.now, pos := none, deferred := false } := by
  have same (q : Part) (r : Report) : (q.offerOrd r).cen = q.cen := by simp
  simp only [Part.cenEnd, Part.censusOver, Part.onCen, Cen.doneReport_spelt, Option.some.injEq, same]

/-- A channel that was lost before is reached: no slot of the Slot Map changes. -/
theorem Part.reachLost_moduleSlots (p : Part) (c d : Chan) (a : Nat) : (p.reachLost c).moduleSlots d a = p.moduleSlots d a := by
  unfold Part.reachLost
  cases c <;> dsimp only <;> split <;> rfl

/-- A sweep over addresses without STANDARD slots ends COMPLETE, with the flag of each lost channel it has reached. -/
theorem sweepOn_empty (as : List (Chan × Nat)) (p : Part) (h : ∀ x ∈ as, p.moduleSlots x.1 x.2 = []) :
    sweepOn as p = ({ p with cen := { p.cen with
      lostA := p.cen.lostA || (p.cen.pendA && as.any (fun x => x.1 == .A))
      lostB := p.cen.lostB || (p.cen.pendB && as.any (fun x => x.1 == .B)) } } : Part).cenEnd .complete .idle := by
  induction as generalizing p with
  | nil => simp [sweepOn]
  | cons x r ih =>
    obtain ⟨c, a⟩ := x
    have here : (p.reachLost c).moduleSlots c a = [] := by rw [Part.reachLost_moduleSlots]; exact h (c, a) (by simp)
    have differ : (Chan.A == Chan.B) = false ∧ (Chan.B == Chan.A) = false := ⟨rfl, rfl⟩
    simp only [sweepOn, here, List.isEmpty_nil, if_true]
    rw [ih _ fun x hx => by rw [Part.reachLost_moduleSlots]; exact h x (by simp [hx])]
    congr 1
    cases c <;> unfold Part.reachLost <;> dsimp only <;> split <;> rename_i hp <;> simp [hp, Part.onCen, differ]

end Sys2Proof.Machine
end

