-- ==== Sys2Proof/Laws/Lamps.lean ====
section
/-! SUPPORT. The recomputation of lamps that ends a step: it writes the LAMP commands that wait and the Lamp Driver's
marks, and nothing else; with no module touched it changes nothing; it leaves no module touched; of one module it does what
Part.Relit says. -/

namespace Sys2Proof.Machine
set_option Elab.async false
open Sys2Proof

/-- Parts alike but for those agree in everything else. -/
theorem Part.fields_of_unlit {p q : Part} (h : q.unlit = p.unlit) :
    (q).mono = p.mono ∧ (q).strapHigh = p.strapHigh ∧ (q).link = p.link ∧ (q).tfl = p.tfl ∧ (q).rows = p.rows ∧
    (q).keys = p.keys ∧ (q).slotMap = p.slotMap ∧ (q).groups = p.groups ∧ (q).holdSeq = p.holdSeq ∧
    (q).auths = p.auths ∧ (q).ctxs = p.ctxs ∧ (q).waitQ = p.waitQ ∧ (q).nextId = p.nextId ∧ (q).dropBin = p.dropBin ∧
    (q).filters = p.filters ∧ (q).dupCounts = p.dupCounts ∧ (q).clock = p.clock ∧ (q).zone = p.zone ∧
    (q).schedule = p.schedule ∧ (q).rentals = p.rentals ∧ (q).due = p.due ∧ (q).tickRel = p.tickRel ∧
    (q).tickAlt = p.tickAlt ∧ (q).tickCen = p.tickCen ∧ (q).alt = p.alt ∧ (q).cen = p.cen ∧ (q).policy = p.policy ∧
    q.chanA.queue.filter (fun b => !b.isLampAny) = p.chanA.queue.filter (fun b => !b.isLampAny) ∧
    q.chanB.queue.filter (fun b => !b.isLampAny) = p.chanB.queue.filter (fun b => !b.isLampAny) ∧
    q.lmp.images = p.lmp.images ∧ q.lmp.overrides = p.lmp.overrides ∧ q.lmp.blank = p.lmp.blank ∧
    q.lmp.test = p.lmp.test ∧ q.chanA.state = p.chanA.state ∧ q.chanA.rounds = p.chanA.rounds ∧
    q.chanA.nextIdent = p.chanA.nextIdent ∧ q.chanA.history = p.chanA.history ∧ q.chanA.muted = p.chanA.muted ∧
    q.chanA.misses = p.chanA.misses ∧ q.chanA.bounces = p.chanA.bounces ∧ q.chanA.recoveries = p.chanA.recoveries ∧
    q.chanA.strangers = p.chanA.strangers ∧ q.chanA.map = p.chanA.map ∧ q.chanA.modules = p.chanA.modules ∧
    q.chanA.onLine = p.chanA.onLine ∧ q.chanA.passOn = p.chanA.passOn ∧ q.chanA.lastPolled = p.chanA.lastPolled ∧
    q.chanA.kept = p.chanA.kept ∧ q.chanA.pulse = p.chanA.pulse ∧ q.chanB.state = p.chanB.state ∧
    q.chanB.rounds = p.chanB.rounds ∧ q.chanB.nextIdent = p.chanB.nextIdent ∧ q.chanB.history = p.chanB.history ∧
    q.chanB.muted = p.chanB.muted ∧ q.chanB.misses = p.chanB.misses ∧ q.chanB.bounces = p.chanB.bounces ∧
    q.chanB.recoveries = p.chanB.recoveries ∧ q.chanB.strangers = p.chanB.strangers ∧ q.chanB.map = p.chanB.map ∧
    q.chanB.modules = p.chanB.modules ∧ q.chanB.onLine = p.chanB.onLine ∧ q.chanB.passOn = p.chanB.passOn ∧
    q.chanB.lastPolled = p.chanB.lastPolled ∧ q.chanB.kept = p.chanB.kept ∧ q.chanB.pulse = p.chanB.pulse := by
  have k {α : Type} (g : Part → α) : g q.unlit = g p.unlit := congrArg g h
  exact ⟨k Part.mono, k Part.strapHigh, k Part.link, k Part.tfl,
    k Part.rows, k Part.keys, k Part.slotMap, k Part.groups,
    k Part.holdSeq, k Part.auths, k Part.ctxs, k Part.waitQ,
    k Part.nextId, k Part.dropBin, k Part.filters, k Part.dupCounts,
    k Part.clock, k Part.zone, k Part.schedule, k Part.rentals,
    k Part.due, k Part.tickRel, k Part.tickAlt, k Part.tickCen,
    k Part.alt, k Part.cen, k Part.policy, k (fun x => x.chanA.queue),
    k (fun x => x.chanB.queue), k (fun x => x.lmp.images), k (fun x => x.lmp.overrides), k (fun x => x.lmp.blank),
    k (fun x => x.lmp.test), k (fun x => x.chanA.state), k (fun x => x.chanA.rounds), k (fun x => x.chanA.nextIdent),
    k (fun x => x.chanA.history), k (fun x => x.chanA.muted), k (fun x => x.chanA.misses), k (fun x => x.chanA.bounces),
    k (fun x => x.chanA.recoveries), k (fun x => x.chanA.strangers), k (fun x => x.chanA.map), k (fun x => x.chanA.modules),
    k (fun x => x.chanA.onLine), k (fun x => x.chanA.passOn), k (fun x => x.chanA.lastPolled), k (fun x => x.chanA.kept),
    k (fun x => x.chanA.pulse), k (fun x => x.chanB.state), k (fun x => x.chanB.rounds), k (fun x => x.chanB.nextIdent),
    k (fun x => x.chanB.history), k (fun x => x.chanB.muted), k (fun x => x.chanB.misses), k (fun x => x.chanB.bounces),
    k (fun x => x.chanB.recoveries), k (fun x => x.chanB.strangers), k (fun x => x.chanB.map), k (fun x => x.chanB.modules),
    k (fun x => x.chanB.onLine), k (fun x => x.chanB.passOn), k (fun x => x.chanB.lastPolled), k (fun x => x.chanB.kept),
    k (fun x => x.chanB.pulse)⟩

@[simp] theorem Part.touch_unlit (p : Part) (ks : List Nat) : (p.touch ks).unlit = p.unlit := rfl

@[simp] theorem Part.markBehind_unlit (p : Part) (k : Nat) : (p.markBehind k).unlit = p.unlit := rfl

@[simp] theorem Part.clearBehind_unlit (p : Part) (k : Nat) : (p.clearBehind k).unlit = p.unlit := rfl

theorem Part.onChan_unlit (p : Part) (c : Chan) (f : Channel → Channel) (h : ∀ ch, (f ch).unlit = ch.unlit) :
    (p.onChan c f).unlit = p.unlit := by
  cases c <;> simp [Part.unlit, Part.onChan, h]

theorem Channel.push_lamp_unlit (ch : Channel) (a : Nat) (ls : List Lamp) : (ch.push (.lamp a ls)).unlit = ch.unlit := by
  simp [Channel.unlit, Channel.push, BusCmd.isLampAny]

theorem Channel.relamp_unlit (ch : Channel) (a : Nat) (ls : List Lamp) :
    ({ ch with queue := ch.queue.map (fun b => if BusCmd.isLamp a b then .lamp a ls else b) } : Channel).unlit = ch.unlit := by
  simp only [Channel.unlit, Channel.mk.injEq, true_and, and_true]
  induction ch.queue with
  | nil => rfl
  | cons b r ih => cases b <;> simp_all [BusCmd.isLamp, BusCmd.isLampAny]; split <;> simp_all

theorem Channel.withdraw_lamp_unlit (ch : Channel) (a : Nat) : (ch.withdraw (BusCmd.isLamp a)).unlit = ch.unlit := by
  simp only [Channel.unlit, Channel.withdraw, Channel.mk.injEq, true_and, and_true]
  induction ch.queue with
  | nil => rfl
  | cons b r ih => cases b <;> simp_all [BusCmd.isLamp, BusCmd.isLampAny]

@[simp] theorem Part.offerLamp_unlit (p : Part) (c : Chan) (a : Nat) : (p.offerLamp c a).unlit = p.unlit := by
  unfold Part.offerLamp
  split
  · rw [Part.clearBehind_unlit]
    exact Part.onChan_unlit _ _ _ (fun ch => Channel.push_lamp_unlit ch _ _)
  · simp

@[simp] theorem Part.recompute_unlit (p : Part) (k : Nat) : (p.recompute k).unlit = p.unlit := by
  unfold Part.recompute
  dsimp only
  repeat' split
  · rfl
  · exact Part.onChan_unlit _ _ _ (fun ch => Channel.relamp_unlit ch _ _)
  · exact Part.onChan_unlit _ _ _ (fun ch => Channel.withdraw_lamp_unlit ch _)
  · simp
  · rfl

/-- A fold of operations that each leave the rest as it was leaves it as it was. -/
theorem Part.foldl_unlit {α : Type} (f : Part → α → Part) (h : ∀ p a, (f p a).unlit = p.unlit) (l : List α) (p : Part) :
    (l.foldl f p).unlit = p.unlit := by
  induction l generalizing p with
  | nil => rfl
  | cons a r ih => rw [List.foldl_cons, ih, h]

@[simp] theorem Part.lampRun_unlit (p : Part) : p.lampRun.unlit = p.unlit := by
  unfold Part.lampRun
  rw [Part.foldl_unlit _ Part.recompute_unlit]
  rfl

@[simp] theorem Part.reofferLamps_unlit (p : Part) (c : Chan) : (p.reofferLamps c).unlit = p.unlit := by
  unfold Part.reofferLamps
  refine Part.foldl_unlit _ (fun q a => ?_) _ p
  (repeat' split) <;> simp

@[simp] theorem Part.lampRun_fields (p : Part) :
    (p.lampRun).mono = p.mono ∧ (p.lampRun).strapHigh = p.strapHigh ∧ (p.lampRun).link = p.link ∧
    (p.lampRun).tfl = p.tfl ∧ (p.lampRun).rows = p.rows ∧ (p.lampRun).keys = p.keys ∧
    (p.lampRun).slotMap = p.slotMap ∧ (p.lampRun).groups = p.groups ∧ (p.lampRun).holdSeq = p.holdSeq ∧
    (p.lampRun).auths = p.auths ∧ (p.lampRun).ctxs = p.ctxs ∧ (p.lampRun).waitQ = p.waitQ ∧
    (p.lampRun).nextId = p.nextId ∧ (p.lampRun).dropBin = p.dropBin ∧ (p.lampRun).filters = p.filters ∧
    (p.lampRun).dupCounts = p.dupCounts ∧ (p.lampRun).clock = p.clock ∧ (p.lampRun).zone = p.zone ∧
    (p.lampRun).schedule = p.schedule ∧ (p.lampRun).rentals = p.rentals ∧ (p.lampRun).due = p.due ∧
    (p.lampRun).tickRel = p.tickRel ∧ (p.lampRun).tickAlt = p.tickAlt ∧ (p.lampRun).tickCen = p.tickCen ∧
    (p.lampRun).alt = p.alt ∧ (p.lampRun).cen = p.cen ∧ (p.lampRun).policy = p.policy ∧
    (p.lampRun).chanA.queue.filter (fun b => !b.isLampAny) = p.chanA.queue.filter (fun b => !b.isLampAny) ∧
    (p.lampRun).chanB.queue.filter (fun b => !b.isLampAny) = p.chanB.queue.filter (fun b => !b.isLampAny) ∧
    (p.lampRun).lmp.images = p.lmp.images ∧ (p.lampRun).lmp.overrides = p.lmp.overrides ∧
    (p.lampRun).lmp.blank = p.lmp.blank ∧ (p.lampRun).lmp.test = p.lmp.test ∧
    (p.lampRun).chanA.state = p.chanA.state ∧ (p.lampRun).chanA.rounds = p.chanA.rounds ∧
    (p.lampRun).chanA.nextIdent = p.chanA.nextIdent ∧ (p.lampRun).chanA.history = p.chanA.history ∧
    (p.lampRun).chanA.muted = p.chanA.muted ∧ (p.lampRun).chanA.misses = p.chanA.misses ∧
    (p.lampRun).chanA.bounces = p.chanA.bounces ∧ (p.lampRun).chanA.recoveries = p.chanA.recoveries ∧
    (p.lampRun).chanA.strangers = p.chanA.strangers ∧ (p.lampRun).chanA.map = p.chanA.map ∧
    (p.lampRun).chanA.modules = p.chanA.modules ∧ (p.lampRun).chanA.onLine = p.chanA.onLine ∧
    (p.lampRun).chanA.passOn = p.chanA.passOn ∧ (p.lampRun).chanA.lastPolled = p.chanA.lastPolled ∧
    (p.lampRun).chanA.kept = p.chanA.kept ∧ (p.lampRun).chanA.pulse = p.chanA.pulse ∧
    (p.lampRun).chanB.state = p.chanB.state ∧ (p.lampRun).chanB.rounds = p.chanB.rounds ∧
    (p.lampRun).chanB.nextIdent = p.chanB.nextIdent ∧ (p.lampRun).chanB.history = p.chanB.history ∧
    (p.lampRun).chanB.muted = p.chanB.muted ∧ (p.lampRun).chanB.misses = p.chanB.misses ∧
    (p.lampRun).chanB.bounces = p.chanB.bounces ∧ (p.lampRun).chanB.recoveries = p.chanB.recoveries ∧
    (p.lampRun).chanB.strangers = p.chanB.strangers ∧ (p.lampRun).chanB.map = p.chanB.map ∧
    (p.lampRun).chanB.modules = p.chanB.modules ∧ (p.lampRun).chanB.onLine = p.chanB.onLine ∧
    (p.lampRun).chanB.passOn = p.chanB.passOn ∧ (p.lampRun).chanB.lastPolled = p.chanB.lastPolled ∧
    (p.lampRun).chanB.kept = p.chanB.kept ∧ (p.lampRun).chanB.pulse = p.chanB.pulse :=
  Part.fields_of_unlit (Part.lampRun_unlit p)

/-- With no module touched the lamps are left alone. -/
theorem Part.lampRun_quiet (p : Part) (h : p.lmp.touched = []) : p.lampRun = p := by
  have e : ({ p with lmp := { p.lmp with touched := [] } } : Part) = p := by rw [← h]
  unfold Part.lampRun
  rw [h, e]
  simp

theorem Part.onChan_touched (p : Part) (c : Chan) (f : Channel → Channel) : (p.onChan c f).lmp = p.lmp := by simp

theorem Part.offerLamp_touched (p : Part) (c : Chan) (a : Nat) : (p.offerLamp c a).lmp.touched = p.lmp.touched := by
  unfold Part.offerLamp
  split
  · simp [Part.clearBehind]
  · rfl

theorem Part.recompute_touched (p : Part) (k : Nat) : (p.recompute k).lmp.touched = p.lmp.touched := by
  unfold Part.recompute
  dsimp only
  (repeat' split) <;> simp [Part.offerLamp_touched]

/-- No module is left touched. -/
theorem Part.lampRun_touched (p : Part) : p.lampRun.lmp.touched = [] := by
  have go : ∀ (l : List Nat) (q : Part), (l.foldl Part.recompute q).lmp.touched = q.lmp.touched := by
    intro l
    induction l with
    | nil => intro q; rfl
    | cons a r ih => intro q; rw [List.foldl_cons, ih, Part.recompute_touched]
  unfold Part.lampRun
  rw [go]

/-! ## The lamps of one module -/

/-- The lamps of a position, and whether a module is served, go by the records alone. -/
theorem Part.lampOf_unlit (p : Part) (c : Chan) (a pos : Nat) : p.unlit.lampOf c a pos = p.lampOf c a pos := by
  cases c <;> rfl

theorem Part.eightLamps_of_unlit {p q : Part} (h : q.unlit = p.unlit) (c : Chan) (a : Nat) :
    q.eightLamps c a = p.eightLamps c a :=
  List.map_congr_left (fun pos _ => by rw [← Part.lampOf_unlit q, h, Part.lampOf_unlit])

theorem Part.served_of_unlit {p q : Part} (h : q.unlit = p.unlit) (c : Chan) (a : Nat) : q.Served c a ↔ p.Served c a := by
  have k : q.unlit.Served c a ↔ p.unlit.Served c a := by rw [h]
  cases c <;> exact k

theorem Part.moduleServed_iff (p : Part) (c : Chan) (a : Nat) : p.moduleServed c a = true ↔ p.Served c a := by
  simp [Part.moduleServed]

theorem Part.lampNeeded_iff (p : Part) (c : Chan) (a : Nat) :
    p.lampNeeded c a = true ↔ Table.look p.lmp.images (lampKey c a) ≠ some (p.eightLamps c a) := by
  simp [Part.lampNeeded, Part.lampsOf]

theorem lampModule_lampKey (c : Chan) (a : Nat) (h1 : 1 ≤ a) (h30 : a ≤ 30) : lampModule (lampKey c a) = (c, a) := by
  cases c
  · simp [lampModule, lampKey, h30]
  · have : ¬ 30 + a ≤ 30 := by omega
    simp [lampModule, lampKey, this]

theorem lampKey_mem_allModules (c : Chan) (a : Nat) (h1 : 1 ≤ a) (h30 : a ≤ 30) : lampKey c a ∈ allModules := by
  simp only [allModules, List.mem_map, List.mem_range]
  cases c
  · exact ⟨a - 1, by omega, by simp [lampKey]; omega⟩
  · exact ⟨29 + a, by omega, by simp [lampKey]; omega⟩

theorem BusCmd.any_isLamp_iff (queue : List BusCmd) (a : Nat) :
    queue.any (BusCmd.isLamp a) = true ↔ ∃ ls, BusCmd.lamp a ls ∈ queue := by
  simp only [List.any_eq_true]
  constructor
  · rintro ⟨b, hb, h⟩
    cases b <;> simp [BusCmd.isLamp] at h
    subst h
    exact ⟨_, hb⟩
  · rintro ⟨ls, hb⟩
    exact ⟨_, hb, by simp [BusCmd.isLamp]⟩

theorem BusCmd.map_lamp_of_none (queue : List BusCmd) (a : Nat) (ls : List Lamp) (h : ∀ ls, BusCmd.lamp a ls ∉ queue) :
    queue.map (fun b => if BusCmd.isLamp a b then .lamp a ls else b) = queue := by
  induction queue with
  | nil => rfl
  | cons b r ih =>
    have hr : ∀ ls, BusCmd.lamp a ls ∉ r := fun ls hm => h ls (List.mem_cons_of_mem _ hm)
    have hb : BusCmd.isLamp a b = false := by
      cases b with
      | lamp x ls' =>
        by_cases hx : x = a
        · subst hx; exact absurd (List.mem_cons_self ..) (h ls')
        · simp [BusCmd.isLamp, hx]
      | _ => rfl
    simp [ih hr, hb]

theorem BusCmd.filter_lamp_of_none (queue : List BusCmd) (a : Nat) (h : ∀ ls, BusCmd.lamp a ls ∉ queue) :
    queue.filter (fun b => !BusCmd.isLamp a b) = queue := by
  rw [List.filter_eq_self]
  intro b hb
  cases b with
  | lamp x ls =>
    have hx : x ≠ a := fun hx => h ls (hx ▸ hb)
    simp [BusCmd.isLamp, hx]
  | _ => rfl

@[simp] theorem Part.markBehind_chan (p : Part) (k : Nat) (c : Chan) : (p.markBehind k).chan c = p.chan c := by cases c <;> rfl

@[simp] theorem Part.clearBehind_chan (p : Part) (k : Nat) (c : Chan) : (p.clearBehind k).chan c = p.chan c := by cases c <;> rfl

theorem Part.onChan_chan_ne (p : Part) {c d : Chan} (f : Channel → Channel) (h : d ≠ c) : (p.onChan c f).chan d = p.chan d := by
  cases c <;> cases d <;> first | rfl | exact absurd rfl h

theorem Part.onChan_chan_self (p : Part) (c : Chan) (f : Channel → Channel) : (p.onChan c f).chan c = f (p.chan c) := by
  cases c <;> rfl

/-- A recomputation works out the lamps of its module, and of no other. -/
theorem Part.recompute_relit (p : Part) (c : Chan) (a : Nat) (h1 : 1 ≤ a) (h30 : a ≤ 30) :
    p.Relit (p.recompute (lampKey c a)) c a := by
  unfold Part.recompute
  rw [lampModule_lampKey c a h1 h30]
  dsimp only
  by_cases hs : p.Served c a
  · have hs' := (p.moduleServed_iff c a).2 hs
    simp only [hs', Bool.not_true, Bool.false_eq_true, if_false]
    by_cases hn : Table.look p.lmp.images (lampKey c a) = some (p.eightLamps c a)
    · have hn' : p.lampNeeded c a = false := by
        rw [Bool.eq_false_iff]
        exact fun h => (p.lampNeeded_iff c a).1 h hn
      simp only [hn', Bool.false_eq_true, if_false]
      split
      · refine ⟨fun _ h => absurd hn h, fun _ _ => ?_, fun h => absurd hs h, fun d hd => ?_, fun k _ => ?_⟩
        · rw [Part.onChan_chan_self]; rfl
        · rw [Part.onChan_chan_ne _ _ hd]
        · rw [Part.onChan_touched]
      · rename_i hw
        refine ⟨fun _ h => absurd hn h, fun _ _ => ?_, fun h => absurd hs h, fun d hd => rfl, fun k _ => Iff.rfl⟩
        refine (BusCmd.filter_lamp_of_none _ _ (fun ls hm => hw ?_)).symm
        exact (BusCmd.any_isLamp_iff _ _).2 ⟨ls, hm⟩
    · have hn' := (p.lampNeeded_iff c a).2 hn
      simp only [hn', if_true]
      split
      · rename_i hw
        refine ⟨fun _ _ => ⟨fun pre ls post hq hf => ?_, fun hf => ?_, fun hf => ?_⟩, fun _ h => absurd h hn,
          fun h => absurd hs h, fun d hd => ?_, fun k _ => ?_⟩
        · rw [Part.onChan_chan_self]
          have hpre : ∀ ls, BusCmd.lamp a ls ∉ pre := fun ls hm => hf ls (List.mem_append_left _ hm)
          have hpost : ∀ ls, BusCmd.lamp a ls ∉ post := fun ls hm => hf ls (List.mem_append_right _ hm)
          simp only [hq, List.map_append, List.map_cons, BusCmd.map_lamp_of_none _ _ _ hpre, BusCmd.map_lamp_of_none _ _ _ hpost]
          simp [BusCmd.isLamp, Part.lampsOf]
        · obtain ⟨ls, hm⟩ := (BusCmd.any_isLamp_iff _ _).1 hw
          exact absurd hm (hf ls)
        · obtain ⟨ls, hm⟩ := (BusCmd.any_isLamp_iff _ _).1 hw
          exact absurd hm (hf ls)
        · rw [Part.onChan_chan_ne _ _ hd]
        · rw [Part.onChan_touched]
      · rename_i hw
        have hno (pre : List BusCmd) (ls : List Lamp) (post : List BusCmd) (hq : (p.chan c).queue = pre ++ .lamp a ls :: post) :
            False := hw ((BusCmd.any_isLamp_iff _ _).2 ⟨ls, by rw [hq]; simp⟩)
        unfold Part.offerLamp
        split
        · rename_i hr
          have hr' : (p.chan c).queue.length < 12 := of_decide_eq_true hr
          refine ⟨fun _ _ => ⟨fun pre ls post hq _ => (hno pre ls post hq).elim, fun _ _ => ⟨?_, ?_⟩, fun _ h => ?_⟩,
            fun _ h => absurd h hn, fun h => absurd hs h, fun d hd => ?_, fun k hk => ?_⟩
          · rw [Part.clearBehind_chan, Part.onChan_chan_self]; rfl
          · simp [Part.clearBehind]
          · omega
          · rw [Part.clearBehind_chan, Part.onChan_chan_ne _ _ hd]
          · simp [Part.clearBehind, hk]
        · rename_i hr
          have hr' : 12 ≤ (p.chan c).queue.length := Nat.le_of_not_lt (fun h => hr (decide_eq_true h))
          refine ⟨fun _ _ => ⟨fun pre ls post hq _ => (hno pre ls post hq).elim, fun _ h => ?_, fun _ _ => ⟨?_, ?_⟩⟩,
            fun _ h => absurd h hn, fun h => absurd hs h, fun d hd => ?_, fun k hk => ?_⟩
          · omega
          · rw [Part.markBehind_chan]
          · simp [Part.markBehind]
          · rw [Part.markBehind_chan]
          · simp [Part.markBehind, hk]
  · have hs' : p.moduleServed c a = false := by
      rw [Bool.eq_false_iff]
      exact fun h => hs ((p.moduleServed_iff c a).1 h)
    simp only [hs', Bool.not_false, if_true]
    exact ⟨fun h => absurd h hs, fun h => absurd h hs, fun _ => rfl, fun _ _ => rfl, fun _ _ => Iff.rfl⟩

end Sys2Proof.Machine
end

