-- ==== Sys2Proof/Laws/Ops.lean ====
section
/-! SUPPORT. The shared operations of Machine/Ops.lean and Machine/Operands.lean: what a table answers after each of
its operations, bytes read back, the bounds the queue operations keep, lamp bytes and table entries read back. -/

namespace Sys2Proof
set_option Elab.async false
open Sys2Proof

/-! ## Tables -/

@[simp] theorem Table.look_nil {α : Type} (i : Nat) : Table.look ([] : Table α) i = none := rfl

/-- A table made by a function of the index gives its value at every index it lists. -/
theorem Table.look_map {α : Type} (f : Nat → α) (l : List Nat) {j : Nat} (h : j ∈ l) :
    Table.look (l.map (fun i => (i, f i))) j = some (f j) := by
  induction l with
  | nil => simp at h
  | cons k r ih =>
    by_cases hk : k = j
    · simp [Table.look, hk]
    · simp [Table.look, hk, ih ((List.mem_cons.1 h).resolve_left (Ne.symm hk))]

theorem Table.look_put_same {α : Type} (t : Table α) (i : Nat) (v : α) : Table.look (Table.put t i v) i = some v := by
  induction t with
  | nil => simp [Table.put, Table.look]
  | cons e r ih =>
    simp only [Table.put]
    split
    · simp [Table.look]
    · split
      · simp [Table.look]
      · rename_i h
        simp [Table.look, Ne.symm h, ih]

theorem Table.look_put_other {α : Type} (t : Table α) (i j : Nat) (v : α) (h : j ≠ i) :
    Table.look (Table.put t i v) j = Table.look t j := by
  induction t with
  | nil => simp [Table.put, Table.look, h.symm]
  | cons e r ih =>
    simp only [Table.put]
    split
    · simp [Table.look, h.symm]
    · split
      · rename_i hi
        subst hi
        simp [Table.look, h.symm]
      · simp [Table.look, ih]

theorem Table.look_del_same {α : Type} (t : Table α) (i : Nat) : Table.look (Table.del t i) i = none := by
  induction t with
  | nil => rfl
  | cons e r ih =>
    simp only [Table.del]
    split
    · exact ih
    · rename_i h
      simp [Table.look, h, ih]

theorem Table.look_del_other {α : Type} (t : Table α) (i j : Nat) (h : j ≠ i) :
    Table.look (Table.del t i) j = Table.look t j := by
  induction t with
  | nil => rfl
  | cons e r ih =>
    simp only [Table.del]
    split
    · rename_i hi
      subst hi
      rw [ih]
      simp [Table.look, h.symm]
    · simp [Table.look, ih]

theorem Table.look_modify_same {α : Type} (t : Table α) (i : Nat) (f : α → α) :
    Table.look (Table.modify t i f) i = (Table.look t i).map f := by
  induction t with
  | nil => rfl
  | cons e r ih =>
    simp only [Table.modify]
    split
    · simp [Table.look, *]
    · simp [Table.look, *]

theorem Table.look_modify_other {α : Type} (t : Table α) (i j : Nat) (f : α → α) (h : j ≠ i) :
    Table.look (Table.modify t i f) j = Table.look t j := by
  induction t with
  | nil => rfl
  | cons e r ih =>
    simp only [Table.modify]
    split
    · rename_i hi
      simp [Table.look, hi, h.symm]
    · simp [Table.look, ih]

theorem Table.look_putD_same {α : Type} [DecidableEq α] (d : α) (t : Table α) (i : Nat) (v : α) :
    (Table.look (Table.putD d t i v) i).getD d = v := by
  unfold Table.putD
  split
  · simp [Table.look_del_same, *]
  · simp [Table.look_put_same]

theorem Table.look_putD_other {α : Type} [DecidableEq α] (d : α) (t : Table α) (i j : Nat) (v : α) (h : j ≠ i) :
    Table.look (Table.putD d t i v) j = Table.look t j := by
  unfold Table.putD
  split
  · exact Table.look_del_other t i j h
  · exact Table.look_put_other t i j v h

theorem Table.look_putO_same {α : Type} (t : Table α) (i : Nat) (v : Option α) : Table.look (Table.putO t i v) i = v := by
  cases v with
  | none => exact Table.look_del_same t i
  | some x => exact Table.look_put_same t i x

/-- A table in canonical form has its indexes rising strictly; every operation keeps the form. -/
theorem Table.rising_iff {α : Type} (t : Table α) : Table.rising t = true ↔ t.Pairwise (fun a b => a.1 < b.1) := by
  induction t with
  | nil => simp [Table.rising]
  | cons a r ih =>
    cases r with
    | nil => simp [Table.rising]
    | cons b r =>
      simp only [Table.rising, Bool.and_eq_true, decide_eq_true_eq, ih]
      constructor
      · rintro ⟨hab, hp⟩
        refine List.pairwise_cons.2 ⟨?_, hp⟩
        intro c hc
        rcases List.mem_cons.1 hc with rfl | hc
        · exact hab
        · exact Nat.lt_trans hab ((List.pairwise_cons.1 hp).1 c hc)
      · intro hp
        exact ⟨(List.pairwise_cons.1 hp).1 b (by simp), (List.pairwise_cons.1 hp).2⟩

theorem Table.mem_put {α : Type} (t : Table α) (i : Nat) (v : α) (e : Nat × α) (h : e ∈ Table.put t i v) :
    e = (i, v) ∨ e ∈ t := by
  induction t with
  | nil => simpa [Table.put] using h
  | cons a r ih =>
    simp only [Table.put] at h
    split at h
    · rcases List.mem_cons.1 h with h | h
      · exact .inl h
      · exact .inr h
    · split at h
      · rcases List.mem_cons.1 h with h | h
        · exact .inl h
        · exact .inr (List.mem_cons_of_mem _ h)
      · rcases List.mem_cons.1 h with h | h
        · exact .inr (by rw [h]; exact List.mem_cons_self)
        · rcases ih h with h | h
          · exact .inl h
          · exact .inr (List.mem_cons_of_mem _ h)

theorem Table.mem_del {α : Type} (t : Table α) (i : Nat) (e : Nat × α) (h : e ∈ Table.del t i) : e ∈ t ∧ e.1 ≠ i := by
  induction t with
  | nil => cases h
  | cons a r ih =>
    simp only [Table.del] at h
    split at h
    · exact ⟨List.mem_cons_of_mem _ (ih h).1, (ih h).2⟩
    · rename_i hne
      rcases List.mem_cons.1 h with h | h
      · exact ⟨by rw [h]; exact List.mem_cons_self, by rw [h]; exact hne⟩
      · exact ⟨List.mem_cons_of_mem _ (ih h).1, (ih h).2⟩

theorem Table.rising_put {α : Type} (t : Table α) (i : Nat) (v : α) (h : Table.rising t = true) :
    Table.rising (Table.put t i v) = true := by
  rw [Table.rising_iff] at h ⊢
  induction t with
  | nil => simp [Table.put]
  | cons a r ih =>
    have ha := (List.pairwise_cons.1 h).1
    have hr := (List.pairwise_cons.1 h).2
    simp only [Table.put]
    split
    · rename_i hlt
      refine List.pairwise_cons.2 ⟨?_, h⟩
      intro c hc
      rcases List.mem_cons.1 hc with rfl | hc
      · exact hlt
      · exact Nat.lt_trans hlt (ha c hc)
    · split
      · rename_i hi
        subst hi
        exact List.pairwise_cons.2 ⟨ha, hr⟩
      · rename_i hnl hne
        refine List.pairwise_cons.2 ⟨?_, ih hr⟩
        intro c hc
        rcases Table.mem_put r i v c hc with rfl | hc
        · exact Nat.lt_of_le_of_ne (Nat.le_of_not_lt hnl) (fun e => hne e.symm)
        · exact ha c hc

theorem Table.rising_del {α : Type} (t : Table α) (i : Nat) (h : Table.rising t = true) :
    Table.rising (Table.del t i) = true := by
  rw [Table.rising_iff] at h ⊢
  induction t with
  | nil => simp [Table.del]
  | cons a r ih =>
    have ha := (List.pairwise_cons.1 h).1
    have hr := (List.pairwise_cons.1 h).2
    simp only [Table.del]
    split
    · exact ih hr
    · exact List.pairwise_cons.2 ⟨fun c hc => ha c (Table.mem_del r i c hc).1, ih hr⟩

theorem Table.map_fst_modify {α : Type} (t : Table α) (i : Nat) (f : α → α) :
    (Table.modify t i f).map (·.1) = t.map (·.1) := by
  induction t with
  | nil => rfl
  | cons a r ih =>
    simp only [Table.modify]
    split
    · rfl
    · simp [ih]

theorem Table.rising_modify {α : Type} (t : Table α) (i : Nat) (f : α → α) (h : Table.rising t = true) :
    Table.rising (Table.modify t i f) = true := by
  rw [Table.rising_iff] at h ⊢
  have h' : (t.map (·.1)).Pairwise (· < ·) := List.pairwise_map.2 h
  rw [← Table.map_fst_modify t i f] at h'
  exact List.pairwise_map.1 h'

theorem Table.lowestFree_some {α : Type} (t : Table α) (n i : Nat) (h : Table.lowestFree t n = some i) :
    i < n ∧ Table.look t i = none := by
  unfold Table.lowestFree at h
  exact ⟨List.mem_range.1 (List.mem_of_find?_eq_some h), by simpa using List.find?_some h⟩

/-! ## Bytes -/

@[simp] theorem beBytes_length (w n : Nat) : (beBytes w n).length = w := by
  induction w with
  | zero => rfl
  | succ w ih => simp [beBytes, ih]

theorem beNat_cons (b : Byte) (bs : List Byte) : beNat (b :: bs) = b.toNat * 256 ^ bs.length + beNat bs := by
  have go : ∀ (l : List Byte) (a : Nat),
      l.foldl (fun a b => a * 256 + b.toNat) a = a * 256 ^ l.length + l.foldl (fun a b => a * 256 + b.toNat) 0 := by
    intro l
    induction l with
    | nil => intro a; simp
    | cons c r ih =>
      intro a
      simp only [List.foldl_cons, List.length_cons]
      rw [ih (a * 256 + c.toNat), ih (0 * 256 + c.toNat)]
      ring
  unfold beNat
  rw [List.foldl_cons, go]
  simp

/-- A number below 256 ^ w is read back from its w bytes. -/
theorem beNat_beBytes (w n : Nat) : beNat (beBytes w n) = n % 256 ^ w := by
  induction w with
  | zero => simp [beBytes, beNat, Nat.mod_one]
  | succ w ih =>
    have h8 : (2 : Nat) ^ 8 = 256 := rfl
    rw [beBytes, beNat_cons, ih, beBytes_length, BitVec.toNat_ofNat, h8, pow_succ (256 : Nat) w]
    rw [Nat.mod_mul (x := n) (a := 256 ^ w) (b := 256)]
    ring

theorem beNat_beBytes_lt (w n : Nat) (h : n < 256 ^ w) : beNat (beBytes w n) = n := by
  rw [beNat_beBytes, Nat.mod_eq_of_lt h]

/-- A field laid out after o bytes is read back. -/
theorem field_at (pre rest : List Byte) (w n : Nat) (h : n < 256 ^ w) :
    field (pre ++ (beBytes w n ++ rest)) pre.length w = n := by
  unfold field
  rw [List.drop_left, List.take_append_of_le_length (by simp), List.take_of_length_le (by simp)]
  exact beNat_beBytes_lt w n h

/-! ## Counters and queues -/

theorem satUp_le (n : Nat) (h : n ≤ Config.satMax) : satUp n ≤ Config.satMax := by
  unfold satUp
  split <;> omega

theorem satUp_of_lt (n : Nat) (h : n < Config.satMax) : satUp n = n + 1 := by simp [satUp, h]

namespace Machine

theorem Link.room_lt (l : Link) (h : l.room = true) : l.reports.length < Config.reportCap := by
  simp [Link.room] at h
  exact h.1

theorem Link.await_fields (l : Link) (w : Waiter) :
    l.await w = { l with waiters := if l.waiters.contains w then l.waiters else l.waiters ++ [w] } := by
  unfold Link.await
  split <;> rfl

theorem Channel.withdraw_le (ch : Channel) (f : BusCmd → Bool) : (ch.withdraw f).queue.length ≤ ch.queue.length := by
  simp [Channel.withdraw, List.length_filter_le]

theorem Channel.pushLock_le (ch : Channel) (b : BusCmd) (h : ch.queue.length ≤ Config.queueCap) :
    (ch.pushLock b).queue.length ≤ Config.queueCap := by
  unfold Channel.pushLock Channel.push
  split
  · simp only [List.length_append, List.length_singleton]; omega
  · exact h

theorem Channel.pushClose_le (ch : Channel) (i a pos : Nat) (h : ch.queue.length ≤ Config.queueCap) :
    (ch.pushClose i a pos).queue.length ≤ Config.queueCap := by
  unfold Channel.pushClose
  split
  · simpa using h
  · exact Channel.pushLock_le ch _ h

/-- A command that is left stays a command of its kind for its module; only whose LOCK_CLOSE it is may change. -/
theorem BusCmd.leave_keeps (i : Nat) (b : BusCmd) :
    (b.leave i).addr = b.addr ∧ (∀ a, BusCmd.isLamp a (b.leave i) = BusCmd.isLamp a b)
      ∧ (b.leave i).isReadTags = b.isReadTags ∧ ((∀ a pos, b ≠ .lockClose a pos (.ctx i)) → b.leave i = b) := by
  cases b with
  | lockClose a pos o =>
    cases o with
    | ctx j =>
      by_cases h : j = i
      · subst h; exact ⟨rfl, fun _ => rfl, rfl, fun k => absurd rfl (k a pos)⟩
      · exact ⟨rfl, fun _ => rfl, rfl, fun _ => by simp [BusCmd.leave, h]⟩
    | _ => exact ⟨rfl, fun _ => rfl, rfl, fun _ => rfl⟩
  | _ => exact ⟨rfl, fun _ => rfl, rfl, fun _ => rfl⟩

@[simp] theorem Channel.leaveClose_length (ch : Channel) (i : Nat) :
    (ch.leaveClose i).queue.length = ch.queue.length := by
  simp [Channel.leaveClose]

/-- No LOCK_CLOSE that waits is a freed context's any more. -/
theorem Channel.leaveClose_left (ch : Channel) (i a pos : Nat) : BusCmd.lockClose a pos (.ctx i) ∉ (ch.leaveClose i).queue := by
  intro h
  obtain ⟨b, _, e⟩ := List.mem_map.1 h
  cases b with
  | lockClose x y o =>
    cases o with
    | ctx j => by_cases hj : j = i <;> simp [BusCmd.leave, hj] at e
    | _ => simp [BusCmd.leave] at e
  | _ => simp [BusCmd.leave] at e

/-- Where no LOCK_CLOSE of the context waits, the queue stays as it is. -/
theorem Channel.leaveClose_none (ch : Channel) (i : Nat) (h : ∀ a pos, BusCmd.lockClose a pos (.ctx i) ∉ ch.queue) :
    ch.leaveClose i = ch := by
  have : ch.queue.map (BusCmd.leave i) = ch.queue := by
    conv => rhs; rw [← List.map_id ch.queue]
    exact List.map_congr_left fun b hb => (BusCmd.leave_keeps i b).2.2.2 fun a pos e => h a pos (e ▸ hb)
  simp [Channel.leaveClose, this]

theorem Channel.push_other_le (ch : Channel) (b : BusCmd) (h : ch.otherRoom = true) :
    (ch.push b).queue.length ≤ Config.otherCap := by
  simp [Channel.otherRoom, Channel.push] at h ⊢
  omega

/-! ## Lamp bytes and table entries (R206, R207) -/

/-- Each of the ten lamp states is read back from its byte. -/
theorem lampOfByte_byte (l : Lamp) : lampOfByte l.byte = some l := by
  cases l with
  | off => rfl
  | lit c k => cases c <;> cases k <;> rfl

end Machine
end Sys2Proof
end

