-- ==== Sys2Proof/Laws/Filter.lean ====
section
/-! SUPPORT. The taking of a request, said once: what the owner is handed, and how its answer enters the Report Queue. -/

namespace Sys2Proof.Machine
set_option Elab.async false
open Sys2Proof

@[simp] theorem beBytes_one (n : Nat) : beBytes 1 n = [BitVec.ofNat 8 n] := by simp [beBytes]

theorem Part.respond_room (p : Part) (r : Report) (h : p.essRoom = true) : p.respond r = p.queued r := by
  simp [Part.respond, h, Part.queued, Part.enter, Link.enter]

theorem Part.respond_full (p : Part) (r : Report) (h : p.essRoom = false) :
    p.respond r = ({ p with tfl := { p.tfl with held := some r } } : Part).await .tfl := by
  simp [Part.respond, h]

theorem Part.tflCheck_onLink (p : Part) (f : Frame) (g : Link → Link) : (p.onLink g).tflCheck f = p.tflCheck f := rfl

theorem Part.tflCheck_sequenceStep (p : Part) (f : Frame) : (p.sequenceStep f).tflCheck f = p.tflCheck f := by
  unfold Part.sequenceStep
  split <;> rfl

/-- The owner is handed the part as Part.asked gives it, and its answer is offered. -/
theorem Part.requestRun_asks (s : State) (row : Instr) (f : Frame) (rest : List Frame) (owner : Part → Frame → Answer)
    (h : s.Asks row f rest) :
    s.part.requestRun row owner = (owner (s.part.asked f rest) f).send f (s.part.sequenceReset f) := by
  obtain ⟨h1, h2, h3, h4⟩ := h
  have e : (s.part.onLink (fun l => { l with inbound := rest })).sequenceStep f = s.part.asked f rest := by
    unfold Part.sequenceStep Part.asked Part.sequenceReset Part.onLink
    cases s.part.holdSeq.ownedBy f.origin && !sequenceExempt f.kind <;> rfl
  unfold Part.requestRun Part.tflRun
  simp only [h2, h1, h3, Option.isNone_none, and_self, if_true]
  unfold Part.request
  dsimp only
  rw [Part.tflCheck_sequenceStep, Part.tflCheck_onLink, h4, e]
  rfl

/-- A row that is the taking of a request, whose owner answers with room for the response. -/
theorem State.becomes_reply (s : State) (row : Instr) (f : Frame) (rest : List Frame) (owner : Part → Frame → Answer)
    (q : Part) (r : Result) (fields : List Byte) (h : s.Asks row f rest)
    (ho : owner (s.part.asked f rest) f = q.answer r fields) (room : q.essRoom = true) :
    s.Becomes (.next { s with part := (s.part.requestRun row owner).lampRun }) (q.queued (s.part.replyTo f r fields)) := by
  refine ⟨_, rfl, rfl, ?_⟩
  rw [Part.requestRun_asks s row f rest owner h, ho, Part.lampRun_unlit]
  simp only [Answer.send, Part.answer]
  rw [Part.respond_room _ _ room]
  simp [Part.replyTo, responseReport, bit]

/-- The taking of a frame that is no request. -/
theorem Part.tflRun_takes (p : Part) (row : Instr) (act : Part → Frame → Part) (f : Frame) (rest : List Frame)
    (h : p.tfl.held = none) (hi : p.link.inbound = f :: rest) (hr : tflRow f = row) :
    p.tflRun row act = act (p.onLink (fun l => { l with inbound := rest })) f := by
  simp [Part.tflRun, h, hi, hr]

end Sys2Proof.Machine
end

