-- ==== Sys2Proof/Laws/Link.lean ====
section
/-! SUPPORT. What the receiver and the transmitter of the Branch Link Port can do: the bytes a row brings, a byte of HUNT,
and the beginning of the head report. -/

namespace Sys2Proof.Machine
set_option Elab.async false
open Sys2Proof

/-- A row that gives the next bytes of a group, and no other, brings those bytes. -/
theorem nextBytes_of (had k : Nat) (new : List Byte) (h : new ≠ []) :
    nextBytes had (List.replicate had none ++ new.map some ++ List.replicate k none) = some new := by
  have ht : (new.map some ++ List.replicate k (none : Option Byte)).takeWhile Option.isSome = new.map some := by
    clear h
    induction new with
    | nil => cases k <;> simp [List.replicate_succ]
    | cons b r ih => simp [ih]
  simp [nextBytes, ht, List.filterMap_map, h]

/-- A row that brings bytes gives just those, after as many as have been received. -/
theorem nextBytes_some {had : Nat} {row : List (Option Byte)} {new : List Byte} (h : nextBytes had row = some new) :
    new ≠ [] ∧ row = List.replicate had none ++ new.map some ++ List.replicate (row.length - had - new.length) none := by
  simp only [nextBytes] at h
  split at h
  · rename_i hc
    cases h
    exact hc
  · simp at h

/-- Of a run already in progress no byte counts. -/
theorem Part.huntOn_run (p : Part) (stray start : Bool) : p.huntOn true stray start = p.setRx (.hunt true start) := by
  simp [Part.huntOn]

/-- A byte that may start a pair begins no run. -/
theorem Part.huntOn_start (p : Part) (run start : Bool) : p.huntOn run false start = p.setRx (.hunt run start) := by
  simp [Part.huntOn]

/-- The first byte of a run counts in SYNC_ERROR. -/
theorem Part.huntOn_first (p : Part) (start : Bool) : p.huntOn false true start
    = (p.setRx (.hunt true start)).linkCount (fun c => { c with syncError := satUp c.syncError }) := rfl

/-- The head report is begun when the input is asserted, the transmitter idle and a report waiting. -/
theorem Link.sendHead_idle (l : Link) (r : Report) (rest : List Report) (hc : l.cts = true) (ht : l.tx = none)
    (hr : l.reports = r :: rest) : l.sendHead = { l with tx := some r.frame } := by
  simp [Link.sendHead, Link.maySend, hc, ht, hr]

/-- With the input not asserted, a report being sent or none waiting, nothing is begun. -/
theorem Link.sendHead_not (l : Link) (h : l.cts = false ∨ l.tx ≠ none ∨ l.reports = []) : l.sendHead = l := by
  have : l.maySend = false := by
    rcases h with h | h | h
    · simp [Link.maySend, h]
    · cases hx : l.tx with
      | none => exact absurd hx h
      | some b => simp [Link.maySend, hx]
    · simp [Link.maySend, h]
  simp [Link.sendHead, this]

end Sys2Proof.Machine
end

