-- ==== Sys2Proof/Laws/PerInstr.lean ====
section
/-! SUPPORT. Statements made of every command, one lemma per constructor of Instr. Width: every number a well-formed
command carries fits the 32 bits of the widest field of the manual (R201). -/

namespace Sys2Proof.Laws.Width
set_option Elab.async false
open Sys2Proof

/-- The tag ids of an occupancy. -/
def ofOcc : Occ → List Nat
  | .tag t => [t]
  | _ => []

/-- The tag ids of a position report. -/
def ofReport (r : PosReport) : List Nat := ofOcc r.occ ++ r.chute.toList

/-- The numbers among the operands of a command: all but the duration of LINE_HANG, which the manual gives no width. -/
def numbers : Instr → List Nat
  | .guideExpiry n => [n]
  | .settleExpiry n => [n]
  | .passThroughExpiry n => [n]
  | .lockLimitOpening n => [n]
  | .lockLimitClosing n => [n]
  | .removalWindowExpiry n => [n]
  | .enumerationRound _ s => s.toList
  | .assignAnswer _ x => x.content.flatMap ofReport
  | .pollAnswer _ x => x.content.flatMap ofReport
  | .readTagsAnswer _ o => o.toList.flatMap (fun x => x.content.flatMap ofOcc)
  | _ => []

/-- Every number of a well-formed command is below 2^32. -/
def Statement (i : Instr) : Prop := i.wf = true → ∀ n ∈ numbers i, n < 4294967296

/-- A command with no number among its operands. -/
theorem none_wide {i : Instr} (h : numbers i = []) : Statement i := fun _ n hn => by
  rw [h] at hn
  cases hn

theorem ofOcc_lt (o : Occ) (h : o.wf = true) : ∀ n ∈ ofOcc o, n < 4294967296 := by
  cases o <;> simp [ofOcc, Occ.wf, tagOk] at *
  exact h.2

theorem ofReport_lt (r : PosReport) (h : r.wf = true) : ∀ n ∈ ofReport r, n < 4294967296 := by
  obtain ⟨o, l, c⟩ := r
  simp only [PosReport.wf, Bool.and_eq_true] at h
  intro n hn
  rcases List.mem_append.mp hn with h1 | h1
  · exact ofOcc_lt o h.1 n h1
  · cases c with
    | none => simp at h1
    | some t =>
      simp [tagOk] at h h1
      subst h1
      exact h.2.2

theorem ofReports_lt (rs : List PosReport) (h : reportsOk rs = true) : ∀ n ∈ rs.flatMap ofReport, n < 4294967296 := by
  intro n hn
  obtain ⟨r, hr, hn⟩ := List.mem_flatMap.mp hn
  simp only [reportsOk, Bool.and_eq_true, List.all_eq_true] at h
  exact ofReport_lt r (h.2 r hr) n hn

theorem powerOn (strapHigh : Bool) : Statement (.powerOn strapHigh) := none_wide rfl
theorem headerReceived (dest origin kind len check : Option Byte) : Statement (.headerReceived dest origin kind len check) := none_wide rfl
theorem framingError : Statement (.framingError) := none_wide rfl
theorem syncError (byte : Byte) : Statement (.syncError byte) := none_wide rfl
theorem frameTruncated : Statement (.frameTruncated) := none_wide rfl
theorem frameReceived (crcHigh crcLow : Option Byte) : Statement (.frameReceived crcHigh crcLow) := none_wide rfl
theorem linkWatchExpiry : Statement (.linkWatchExpiry) := none_wide rfl
theorem clearToSendAsserted (asserted : Bool) : Statement (.clearToSendAsserted asserted) := none_wide rfl
theorem reportSent : Statement (.reportSent) := none_wide rfl
theorem waitingOwnerReportEnters : Statement (.waitingOwnerReportEnters) := none_wide rfl
theorem tflFrameDropped : Statement (.tflFrameDropped) := none_wide rfl
theorem unknownRequest : Statement (.unknownRequest) := none_wide rfl
theorem keyAdd : Statement (.keyAdd) := none_wide rfl
theorem keyDelete : Statement (.keyDelete) := none_wide rfl
theorem keyQuery : Statement (.keyQuery) := none_wide rfl
theorem keyHold : Statement (.keyHold) := none_wide rfl
theorem guide : Statement (.guide) := none_wide rfl
theorem guideExpiry (slot : Nat) : Statement (.guideExpiry slot) := by
  intro h n hn
  have b := of_decide_eq_true (p := 1 ≤ slot ∧ slot ≤ Config.slots) h
  simp only [numbers, List.mem_singleton, Config.slots] at hn b
  omega
theorem holdRangeStart : Statement (.holdRangeStart) := none_wide rfl
theorem holdRangeEnd : Statement (.holdRangeEnd) := none_wide rfl
theorem holdApply : Statement (.holdApply) := none_wide rfl
theorem authAdd : Statement (.authAdd) := none_wide rfl
theorem authDelete : Statement (.authDelete) := none_wide rfl
theorem clearLockout : Statement (.clearLockout) := none_wide rfl
theorem release : Statement (.release) := none_wide rfl
theorem pickup : Statement (.pickup) := none_wide rfl
theorem serviceRelease : Statement (.serviceRelease) := none_wide rfl
theorem cancelRelease : Statement (.cancelRelease) := none_wide rfl
theorem rentalCloseManual : Statement (.rentalCloseManual) := none_wide rfl
theorem timeSet : Statement (.timeSet) := none_wide rfl
theorem broadcastTimeSet : Statement (.broadcastTimeSet) := none_wide rfl
theorem extend : Statement (.extend) := none_wide rfl
theorem rentalQuery : Statement (.rentalQuery) := none_wide rfl
theorem overdueList : Statement (.overdueList) := none_wide rfl
theorem ackAlert : Statement (.ackAlert) := none_wide rfl
theorem flagsRead : Statement (.flagsRead) := none_wide rfl
theorem enableSet : Statement (.enableSet) := none_wide rfl
theorem censusStart : Statement (.censusStart) := none_wide rfl
theorem censusAbort : Statement (.censusAbort) := none_wide rfl
theorem censusRead : Statement (.censusRead) := none_wide rfl
theorem lampControlBlankOn : Statement (.lampControlBlankOn) := none_wide rfl
theorem lampControlBlankOff : Statement (.lampControlBlankOff) := none_wide rfl
theorem lampControlTest : Statement (.lampControlTest) := none_wide rfl
theorem lampTestPhaseExpiry : Statement (.lampTestPhaseExpiry) := none_wide rfl
theorem lampRelease : Statement (.lampRelease) := none_wide rfl
theorem channelControlOn : Statement (.channelControlOn) := none_wide rfl
theorem channelControlOff : Statement (.channelControlOff) := none_wide rfl
theorem channelControlReenumerate : Statement (.channelControlReenumerate) := none_wide rfl
theorem tableWrite : Statement (.tableWrite) := none_wide rfl
theorem tableRead : Statement (.tableRead) := none_wide rfl
theorem policySet : Statement (.policySet) := none_wide rfl
theorem statusRead : Statement (.statusRead) := none_wide rfl
theorem countersRead : Statement (.countersRead) := none_wide rfl
theorem restartLogic : Statement (.restartLogic) := none_wide rfl
theorem restartAll : Statement (.restartAll) := none_wide rfl
theorem moduleFrame : Statement (.moduleFrame) := none_wide rfl
theorem passThroughExpiry (entry : Nat) : Statement (.passThroughExpiry entry) := by
  intro h n hn
  have b := of_decide_eq_true (p := entry < Config.trackCap) h
  simp only [numbers, List.mem_singleton, Config.trackCap] at hn b
  omega
theorem monotonicSecond : Statement (.monotonicSecond) := none_wide rfl
theorem minuteTick : Statement (.minuteTick) := none_wide rfl
theorem authExpiry : Statement (.authExpiry) := none_wide rfl
theorem reAlert : Statement (.reAlert) := none_wide rfl
theorem scheduledCensusStart : Statement (.scheduledCensusStart) := none_wide rfl
theorem lineHang (line : LineHeld) : Statement (.lineHang line) := none_wide rfl
theorem resetPulseEnd (chan : Chan) : Statement (.resetPulseEnd chan) := none_wide rfl
theorem enumerationRound (chan : Chan) (serial : Option Nat) : Statement (.enumerationRound chan serial) := by
  intro h; cases serial <;> simp_all [Instr.wf, numbers]
theorem assignAnswer (chan : Chan) (answer : Answered (List PosReport)) : Statement (.assignAnswer chan answer) := by
  intro h; simp only [Instr.wf, Bool.and_eq_true] at h; exact ofReports_lt answer.content h.1.2
theorem sendPoll (chan : Chan) : Statement (.sendPoll chan) := none_wide rfl
theorem sendReadTags (chan : Chan) : Statement (.sendReadTags chan) := none_wide rfl
theorem sendLockOpen (chan : Chan) : Statement (.sendLockOpen chan) := none_wide rfl
theorem sendLockClose (chan : Chan) : Statement (.sendLockClose chan) := none_wide rfl
theorem sendLamp (chan : Chan) : Statement (.sendLamp chan) := none_wide rfl
theorem sendPassedFrame (chan : Chan) : Statement (.sendPassedFrame chan) := none_wide rfl
theorem pollAnswer (chan : Chan) (answer : Answered (List PosReport)) : Statement (.pollAnswer chan answer) := by
  intro h; simp only [Instr.wf, Bool.and_eq_true] at h; exact ofReports_lt answer.content h.2
theorem settleExpiry (slot : Nat) : Statement (.settleExpiry slot) := by
  intro h n hn
  have b := of_decide_eq_true (p := 1 ≤ slot ∧ slot ≤ Config.slots) h
  simp only [numbers, List.mem_singleton, Config.slots] at hn b
  omega
theorem lockOpenAnswer (chan : Chan) (answer : Answered LockState) : Statement (.lockOpenAnswer chan answer) := none_wide rfl
theorem lockCloseAnswer (chan : Chan) (answer : Answered LockState) : Statement (.lockCloseAnswer chan answer) := none_wide rfl
theorem lockLimitOpening (context : Nat) : Statement (.lockLimitOpening context) := by
  intro h n hn
  have b := of_decide_eq_true (p := context < Config.contexts) h
  simp only [numbers, List.mem_singleton, Config.contexts] at hn b
  omega
theorem lockLimitClosing (context : Nat) : Statement (.lockLimitClosing context) := by
  intro h n hn
  have b := of_decide_eq_true (p := context < Config.contexts) h
  simp only [numbers, List.mem_singleton, Config.contexts] at hn b
  omega
theorem removalWindowExpiry (context : Nat) : Statement (.removalWindowExpiry context) := by
  intro h n hn
  have b := of_decide_eq_true (p := context < Config.contexts) h
  simp only [numbers, List.mem_singleton, Config.contexts] at hn b
  omega
theorem readTagsAnswer (chan : Chan) (answer : Option (Answered (List Occ))) :
    Statement (.readTagsAnswer chan answer) := by
  intro h n hn
  cases answer with
  | none => simp [numbers] at hn
  | some l =>
    simp only [Instr.wf, Option.all_some, Bool.and_eq_true, List.all_eq_true] at h
    obtain ⟨o, ho, hn⟩ : ∃ o ∈ l.content, n ∈ ofOcc o := by simpa [numbers] using hn
    exact ofOcc_lt o (h.2 o ho) n hn
theorem lampAnswer (answer : LineReply) : Statement (.lampAnswer answer) := none_wide rfl
theorem passThroughAnswer (chan : Chan) (ends : ReplyEnds) (data : List Byte) :
    Statement (.passThroughAnswer chan ends data) := none_wide rfl
theorem commandMiss (chan : Chan) : Statement (.commandMiss chan) := none_wide rfl
theorem syncPairFound : Statement (.syncPairFound) := none_wide rfl
theorem payloadReceived (bytes : List Byte) : Statement (.payloadReceived bytes) := none_wide rfl

end Sys2Proof.Laws.Width
end

