-- ==== Sys2Proof/Laws/Rentals.lean ====
section
/-! SUPPORT. The Due List: what the entering of a record does to it, and that it keeps the order of R95. -/

namespace Sys2Proof.Machine
set_option Elab.async false
open Sys2Proof

theorem mem_insertBy (before : Nat → Nat → Bool) (i j : Nat) (l : List Nat) : j ∈ insertBy before i l ↔ j = i ∨ j ∈ l := by
  induction l with
  | nil => simp [insertBy]
  | cons k r ih =>
    unfold insertBy
    split
    · simp
    · simp only [List.mem_cons, ih]
      tauto

/-- The other members keep their order. -/
theorem insertBy_others (before : Nat → Nat → Bool) (i : Nat) (l : List Nat) :
    (insertBy before i l).filter (fun j => j != i) = l.filter (fun j => j != i) := by
  induction l with
  | nil => simp [insertBy]
  | cons k r ih =>
    unfold insertBy
    split
    · simp
    · simp [List.filter_cons, ih]

theorem insertBy_nodup (before : Nat → Nat → Bool) (i : Nat) (l : List Nat) (h : l.Nodup) (hi : i ∉ l) :
    (insertBy before i l).Nodup := by
  induction l with
  | nil => simp [insertBy]
  | cons k r ih =>
    rw [List.nodup_cons] at h
    rw [List.mem_cons, not_or] at hi
    unfold insertBy
    split
    · exact List.nodup_cons.2 ⟨by simp [hi.1, hi.2], List.nodup_cons.2 h⟩
    · refine List.nodup_cons.2 ⟨?_, ih h.2 hi.2⟩
      rw [mem_insertBy, not_or]
      exact ⟨fun e => hi.1 e.symm, h.1⟩

/-- A list in order stays in order: before decides, between the new member and the others, for an order R that is transitive
from the new member on. -/
theorem insertBy_pairwise (before : Nat → Nat → Bool) (R : Nat → Nat → Prop) (i : Nat) (l : List Nat) (h : l.Pairwise R)
    (yes : ∀ j ∈ l, before i j = true → R i j) (no : ∀ j ∈ l, before i j = false → R j i)
    (trans : ∀ j ∈ l, ∀ k ∈ l, R i j → R j k → R i k) : (insertBy before i l).Pairwise R := by
  induction l with
  | nil => simp [insertBy]
  | cons k r ih =>
    rw [List.pairwise_cons] at h
    unfold insertBy
    split
    · rename_i hk
      have ik : R i k := yes k (List.mem_cons_self ..) hk
      refine List.pairwise_cons.2 ⟨fun j hj => ?_, List.pairwise_cons.2 h⟩
      rcases List.mem_cons.1 hj with rfl | hj'
      · exact ik
      · exact trans k (List.mem_cons_self ..) j hj ik (h.1 j hj')
    · rename_i hk
      refine List.pairwise_cons.2 ⟨fun j hj => ?_, ih h.2 (fun j hj => yes j (List.mem_cons_of_mem _ hj))
        (fun j hj => no j (List.mem_cons_of_mem _ hj))
        (fun j hj k hk => trans j (List.mem_cons_of_mem _ hj) k (List.mem_cons_of_mem _ hk))⟩
      rcases (mem_insertBy ..).1 hj with rfl | hj'
      · exact no k (List.mem_cons_self ..) (by simpa using hk)
      · exact h.1 j hj'

/-- A record that is in use enters, or moves to, its place of the Due List (R95): the list with the record aside was in
order, and the list is. -/
theorem Part.dueInsert_ordered (p : Part) (i : Nat) (hi : (Table.look p.rentals i).isSome)
    (h : ({ p with due := p.due.filter (fun j => j != i) } : Part).DueOrdered) : (p.dueInsert i).DueOrdered := by
  obtain ⟨used, order⟩ := h
  refine ⟨fun j hj => ?_, insertBy_pairwise _ _ i _ order ?_ ?_ ?_⟩
  · rcases (mem_insertBy ..).1 hj with rfl | hj'
    · exact hi
    · exact used j hj'
  · intro j _ hb a b (ha : Table.look p.rentals i = some a) (hb' : Table.look p.rentals j = some b)
    simp only [Part.dueBefore, ha, hb', Bool.or_eq_true, Bool.and_eq_true, decide_eq_true_eq, beq_iff_eq] at hb
    omega
  · intro j _ hb b a (hb' : Table.look p.rentals j = some b) (ha : Table.look p.rentals i = some a)
    simp only [Part.dueBefore, ha, hb', Bool.or_eq_false_iff, Bool.and_eq_false_iff, decide_eq_false_iff_not,
      beq_eq_false_iff_ne] at hb
    omega
  · intro j hj k hk hij hjk a c ha hc
    obtain ⟨b, hb⟩ := Option.isSome_iff_exists.1 (used j hj)
    have := hij a b ha hb
    have := hjk b c hb hc
    omega

end Sys2Proof.Machine
end

