-- ==== Sys2Proof/Tests/Slice0.lean ====
section
/-! SUPPORT. Tests: ill-formed operands are refused; the worked examples of the manual; and for every obligation with
hypotheses, a state and operands that meet all of them together, clause by clause (test_meets_<obligation>). -/

namespace Sys2Proof.Tests
set_option Elab.async false
open Sys2Proof Sys2Proof.Machine

/-! ## A small yard -/

/-- One module at A1 with two STANDARD slots and, at position 7, a drop position; key 0 (tag 500, class 3) in its home
slot 1, key 1 (tag 501) away; authorization 70 for class 3 with code 1234; terminals 1 OFFICE, 2 COUNTER, 3 KIOSK. -/
def yard : Part := { Part.powerOn false with
  mono := 5000
  clock := ⟨true, 1000, 10, 0, false⟩
  tfl := ⟨[(1, ⟨.office, true, true⟩), (2, ⟨.counter, false, true⟩), (3, ⟨.kiosk, false, false⟩)],
    [(0, ⟨none, some .query, .pass⟩), (1, ⟨none, some .config, .drop⟩)], [], none⟩
  chanA := { Channel.powerOn with
    state := .running, map := [(0, ⟨77, 1⟩)], modules := [(1, ⟨.active, 0, none, false, []⟩)] }
  slotMap := [(1, ⟨.A, 1, 0, .standard, 0⟩), (2, ⟨.A, 1, 1, .standard, 0⟩), (3, ⟨.A, 1, 7, .drop, 0⟩)]
  rows := [(1, ⟨some (.tag 500), none, some .locked, none, none⟩), (2, ⟨some .empty, none, some .locked, none, none⟩)]
  keys := [(0, ⟨500, 9, 3, some 1, .inn, some 1, some 900, none, none, none⟩),
    (1, ⟨501, 8, 4, none, .away, none, none, none, none, some .service⟩)]
  auths := [⟨70, .cls 3, 2000, none, some [1, 2, 3, 4], 3, 500, none, .waiting, 2⟩]
  alt := ⟨[], [], 0#16, 0#16, 0#16, false⟩ }

/-- An answer of module 1 that is good, and one whose CRC-8 is not. -/
def good : Reply := ⟨1#8, 0#8, [], crc8 [1#8, 0#8]⟩
def bad : Reply := ⟨1#8, 0#8, [], crc8 [1#8, 0#8] + 1#8⟩

/-- The part with one frame in the Inbound Queue. -/
def asks (p : Part) (f : Frame) : State := ⟨{ p with link := { p.link with inbound := [f] } }, []⟩

/-- A request of terminal 1 with tag 9. -/
def ask (kind : Nat) (fields : List Byte) : Frame := ⟨0, 1, kind, 9#8 :: fields⟩

/-- A part with nothing waiting. -/
def now (p : Part) : State := ⟨p, []⟩

/-- A release of key 0 in a context, in state st, its commands sent. -/
def ctxIn (st : CtxState) (res : Option CtxResult) : Ctx :=
  ⟨st, some 1, some 0, ⟨.release, .rental 70, 1, .office, 9⟩, some 5000, some 5000, some 0, res, none, true, false, 0, none⟩

/-- The yard with that release in progress in context 0. -/
def releasing (st : CtxState) (res : Option CtxResult) : Part := { yard with
  ctxs := [(0, ctxIn st res)]
  rows := [(1, ⟨some (.tag 500), none, some .locked, some 0, none⟩), (2, ⟨some .empty, none, some .locked, none, none⟩)]
  keys := [(0, ⟨500, 9, 3, some 1, .releasing, some 1, some 900, none, none, none⟩),
    (1, ⟨501, 8, 4, none, .away, none, none, none, none, some .service⟩)]
  auths := [⟨70, .cls 3, 2000, none, some [1, 2, 3, 4], 3, 500, none, .active, 2⟩] }

/-- The yard with an OPEN rental 60 of key 0 in place 0, overdue, and rental 61 of key 1 in place 1, waiting with its
RETURN. -/
def rented : Part := { yard with
  keys := [(0, ⟨500, 9, 3, some 1, .out, none, none, none, some 0, none⟩),
    (1, ⟨501, 8, 4, none, .away, none, none, none, none, some .service⟩)]
  rows := [(1, ⟨some .empty, none, some .locked, none, none⟩), (2, ⟨some .empty, none, some .locked, none, none⟩)]
  rentals := [(0, ⟨60, 0, 500, 900, 29, .overdue, 0, .counter, none⟩),
    (1, ⟨61, 1, 500, 900, 29, .overdue, 0, .counter, some ⟨950, some 2, .late, 50, 0, 1, 1, .away, ⟨false, false, false, false,
      false, false⟩⟩⟩)]
  due := [0] }

/-- The yard with these alerts. -/
def alerted (es : List AlertEntry) : Part := { yard with alt := { yard.alt with entries := es } }

/-- The yard with one Tracking entry, and its frame in the queue or on the line. -/
def tracking (st : TrackState) (line : Option LineCmd) (q : List BusCmd) : Part := { yard with
  tfl := { yard.tfl with tracking := [(0, ⟨st, 1, 9, .A, 1, .query, 5000⟩)] }
  chanA := { yard.chanA with onLine := line, queue := q } }

/-! ## Well-formedness -/

theorem test_wf_slot : Instr.wf (.guideExpiry 0) = false ∧ Instr.wf (.settleExpiry 481) = false
    ∧ Instr.wf (.guideExpiry 480) = true := by decide
theorem test_wf_entry : Instr.wf (.passThroughExpiry 8) = false ∧ Instr.wf (.passThroughExpiry 7) = true := by decide
theorem test_wf_context : Instr.wf (.lockLimitOpening 4) = false ∧ Instr.wf (.lockLimitClosing 4) = false
    ∧ Instr.wf (.removalWindowExpiry 4) = false ∧ Instr.wf (.removalWindowExpiry 3) = true := by decide
theorem test_wf_serial : Instr.wf (.enumerationRound .A (some 4294967296)) = false
    ∧ Instr.wf (.enumerationRound .A none) = true := by decide
theorem test_wf_answers : Instr.wf (.pollAnswer .A ⟨good, []⟩) = false
    ∧ Instr.wf (.pollAnswer .A ⟨good, List.replicate 8 ⟨.tag 0, .locked, none⟩⟩) = false
    ∧ Instr.wf (.pollAnswer .A ⟨{ good with data := List.replicate 41 0#8 }, List.replicate 8 ⟨.empty, .locked, none⟩⟩) = false
    ∧ Instr.wf (.assignAnswer .A ⟨good, List.replicate 8 ⟨.empty, .locked, some 5⟩⟩) = false
    ∧ Instr.wf (.pollAnswer .A ⟨good, List.replicate 8 ⟨.empty, .locked, some 5⟩⟩) = true := by decide +kernel
theorem test_wf_reads : Instr.wf (.readTagsAnswer .A (some ⟨good, [.empty]⟩)) = false
    ∧ Instr.wf (.readTagsAnswer .A none) = true := by decide +kernel
theorem test_wf_lines : Instr.wf (.lockOpenAnswer .A ⟨{ good with data := List.replicate 41 0#8 }, .opened⟩) = false
    ∧ Instr.wf (.lockCloseAnswer .A ⟨{ good with data := List.replicate 41 0#8 }, .opened⟩) = false
    ∧ Instr.wf (.lampAnswer ⟨.A, { good with data := List.replicate 41 0#8 }⟩) = false := by decide +kernel
theorem test_wf_bytes : Instr.wf (.passThroughAnswer .A ⟨1#8, 0#8, 0#8⟩ (List.replicate 41 0#8)) = false
    ∧ Instr.wf (.payloadReceived []) = false ∧ Instr.wf (.payloadReceived (List.replicate 241 0#8)) = false
    ∧ Instr.wf (.payloadReceived (List.replicate 240 0#8)) = true := by decide +kernel
theorem test_wf_groups : Instr.wf (.headerReceived none none none none none) = false
    ∧ Instr.wf (.headerReceived (some 1#8) none (some 2#8) none none) = false
    ∧ Instr.wf (.frameReceived none none) = false ∧ Instr.wf (.frameReceived (some 1#8) none) = true
    ∧ Instr.wf (.headerReceived none (some 1#8) (some 2#8) none none) = true := by decide +kernel

/-! ## Worked examples of the manual -/

/-- The header of the example of chapter 11: check byte 0x17, and d19 received inverted. -/
theorem test_header_example : (⟨0x00#8, 0x01#8, 0x4B#8, 0x01#8, 0#8⟩ : Header).build = 0x17#8
    ∧ (⟨0x00#8, 0x01#8, 0x43#8, 0x01#8, 0x17#8⟩ : Header).syndrome = 25
    ∧ (⟨0x00#8, 0x01#8, 0x43#8, 0x01#8, 0x17#8⟩ : Header).judge = some (⟨0x00#8, 0x01#8, 0x4B#8, 0x01#8, 0x17#8⟩, true) := by
  decide +kernel

/-- The two check sums over the characters 123456789 (R202, R207). -/
theorem test_crc : crc16 [0x31#8, 0x32#8, 0x33#8, 0x34#8, 0x35#8, 0x36#8, 0x37#8, 0x38#8, 0x39#8] = 0x29B1#16
    ∧ crc8 [0x31#8, 0x32#8, 0x33#8, 0x34#8, 0x35#8, 0x36#8, 0x37#8, 0x38#8, 0x39#8] = 0xF4#8 := by decide +kernel

/-- The late assessments of the example of chapter 3. -/
theorem test_late_assessment :
    (let x := (⟨70600118, 501, 1500000, 1502880, 29, .overdue, 0, .counter, none⟩ : Rental).assess 1502950 60 4 (some 470)
          KeyState.dropped false false false
     (x.cls, x.lateMinutes, x.lateDays, x.lateBlocks, x.daysInUse)) = (RetClass.late, 70, 0, 2, 3)
    ∧ (let x := (⟨70600140, 502, 1501500, 1503000, 29, .dueSoon, 0, .counter, none⟩ : Rental).assess 1502951 60 4 (some 470)
          KeyState.away false false true
     (x.cls, x.lateMinutes, x.lateDays, x.lateBlocks, x.daysInUse)) = (RetClass.early, 0, 0, 0, 1) := by decide +kernel

/-- One rental through its tiers (chapter 4). -/
theorem test_tiers : tierOf 60 240 2001440 29 2001379 = .onTime ∧ tierOf 60 240 2001440 29 2001380 = .dueSoon
    ∧ tierOf 60 240 2001440 29 2001441 = .grace ∧ tierOf 60 240 2001440 29 2001470 = .overdue
    ∧ tierOf 60 240 2001440 29 2001800 = .escalated ∧ tierOf 60 240 2001900 29 2001800 = .onTime
    ∧ tierOf 60 240 2001900 29 2001845 = .dueSoon := by decide

/-- Lamp bytes: red fast is 0x0B, off is 0, and two bytes that are none (R207). -/
theorem test_lamp_bytes : lampOfByte 0x0B#8 = some (.lit .red .fast) ∧ lampOfByte 0#8 = some .off
    ∧ lampOfByte 0x04#8 = none ∧ lampOfByte 0x0D#8 = none := by decide

/-- An answer with the address or the CRC-8 of another is not good (R147). -/
theorem test_goodReply : GoodReply good 1 ∧ ¬ GoodReply good 2 ∧ ¬ GoodReply bad 1 := by decide +kernel

/-! ## Hypotheses met: the machine -/

theorem test_meets_IdleStep : (now yard).pending = [] ∧ ((now yard).part.mono + 1) % 1000 ≠ 0
    ∧ (now { yard with mono := 5999 }).pending = [] ∧ ((now { yard with mono := 5999 }).part.mono + 1) % 1000 = 0 := by
  decide +kernel

theorem test_meets_EveryStepKeepsTheInvariants : (∃ t, step ⟨rented, [.syncPairFound]⟩ = .next t)
    ∧ rented.Bounded ∧ rented.Settled ∧ rented.Sound := by
  refine ⟨⟨_, rfl⟩, ?_, ?_, ?_⟩
  · unfold Part.Bounded; decide +kernel
  · unfold Part.Settled; decide +kernel
  · refine ⟨?_, by decide +kernel, by decide +kernel, ?_, by decide +kernel, by decide +kernel, by decide +kernel,
      by decide +kernel, by decide +kernel, ⟨fun n => ?_, by decide +kernel⟩, ?_, by decide +kernel, by decide +kernel,
      by decide +kernel, by decide +kernel, by decide +kernel⟩
    · repeat' apply And.intro
      all_goals first | decide +kernel | (intro c; cases c <;> decide +kernel)
    · refine ⟨by decide +kernel, ⟨by decide +kernel, List.pairwise_singleton _ _⟩, fun i => ?_⟩
      rcases i with _ | _ | i <;> simp [rented, Table.look]
    · rcases n with _ | _ | _ | _ | n <;> simp [rented, yard, Table.look, Part.slotEntry, SlotEntry.powerOn]
    · intro c
      refine ⟨by cases c <;> decide +kernel, fun a => ?_⟩
      cases c
      · rcases a with _ | _ | a <;> simp [rented, yard, Table.look, Part.chan]
      · simp [rented, yard, Part.chan, Part.powerOn, Channel.powerOn]

theorem test_meets_TimeAndStrap : (∀ high, (⟨yard, [.syncPairFound]⟩ : State).pending.head? ≠ some (.powerOn high))
    ∧ ∃ t, step ⟨yard, [.syncPairFound]⟩ = .next t := ⟨by decide +kernel, ⟨_, rfl⟩⟩

/-! ## Hypotheses met: the link -/

/-- The yard with the receiver in state r. -/
def receiving (r : Receiver) : State := now { yard with link := { yard.link with rx := r } }

theorem test_meets_ReceiverHuntsAndAbandons : (receiving (.hunt true true)).part.link.rx = .hunt true true
    ∧ (receiving (.hunt false true)).part.link.rx = .hunt false true
    ∧ (receiving (.hunt false false)).part.link.rx = .hunt false false
    ∧ (0x3A#8 ≠ 0xC5#8 ∧ ¬ (false = true ∧ 0x3A#8 = 0x3A#8)) ∧ (0x3B#8 ≠ 0xC5#8 ∧ ¬ (true = true ∧ 0x3B#8 = 0x3A#8))
    ∧ (∀ run start, (receiving (.header [1#8] 4980)).part.link.rx ≠ .hunt run start)
    ∧ (receiving (.header [1#8] 4980)).part.link.rx.lastByte = some 4980
    ∧ 4980 + 20 ≤ (receiving (.header [1#8] 4980)).part.mono ∧ (receiving (.header [1#8] 4981)).part.mono < 4981 + 20 :=
  ⟨rfl, rfl, rfl, by decide, by decide, nofun, rfl, by decide +kernel, by decide +kernel⟩

/-- Headers of length 1, 240, 0 and 241, one with bit 7 of its check byte set, and one with two bits in error. -/
def hdr (len : Byte) : Header := { (⟨0#8, 1#8, 0x4B#8, len, 0#8⟩ : Header) with check := (⟨0#8, 1#8, 0x4B#8, len, 0#8⟩ : Header).build }

theorem test_meets_HeaderIsTakenOrAbandoned : (receiving (.header [0#8] 4990)).part.link.rx = .header [0#8] 4990
    ∧ ([none, some 1#8, some 0x4B#8, none, none] : List (Option Byte))
      = List.replicate [0#8].length none ++ [1#8, 0x4B#8].map some ++ List.replicate 2 none ∧ [0#8].length + [1#8, 0x4B#8].length + 2 = 5
    ∧ ([none, some 1#8, some 0x4B#8, some 1#8, some (hdr 1#8).check] : List (Option Byte))
      = List.replicate [0#8].length none ++ [1#8, 0x4B#8, 1#8, (hdr 1#8).check].map some
    ∧ [0#8] ++ [1#8, 0x4B#8, 1#8, (hdr 1#8).check] = [(hdr 1#8).dest, (hdr 1#8).origin, (hdr 1#8).kind, (hdr 1#8).len, (hdr 1#8).check]
    ∧ (hdr 1#8).check = (hdr 1#8).build ∧ 1 ≤ (hdr 1#8).len.toNat
    ∧ ({ hdr 240#8 with check := (hdr 240#8).build ||| 0x80#8 } : Header).check = (hdr 240#8).build ||| 0x80#8
    ∧ (hdr 240#8).len.toNat ≤ 240 ∧ (hdr 0#8).len = 0#8 ∧ (hdr 0#8).check = (hdr 0#8).build
    ∧ 240 < (hdr 241#8).len.toNat ∧ (hdr 241#8).check = (hdr 241#8).build
    ∧ ((hdr 1#8).flipData 0).judge = some (hdr 1#8, true) ∧ ((hdr 0#8).flipData 31).judge = some (hdr 0#8, true)
    ∧ ((hdr 241#8).flipData 24).judge = some (hdr 241#8, true)
    ∧ (((hdr 1#8).flipData 0).flipData 31).judge = none := by decide +kernel

theorem test_meets_HeaderCheck : (hdr 1#8).check = (hdr 1#8).build := by decide +kernel

/-- One frame checked, its watch in a given state, n frames in the queue. -/
def checking (dest : Byte) (w : Watch) (n : Nat) : State := now { yard with
  link := { yard.link with
    rx := .check { hdr 1#8 with dest := dest } [9#8] [] 4990, watch := w
    inbound := List.replicate n (ask 0x4B []) } }

theorem test_meets_FrameReceivedIsJudged :
    (receiving (.payload (hdr 3#8) [7#8] 4990)).part.link.rx = .payload (hdr 3#8) [7#8] 4990
    ∧ ([7#8] ++ [8#8, 9#8]).length = (hdr 3#8).len.toNat ∧ ([7#8] ++ [9#8]).length < (hdr 3#8).len.toNat
    ∧ (checking 0#8 (.watching 40000) 15).part.link.rx = .check (hdr 1#8) [9#8] [] 4990
    ∧ (receiving (.check (hdr 1#8) [9#8] [1#8] 4990)).part.link.rx = .check (hdr 1#8) [9#8] [1#8] 4990
    ∧ (checking 0#8 (.watching 40000) 15).part.link.watch = .watching 40000 ∧ (checking 0#8 .off 15).part.link.watch = .off
    ∧ (∃ hi lo : Byte, frameCrc (hdr 1#8) [9#8] = hi ++ lo)
    ∧ (checking 0#8 (.watching 40000) 15).part.link.inbound.length < 16
    ∧ 16 ≤ (checking 0x5E#8 (.watching 40000) 16).part.link.inbound.length
    ∧ ¬ (0x5F = 0 ∨ 0x5F = 255 ∨ (0x41 ≤ 0x5F ∧ 0x5F ≤ 0x5E) ∨ (0x81 ≤ 0x5F ∧ 0x5F ≤ 0x9E))
    ∧ frameCrc (hdr 1#8) [9#8] ≠ (0#8 : Byte) ++ (0#8 : Byte) :=
  ⟨by decide +kernel, by decide +kernel, by decide +kernel, by decide +kernel, by decide +kernel, by decide +kernel,
    by decide +kernel, ⟨(frameCrc (hdr 1#8) [9#8]).extractLsb' 8 8, (frameCrc (hdr 1#8) [9#8]).extractLsb' 0 8, by decide +kernel⟩,
    by decide +kernel, by decide +kernel, by decide +kernel, by decide +kernel⟩

theorem test_meets_LinkWatch :
    (now { yard with link := { yard.link with watch := .watching 5000 } }).part.link.watch = .watching 5000
    ∧ (∀ o ∈ [lampKey .A 1, lampKey .B 30], o ∈ allModules)
    ∧ 5000 ≤ (now { yard with link := { yard.link with watch := .watching 5000 } }).part.mono
    ∧ yard.alt.find .linkSilent .none = none ∧ yard.alt.freePlace = some 0
    ∧ (checking 0#8 (.silent 4000) 0).part.link.rx = .check (hdr 1#8) [9#8] [] 4990
    ∧ (checking 0#8 (.silent 4000) 0).part.link.watch = .silent 4000
    ∧ (∃ hi lo : Byte, frameCrc (hdr 1#8) [9#8] = hi ++ lo)
    ∧ (checking 0#8 (.silent 4000) 0).part.link.reports.length < 47 ∧ (checking 0#8 (.silent 4000) 0).part.link.waiters = []
    ∧ (checking 0#8 (.silent 4000) 0).part.alt.find .linkSilent .none = none :=
  ⟨rfl, by decide +kernel, by decide +kernel, by decide +kernel, by decide +kernel, rfl, rfl,
    ⟨(frameCrc (hdr 1#8) [9#8]).extractLsb' 8 8, (frameCrc (hdr 1#8) [9#8]).extractLsb' 0 8, by decide +kernel⟩,
    by decide +kernel, rfl, by decide +kernel⟩

/-- A frame that restores the link, for a module, for every node and for none of the part's, the queue with room or not. -/
theorem test_meets_LinkWatchTakesTheFrame : (checking 0x41#8 (.silent 4000) 15).part.link.inbound.length < 16
    ∧ (0x41 ≤ ({ hdr 1#8 with dest := 0x41#8 } : Header).dest.toNat ∧ ({ hdr 1#8 with dest := 0x41#8 } : Header).dest.toNat ≤ 0x5E)
    ∧ 16 ≤ (checking 255#8 (.silent 4000) 16).part.link.inbound.length
    ∧ ({ hdr 1#8 with dest := 255#8 } : Header).dest.toNat = 255
    ∧ ¬ (0x9F = 0 ∨ 0x9F = 255 ∨ (0x41 ≤ 0x9F ∧ 0x9F ≤ 0x5E) ∨ (0x81 ≤ 0x9F ∧ 0x9F ≤ 0x9E))
    ∧ (checking 0x9F#8 (.silent 4000) 15).part.link.watch = .silent 4000 := by decide +kernel

def rep : Report := ⟨.keyBack, 255, [1#8]⟩

/-- The yard with n reports queued, in or out of an episode, owners waiting. -/
def queueing (n : Nat) (tx : Option (List Byte)) (ep : Bool) (ws : List Waiter) (held : Option Report) : Part :=
  { rented with
    link := { rented.link with reports := List.replicate n rep, tx := tx, lossEpisode := ep, waiters := ws }
    tfl := { rented.tfl with held := held } }

theorem test_meets_ReportQueueEnds : (now (queueing 1 none false [] none)).part.link.reports = rep :: []
    ∧ (now (queueing 1 none false [] none)).part.link.tx = none
    ∧ (now (queueing 33 (some rep.frame) true [] none)).part.link.reports = rep :: List.replicate 32 rep
    ∧ (now (queueing 33 (some rep.frame) true [] none)).part.link.tx = some rep.frame
    ∧ (queueing 47 none false [] none).link.reports.length < 48
    ∧ ({ yard.link with cts := true, reports := [rep] } : Link).cts = true ∧ (5000 + 1) % 1000 ≠ 0
    ∧ 48 ≤ (queueing 48 none true [] none).link.reports.length ∧ (queueing 48 none true [] none).link.lossEpisode = true
    ∧ (queueing 48 none false [] none).link.lossEpisode = false := by decide +kernel

theorem test_meets_WaitingOwners : (now (queueing 63 none false [.tfl] (some rep))).part.link.reports.length < 64
    ∧ (now (queueing 63 none false [.tfl] (some rep))).part.link.waiters = .tfl :: []
    ∧ (now (queueing 63 none false [.tfl] (some rep))).part.tfl.held = some rep
    ∧ (now (queueing 63 none false [.rental 1] none)).part.link.waiters = .rental 1 :: []
    ∧ ∃ r x, Table.look (now (queueing 63 none false [.rental 1] none)).part.rentals 1 = some r ∧ r.snap = some x :=
  ⟨by decide +kernel, rfl, rfl, rfl, ⟨_, _, rfl, rfl⟩⟩

/-! ## Hypotheses met: alerts -/

def entry (k : AlertKind) (sub : Subject) (acked : Bool) (pend : Option AlertFlags) : AlertEntry :=
  ⟨0, k, sub, none, 990, acked, if acked then none else some 1000, pend⟩

def renewed : AlertFlags := ⟨false, true, false⟩

/-- The part with one owner waiting before another, and one place free in the Report Queue. -/
def owing (w : Waiter) (p : Part) : State := now { p with
  link := { p.link with reports := List.replicate 63 rep, waiters := [w, .rental 9] } }

/-- A context in DONE_PENDING on slot 1, and an ended entry of the Release Wait Queue. -/
def owed : Part := { yard with
  ctxs := [(0, { ctxIn .donePending (some .released) with held := some rep })]
  waitQ := [⟨4, ⟨.release, .rental 5, 1, .office, 9⟩, some rep⟩]
  rows := [(1, ⟨some .empty, none, some .locked, some 0, none⟩)] }

/-- Place 0 of the Alert Register with a notice, and an entry whose ALERT is pending or not. -/
def noticed (pend : Option AlertFlags) : Part :=
  { yard with alt := { yard.alt with entries := [entry .taken (.key 0) false pend], notices := [(0, rep)] } }

theorem test_meets_WaitingOwnersOfTheBlocks : (owing .tfl owed).part.link.reports.length < 64
    ∧ (owing (.context 0) owed).part.link.waiters = .context 0 :: [.rental 9]
    ∧ (Table.look owed.ctxs 0).bind (·.held) = some rep ∧ (∀ w ∈ owed.waitQ, w.ended ≠ none)
    ∧ owed.waitQ.find? (fun x => x.id == 4) = some ⟨4, ⟨.release, .rental 5, 1, .office, 9⟩, some rep⟩
    ∧ Table.look (tracking (.answering rep) none []).tfl.tracking 0 = some ⟨.answering rep, 1, 9, .A, 1, .query, 5000⟩
    ∧ Table.look (noticed none).alt.notices 0 = some rep ∧ (noticed none).alt.entryAt 0 = some (entry .taken (.key 0) false none)
    ∧ (noticed (some renewed)).alt.entryAt 0 = some (entry .taken (.key 0) false (some renewed))
    ∧ Table.look (alerted [entry .taken (.key 0) false (some renewed)]).alt.notices 0 = none
    ∧ (alerted [entry .taken (.key 0) false (some renewed)]).alt.entryAt 0 = some (entry .taken (.key 0) false (some renewed)) := by
  decide +kernel

/-- A part whose channel A has a LOCK_CLOSE of context 0 waiting, behind one that is not. -/
def closeWaiting (p : Part) : Part := { p with
  chanA := { p.chanA with queue := [.lockClose 2 0 (.ctx 1), .lockClose 1 0 (.ctx 0)] } }

theorem test_meets_WaitingOwnersLeaveACommand :
    (owing (.context 0) (closeWaiting owed)).part.link.waiters = .context 0 :: [.rental 9]
    ∧ (Table.look (closeWaiting owed).ctxs 0).bind (·.held) = some rep
    ∧ BusCmd.lockClose 1 0 (.ctx 0) ∈ ((closeWaiting owed).chan .A).queue ∧ (∀ w ∈ (closeWaiting owed).waitQ, w.ended ≠ none) := by
  decide +kernel

theorem test_meets_Raise : yard.alt.find .taken (.key 0) = none ∧ yard.alt.freePlace = some 0 ∧ yard.essRoom = true
    ∧ (alerted [entry .taken (.key 0) false none]).alt.find .taken (.key 0) = some (entry .taken (.key 0) false none)
    ∧ (entry .taken (.key 0) false none).pending = none ∧ (alerted [entry .taken (.key 0) false none]).essRoom = true
    ∧ (entry .taken (.key 0) false none).acked = false
    ∧ (alerted [entry .taken (.key 0) true none]).alt.find .taken (.key 0) = some (entry .taken (.key 0) true none)
    ∧ (entry .taken (.key 0) true none).acked = true := by decide +kernel

/-- The yard with an entry in every place, the one in place 5 ACKED or not, its ALERT pending or not. -/
def full (acked : Bool) (pend : Option AlertFlags) : Part := alerted ((List.range 64).map (fun i =>
  if i = 5 then { entry .taken (.key 5) acked pend with place := 5 } else { entry .taken (.key i) false none with place := i }))

/-- LINK_SILENT stands, ACKED or not, when the watch expires. -/
theorem test_meets_LinkWatchWithAnEntry : (alerted [entry .linkSilent .none true none]).alt.find .linkSilent .none
      = some (entry .linkSilent .none true none)
    ∧ (alerted [entry .linkSilent .none false none]).alt.find .linkSilent .none = some (entry .linkSilent .none false none) := by
  decide +kernel

theorem test_meets_RaiseWithoutRoom : yard.alt.find .overdue (.rental 60) = none
    ∧ (alerted [entry .overdue (.rental 60) true none]).alt.find .overdue (.rental 60) = some (entry .overdue (.rental 60) true none)
    ∧ (alerted [entry .overdue (.rental 60) true none]).alt.find .escalated (.rental 60) = none
    ∧ (alerted [entry .overdue (.rental 60) true none]).essRoom = true
    ∧ (full true none).alt.find .dropFull (.slot 3) = none ∧ (full true none).alt.freePlace = none
    ∧ (full true none).alt.entries = (full true none).alt.entries.take 5 ++ { entry .taken (.key 5) true none with place := 5 }
      :: (full true none).alt.entries.drop 6
    ∧ (∀ x ∈ (full true none).alt.entries.take 5, ¬ (x.acked = true ∧ Table.look (full true none).alt.notices x.place = none))
    ∧ (full true none).link.waiters = [] ∧ (full true none).link.reports.length < 63
    ∧ (full true (some renewed)).alt.entries[5]? = some { entry .taken (.key 5) true (some renewed) with place := 5 }
    ∧ (∀ x ∈ (full false none).alt.entries, ¬ (x.acked = true ∧ Table.look (full false none).alt.notices x.place = none)) := by
  decide +kernel

theorem test_meets_Remove :
    (alerted [entry .taken (.key 0) false none]).alt.find .taken (.key 0) = some (entry .taken (.key 0) false none)
    ∧ (entry .taken (.key 0) false none).pending = none ∧ (alerted [entry .taken (.key 0) false none]).essRoom = true
    ∧ (alerted [entry .taken (.key 0) false (some ⟨false, false, false⟩)]).alt.find .taken (.key 0)
      = some (entry .taken (.key 0) false (some ⟨false, false, false⟩))
    ∧ (entry .taken (.key 0) false (some ⟨false, false, false⟩)).pending ≠ none := by decide +kernel

/-! ## Hypotheses met: the Traffic Filter -/

theorem test_meets_StrayFrames : (asks yard ⟨0, 63, 3, []⟩).part.tfl.held = none
    ∧ (asks yard ⟨0, 63, 3, []⟩).part.link.inbound = ⟨0, 63, 3, []⟩ :: [] ∧ 62 < (⟨0, 63, 3, []⟩ : Frame).origin
    ∧ (asks yard ⟨255, 62, 0x21, []⟩).part.link.inbound = ⟨255, 62, 0x21, []⟩ :: []
    ∧ (⟨255, 62, 0x21, []⟩ : Frame).dest = 255 ∧ (⟨255, 62, 0x21, []⟩ : Frame).kind ≠ 0x20 := by decide +kernel

/-- A terminal in place 4 with a role and rights. -/
def judged (role : Role) (load maint : Bool) (kind : Nat) : State :=
  asks { yard with tfl := { yard.tfl with terminals := [(1, ⟨.office, true, true⟩), (4, ⟨role, load, maint⟩)] } }
    ⟨0, 4, kind, [9#8]⟩

theorem test_meets_RequestsAreChecked :
    (judged .none true true 0x03).part.tfl.held = none ∧ (judged .none true true 0x03).part.essRoom = true
    ∧ (judged .none true true 0x03).part.link.inbound = ⟨0, 4, 0x03, [9#8]⟩ :: []
    ∧ tflRow ⟨0, 4, 0x03, [9#8]⟩ = .keyQuery ∧ ((judged .none true true 0x03).part.terminal 4).role = .none
    ∧ ((judged .kiosk true true 0x18).part.terminal 4).role = .kiosk ∧ tflRow ⟨0, 4, 0x18, [9#8]⟩ = .rentalCloseManual
    ∧ ((judged .office false true 0x48).part.terminal 4).role = .office
    ∧ ((judged .office false true 0x48).part.terminal 4).load = false ∧ tflRow ⟨0, 4, 0x48, [9#8]⟩ = .tableWrite
    ∧ ((judged .counter false false 0x39).part.terminal 4).role ≠ .none
    ∧ ((judged .counter false false 0x39).part.terminal 4).maint = false ∧ tflRow ⟨0, 4, 0x39, [9#8]⟩ = .lampRelease
    ∧ ((judged .counter true true 0x01).part.terminal 4).role = .counter ∧ tflRow ⟨0, 4, 0x01, [9#8]⟩ = .keyAdd
    ∧ ((judged .office true true 0x14).part.terminal 4).role ∉ [Role.kiosk] ∧ tflRow ⟨0, 4, 0x14, [9#8]⟩ = .pickup
    ∧ (judged .counter true true 0x21).Asks .extend ⟨0, 4, 0x21, [9#8]⟩ []
    ∧ (judged .kiosk true false 0x20).Asks .timeSet ⟨0, 4, 0x20, [9#8]⟩ []
    ∧ tflRow ⟨0, 4, 0x80, [9#8]⟩ = .unknownRequest ∧ tflRow ⟨0, 4, 0x60, [9#8]⟩ = .unknownRequest := by decide +kernel

/-- A module frame of terminal 1 for A1, of a class. -/
def modFrame (cls : Byte) : Frame := ⟨0x41, 1, 0x60, cls :: BitVec.ofNat 8 9 :: [1#8]⟩

theorem test_meets_ModuleFrames :
    (asks yard (modFrame 0x40#8)).part.tfl.held = none
    ∧ (asks yard (modFrame 0x40#8)).part.link.inbound = modFrame 0x40#8 :: []
    ∧ (modFrame 0x40#8).payload = 0x40#8 :: BitVec.ofNat 8 9 :: [1#8] ∧ ((asks yard (modFrame 0x40#8)).part.terminal 1).role ≠ .none
    ∧ (asks yard (modFrame 0x40#8)).part.passAction .office .query = .pass
    ∧ ((asks yard (modFrame 0x40#8)).part.terminal 1).maint = true
    ∧ ((asks yard (modFrame 0x40#8)).part.chan .A).state = .running
    ∧ ((asks yard (modFrame 0x40#8)).part.chan .A).modState 1 = .active
    ∧ ((asks yard (modFrame 0x40#8)).part.chan .A).queue.length < 12
    ∧ Table.look (asks yard (modFrame 0x40#8)).part.tfl.tracking 0 = none
    ∧ (asks { yard with tfl := { yard.tfl with passTable := [] } } (modFrame 0x40#8)).part.passAction .office .query = .dropReport
    ∧ (asks { yard with tfl := { yard.tfl with passTable := [(0, ⟨some .office, none, .drop⟩)] } } (modFrame 0x40#8)).part.passAction
      .office .query = .drop := by decide +kernel

/-- A part asked by a module frame of terminal 1 to A1; its Pass Table lets all pass, its right MAINT stands or not. -/
def passing (maint : Bool) (track : List Nat) (ch : Channel) : Part := { yard with
  tfl := { yard.tfl with
    passTable := [(3, ⟨none, none, .pass⟩)], terminals := [(1, ⟨.office, true, maint⟩)]
    tracking := track.map (fun i => (i, ⟨.sent, 1, 9, .A, 1, .query, 5000⟩)) }
  chanA := ch }

/-- The Pass Table by its place, and a state for each of the nine refusals (R187). -/
theorem test_meets_ModuleFramesRefused :
    yard.tfl.passTable = [] ++ (0, ⟨none, some .query, .pass⟩) :: [(1, ⟨none, some .config, .drop⟩)]
    ∧ (∀ x ∈ yard.tfl.passTable, ¬ ((x.2.role = some .office ∨ x.2.role = none) ∧ (x.2.cls = some .lampRaw ∨ x.2.cls = none)))
    ∧ (∀ x ∈ [0x40#8, 0x41#8, 0x42#8, 0x43#8, 0x44#8], (modFrame 0x45#8).payload.head? ≠ some x)
    ∧ ((asks yard { modFrame 0x40#8 with origin := 9 }).part.terminal 9).role = .none
    ∧ (modFrame 0x44#8).payload = 0x44#8 :: 9#8 :: [1#8]
    ∧ (passing true [] yard.chanA).passAction .office .lampRaw = .pass
    ∧ ((passing false [] yard.chanA).terminal 1).maint = false ∧ ((passing true [] yard.chanA).terminal 1).maint = true
    ∧ ((passing true [] { yard.chanA with state := .off }).chan .A).state ≠ .running
    ∧ ((passing true [] { yard.chanA with modules := [] }).chan .A).modState 1 ≠ .active
    ∧ (∀ j, j < 8 → (Table.look (passing true (List.range 8) yard.chanA).tfl.tracking j).isSome)
    ∧ Table.look (passing true (List.range 7) yard.chanA).tfl.tracking 7 = none
    ∧ (∀ j, j < 7 → (Table.look (passing true (List.range 7) yard.chanA).tfl.tracking j).isSome)
    ∧ 12 ≤ ((passing true [] { yard.chanA with queue := List.replicate 12 (.readTags 1) }).chan .A).queue.length := by decide +kernel

theorem test_meets_PassThrough :
    Table.look (now (tracking .sent (some (.queued (.passed 1 .query [1#8] 0))) [])).part.tfl.tracking 0
      = some ⟨.sent, 1, 9, .A, 1, .query, 5000⟩
    ∧ (now (tracking .sent (some (.queued (.passed 1 .query [1#8] 0))) [])).part.essRoom = true
    ∧ ((now (tracking .sent (some (.queued (.passed 1 .query [1#8] 0))) [])).part.chan .A).onLine
      = some (.queued (.passed 1 .query [1#8] 0))
    ∧ ((now (tracking .sent (some (.queued (.passed 1 .query [1#8] 0))) [])).part.chan .A).modState 1 = .active
    ∧ GoodReply ⟨1#8, 7#8, [8#8], crc8 [1#8, 7#8, 8#8]⟩ 1 ∧ ¬ GoodReply ⟨1#8, 7#8, [8#8], crc8 [1#8, 7#8]⟩ 1
    ∧ ((now (tracking .sent (some (.queued (.passed 1 .query [1#8] 0))) [])).part.chan .A).held = false
    ∧ 5000 ≤ (now (tracking .sent none [])).part.mono
    ∧ Table.look (now (tracking .queued none [.passed 1 .query [1#8] 0])).part.tfl.tracking 0
      = some ⟨.queued, 1, 9, .A, 1, .query, 5000⟩ := by decide +kernel

/-! ## Hypotheses met: keys and holds -/

/-- KEY_ADD of tag 502, in the home slot 2; slot 2 empty, or settled with that tag. -/
def addFrame : Frame := ask 0x01 (beBytes 4 502 ++ (beBytes 3 16777215 ++ (beBytes 1 15 ++ beSlot (some 2))))

def tagged : Part := { alerted [entry .foreign (.slot 2) false none] with
  rows := [(1, ⟨some (.tag 500), none, some .locked, none, none⟩), (2, ⟨some (.tag 502), none, some .locked, none, none⟩)] }

theorem test_meets_KeyAdd : (asks yard addFrame).Asks .keyAdd addFrame [] ∧ (asks tagged addFrame).Asks .keyAdd addFrame []
    ∧ addFrame.payload = 9#8 :: (beBytes 4 502 ++ (beBytes 3 16777215 ++ (beBytes 1 15 ++ beSlot (some 2))))
    ∧ tagOk 502 = true ∧ (1 ≤ 2 ∧ 2 ≤ 480 ∧ (yard.slotEntry 2).kind = .standard) ∧ yard.keyByTag 502 = none
    ∧ (∀ e ∈ yard.keys, e.2.home ≠ some 2) ∧ Table.look yard.keys 2 = none
    ∧ (∀ j, j < 2 → (Table.look yard.keys j).isSome) ∧ yard.essRoom = true
    ∧ (∀ e ∈ yard.rows, e.2.occ ≠ some (.tag 502))
    ∧ tagged.rows = [(1, ⟨some (.tag 500), none, some .locked, none, none⟩)]
      ++ (2, ⟨some (.tag 502), none, some .locked, none, none⟩) :: []
    ∧ (({ (asks tagged addFrame).part.asked addFrame [] with
        keys := Table.put tagged.keys 2 ⟨502, 16777215, 15, some 2, .inn, some 2, some 1000, none, none, none⟩ } : Part).remove
      .foreign (.slot 2)).essRoom = true := by decide +kernel

/-- KEY_ADD of a tag, a class and a home slot. -/
def addFrameOf (t c home : Nat) : Frame := ask 0x01 (beBytes 4 t ++ (beBytes 3 7 ++ (beBytes 1 c ++ beBytes 2 home)))

/-- Every handle taken. -/
def allHandles : Part := { yard with keys := (List.range 1024).map (fun i => (i, ⟨600 + i, 9, 3, none, .away, none, none, none, none, some .new⟩)) }

theorem test_meets_KeyAddRefused : (asks yard (addFrameOf 0 3 0)).Asks .keyAdd (addFrameOf 0 3 0) []
    ∧ (asks yard (addFrameOf 502 16 0)).Asks .keyAdd (addFrameOf 502 16 0) []
    ∧ (asks yard (addFrameOf 502 15 3)).Asks .keyAdd (addFrameOf 502 15 3) [] ∧ (yard.slotEntry 3).kind ≠ .standard
    ∧ (asks yard (addFrameOf 500 15 0)).Asks .keyAdd (addFrameOf 500 15 0) [] ∧ yard.keyByTag 500 ≠ none
    ∧ (asks yard (addFrameOf 502 15 1)).Asks .keyAdd (addFrameOf 502 15 1) [] ∧ yard.keyByTag 502 = none
    ∧ (yard.slotEntry 1).kind = .standard ∧ (∃ e ∈ yard.keys, e.2.home = some 1)
    ∧ (asks allHandles (addFrameOf 502 15 0)).Asks .keyAdd (addFrameOf 502 15 0) [] ∧ allHandles.keyByTag 502 = none
    ∧ allHandles.essRoom = true := by decide +kernel

theorem test_meets_KeyAddFull : ∀ i, i < 1024 → (Table.look allHandles.keys i).isSome := fun i h => by
  rw [allHandles, Table.look_map _ _ (List.mem_range.2 h)]; rfl

def deleteFrame (t : Nat) : Frame := ask 0x02 (beBytes 4 t)

/-- Key 1 DROPPED. -/
def dropped : Part := { yard with
  keys := [(0, ⟨500, 9, 3, some 1, .inn, some 1, some 900, none, none, none⟩),
    (1, ⟨501, 8, 4, none, .dropped, none, none, none, none, none⟩)]
  dropBin := [⟨1, 3, 990⟩] }

theorem test_meets_KeyDelete : (asks yard (deleteFrame 501)).Asks .keyDelete (deleteFrame 501) []
    ∧ (deleteFrame 501).payload = 9#8 :: beBytes 4 501
    ∧ yard.keyByTag 501 = some (1, ⟨501, 8, 4, none, .away, none, none, none, none, some .service⟩)
    ∧ (∀ e ∈ yard.rentals, e.2.snap.isSome → e.2.key ≠ 1)
    ∧ (∀ x ∈ yard.alt.entries, x.subject = .key 1 → x.kind = .taken)
    ∧ (((asks yard (deleteFrame 501)).part.asked (deleteFrame 501) []).remove .taken (.key 1)).essRoom = true
    ∧ (asks dropped (deleteFrame 501)).Asks .keyDelete (deleteFrame 501) []
    ∧ dropped.keyByTag 501 = some (1, ⟨501, 8, 4, none, .dropped, none, none, none, none, none⟩)
    ∧ (asks yard (deleteFrame 500)).Asks .keyDelete (deleteFrame 500) [] ∧ yard.keyByTag 499 = none
    ∧ (asks yard (deleteFrame 499)).Asks .keyDelete (deleteFrame 499) []
    ∧ yard.keyByTag 500 = some (0, ⟨500, 9, 3, some 1, .inn, some 1, some 900, none, none, none⟩)
    ∧ (asks rented (deleteFrame 500)).Asks .keyDelete (deleteFrame 500) []
    ∧ rented.keyByTag 500 = some (0, ⟨500, 9, 3, some 1, .out, none, none, none, some 0, none⟩) := by decide +kernel

def holdFrame (r : Byte) : Frame := ask 0x04 (beBytes 4 500 ++ [r])
def guideFrame (t : Nat) : Frame := ask 0x05 (beBytes 4 t)

theorem test_meets_KeysAreHeldAndGuided : (asks yard (holdFrame 2#8)).Asks .keyHold (holdFrame 2#8) []
    ∧ (holdFrame 2#8).payload = 9#8 :: (beBytes 4 500 ++ [2#8]) ∧ (asks yard (holdFrame 3#8)).Asks .keyHold (holdFrame 3#8) []
    ∧ (asks yard (guideFrame 500)).Asks .guide (guideFrame 500) [] ∧ (guideFrame 500).payload = 9#8 :: beBytes 4 500
    ∧ yard.keyByTag 500 = some (0, ⟨500, 9, 3, some 1, .inn, some 1, some 900, none, none, none⟩)
    ∧ (yard.slotEntry 1).kind = .standard ∧ (asks yard (guideFrame 501)).Asks .guide (guideFrame 501) []
    ∧ yard.keyByTag 501 = some (1, ⟨501, 8, 4, none, .away, none, none, none, none, some .service⟩) ∧ yard.essRoom = true
    ∧ Table.look (now { yard with rows := [(1, ⟨none, none, none, none, some 5000⟩)] }).part.rows 1
      = some ⟨none, none, none, none, some 5000⟩ := by decide +kernel

def rangeStart (n : Nat) (r : Byte) : Frame := ask 0x06 (beBytes 2 n ++ [r])
def rangeEnd (n : Nat) : Frame := ask 0x07 (beBytes 2 n)
def sequence (h : HoldSeq) : Part := { yard with holdSeq := h }

theorem test_meets_HoldRangeStart : (asks (sequence (.started 1 5 .damage)) (rangeStart 481 0#8)).Asks .holdRangeStart (rangeStart 481 0#8) []
    ∧ (rangeStart 481 0#8).payload = 9#8 :: (beBytes 2 481 ++ [0#8])
    ∧ (sequence (.started 1 5 .damage)).holdSeq.ownedBy 1 = true ∧ (sequence .idle).holdSeq.ownedBy 1 = false
    ∧ (asks (sequence .idle) (rangeStart 0 2#8)).Asks .holdRangeStart (rangeStart 0 2#8) []
    ∧ (asks (sequence .idle) (rangeStart 480 3#8)).Asks .holdRangeStart (rangeStart 480 3#8) []
    ∧ (asks (sequence .idle) (rangeStart 480 2#8)).Asks .holdRangeStart (rangeStart 480 2#8) []
    ∧ (2#8).toNat = HoldReason.code .office ∧ (sequence .idle).essRoom = true
    ∧ (asks (sequence (.started 2 5 .damage)) (rangeStart 1 0#8)).Asks .holdRangeStart (rangeStart 1 0#8) []
    ∧ (sequence (.started 2 5 .damage)).holdSeq.ownedBy 1 = false := by decide +kernel

theorem test_meets_HoldRangeEnd : (asks (sequence (.started 2 5 .damage)) (rangeEnd 6)).Asks .holdRangeEnd (rangeEnd 6) []
    ∧ (rangeEnd 6).payload = 9#8 :: beBytes 2 6 ∧ (sequence (.started 2 5 .damage)).holdSeq.ownedBy 1 = false
    ∧ (asks (sequence (.started 1 5 .damage)) (rangeEnd 481)).Asks .holdRangeEnd (rangeEnd 481) []
    ∧ (asks (sequence (.ended 1 5 6 .damage)) (rangeEnd 480)).Asks .holdRangeEnd (rangeEnd 480) []
    ∧ (asks (sequence (.started 1 5 .damage)) (rangeEnd 4)).Asks .holdRangeEnd (rangeEnd 4) []
    ∧ (asks (sequence (.started 1 5 .damage)) (rangeEnd 5)).Asks .holdRangeEnd (rangeEnd 5) []
    ∧ (sequence (.started 1 5 .damage)).holdSeq.ownedBy 1 = true ∧ (sequence .idle).essRoom = true := by decide +kernel

def applyFrame : Frame := ask 0x08 []
def rentalFrame (n : Nat) : Frame := ask 0x22 (0#8 :: beBytes 4 n)

theorem test_meets_HoldApply : (asks (sequence (.ended 1 1 480 .service)) applyFrame).Asks .holdApply applyFrame []
    ∧ applyFrame.payload = [9#8] ∧ Table.rising (sequence (.ended 1 1 480 .service)).keys = true
    ∧ (sequence (.ended 1 1 480 .service)).essRoom = true
    ∧ (asks (sequence (.ended 1 1 480 .service)) (rentalFrame 60)).Asks .rentalQuery (rentalFrame 60) []
    ∧ (asks (sequence (.ended 2 1 480 .service)) (rentalFrame 60)).Asks .rentalQuery (rentalFrame 60) []
    ∧ (rentalFrame 60).payload = 9#8 :: 0#8 :: beBytes 4 60
    ∧ (sequence (.ended 1 1 480 .service)).rentalByNumber 60 = none
    ∧ (sequence (.ended 1 1 480 .service)).holdSeq.ownedBy 1 = true
    ∧ (sequence (.ended 2 1 480 .service)).holdSeq.ownedBy 1 = false := by decide +kernel

theorem test_meets_HoldApplyRefused : (asks (sequence .idle) applyFrame).Asks .holdApply applyFrame []
    ∧ (asks (sequence (.ended 2 1 480 .service)) applyFrame).Asks .holdApply applyFrame []
    ∧ (sequence .idle).holdSeq.ownedBy 1 = false ∧ (sequence (.ended 2 1 480 .service)).holdSeq.ownedBy 1 = false
    ∧ (asks (sequence (.started 1 5 .damage)) applyFrame).Asks .holdApply applyFrame [] ∧ (sequence .idle).essRoom = true := by
  decide +kernel

/-! ## Hypotheses met: authorizations and releases -/

def authFrame (tgt : List Byte) : Frame := ask 0x10 (beBytes 4 71 ++ (tgt ++ (beBytes 3 2000 ++ (beBytes 1 3 ++ (beBytes 1 120
  ++ (beBytes 3 500 ++ (beBytes 3 500 ++ (beBytes 1 4 ++ [1#8, 2#8, 3#8, 9#8]))))))))

/-- The authorization that frame enters: grace 120, valid from 500 until 500, code 1239. -/
def authOf (t : Target) : Auth := ⟨71, t, 2000, some 120, some [1, 2, 3, 9], 3, 500, some 500, .waiting, 1⟩

theorem test_meets_AuthAdd : (asks yard (authFrame (1#8 :: beBytes 2 15))).Asks .authAdd (authFrame (1#8 :: beBytes 2 15)) []
    ∧ (asks yard (authFrame (0#8 :: beBytes 2 0))).Asks .authAdd (authFrame (0#8 :: beBytes 2 0)) []
    ∧ (authFrame (0#8 :: beBytes 2 0)).payload = 9#8 :: (beBytes 4 (authOf (.key 0)).rental ++ ((0#8 :: beBytes 2 0)
      ++ (beBytes 3 (authOf (.key 0)).due ++ (beBytes 1 (1 + 2) ++ (beBytes 1 120 ++ (beBytes 3 500 ++ (beBytes 3 500
      ++ (beBytes 1 4 ++ [1, 2, 3, 9].flatMap (beBytes 1)))))))))
    ∧ (authOf (.key 0)).attempts = yard.policy.attempts ∧ (authOf (.key 0)).origin = (authFrame []).origin
    ∧ yard.auth 71 = none ∧ yard.rentalByNumber 71 = none ∧ yard.auths.length < 192 ∧ yard.essRoom = true
    ∧ Table.look yard.keys 0 = some ⟨500, 9, 3, some 1, .inn, some 1, some 900, none, none, none⟩ := by decide +kernel

/-- AUTH_ADD of a rental number, a target, a presence byte, a grace, a valid from and a valid until, and code digits. -/
def authFrameOf (n form tgt pres g start stop : Nat) (ds : List Nat) : Frame := ask 0x10 (beBytes 4 n ++ (beBytes 1 form
  ++ (beBytes 2 tgt ++ (beBytes 3 2000 ++ (beBytes 1 pres ++ (beBytes 1 g ++ (beBytes 3 start ++ (beBytes 3 stop
  ++ (beBytes 1 ds.length ++ ds.flatMap (beBytes 1))))))))))

/-- The frames AUTH_ADD refuses as BAD_ARGUMENT, each for one reason. -/
def badAuths : List Frame :=
  [authFrameOf 0 0 0 0 0 0 0 [], authFrameOf 71 2 0 0 0 0 0 [], authFrameOf 71 0 1024 0 0 0 0 [], authFrameOf 71 1 16 0 0 0 0 [],
   authFrameOf 71 0 0 1 121 0 0 [], authFrameOf 71 0 0 2 0 501 500 [], authFrameOf 71 0 0 0 0 0 0 [1, 2, 3],
   authFrameOf 71 0 0 0 0 0 0 [1, 2, 3, 10]]

/-- The list full, and key 0 MISPLACED or on hold. -/
def authsFull : Part := { yard with auths := (List.range 192).map (fun i => { (authOf (.cls 3)) with rental := 100 + i }) }
def onHold : Part := { yard with keys := [(0, ⟨500, 9, 3, some 1, .misplaced, some 2, some 900, some .office, none, none⟩)] }

theorem test_meets_AuthAddRefused : (∀ f ∈ badAuths, (asks yard f).Asks .authAdd f [])
    ∧ (asks yard (authFrameOf 70 1 3 3 120 500 500 [1, 2, 3, 4])).Asks .authAdd (authFrameOf 70 1 3 3 120 500 500 [1, 2, 3, 4]) []
    ∧ yard.auth 70 ≠ none ∧ (asks rented (authFrameOf 61 1 3 0 255 0 0 [])).Asks .authAdd (authFrameOf 61 1 3 0 255 0 0 []) []
    ∧ rented.rentalByNumber 61 ≠ none
    ∧ (asks authsFull (authFrameOf 71 1 15 0 0 0 0 [])).Asks .authAdd (authFrameOf 71 1 15 0 0 0 0 []) []
    ∧ authsFull.auth 71 = none ∧ 192 ≤ authsFull.auths.length
    ∧ (asks yard (authFrameOf 71 0 1023 0 0 0 0 [])).Asks .authAdd (authFrameOf 71 0 1023 0 0 0 0 []) []
    ∧ Table.look yard.keys 1023 = none ∧ yard.auths.length < 192
    ∧ (asks yard (authFrameOf 71 0 1 0 0 0 0 [])).Asks .authAdd (authFrameOf 71 0 1 0 0 0 0 []) []
    ∧ (Table.look yard.keys 1).map (·.state) = some .away
    ∧ (asks onHold (authFrameOf 71 0 0 0 0 0 0 [])).Asks .authAdd (authFrameOf 71 0 0 0 0 0 0 []) []
    ∧ (Table.look onHold.keys 0).map (fun k => (k.state, k.hold)) = some (.misplaced, some .office)
    ∧ onHold.essRoom = true := by decide +kernel

def authDeleteFrame : Frame := ask 0x11 (beBytes 4 70)

/-- The yard with an authorization for key 0, which is ASSIGNED. -/
def assigned : Part := { yard with
  auths := [⟨70, .key 0, 2000, none, none, 3, 500, none, .waiting, 2⟩]
  keys := [(0, ⟨500, 9, 3, some 1, .assigned, some 1, some 900, none, none, none⟩)] }

theorem test_meets_AuthorizationsAreRemoved : (now { yard with tickRel := [1000, 1001] }).part.tickRel = 1000 :: [1001]
    ∧ (yard.auths.map (·.rental)).Nodup
    ∧ (asks yard authDeleteFrame).Asks .authDelete authDeleteFrame [] ∧ authDeleteFrame.payload = 9#8 :: beBytes 4 70
    ∧ (asks (releasing .opened none) authDeleteFrame).Asks .authDelete authDeleteFrame []
    ∧ ((releasing .opened none).auth 70).map (·.state) = some .active
    ∧ (yard.auth 70).map (·.state) = some .waiting ∧ (∀ w ∈ yard.waitQ, w.req.subject ≠ .rental 70) ∧ yard.essRoom = true
    ∧ (({ (asks yard authDeleteFrame).part.asked authDeleteFrame [] with auths := [] } : Part).remove .lockout (.rental 70)).essRoom
      = true
    ∧ (asks assigned authDeleteFrame).Asks .authDelete authDeleteFrame []
    ∧ (assigned.auth 70).map (·.target) = some (.key 0)
    ∧ Table.look assigned.keys 0 = some ⟨500, 9, 3, some 1, .assigned, some 1, some 900, none, none, none⟩ := by decide +kernel

/-- Authorization 70 WAITING with a target and valid until 999, its LOCKOUT alert in the register, two ticks to take, and between
an ended request for it and one for another number a live one, or not. -/
def expiring (t : Target) (w : List WaitEntry) : Part := { assigned with
  tickRel := [1000, 1001], waitQ := w
  alt := { yard.alt with entries := [entry .lockout (.rental 70) true none] }
  auths := [⟨60, .cls 4, 2000, none, none, 3, 500, some 1000, .waiting, 2⟩,
    ⟨70, t, 2000, none, none, 3, 500, some 999, .waiting, 2⟩, ⟨80, .cls 4, 2000, none, none, 3, 500, some 5, .active, 2⟩] }

def requests : List WaitEntry := [⟨3, ⟨.pickup, .rental 70, 3, .kiosk, 5⟩, some rep⟩, ⟨4, ⟨.pickup, .rental 70, 3, .kiosk, 6⟩, none⟩,
  ⟨5, ⟨.release, .rental 60, 1, .office, 7⟩, none⟩]

theorem test_meets_AuthorizationsExpire : (expiring (.cls 3) []).tickRel = 1000 :: [1001]
    ∧ ((expiring (.cls 3) []).auths.map (·.rental)).Nodup
    ∧ (expiring (.cls 3) []).auths = (expiring (.cls 3) []).auths.take 1
      ++ ⟨70, .cls 3, 2000, none, none, 3, 500, some 999, .waiting, 2⟩ :: (expiring (.cls 3) []).auths.drop 2
    ∧ (∀ x ∈ (expiring (.cls 3) []).auths.take 1, x.validUntil = some 1000)
    ∧ (∀ x ∈ (expiring (.cls 3) []).auths.drop 2, x.state = .active)
    ∧ requests = requests.take 1 ++ ⟨4, ⟨.pickup, .rental 70, 3, .kiosk, 6⟩, none⟩ :: requests.drop 2
    ∧ (requests.map (·.id)).Nodup ∧ (∀ x ∈ requests.take 1, x.ended ≠ none) ∧ 999 < 1000
    ∧ Table.look (expiring (.key 0) requests).keys 0 = some ⟨500, 9, 3, some 1, .assigned, some 1, some 900, none, none, none⟩
    ∧ ((expiring (.cls 3) requests).remove .lockout (.rental 70)).link.reports.length < 47
    ∧ ((expiring (.cls 3) requests).remove .lockout (.rental 70)).essRoom = true
    ∧ (asks (expiring (.key 0) requests) authDeleteFrame).Asks .authDelete authDeleteFrame []
    ∧ ((expiring (.key 0) requests).auth 70).map (·.state) = some .waiting := by decide +kernel

def clearFrame (n : Nat) : Frame := ask 0x12 (beBytes 4 n)

/-- The yard with authorization 70 LOCKED_OUT. -/
def lockedOut : Part := { yard with auths := [⟨70, .cls 3, 2000, none, some [1, 2, 3, 4], 0, 500, none, .lockedOut, 2⟩] }

theorem test_meets_ClearLockout : (asks yard (clearFrame 71)).Asks .clearLockout (clearFrame 71) []
    ∧ (clearFrame 71).payload = 9#8 :: beBytes 4 71 ∧ yard.auth 71 = none ∧ yard.essRoom = true
    ∧ (asks yard (clearFrame 70)).Asks .clearLockout (clearFrame 70) [] ∧ (yard.auth 70).map (·.state) = some .waiting
    ∧ (asks lockedOut (clearFrame 70)).Asks .clearLockout (clearFrame 70) []
    ∧ (lockedOut.auth 70).map (·.state) = some .lockedOut
    ∧ (((asks lockedOut (clearFrame 70)).part.asked (clearFrame 70) []).remove .lockout (.rental 70)).essRoom = true := by
  decide +kernel

def releaseFrame : Frame := ask 0x13 (beBytes 4 70)

/-- PICKUP of the kiosk. -/
def pickupFrame (ds : List Nat) : Frame :=
  ⟨0, 3, 0x14, 9#8 :: (beBytes 4 70 ++ (beBytes 1 ds.length ++ ds.flatMap (beBytes 1)))⟩

theorem test_meets_Release : (asks yard releaseFrame).Asks .release releaseFrame []
    ∧ releaseFrame.payload = 9#8 :: beBytes 4 70 ∧ (asks yard (pickupFrame [1, 2, 3, 4])).Asks .pickup (pickupFrame [1, 2, 3, 4]) []
    ∧ yard.clock.set = true ∧ (yard.auth 70).map (·.state) = some .waiting
    ∧ (yard.auth 70).map (·.code) = some (some [1, 2, 3, 4]) ∧ (yard.auth 70).map (·.validFrom) = some 500
    ∧ (∀ w ∈ yard.waitQ, w.req.subject ≠ .rental 70) ∧ 500 ≤ yard.now ∧ yard.freeRentalPlace = some 0
    ∧ yard.chooseKey (.cls 3) .office = .ok (0, ⟨500, 9, 3, some 1, .inn, some 1, some 900, none, none, none⟩)
    ∧ yard.chooseKey (.cls 3) .kiosk = .ok (0, ⟨500, 9, 3, some 1, .inn, some 1, some 900, none, none, none⟩)
    ∧ Table.look yard.ctxs 0 = none ∧ (yard.chan .A).queue.length < 16 ∧ yard.essRoom = true := by decide +kernel

/-- The yard with authorization 70 in a state, with or without its code, valid from a minute. -/
def authIn (st : AuthState) (code : Option (List Nat)) (from_ : Nat) : Part :=
  { yard with auths := [⟨70, .cls 3, 2000, none, code, 3, from_, none, st, 2⟩] }

/-- Every rental place in use but the last, which a context has reserved. -/
def noPlace : Part := { yard with
  ctxs := [(0, { ctxIn .closing none with reservation := some 1023 })]
  rentals := (List.range 1023).map (fun i => (i, ⟨1000 + i, 9, 500, 900, 29, .overdue, 0, .counter, none⟩)) }

/-- Each refusal of RELEASE and PICKUP, by the state that brings it. -/
theorem test_meets_ReleaseIsRefused :
    (asks { yard with clock := ⟨false, 0, 0, 0, false⟩ } releaseFrame).Asks .release releaseFrame []
    ∧ (asks { yard with clock := ⟨false, 0, 0, 0, false⟩ } (pickupFrame [1])).Asks .pickup (pickupFrame [1]) []
    ∧ (asks { yard with auths := [] } releaseFrame).Asks .release releaseFrame [] ∧ ({ yard with auths := [] } : Part).auth 70 = none
    ∧ (asks (authIn .active none 500) (pickupFrame [1])).Asks .pickup (pickupFrame [1]) []
    ∧ ((authIn .active none 500).auth 70).map (·.state) = some .active
    ∧ ((authIn .lockedOut none 500).auth 70).map (·.state) = some .lockedOut
    ∧ (∃ w ∈ ({ yard with waitQ := requests } : Part).waitQ, w.req.subject = .rental 70)
    ∧ (asks (authIn .waiting none 500) (pickupFrame [1])).Asks .pickup (pickupFrame [1]) []
    ∧ ((authIn .waiting none 500).auth 70).map (·.code) = some none
    ∧ ((authIn .waiting none 1001).auth 70).map (·.validFrom) = some 1001 ∧ (authIn .waiting none 1001).now < 1001
    ∧ (asks noPlace releaseFrame).Asks .release releaseFrame [] ∧ (noPlace.auth 70).map (·.state) = some .waiting
    ∧ noPlace.essRoom = true
    ∧ (asks onHold releaseFrame).Asks .release releaseFrame [] ∧ Table.look onHold.rentals 0 = none ∧ onHold.ctxs = []
    ∧ onHold.chooseKey (.cls 3) .office = .error .noKey := by decide +kernel

theorem test_meets_ReleaseFindsNoPlace : ∀ i, i < 1024 →
    (Table.look noPlace.rentals i).isSome ∨ ∃ e ∈ noPlace.ctxs, e.2.reservation = some i := fun i h => by
  by_cases e : i < 1023
  · left
    rw [noPlace, Table.look_map _ _ (List.mem_range.2 e)]
    rfl
  · have e : i = 1023 := by omega
    subst e
    exact .inr ⟨_, List.mem_singleton.2 rfl, rfl⟩

/-- The yard with four contexts busy elsewhere, and n requests waiting. -/
def busy (n : Nat) : Part := { yard with
  ctxs := [(0, ctxIn .closing none), (1, ctxIn .closing none), (2, ctxIn .closing none), (3, ctxIn .closing none)]
  waitQ := List.replicate n ⟨0, ⟨.release, .rental 5, 1, .office, 9⟩, none⟩ }

theorem test_meets_ReleaseIsQueued : (asks (busy 7) releaseFrame).Asks .release releaseFrame []
    ∧ (asks (busy 7) (pickupFrame [1, 2, 3, 4])).Asks .pickup (pickupFrame [1, 2, 3, 4]) []
    ∧ ((busy 7).auth 70).map (·.code) = some (some [1, 2, 3, 4])
    ∧ (busy 8).chooseKey (.cls 3) .kiosk = .ok (0, ⟨500, 9, 3, some 1, .inn, some 1, some 900, none, none, none⟩)
    ∧ (asks (busy 8) releaseFrame).Asks .release releaseFrame [] ∧ (busy 7).waitQ.length < 8 ∧ 8 ≤ (busy 8).waitQ.length
    ∧ (∀ w ∈ (busy 8).waitQ, w.req.subject ≠ .rental 70) ∧ (busy 8).freeRentalPlace = some 1
    ∧ (busy 8).chooseKey (.cls 3) .office = .ok (0, ⟨500, 9, 3, some 1, .inn, some 1, some 900, none, none, none⟩)
    ∧ (∀ j, j < 4 → (Table.look (busy 8).ctxs j).isSome) ∧ (busy 8).essRoom = true := by decide +kernel

/-- The yard with one attempt left on authorization 70. -/
def lastTry : Part := { yard with auths := [⟨70, .cls 3, 2000, none, some [1, 2, 3, 4], 1, 500, none, .waiting, 2⟩] }

theorem test_meets_WrongCode : (asks yard (pickupFrame [9])).Asks .pickup (pickupFrame [9]) []
    ∧ (asks yard (pickupFrame [1, 2, 3, 4, 5, 6, 7, 8])).Asks .pickup (pickupFrame [1, 2, 3, 4, 5, 6, 7, 8]) []
    ∧ (yard.auth 70).map (·.attempts) = some 3 ∧ (lastTry.auth 70).map (·.attempts) = some 1
    ∧ (asks lastTry (pickupFrame [9])).Asks .pickup (pickupFrame [9]) [] ∧ lastTry.essRoom = true
    ∧ (((asks lastTry (pickupFrame [9])).part.asked (pickupFrame [9]) []).raise .lockout (.rental 70) none).essRoom = true := by
  decide +kernel

def serviceFrame (form : List Byte) : Frame := ask 0x15 form

/-- The yard with an unregistered fob in slot 2. -/
def foreign : Part := { yard with
  rows := [(1, ⟨some (.tag 500), none, some .locked, none, none⟩), (2, ⟨some .unread, none, some .locked, none, none⟩)] }

theorem test_meets_ServiceRelease :
    (asks yard (serviceFrame (0#8 :: beBytes 4 500))).Asks .serviceRelease (serviceFrame (0#8 :: beBytes 4 500)) []
    ∧ Table.look yard.ctxs 0 = none ∧ Table.look yard.rows 1 = some ⟨some (.tag 500), none, some .locked, none, none⟩
    ∧ yard.moduleActive (yard.slotEntry 1).chan (yard.slotEntry 1).addr = true
    ∧ yard.keyByTag 500 = some (0, ⟨500, 9, 3, some 1, .inn, some 1, some 900, none, none, none⟩)
    ∧ (asks foreign (serviceFrame (1#8 :: beBytes 2 2))).Asks .serviceRelease (serviceFrame (1#8 :: beBytes 2 2)) []
    ∧ (foreign.slotEntry 2).kind = .standard ∧ Table.look foreign.rows 2 = some ⟨some .unread, none, some .locked, none, none⟩
    ∧ (foreign.chan .A).queue.length < 16 ∧ foreign.essRoom = true := by decide +kernel

/-- A SERVICE_RELEASE in context 0, in a state with a result, a removal of an occupant settling at its slot 1; key 0 as given. -/
def serving (sub : RelSubject) (st : CtxState) (res : Option CtxResult) (old : Occ) (k : KeyRec) : Part := { yard with
  ctxs := [(0, ⟨st, some 1, some 0, ⟨.service, sub, 1, .office, 9⟩, none, some 5000, none, res, none, true, false, 0, none⟩)]
  rows := [(1, ⟨some old, some ⟨.empty, 999, 5000⟩, some .opened, some 0, none⟩)], keys := [(0, k)] }

/-- Key 0 at slot 1 in a state. -/
def keyAtHome (st : KeyState) : KeyRec := ⟨500, 9, 3, some 1, st, some 1, some 900, none, none, none⟩

theorem test_meets_ServiceCompletes :
    Table.look (serving (.tag 500) .removedSettling none (.tag 500) (keyAtHome .releasing)).rows 1
      = some ⟨some (.tag 500), some ⟨.empty, 999, 5000⟩, some .opened, some 0, none⟩
    ∧ (serving (.tag 500) .removedSettling none (.tag 500) (keyAtHome .releasing)).keyByTag 500 = some (0, keyAtHome .releasing)
    ∧ (serving (.tag 500) .closing (some .notTaken) (.tag 500) (keyAtHome .inn)).keyByTag 500 = some (0, keyAtHome .inn)
    ∧ (Table.look (serving (.tag 500) .closing (some .notTaken) (.tag 500) (keyAtHome .inn)).ctxs 0).map
      (fun c => (c.state, c.result, c.key, c.slot)) = some (.closing, some .notTaken, some 0, some 1)
    ∧ (Table.look (serving (.slot 1) .opened none .unread (keyAtHome .inn)).ctxs 0).map (·.req.subject) = some (.slot 1)
    ∧ (serving (.slot 1) .opened none (.tag 777) (keyAtHome .inn)).keyByTag 777 = none
    ∧ (serving (.slot 1) .opened none (.tag 500) (keyAtHome .inn)).keyByTag 500 = some (0, keyAtHome .inn)
    ∧ ((serving (.slot 1) .opened none .unread (keyAtHome .inn)).chan .A).queue.length < 16 := by decide +kernel

def key0 : KeyRec := ⟨500, 9, 3, some 1, .releasing, some 1, some 900, none, none, none⟩
def auth70 : Auth := ⟨70, .cls 3, 2000, none, some [1, 2, 3, 4], 3, 500, none, .active, 2⟩
def cancelFrame : Frame := ask 0x16 (beBytes 4 70)

theorem test_meets_CancelRelease : (asks (releasing .opened none) cancelFrame).Asks .cancelRelease cancelFrame []
    ∧ cancelFrame.payload = 9#8 :: beBytes 4 70
    ∧ (asks (releasing .opening none) cancelFrame).part.Carries 0 1 (ctxIn .opening none) auth70 0 key0
    ∧ (asks (releasing .opened none) cancelFrame).part.Carries 0 1 (ctxIn .opened none) auth70 0 key0
    ∧ (asks (releasing .removedSettling none) cancelFrame).part.Carries 0 1 (ctxIn .removedSettling none) auth70 0 key0
    ∧ (∀ e ∈ (releasing .opened none).ctxs, e.2.req.subject = .rental 70 → e.1 = 0)
    ∧ Table.rising (releasing .opened none).ctxs = true ∧ (ctxIn .opened none).req.origin = cancelFrame.origin
    ∧ (releasing .opened none).essRoom = true := by decide +kernel

theorem test_meets_ContextTimers : (now (releasing .opened none)).part.Carries 0 1 (ctxIn .opened none) auth70 0 key0
    ∧ (ctxIn .opened none).window = some 5000 ∧ 5000 ≤ (now (releasing .opened none)).part.mono
    ∧ (now (releasing .removedSettling none)).part.Carries 0 1 (ctxIn .removedSettling none) auth70 0 key0
    ∧ (now (releasing .opening none)).part.Carries 0 1 (ctxIn .opening none) auth70 0 key0
    ∧ (ctxIn .opening none).lockLimit = some 5000
    ∧ (Table.look (now (releasing .opening none)).part.rows 1).isSome := by decide +kernel

/-- The release in OPEN, its window over and its authorization past its valid until. -/
def outlived : Part := { releasing .opened none with
  auths := [⟨70, .key 0, 2000, none, none, 3, 500, some 999, .active, 2⟩] }

theorem test_meets_ContextTimersExpired : Table.look outlived.ctxs 0 = some (ctxIn .opened none) ∧ (ctxIn .opened none).slot = some 1
    ∧ (ctxIn .opened none).window = some 5000 ∧ 5000 ≤ outlived.mono
    ∧ outlived.auth 70 = some ⟨70, .key 0, 2000, none, none, 3, 500, some 999, .active, 2⟩ ∧ 999 < outlived.now
    ∧ Table.look outlived.keys 0 = some key0 ∧ outlived.link.reports.length < 48 ∧ (outlived.chan .A).queue.length < 16 := by
  decide +kernel

/-- A release in progress, its lock command on the line. -/
def locking (st : CtxState) (res : Option CtxResult) (b : BusCmd) (rental : Option Nat) : Part :=
  let p := releasing st res
  { p with
    ctxs := [(0, { ctxIn st res with rental := rental })]
    chanA := { p.chanA with onLine := some (.queued b) } }

theorem test_meets_LockAnswers :
    ((locking .opening none (.lockOpen 1 0 0) none).chan .A).onLine = some (.queued (.lockOpen 1 0 0))
    ∧ (locking .opening none (.lockOpen 1 0 0) none).slotAt .A 1 0 = some 1
    ∧ ((locking .opening none (.lockOpen 1 0 0) none).chan .A).modState 1 = .active
    ∧ Table.look (locking .opening none (.lockOpen 1 0 0) none).rows 1 = some ⟨some (.tag 500), none, some .locked, some 0, none⟩
    ∧ Table.look (locking .opening none (.lockOpen 1 0 0) none).ctxs 0 = some (ctxIn .opening none)
    ∧ (ctxIn .opening none).lockSent = true
    ∧ ((locking .closing (some .released) (.lockClose 1 0 (.ctx 0)) (some 0)).chan .A).onLine
      = some (.queued (.lockClose 1 0 (.ctx 0)))
    ∧ Table.look (locking .closing (some .released) (.lockClose 1 0 (.ctx 0)) (some 0)).ctxs 0
      = some { ctxIn .closing (some .released) with rental := some 0 }
    ∧ Table.look (locking .closing (some .notTaken) (.lockClose 1 0 (.ctx 0)) none).ctxs 0 = some (ctxIn .closing (some .notTaken))
    ∧ (locking .closing (some .released) (.lockClose 1 0 (.ctx 0)) (some 0)).alt.find .lockJam (.slot 1) = none
    ∧ (locking .closing (some .released) (.lockClose 1 0 (.ctx 0)) (some 0)).waitQ = []
    ∧ (locking .closing (some .released) (.lockClose 1 0 (.ctx 0)) (some 0)).essRoom = true ∧ GoodReply good 1 := by decide +kernel

/-- A POLL on the line of a module with one position in the Slot Map, slot 1, where a release stands in a state; its row as given. -/
def reporting (st : CtxState) (occ : Occ) (settle : Option Settle) (lock : LockState) : Part :=
  let p := releasing st none
  { p with
    slotMap := [(1, ⟨.A, 1, 0, .standard, 0⟩)], rows := [(1, ⟨some occ, settle, some lock, some 0, none⟩)]
    chanA := { p.chanA with onLine := some (.poll 1 false) } }

theorem test_meets_LockAnswersJammed :
    (locking .opening none (.lockOpen 1 0 0) none).Carries 0 1 (ctxIn .opening none) auth70 0 key0
    ∧ Table.look (reporting .opened (.tag 500) none .locked).rows 1 = some ⟨some (.tag 500), none, some .locked, some 0, none⟩
    ∧ Table.look (reporting .removedSettling (.tag 500) (some ⟨.empty, 999, 5200⟩) .opened).rows 1
      = some ⟨some (.tag 500), some ⟨.empty, 999, 5200⟩, some .opened, some 0, none⟩
    ∧ Table.look (reporting .opened (.tag 500) none .locked).ctxs 0 = some (ctxIn .opened none)
    ∧ (reporting .opened (.tag 500) none .locked).slotAt .A 1 0 = some 1
    ∧ (∀ x, x < 8 → x ≠ 0 → (reporting .opened (.tag 500) none .locked).slotAt .A 1 x = none)
    ∧ (reporting .opened (.tag 500) none .locked).slotEntry 1 = ⟨.A, 1, 0, .standard, 0⟩
    ∧ ((reporting .opened (.tag 500) none .locked).chan .A).onLine = some (.poll 1 false) := by decide +kernel

/-- The context closing, an ended request before a live one for rental n in the Release Wait Queue; authorization 71 names a
class whose key lies in slot 2. -/
def closingWith (n : Nat) : Part :=
  let p := locking .closing (some .notTaken) (.lockClose 1 0 (.ctx 0)) none
  { p with
    waitQ := [⟨3, ⟨.release, .rental 99, 2, .counter, 5⟩, some rep⟩, ⟨4, ⟨.release, .rental n, 2, .counter, 5⟩, none⟩]
    keys := [(1, ⟨501, 8, 4, some 2, .inn, some 2, some 800, none, none, none⟩)]
    rows := [(1, ⟨some .empty, none, some .locked, some 0, none⟩), (2, ⟨some (.tag 501), none, some .locked, none, none⟩)]
    auths := [⟨71, .cls 4, 2000, none, none, 3, 500, none, .waiting, 2⟩] }

theorem test_meets_LockAnswersFreeTheContext : (∀ w ∈ owed.waitQ, w.ended ≠ none)
    ∧ ((closingWith 71).chan .A).onLine = some (.queued (.lockClose 1 0 (.ctx 0)))
    ∧ (closingWith 71).waitQ = [⟨3, ⟨.release, .rental 99, 2, .counter, 5⟩, some rep⟩]
      ++ ⟨4, ⟨.release, .rental 71, 2, .counter, 5⟩, none⟩ :: [] ∧ ((closingWith 71).waitQ.map (·.id)).Nodup
    ∧ (closingWith 71).auth 71 = some ⟨71, .cls 4, 2000, none, none, 3, 500, none, .waiting, 2⟩ ∧ 500 ≤ (closingWith 71).now
    ∧ ({ closingWith 71 with ctxs := [] } : Part).freeRentalPlace = some 0
    ∧ ({ closingWith 71 with ctxs := [] } : Part).chooseKey (.cls 4) .counter
      = .ok (1, ⟨501, 8, 4, some 2, .inn, some 2, some 800, none, none, none⟩)
    ∧ ((closingWith 71).chan .A).queue.length < 16 ∧ ((closingWith 71).chan .A).modState 1 = .active
    ∧ (closingWith 72).auth 72 = none ∧ (closingWith 72).link.reports.length < 63 ∧ (closingWith 72).essRoom = true := by
  decide +kernel

/-- The same context, with one live SERVICE_RELEASE waiting, while slot 2 settles. -/
def closingForService (sub : RelSubject) : Part := { closingWith 71 with
  waitQ := [⟨3, ⟨.release, .rental 99, 2, .counter, 5⟩, some rep⟩, ⟨4, ⟨.service, sub, 2, .office, 5⟩, none⟩]
  rows := [(1, ⟨some .empty, none, some .locked, some 0, none⟩),
    (2, ⟨some (.tag 501), some ⟨.empty, 999, 5200⟩, some .locked, none, none⟩)] }

theorem test_meets_LockAnswersEndAService :
    ((closingForService (.tag 777)).chan .A).modState 1 = .active
    ∧ (closingForService (.tag 777)).waitQ = [⟨3, ⟨.release, .rental 99, 2, .counter, 5⟩, some rep⟩]
      ++ ⟨4, ⟨.service, .tag 777, 2, .office, 5⟩, none⟩ :: []
    ∧ ((closingForService (.tag 777)).waitQ.map (·.id)).Nodup ∧ (closingForService (.tag 777)).link.reports.length < 63
    ∧ (closingForService (.tag 777)).keyByTag 777 = none
    ∧ (closingForService (.slot 2)).waitQ = [⟨3, ⟨.release, .rental 99, 2, .counter, 5⟩, some rep⟩]
      ++ ⟨4, ⟨.service, .slot 2, 2, .office, 5⟩, none⟩ :: []
    ∧ ((closingForService (.slot 2)).waitQ.map (·.id)).Nodup ∧ (closingForService (.slot 2)).link.reports.length < 63
    ∧ ((closingForService (.slot 2)).slotEntry 2).kind = .standard
    ∧ Table.look (closingForService (.slot 2)).rows 2
      = some ⟨some (.tag 501), some ⟨.empty, 999, 5200⟩, some .locked, none, none⟩ := by decide +kernel

theorem test_meets_LockLimitClosing :
    Table.look (now (locking .closing (some .released) (.lockClose 1 0 (.ctx 0)) (some 0))).part.ctxs 0
      = some { ctxIn .closing (some .released) with rental := some 0 }
    ∧ (ctxIn .closing (some .released)).lockLimit = some 5000 ∧ (ctxIn .closing (some .released)).slot = some 1
    ∧ 5000 ≤ (now (locking .closing (some .released) (.lockClose 1 0 (.ctx 0)) (some 0))).part.mono
    ∧ (Table.look (now (locking .closing (some .released) (.lockClose 1 0 (.ctx 0)) (some 0))).part.rows 1).map (·.ctx) = some (some 0)
    ∧ (∀ e ∈ owed.waitQ, e.ended ≠ none)
    ∧ (locking .closing (some .released) (.lockClose 1 0 (.ctx 0)) (some 0)).link.waiters = []
    ∧ (locking .closing (some .released) (.lockClose 1 0 (.ctx 0)) (some 0)).link.reports.length < 62 := by decide +kernel

/-- The context's LOCK_CLOSE still waits at its limit; and one left by a freed context is answered. -/
theorem test_meets_LockLimitLeavesACommand :
    BusCmd.lockClose 1 0 (.ctx 0)
      ∈ ((closeWaiting (locking .closing (some .released) (.lockClose 2 0 .left) (some 0))).chan .A).queue
    ∧ ((locking .closing (some .notTaken) (.lockClose 1 0 .left) none).chan .A).onLine
      = some (.queued (.lockClose 1 0 .left)) := by decide +kernel

/-- A release whose key is leaving its slot, the settle due. -/
def leaving : Part :=
  let p := releasing .removedSettling none
  { p with
    ctxs := [(0, { ctxIn .removedSettling none with reservation := some 1023 })]
    rows := [(1, ⟨some (.tag 500), some ⟨.empty, 999, 5000⟩, some .opened, some 0, none⟩)] }

theorem test_meets_SettledRemoval :
    (now leaving).part.Carries 0 1 { ctxIn .removedSettling none with reservation := some 1023 } auth70 0 key0
    ∧ Table.look (now leaving).part.rows 1 = some ⟨some (.tag 500), some ⟨.empty, 999, 5000⟩, some .opened, some 0, none⟩
    ∧ 5000 ≤ (now leaving).part.mono ∧ (now leaving).part.keyByTag 500 = some (0, key0) := by decide +kernel

/-- Key 0, its home slot 1, in a state at a location. -/
def keyIn (st : KeyState) (loc : Option Nat) : KeyRec :=
  ⟨500, 9, 3, some 1, st, loc, loc.map (fun _ => 900), none, none, if st = .away then some .dropOverflow else none⟩

/-- The release of key 0 not taken and closing, the key leaving after all. -/
def takenLate : Part := { leaving with
  ctxs := [(0, { ctxIn .closing (some .notTaken) with reservation := some 1023 })]
  keys := [(0, keyIn .inn (some 1))]
  auths := [⟨70, .cls 3, 2000, some 7, some [1, 2, 3, 4], 3, 500, none, .waiting, 2⟩] }

/-- Slot 1 settles from an occupancy to another, no context there; key 0 as given; authorization 70 names key 0. -/
def settling (old new : Occ) (k : KeyRec) : Part := { yard with
  rows := [(1, ⟨some old, some ⟨new, 999, 5000⟩, some .opened, none, some 7⟩), (2, ⟨some .empty, none, some .opened, some 0, none⟩)]
  keys := [(0, k)], auths := [⟨70, .key 0, 2000, none, none, 3, 500, none, .waiting, 2⟩] }

/-- The removal without a context or taken late: R11, R33, R50. -/
theorem test_meets_SettledRemovalOtherwise : takenLate.keyByTag 500 = some (0, keyIn .inn (some 1))
    ∧ (Table.look takenLate.ctxs 0).map (fun c => (c.state, c.result, c.reservation, c.req.subject))
      = some (.closing, some .notTaken, some 1023, .rental 70)
    ∧ (takenLate.auth 70).map (fun a => (a.state, a.target)) = some (.waiting, .cls 3)
    ∧ Table.look (settling (.tag 500) .empty (keyIn .assigned (some 1))).rows 1
      = some ⟨some (.tag 500), some ⟨.empty, 999, 5000⟩, some .opened, none, some 7⟩
    ∧ (settling (.tag 500) .empty (keyIn .assigned (some 1))).keyByTag 500 = some (0, keyIn .assigned (some 1))
    ∧ (settling (.tag 500) .empty (keyIn .inn (some 2))).keyByTag 500 = some (0, keyIn .inn (some 2))
    ∧ (settling (.tag 500) .empty (keyIn .inn (some 1))).alt.find .taken (.key 0) = none
    ∧ (settling (.tag 500) .empty (keyIn .inn (some 1))).alt.freePlace = some 0
    ∧ (settling (.tag 500) .empty (keyIn .assigned (some 1))).auths
      = [] ++ ⟨70, .key 0, 2000, none, none, 3, 500, none, .waiting, 2⟩ :: []
    ∧ (settling (.tag 777) .empty (keyIn .inn (some 1))).keyByTag 777 = none := by decide +kernel

/-- A context in a state with a result on slot 1, from which an occupant has gone; key 0 as given, authorization 70 for it. -/
def goneFrom (sub : RelSubject) (st : CtxState) (res : CtxResult) (old : Occ) (k : KeyRec) : Part :=
  { settling old .empty k with
    ctxs := [(0, { ctxIn st (some res) with req := ⟨.release, sub, 1, .office, 9⟩ })]
    rows := [(1, ⟨some old, some ⟨.empty, 999, 5000⟩, some .opened, some 0, some 7⟩)] }

theorem test_meets_SettledRemovalTaken : Table.look (goneFrom (.rental 70) .closing .cancelled (.tag 500) (keyIn .assigned (some 1))).rows 1
      = some ⟨some (.tag 500), some ⟨.empty, 999, 5000⟩, some .opened, some 0, some 7⟩
    ∧ (goneFrom (.rental 70) .closing .cancelled (.tag 500) (keyIn .assigned (some 1))).keyByTag 500 = some (0, keyIn .assigned (some 1))
    ∧ (goneFrom (.rental 71) .closing .notTaken (.tag 500) (keyIn .inn (some 1))).auth 71 = none
    ∧ (goneFrom (.tag 500) .closing .notTaken (.tag 500) (keyIn .assigned (some 1))).keyByTag 500 = some (0, keyIn .assigned (some 1))
    ∧ (Table.look (goneFrom (.slot 1) .donePending .released (.tag 500) (keyIn .inn (some 1))).ctxs 0).map (·.state) = some .donePending
    ∧ (goneFrom (.slot 1) .closing .released (.tag 500) (keyIn .inn (some 2))).keyByTag 500 = some (0, keyIn .inn (some 2))
    ∧ ([entry .foreign (.slot 1) false none].map (fun e => (e.kind, e.subject))).Nodup := by decide +kernel

/-- Key 0 in RELEASING at slot 2, seen in slot 1. -/
def seenElsewhere : Part := { settling .empty (.tag 500) (keyIn .releasing (some 2)) with
  ctxs := [(0, { ctxIn .opened none with slot := some 2 })], auths := [auth70] }

/-- Key 0 on rental 60, seen in slot 1. -/
def cameBack : Part := { settling .empty (.tag 500) { keyIn .out none with rental := some 0 } with
  rentals := rented.rentals, due := rented.due }

/-- The arrival of a key in each of the eight key states, and of an unknown occupant. -/
theorem test_meets_SettledArrival : Table.look (settling .empty .unread (keyIn .away none)).rows 1
      = some ⟨some .empty, some ⟨.unread, 999, 5000⟩, some .opened, none, some 7⟩
    ∧ (settling .empty (.tag 777) (keyIn .away none)).keyByTag 777 = none
    ∧ (settling .empty (.tag 500) (keyIn .away none)).keyByTag 500 = some (0, keyIn .away none)
    ∧ (keyIn .away none).away = some .dropOverflow ∧ (settling .empty (.tag 500) (keyIn .away none)).link.reports.length < 48
    ∧ (settling .empty (.tag 500) (keyIn .missing none)).keyByTag 500 = some (0, keyIn .missing none)
    ∧ (({ settling .empty (.tag 500) (keyIn .missing none) with keys := [(0, keyIn .inn (some 1))] } : Part).remove .taken
      (.key 0)).link.reports.length < 48
    ∧ (settling .empty (.tag 500) (keyIn .dropped none)).keyByTag 500 = some (0, keyIn .dropped none)
    ∧ (∀ d ∈ yard.dropSlots, yard.alt.find .dropFull (.slot d) = none)
    ∧ (settling .empty (.tag 500) (keyIn .inn (some 1))).keyByTag 500 = some (0, keyIn .inn (some 1))
    ∧ (settling .empty (.tag 500) (keyIn .misplaced (some 2))).keyByTag 500 = some (0, keyIn .misplaced (some 2))
    ∧ (settling .empty (.tag 500) (keyIn .assigned (some 2))).keyByTag 500 = some (0, keyIn .assigned (some 2))
    ∧ seenElsewhere.Carries 0 2 { ctxIn .opened none with slot := some 2 } auth70 0 (keyIn .releasing (some 2))
    ∧ (∀ e ∈ seenElsewhere.ctxs, e.2.key = some 0 → e.1 = 0) ∧ Table.rising seenElsewhere.ctxs = true
    ∧ cameBack.keyByTag 500 = some (0, { keyIn .out none with rental := some 0 })
    ∧ Table.look cameBack.rentals 0 = some ⟨60, 0, 500, 900, 29, .overdue, 0, .counter, none⟩ ∧ cameBack.link.waiters = []
    ∧ cameBack.alt.find .overdue (.rental 60) = none ∧ cameBack.alt.find .escalated (.rental 60) = none := by decide +kernel

/-! ## Hypotheses met: requests that read -/

theorem test_meets_Queries : rented.essRoom = true
    ∧ (asks rented (ask 0x03 (0#8 :: beBytes 4 500))).Asks .keyQuery (ask 0x03 (0#8 :: beBytes 4 500)) []
    ∧ rented.keyByTag 500 = some (0, ⟨500, 9, 3, some 1, .out, none, none, none, some 0, none⟩)
    ∧ (asks rented (ask 0x03 (1#8 :: beBytes 2 1))).Asks .keyQuery (ask 0x03 (1#8 :: beBytes 2 1)) []
    ∧ (Table.look rented.keys 1).isSome
    ∧ (asks rented (rentalFrame 60)).Asks .rentalQuery (rentalFrame 60) [] ∧ (rented.rentalByNumber 60).isSome
    ∧ (asks rented (ask 0x22 (1#8 :: beBytes 2 1))).Asks .rentalQuery (ask 0x22 (1#8 :: beBytes 2 1)) []
    ∧ (Table.look rented.rentals 1).isSome
    ∧ (asks rented (ask 0x23 (beBytes 1 1 ++ (beBytes 3 899 ++ beBytes 4 61)))).Asks .overdueList
      (ask 0x23 (beBytes 1 1 ++ (beBytes 3 899 ++ beBytes 4 61))) []
    ∧ (asks rented (ask 0x32 (beBytes 2 63))).Asks .censusRead (ask 0x32 (beBytes 2 63)) [] := by decide +kernel

/-- The foreign tag 777 stands in slot 2, after a slot of another occupancy. -/
def foreignSeen : Part := { rented with
  rows := [(1, ⟨some .empty, none, some .locked, none, none⟩), (2, ⟨some (.tag 777), none, some .locked, none, none⟩)] }

/-- KEY_QUERY of no key: a free handle, one above 1023, a tag that stands nowhere, one that stands in a slot's row. -/
theorem test_meets_KeyQueryNotFound :
    (asks rented (ask 0x03 (1#8 :: beBytes 2 1023))).Asks .keyQuery (ask 0x03 (1#8 :: beBytes 2 1023)) []
    ∧ Table.look rented.keys 1023 = none
    ∧ (asks rented (ask 0x03 (1#8 :: beBytes 2 65535))).Asks .keyQuery (ask 0x03 (1#8 :: beBytes 2 65535)) []
    ∧ Table.look rented.keys 65535 = none
    ∧ (asks rented (ask 0x03 (0#8 :: beBytes 4 777))).Asks .keyQuery (ask 0x03 (0#8 :: beBytes 4 777)) []
    ∧ rented.keyByTag 777 = none ∧ (∀ e ∈ rented.rows, e.2.occ ≠ some (.tag 777))
    ∧ (asks foreignSeen (ask 0x03 (0#8 :: beBytes 4 777))).Asks .keyQuery (ask 0x03 (0#8 :: beBytes 4 777)) []
    ∧ foreignSeen.keyByTag 777 = none ∧ foreignSeen.essRoom = true
    ∧ foreignSeen.rows = [(1, ⟨some .empty, none, some .locked, none, none⟩)]
      ++ (2, ⟨some (.tag 777), none, some .locked, none, none⟩) :: []
    ∧ (∀ e ∈ [(1, (⟨some .empty, none, some .locked, none, none⟩ : SlotRow))], e.2.occ ≠ some (.tag 777)) := by decide +kernel

theorem test_meets_StatusReads : yard.essRoom = true
    ∧ (asks yard (ask 0x29 [0#8])).Asks .flagsRead (ask 0x29 [0#8]) []
    ∧ (asks yard (ask 0x29 [1#8])).Asks .flagsRead (ask 0x29 [1#8]) []
    ∧ (asks yard (ask 0x4B [])).Asks .statusRead (ask 0x4B []) []
    ∧ (asks yard (ask 0x4C [0#8])).Asks .countersRead (ask 0x4C [0#8]) []
    ∧ (asks yard (ask 0x4C [1#8])).Asks .countersRead (ask 0x4C [1#8]) [] := by decide +kernel

/-! ## Hypotheses met: branch time and rentals -/

/-- TIME_SET of the example of chapter 4, and at the last minute; terminal 3 has no LOAD. -/
def timeFrame (dest origin m sec w : Nat) : Frame :=
  ⟨dest, origin, 0x20, 9#8 :: (beBytes 3 m ++ (beBytes 1 sec ++ beBytes 2 w))⟩

theorem test_meets_TimeSet : (asks rented (timeFrame 0 1 2001800 0 1085)).Asks .timeSet (timeFrame 0 1 2001800 0 1085) []
    ∧ (asks rented (timeFrame 0 1 16777215 59 1439)).Asks .timeSet (timeFrame 0 1 16777215 59 1439) []
    ∧ (asks rented (timeFrame 255 1 2001800 0 1085)).part.tfl.held = none
    ∧ (asks rented (timeFrame 255 1 2001800 0 1085)).part.link.inbound = timeFrame 255 1 2001800 0 1085 :: []
    ∧ (rented.terminal 1).load = true ∧ (rented.terminal 3).load = false
    ∧ (asks rented (timeFrame 255 3 2001800 0 1085)).part.link.inbound = timeFrame 255 3 2001800 0 1085 :: [] := by decide +kernel

/-- A tick outstanding at an entry that is to be re-alerted, when TIME_SET comes. -/
theorem test_meets_TimeSetAfterATick :
    (asks { alerted [entry .taken (.key 0) false none] with tickAlt := [1000] } (timeFrame 0 1 10 0 0)).Asks .timeSet
      (timeFrame 0 1 10 0 0) []
    ∧ (∃ e ∈ (alerted [entry .taken (.key 0) false none]).alt.entries, e.kind ≠ .lockout ∧ e.acked = false ∧ e.next = some 1000)
    ∧ ((alerted [entry .taken (.key 0) false none]).alt.entries.map (·.place)).Nodup := by decide +kernel

/-- The example's day offset, 885. -/
theorem test_timeSet_example : ∃ t, exec .timeSet (asks yard (timeFrame 0 1 2001800 0 1085)) = .next t
    ∧ t.part.clock = ⟨true, 2001800, 0, 885, false⟩ ∧ t.part.clock.minuteOfDay = 1085 := ⟨_, rfl, by decide +kernel, by decide +kernel⟩

theorem test_meets_Seconds : Clock.set ⟨false, 0, 0, 0, false⟩ = false ∧ Clock.atLimit ⟨true, 16777215, 0, 0, true⟩ = true
    ∧ yard.clock.set = true ∧ yard.clock.atLimit = false ∧ yard.clock.second < 59
    ∧ 59 ≤ Clock.second ⟨true, 1000, 59, 0, false⟩ := by decide

/-- One OPEN rental of a tier, with a grace of 29, due at a minute; the next second is the tick of minute 1001. -/
def tiered (t : Tier) (due : Nat) : Part := { rented with
  clock := ⟨true, 1000, 59, 0, false⟩, rentals := [(0, ⟨60, 0, 500, due, 29, t, 0, .counter, none⟩)] }

theorem test_meets_TierChanges : (tiered .grace 971).due = [0]
    ∧ Table.look (tiered .grace 971).rentals 0 = some ⟨60, 0, 500, 971, 29, .grace, 0, .counter, none⟩
    ∧ ({ tiered .grace 971 with clock := ⟨true, 1001, 0, 0, false⟩ } : Part).zoneEval = (tiered .grace 971).zone
    ∧ tierOf 60 240 971 29 1001 = .overdue ∧ tierOf 60 240 732 29 1001 = .escalated ∧ tierOf 60 240 733 29 1001 = .overdue
    ∧ tierOf 60 240 1061 29 1001 = .dueSoon ∧ tierOf 60 240 1000 29 1001 = .grace ∧ tierOf 60 240 1062 29 1001 = .onTime
    ∧ (((tiered .overdue 1061).remove .overdue (.rental 60)).remove .escalated (.rental 60)).link.reports.length < 48 := by
  decide +kernel

/-- EXTEND of a rental. -/
def extendFrame (n d : Nat) : Frame := ask 0x21 (beBytes 4 n ++ beBytes 3 d)
def closeFrame : Frame := ask 0x18 (beBytes 4 60)

/-- The rented yard with rental 60 extended nine times. -/
def atLimit : Part := { rented with rentals := [(0, ⟨60, 0, 500, 900, 29, .overdue, 9, .counter, none⟩)] }

theorem test_meets_Rentals : (asks rented (extendFrame 60 500)).Asks .extend (extendFrame 60 500) []
    ∧ (extendFrame 60 500).payload = 9#8 :: (beBytes 4 60 ++ beBytes 3 500)
    ∧ rented.rentalByNumber 60 = some (0, ⟨60, 0, 500, 900, 29, .overdue, 0, .counter, none⟩)
    ∧ Table.look rented.rentals 0 = some ⟨60, 0, 500, 900, 29, .overdue, 0, .counter, none⟩
    ∧ (asks rented (extendFrame 62 500)).Asks .extend (extendFrame 62 500) [] ∧ rented.rentalByNumber 62 = none
    ∧ (asks rented (extendFrame 61 500)).Asks .extend (extendFrame 61 500) []
    ∧ (rented.rentalByNumber 61).map (fun e => e.2.snap.isSome) = some true
    ∧ (asks atLimit (extendFrame 60 500)).Asks .extend (extendFrame 60 500) []
    ∧ (atLimit.rentalByNumber 60).map (fun e => e.2.extensions) = some 9
    ∧ (asks rented closeFrame).Asks .rentalCloseManual closeFrame [] ∧ closeFrame.payload = 9#8 :: beBytes 4 60
    ∧ (Table.look rented.keys 0).isSome ∧ rented.link.reports.length < 63 ∧ rented.link.waiters = []
    ∧ rented.alt.find .overdue (.rental 60) = none ∧ rented.alt.find .escalated (.rental 60) = none ∧ rented.essRoom = true := by
  decide +kernel

theorem test_meets_DueOrdered : (asks rented (extendFrame 60 500)).part.DueOrdered :=
  ⟨by decide +kernel, List.pairwise_singleton _ _⟩

/-! ## Hypotheses met: alerts and census -/

def ackFrame (k : AlertKind) (sub : Subject) : Frame := ask 0x28 (beBytes 1 k.code ++ sub.bytes)
def enableFrame (a b : BitVec 16) (l : Bool) : Frame :=
  ask 0x2A (beBytes 2 a.toNat ++ (beBytes 2 b.toNat ++ beBytes 1 (if l then 1 else 0)))

theorem test_meets_AlertsAcknowledged :
    (asks (alerted [entry .taken (.key 0) false none]) (ackFrame .taken (.key 0))).Asks .ackAlert (ackFrame .taken (.key 0)) []
    ∧ parseSubject .taken (beNat (Subject.bytes (.key 0))) = some (.key 0)
    ∧ (alerted [entry .taken (.key 0) false none]).alt.find .taken (.key 0) = some (entry .taken (.key 0) false none)
    ∧ (asks yard (ackFrame .taken (.key 1023))).Asks .ackAlert (ackFrame .taken (.key 1023)) []
    ∧ yard.alt.find .taken (.key 1023) = none
    ∧ (asks (alerted [entry .foreign (.slot 3) false none]) (ackFrame .foreign (.slot 3))).Asks .ackAlert (ackFrame .foreign (.slot 3)) []
    ∧ parseSubject .foreign (beNat (Subject.bytes (.slot 3))) = some (.slot 3) ∧ (yard.slotEntry 3).kind = .drop
    ∧ (alerted [entry .foreign (.slot 3) false none]).alt.find .foreign (.slot 3) = some (entry .foreign (.slot 3) false none)
    ∧ (entry .foreign (.slot 3) false none).pending = none ∧ yard.essRoom = true
    ∧ (asks yard (enableFrame 0xFFFF#16 0x4000#16 true)).Asks .enableSet (enableFrame 0xFFFF#16 0x4000#16 true) []
    ∧ (now { alerted [entry .taken (.key 0) false none] with tickAlt := [1000, 1001] }).part.tickAlt = 1000 :: [1001]
    ∧ ((alerted [entry .taken (.key 0) false none]).alt.entries.map (·.place)).Nodup
    ∧ (entry .taken (.key 0) false none).next = some 1000 ∧ 1000 ≤ yard.now
    ∧ (∀ e ∈ (alerted [entry .taken (.key 0) true none]).alt.entries, ¬ (e.acked = false)) := by decide +kernel

/-- Three entries due at the tick, the last with its ALERT pending, and one reported not long ago; 63 reports in the queue. -/
def repeating : Part :=
  let p := alerted [⟨3, .overdue, .rental 60, none, 900, false, some 1000, none⟩, ⟨0, .taken, .key 1, none, 900, false, some 990, none⟩,
    ⟨63, .foreign, .slot 3, some .unreadable, 900, false, some 0, some ⟨false, true, false⟩⟩,
    ⟨5, .lockJam, .slot 2, none, 999, false, some 1001, none⟩]
  { p with link := { p.link with reports := List.replicate 63 ⟨.dueSoon, 255, []⟩ }, tickAlt := [1000] }

/-- Of the two entries due whose ALERT is not pending, one finds room and one waits; with an owner waiting, neither finds room. -/
theorem test_meets_ReAlertsWithoutRoom : repeating.tickAlt = 1000 :: [] ∧ (repeating.alt.entries.map (·.place)).Nodup
    ∧ (repeating.alt.entries.filter (fun e => !e.acked && e.next.any (fun n => decide (n ≤ 1000)) && e.pending.isNone)).length = 2
    ∧ repeating.link.waiters = [] ∧ 64 - repeating.link.reports.length = 1
    ∧ (owing .tfl repeating).part.link.waiters ≠ [] ∧ (owing .tfl repeating).part.tickAlt = 1000 :: [] := by decide +kernel

/-- The yard with its census in a state, a read out, on a module. -/
def counting (st : CenState) (r : Option ReadOut) (pos : Option (Chan × Nat)) : Part := { yard with
  cen := { yard.cen with state := st, cause := some .schedule, scope := some .both, startMin := some 990, pos := pos, read := r } }

def startFrame (b : Byte) : Frame := ask 0x30 [b]

/-- The yard at a tick whose census interval is 30, its next start n. -/
def ticking (p : Part) (n : Option Nat) : Part := { p with
  tickCen := [1000], policy := { p.policy with censusInterval := 30 }, cen := { p.cen with nextStart := n } }

theorem test_meets_CensusStarts : (asks yard (startFrame 2#8)).Asks .censusStart (startFrame 2#8) [] ∧ yard.cen.state = .idle
    ∧ scopeSweep .both = [] ++ (.A, 1) :: (scopeSweep .both).drop 1 ∧ yard.moduleSlots .A 1 ≠ [] ∧ yard.moduleActive .A 1 = true
    ∧ (yard.chan .A).queue.length < 12 ∧ (∀ x ∈ scopeSweep .B, yard.moduleSlots x.1 x.2 = [])
    ∧ (asks yard (startFrame 1#8)).Asks .censusStart (startFrame 1#8) []
    ∧ (asks (counting .aborted (some .sent) none) (startFrame 0#8)).Asks .censusStart (startFrame 0#8) []
    ∧ (counting .aborted (some .sent) none).cen.state ≠ .idle ∧ yard.essRoom = true
    ∧ (ticking yard none).tickCen = 1000 :: [] ∧ (ticking yard none).policy.censusInterval ≠ 0
    ∧ (ticking yard none).cen.nextStart = none ∧ (ticking yard (some 1001)).now < 1001 ∧ 1000 ≤ (ticking yard (some 1000)).now
    ∧ (ticking (counting .sweeping (some .sent) (some (.A, 1))) (some 1000)).cen.state ≠ .idle := by decide +kernel

/-- Two modules on channel A with STANDARD slots, the first SILENT with key 0 in its slot, the second in a state. -/
def passedOver (m : ModState) : Part := { yard with
  slotMap := yard.slotMap ++ [(4, ⟨.A, 2, 0, .standard, 0⟩)]
  chanA := { yard.chanA with modules := [(1, ⟨.silent, 1, none, false, []⟩), (2, ⟨m, 0, none, false, []⟩)] } }

theorem test_meets_CensusPassesModules : scopeSweep .A = [(.A, 1)] ++ (.A, 2) :: (scopeSweep .A).drop 2
    ∧ (passedOver .active).moduleSlots .A 1 = [1, 2] ∧ (passedOver .active).moduleActive .A 1 = false
    ∧ (passedOver .active).moduleSlots .A 2 ≠ [] ∧ (passedOver .active).moduleActive .A 2 = true
    ∧ ((passedOver .active).keyAt 1).map (·.1) = some 0 ∧ (passedOver .active).keyAt 2 = none
    ∧ (∀ x ∈ scopeSweep .both, (passedOver .down).moduleSlots x.1 x.2 = [] ∨ (passedOver .down).moduleActive x.1 x.2 = false)
    ∧ (asks (passedOver .active) (startFrame 0#8)).Asks .censusStart (startFrame 0#8) []
    ∧ (asks (passedOver .down) (startFrame 2#8)).Asks .censusStart (startFrame 2#8) [] ∧ (passedOver .down).cen.state = .idle := by
  decide +kernel

def abortFrame : Frame := ask 0x31 []

/-- The census reading A1, the READ_TAGS in the queue or on the line. -/
def reading (st : CenState) (sent : Bool) : Part :=
  let p := counting st (some (if sent then .sent else .notSent)) (if st = .sweeping then some (.A, 1) else none)
  { p with
    chanA := { p.chanA with
      queue := if sent then [] else [.readTags 1], onLine := if sent then some (.queued (.readTags 1)) else none } }

def reads : List Occ := [.tag 500, .empty, .empty, .empty, .empty, .empty, .empty, .empty]

theorem test_meets_CensusReads : (asks (reading .sweeping false) abortFrame).Asks .censusAbort abortFrame []
    ∧ abortFrame.payload = [9#8] ∧ (reading .sweeping false).cen.state = .sweeping
    ∧ (reading .sweeping false).cen.pos = some (.A, 1) ∧ (reading .sweeping false).cen.read = some .notSent
    ∧ (asks (reading .sweeping true) abortFrame).Asks .censusAbort abortFrame [] ∧ (reading .sweeping true).cen.read = some .sent
    ∧ (asks yard abortFrame).Asks .censusAbort abortFrame [] ∧ yard.cen.state ≠ .sweeping
    ∧ GoodReply good 1 ∧ ¬ GoodReply bad 1 ∧ ((reading .aborted true).chan .A).held = false
    ∧ ((reading .aborted true).chan .A).modState 1 = .active
    ∧ ((reading .aborted true).chan .A).onLine = some (.queued (.readTags 1)) ∧ (reading .aborted true).cen.state = .aborted
    ∧ ((reading .sweeping true).chan .A).onLine = some (.queued (.readTags 1))
    ∧ ((reading .sweeping false).chan .A).choice 5000 = some (.readTags 1) ∧ (reading .sweeping false).cen.deferred = false := by
  decide +kernel

/-- The census sweeping at a module of a channel, B with a module of its own in slot 4, both channels RUNNING; B lost before. -/
def sweepingAt (c : Chan) (sc : Scope) (lost : Bool) : Part := { yard with
  slotMap := yard.slotMap ++ [(4, ⟨.B, 2, 0, .standard, 0⟩)]
  chanB := { Channel.powerOn with
    state := .running, map := [(0, ⟨78, 2⟩)], modules := [(2, ⟨.active, 0, none, false, []⟩)] }
  chanA := { yard.chanA with onLine := some (.queued (.readTags 1)) }
  cen := { yard.cen with
    state := .sweeping, cause := some .schedule, scope := some sc, startMin := some 990, pendB := lost
    pos := some (c, if c = .A then 1 else 2), read := some .sent } }

theorem test_meets_CensusLosesAChannel : ((sweepingAt .A .both false).chan .A).state = .running
    ∧ ((sweepingAt .A .both false).chan .B).state = .running ∧ ((sweepingAt .A .both false).chan .A).pulse = none
    ∧ (.A, 1) ∈ scopeSweep .both ∧ (.A, 1) ∈ scopeSweep .A ∧ (.B, 2) ∈ scopeSweep .both ∧ (.B, 2) ∈ scopeSweep .B
    ∧ (∀ x, x < 2 → (sweepingAt .A .both false).moduleSlots .B x = []) ∧ (sweepingAt .A .both false).moduleSlots .B 2 ≠ []
    ∧ (sweepingAt .A .both false).moduleActive .B 2 = true ∧ (sweepingAt .A .both false).cen.pendB = false
    ∧ (sweepingAt .A .both true).cen.pendB = true ∧ (sweepingAt .A .both true).chanA.onLine = some (.queued (.readTags 1))
    ∧ (∀ x, x < 31 → 1 < x → (sweepingAt .A .both true).moduleSlots .A x = [])
    ∧ ((reading .aborted true).chan .A).onLine = some (.queued (.readTags 1)) ∧ ((reading .aborted true).chan .A).state = .running
    ∧ (reading .aborted true).cen.state = .aborted := by decide +kernel

/-- An end at once, requested and scheduled; with the read not sent, sent and none out; at the last read; by a hang. -/
theorem test_meets_CensusEnds :
    (∀ x ∈ scopeSweep .both, (passedOver .down).moduleSlots x.1 x.2 = [] ∨ (passedOver .down).moduleActive x.1 x.2 = false)
    ∧ ((passedOver .down).censusOver (passedOver .down).cen).essRoom = true
    ∧ (ticking (passedOver .down) (some 1000)).cen.nextStart = some 1000
    ∧ (ticking (passedOver .down) (some 1000)).cen.state = .idle
    ∧ ((reading .sweeping false).censusOver { (reading .sweeping false).cen with
        outcome := some .aborted, counts := ⟨0, 0, 0, 0, 0, 1, 0⟩ }).essRoom = true
    ∧ (counting .sweeping none (some (.A, 1))).cen.read = none ∧ (counting .sweeping none (some (.A, 1))).cen.state = .sweeping
    ∧ scopeSweep .both = [] ++ (.A, 1) :: (scopeSweep .both).drop 1
    ∧ (∀ x ∈ (scopeSweep .both).drop 1, (reading .sweeping true).moduleSlots x.1 x.2 = [])
    ∧ (reading .sweeping true).cen.scope = some .both ∧ ((reading .sweeping true).chan .A).modState 1 = .active
    ∧ ((reading .sweeping true).chan .A).held = false ∧ (reading .sweeping true).cen.outcome = none
    ∧ (reading .sweeping true).ctxs = [] ∧ (reading .sweeping true).link.reports.length < 48
    ∧ ((reading .sweeping true).chan .A).state = .running ∧ ((reading .sweeping true).chan .A).pulse = none := by decide +kernel

/-- CENSUS_DONE of a scheduled census of both channels, ABORTED, with channel B lost. -/
theorem test_census_done : (Cen.doneSpelt { yard.cen with
      cause := some .schedule, scope := some .both, startMin := some 258, endMin := some 65536, outcome := some .aborted
      lostB := true, counts := ⟨1, 2, 3, 256, 5, 6, 7⟩, list := [⟨.missing, 1, some 0, none, none, none⟩] }).payload
    = [1#8, 0#8, 2#8, 0#8, 1#8, 2#8, 1#8, 0#8, 0#8, 1#8, 2#8, 0#8, 1#8, 0#8, 2#8, 0#8, 3#8, 1#8, 0#8, 0#8, 5#8, 0#8, 6#8, 0#8, 7#8,
      0#8, 0#8, 0#8, 1#8, 0#8, 0#8] := by decide +kernel

theorem test_meets_CensusCompares : yard.keyByTag 500 = some (0, ⟨500, 9, 3, some 1, .inn, some 1, some 900, none, none, none⟩)
    ∧ rented.keyByTag 500 = some (0, ⟨500, 9, 3, some 1, .out, none, none, none, some 0, none⟩)
    ∧ yard.keyAt 1 = some (0, ⟨500, 9, 3, some 1, .inn, some 1, some 900, none, none, none⟩)
    ∧ Occ.tag 500 ≠ .empty ∧ Occ.tag 500 ≠ .unread := by decide +kernel

/-- A key found by the census in slot 1, in each state it may have elsewhere; a foreign occupant; nothing read. -/
theorem test_meets_CensusRelocates : (settling (.tag 500) .empty (keyIn .away none)).keyByTag 500 = some (0, keyIn .away none)
    ∧ (settling (.tag 500) .empty (keyIn .misplaced (some 2))).keyByTag 500 = some (0, keyIn .misplaced (some 2))
    ∧ (settling (.tag 500) .empty (keyIn .assigned (some 2))).keyByTag 500 = some (0, keyIn .assigned (some 2))
    ∧ (settling (.tag 500) .empty (keyIn .missing none)).keyByTag 500 = some (0, keyIn .missing none)
    ∧ (settling (.tag 500) .empty (keyIn .dropped none)).keyByTag 500 = some (0, keyIn .dropped none)
    ∧ (keyIn .away none).loc ≠ some 1 ∧ (keyIn .assigned (some 2)).loc ≠ some 1
    ∧ seenElsewhere.keyByTag 500 = some (0, keyIn .releasing (some 2))
    ∧ seenElsewhere.Carries 0 2 { ctxIn .opened none with slot := some 2 } auth70 0 (keyIn .releasing (some 2))
    ∧ (Table.look seenElsewhere.rows 2).isSome ∧ yard.keyByTag 777 = none ∧ rented.keyAt 1 = none := by decide +kernel

/-! ## Hypotheses met: lamps -/

theorem test_meets_LampOfAPosition : ({ yard.lmp with test := some (.red, 9000) } : Lmp).test = some (.red, 9000)
    ∧ yard.lmp.test = none ∧ Table.look yard.lmp.overrides (lampKey .A 1) = none ∧ yard.slotAt .A 1 2 = none
    ∧ yard.slotAt .A 1 7 = some 3 ∧ (yard.slotEntry 3).kind = .drop ∧ yard.slotAt .A 1 0 = some 1
    ∧ (yard.slotEntry 1).kind ≠ .drop ∧ yard.lmp.blank = false ∧ yard.policy.blankUnstaffed = false
    ∧ Table.look yard.rows 1 = some ⟨some (.tag 500), none, some .locked, none, none⟩
    ∧ rented.homeTier 1 = some .overdue := by decide +kernel

/-- A slot that is no key's home, and the home of the one key in OUT, whose rental is OPEN. -/
theorem test_meets_LampOfAHomeSlot : (∀ e ∈ rented.keys, e.2.home ≠ some 2)
    ∧ (∀ e ∈ rented.keys, e.2.state = .out → e.2.home = some 1 → e.1 = 0)
    ∧ (0, ⟨500, 9, 3, some 1, .out, none, none, none, some 0, none⟩) ∈ rented.keys
    ∧ (Table.look rented.rentals 0).map (fun r => (r.snap, r.tier)) = some (none, .overdue) := by decide +kernel

def lampFrame (b : Byte) : Frame := ask 0x38 [b]
def lampReleaseFrame (a : Nat) : Frame := ask 0x39 (beBytes 1 1 ++ beBytes 1 a)
def dark : List Lamp := List.replicate 8 .off

/-- The yard with one LAMP command in the queue or on the line. -/
def lighting (line : Bool) : Part := { yard with
  chanA := { yard.chanA with
    queue := if line then [] else [.lamp 1 dark], onLine := if line then some (.queued (.lamp 1 dark)) else none } }

theorem test_meets_LampCommands : (asks yard (lampFrame 0#8)).Asks .lampControlBlankOn (lampFrame 0#8) []
    ∧ (asks yard (lampFrame 1#8)).Asks .lampControlBlankOff (lampFrame 1#8) []
    ∧ (asks yard (lampFrame 2#8)).Asks .lampControlTest (lampFrame 2#8) []
    ∧ (asks yard (lampReleaseFrame 30)).Asks .lampRelease (lampReleaseFrame 30) [] ∧ yard.essRoom = true
    ∧ ({ yard.lmp with test := some (.green, 5000) } : Lmp).test = some (.green, 5000) ∧ 5000 ≤ yard.mono
    ∧ ((lighting false).chan .A).choice 5000 = some (.lamp 1 dark) ∧ (lighting false).cen.deferred = false
    ∧ ((lighting true).chan .A).onLine = some (.queued (.lamp 1 dark)) ∧ ((lighting true).chan .A).modState 1 = .active
    ∧ GoodReply good 1 := by
  decide +kernel

/-- What A1 of the yard shows: its drop position green. -/
def shown : List Lamp := List.replicate 7 .off ++ [.lit .green .steady]

/-- The yard with a queue on channel A, the Lamp Image of A1, modules touched and modules marked behind. -/
def lamped (queue : List BusCmd) (image : List Lamp) (touched behind : List Nat) : Part := { yard with
  chanA := { yard.chanA with queue := queue }
  lmp := { yard.lmp with images := [(1, image)], touched := touched, behind := behind } }

/-- A LAMP command that is sent with no module marked behind, with one of channel B, and with one of channel A. -/
theorem test_meets_LampIsSent : ((lamped [.lamp 1 dark, .lamp 2 dark] dark [] [31]).chan .A).choice 5000 = some (.lamp 1 dark)
    ∧ (lamped [.lamp 1 dark, .lamp 2 dark] dark [] [31]).lmp.touched = []
    ∧ (∀ d, d < 31 → lampKey .A d ∉ (lamped [.lamp 1 dark, .lamp 2 dark] dark [] [31]).lmp.behind)
    ∧ lampKey .A 30 ∈ (lamped [.lamp 1 dark] dark [] [30]).lmp.behind
    ∧ ((lamped [.lamp 1 dark] dark [] [30]).chan .A).choice 5000 = some (.lamp 1 dark)
    ∧ (lamped [.lamp 1 dark] dark [] [30]).cen.deferred = false := by decide +kernel

/-- A1 served or not, its image known or not, a LAMP command waiting or not, the queue with room or not; touched or not. -/
theorem test_meets_LampsAreWorkedOut : (lamped [] dark [1] []).eightLamps .A 1 = shown ∧ dark ≠ shown
    ∧ (lamped [] dark [1] []).Served .A 1 ∧ (∀ k, k ∈ (lamped [] dark [1] []).lmp.touched ↔ k = lampKey .A 1)
    ∧ Table.look (lamped [] dark [1] []).lmp.images (lampKey .A 1) = some dark ∧ Table.look yard.lmp.images (lampKey .A 1) = none
    ∧ ((lamped [.readTags 1, .lamp 1 dark, .readTags 1] dark [1] []).chan .A).queue
      = [.readTags 1] ++ .lamp 1 dark :: [.readTags 1]
    ∧ (lamped (List.replicate 11 (.readTags 1)) dark [1] []).chanA.queue.length < 12
    ∧ 12 ≤ (lamped (List.replicate 12 (.readTags 1)) dark [1] []).chanA.queue.length
    ∧ Table.look (lamped [.lamp 1 dark] shown [1] []).lmp.images (lampKey .A 1) = some shown
    ∧ ¬ yard.Served .B 30 ∧ lampKey .B 30 ∈ ({ yard.lmp with touched := allModules } : Lmp).touched
    ∧ ((yard.chan .B).queue.filter (BusCmd.isLamp 30)).length ≤ 1
    ∧ (((lighting false).chan .A).queue.filter (BusCmd.isLamp 1)).length ≤ 1
    ∧ lampKey .A 1 ∉ (lamped [.lamp 1 dark] dark [31] [1]).lmp.touched := by
  refine ⟨by decide +kernel, by decide, by decide +kernel, fun k => by simp [lamped, lampKey], ?_⟩
  decide +kernel

/-- A Lamp Image that a removal of key 500 elsewhere, a miss, a found module or a cleared override changes. -/
theorem test_meets_LampsFollowEvents : yard.lmp.touched = [] ∧ yard.lmp.blank = false ∧ yard.policy.blankUnstaffed = false
    ∧ (asks (lighting false) (lampFrame 2#8)).Asks .lampControlTest (lampFrame 2#8) []
    ∧ (asks (lighting false) (lampFrame 0#8)).Asks .lampControlBlankOn (lampFrame 0#8) []
    ∧ (asks { yard with lmp := { yard.lmp with overrides := [(60, dark)] } } (lampReleaseFrame 30)).Asks .lampRelease
      (lampReleaseFrame 30) [] ∧ Table.look [(60, dark)] (lampKey .B 30) = some dark
    ∧ (asks yard (holdFrame 2#8)).Asks .keyHold (holdFrame 2#8) [] ∧ Table.look yard.keys 0
      = some ⟨500, 9, 3, some 1, .inn, some 1, some 900, none, none, none⟩ ∧ yard.slotEntry 1 = ⟨.A, 1, 0, .standard, 0⟩
    ∧ (settling (.tag 500) .empty (keyIn .inn (some 2))).keyByTag 500 = some (0, keyIn .inn (some 2))
    ∧ Table.look (settling (.tag 500) .empty (keyIn .inn (some 2))).rows 1
      = some ⟨some (.tag 500), some ⟨.empty, 999, 5000⟩, some .opened, none, some 7⟩
    ∧ Table.look ((lighting true).chan .A).modules 1 = some ⟨.active, 0, none, false, []⟩
    ∧ ((lighting true).chan .A).onLine = some (.queued (.lamp 1 dark)) ∧ ((lighting true).chan .A).held = false
    ∧ (∀ x, x < 9 → ({ yard with slotMap := [] } : Part).slotAt .A 1 x = none)
    ∧ yard.alt.find .moduleDown (.module .A 1) = none ∧ yard.link.reports.length < 48 ∧ GoodReply good 1 := by decide +kernel

/-- POLICY_SET of zone blanking; TABLE_WRITE of slot 1 with group 15. -/
def blankingFrame (b : Byte) : Frame := ask 0x4A [11#8, b]
def groupFrame : Frame :=
  ask 0x48 (beBytes 1 0 ++ (beBytes 2 1 ++ (beBytes 1 1 ++ (⟨.A, 1, 0, .standard, 15⟩ : SlotEntry).bytes)))

/-- The yard UNSTAFFED, its zone blanking set or not, its blank flag set or not. -/
def unstaffed (zone flag : Bool) : Part := { lighting false with
  zone := .unstaffed, policy := { yard.policy with blankUnstaffed := zone }, lmp := { yard.lmp with blank := flag } }

theorem test_meets_LampsFollowBlankingAndGroups :
    (asks (unstaffed true false) (lampFrame 0#8)).Asks .lampControlBlankOn (lampFrame 0#8) []
    ∧ (unstaffed true false).lmp.blank = false
    ∧ (asks (unstaffed true true) (lampFrame 1#8)).Asks .lampControlBlankOff (lampFrame 1#8) []
    ∧ (asks (unstaffed true true) (blankingFrame 0#8)).Asks .policySet (blankingFrame 0#8) []
    ∧ (asks (unstaffed false true) (blankingFrame 1#8)).Asks .policySet (blankingFrame 1#8) []
    ∧ (blankingFrame 1#8).payload = [9#8, 11#8, 1#8] ∧ (unstaffed true true).zone = .unstaffed
    ∧ (unstaffed true true).policy.blankUnstaffed = !false ∧ (unstaffed true true).lmp.touched = []
    ∧ (asks (lighting false) groupFrame).Asks .tableWrite groupFrame []
    ∧ Table.look yard.slotMap 1 = some ⟨.A, 1, 0, .standard, 0⟩ ∧ Table.rising yard.slotMap = true
    ∧ slotMapOk yard.slotMap = true ∧ yard.essRoom = true := by decide +kernel

/-! ## Hypotheses met: the slot bus -/

def channelFrame (b : Byte) : Frame := ask 0x40 (beBytes 1 0 ++ [b])

/-- The yard with channel A in a state. -/
def inState (st : ChanState) : Part := { yard with chanA := { yard.chanA with state := st, pulse := some 5000 } }

theorem test_meets_ChannelControl : yard.essRoom = true
    ∧ (asks (inState .faulted) (channelFrame 0#8)).Asks .channelControlOn (channelFrame 0#8) []
    ∧ (({ inState .faulted with alt := { yard.alt with entries := [entry .channelFault (.chan .A) true none] } } : Part).remove
      .channelFault (.chan .A)).essRoom = true
    ∧ (asks (inState .recovering) (channelFrame 0#8)).Asks .channelControlOn (channelFrame 0#8) []
    ∧ (asks (inState .off) (channelFrame 1#8)).Asks .channelControlOff (channelFrame 1#8) []
    ∧ (asks yard (channelFrame 1#8)).Asks .channelControlOff (channelFrame 1#8) [] ∧ (yard.chan .A).state = .running
    ∧ Table.rising yard.slotMap = true
    ∧ (asks yard (channelFrame 2#8)).Asks .channelControlReenumerate (channelFrame 2#8) [] ∧ (yard.chan .A).passOn = false
    ∧ (asks (inState .off) (channelFrame 2#8)).Asks .channelControlReenumerate (channelFrame 2#8) [] := by decide +kernel

theorem test_meets_Hangs : ((inState .faulted).chan .A).state = .faulted ∧ (yard.chan .A).state = .running
    ∧ (yard.chan .A).history.length < 3
    ∧ 3 ≤ ([4000, 4500, 4999].filter (fun t => decide (yard.mono < t + 600000))).length ∧ Table.rising yard.slotMap = true
    ∧ 51 > Config.hangTime ∧ 50 ≤ Config.hangTime
    ∧ (({ yard.chanA with held := true } : Channel)).held = true ∧ ((inState (.starting .pulse)).chan .A).held = false
    ∧ ((inState .recovering).chan .A).pulse = some 5000 ∧ 5000 ≤ (inState .recovering).mono
    ∧ ((inState (.starting .pulse)).chan .A).state = .starting .pulse := by decide +kernel

/-- The release of context 0 closing with a result, its rental in place 0. -/
def lostIn (st : CtxState) (res : Option CtxResult) : Part := { releasing st none with
  ctxs := [(0, { ctxIn st res with rental := some 0, held := if st = .donePending then some rep else none })] }

theorem test_meets_HangsOfAContext : ((lostIn .opened none).chan .A).pulse = none ∧ ((lostIn .opened none).chan .A).state = .running
    ∧ (Table.look (lostIn .closing (some .released)).ctxs 0).map (fun x => (x.state, x.slot, x.result, x.rental))
      = some (.closing, some 1, some .released, some 0)
    ∧ (lostIn .opened none).Carries 0 1 { ctxIn .opened none with rental := some 0 } auth70 0 key0
    ∧ 1 ∈ (lostIn .opened none).chanSlots .A
    ∧ (∀ e ∈ (lostIn .donePending (some .released)).ctxs, e.1 = 0) ∧ (∀ w ∈ owed.waitQ, w.ended ≠ none)
    ∧ (lostIn .opened none).link.waiters = [] ∧ (lostIn .opened none).link.reports.length < 64
    ∧ ((inState .running).chan .A).pulse = some 5000 ∧ (inState .running).mono ≤ 5000 + 50
    ∧ (({ yard.chanA with pulse := some 4949 } : Channel).pulse = some 4949) ∧ 4949 + 50 < yard.mono := by decide +kernel

/-- The context in DONE_PENDING, waiting with its report for a full Report Queue. -/
theorem test_meets_HangsOfAContextThatWaits :
    (Table.look (lostIn .donePending (some .released)).ctxs 0).map (fun x => (x.state, x.slot, x.held))
      = some (.donePending, some 1, some rep)
    ∧ ¬ ((Table.look (lostIn .donePending (some .released)).ctxs 0).map (·.state) ≠ some .donePending)
    ∧ (owing (.context 0) (lostIn .donePending (some .released))).part.link.waiters = [.context 0, .rental 9]
    ∧ ((owing (.context 0) (lostIn .donePending (some .released))).part.chan .A).state = .running := by decide +kernel

/-- The yard with channel A in ENUMERATION after n rounds, its module in a state, an ASSIGN on the line or not. -/
def enumerating (n : Nat) (m : ModState) (line : Bool) : Part := { yard with
  chanA := { yard.chanA with
    state := .starting .enumeration, rounds := n, modules := [(1, ⟨m, 0, none, false, []⟩)]
    onLine := if line then some (.assign 77 1) else none } }

theorem test_meets_Enumeration : ((enumerating 0 .absent false).chan .A).state = .starting .enumeration
    ∧ ((enumerating 0 .absent false).chan .A).onLine = none ∧ ((enumerating 0 .absent false).chan .A).held = false
    ∧ GoodReply good 1 ∧ ¬ GoodReply bad 1
    ∧ ((enumerating 0 .absent false).chan .A).map.find? (fun x => x.2.serial == 77) = some (0, ⟨77, 1⟩)
    ∧ ((enumerating 62 .absent false).chan .A).map.find? (fun x => x.2.serial == 78) = none
    ∧ ((enumerating 62 .absent false).chan .A).rounds < 63
    ∧ (∀ e ∈ ((enumerating 1 .active false).chan .A).modules, e.2.state = .active)
    ∧ ((enumerating 1 .active false).chan .A).modState 1 = .active
    ∧ ((enumerating 63 .absent true).chan .A).onLine = some (.assign 77 1)
    ∧ ((enumerating 63 .absent true).chan .A).rounds < 64
    ∧ Table.look ((enumerating 63 .absent true).chan .A).modules 1 = some ⟨.absent, 0, none, false, []⟩ := by decide +kernel

/-- Channel A in ENUMERATION or in an identification pass, with no context and no census at it. -/
theorem test_meets_EnumerationEnds : (enumerating 0 .absent false).StartsAlone .A ∧ (enumerating 63 .absent false).StartsAlone .A
    ∧ (enumerating 64 .absent true).StartsAlone .A
    ∧ (enumerating 0 .absent false).absent .A = [1] ∧ (enumerating 0 .absent false).absentSlots .A = [1, 2]
    ∧ ((enumerating 63 .absent false).chan .A).map.find? (fun x => x.2.serial == 78) = none
    ∧ 63 ≤ ((enumerating 63 .absent false).chan .A).rounds ∧ ((enumerating 63 .absent false).chan .A).onLine = none
    ∧ 64 ≤ ((enumerating 64 .absent true).chan .A).rounds ∧ ((enumerating 64 .absent true).chan .A).held = false
    ∧ ((enumerating 64 .absent true).chan .A).onLine = some (.assign 77 1)
    ∧ ((enumerating 64 .absent true).chan .A).modState 1 = .absent := by
  refine ⟨⟨by decide +kernel, by decide +kernel, by decide +kernel, by decide +kernel, nofun⟩,
    ⟨by decide +kernel, by decide +kernel, by decide +kernel, by decide +kernel, nofun⟩,
    ⟨by decide +kernel, by decide +kernel, by decide +kernel, by decide +kernel, nofun⟩, ?_⟩
  decide +kernel

/-- The ASSIGN of the 64th round, in STARTING, is answered by an ABSENT module, and no other is left ABSENT. -/
theorem test_meets_EnumerationEndsAtAnAnswer :
    (((({ enumerating 64 .absent true with lmp := { yard.lmp with images := Table.del yard.lmp.images (lampKey .A 1) } } :
      Part).onChan .A (fun ch => { ch with
        onLine := none, modules := Table.modify ch.modules 1 (fun m => { m with state := .active, misses := 0, reprobe := none })
        })).remove .moduleDown (.module .A 1)).offerOrd
          ⟨.moduleEvent, 255, beBytes 1 0 ++ beBytes 1 1 ++ [1#8]⟩).StartsAlone .A :=
  ⟨by decide +kernel, by decide +kernel, by decide +kernel, by decide +kernel, nofun⟩

/-- The yard with an identification pass due at a time or in progress, its rounds, a queue, and what is on the line. -/
def identifying (due : Option Nat) (on : Bool) (n : Nat) (queue : List BusCmd) (line : Option LineCmd) : Part := { yard with
  chanA := { yard.chanA with nextIdent := due, passOn := on, rounds := n, queue := queue, onLine := line } }

theorem test_meets_IdentificationPass : ((identifying (some 5000) false 9 [.lamp 1 dark] none).chan .A).nextIdent = some 5000
    ∧ 5000 ≤ (identifying (some 5000) false 9 [.lamp 1 dark] none).mono
    ∧ (∀ b ∈ ((identifying (some 5000) false 9 [.lamp 1 dark] none).chan .A).queue, b.isLock = false)
    ∧ ((identifying none true 62 [] none).chan .A).passOn = true ∧ ((identifying none true 63 [] none).chan .A).state = .running
    ∧ ((identifying none true 63 [] none).chan .A).map.find? (fun x => x.2.serial == 77) = some (0, ⟨77, 1⟩)
    ∧ ((identifying none true 63 [] none).chan .A).map.find? (fun x => x.2.serial == 78) = none
    ∧ ((identifying (some 5001) false 0 [] none).chan .A).passOn = false ∧ (identifying (some 5001) false 0 [] none).mono < 5001
    ∧ BusCmd.isLock (.lockClose 1 0 .own) = true
    ∧ ((identifying none true 64 [] (some (.assign 77 1))).chan .A).onLine = some (.assign 77 1)
    ∧ 64 ≤ ((identifying none true 64 [] (some (.assign 77 1))).chan .A).rounds
    ∧ ((identifying none true 64 [] (some (.assign 77 1))).chan .A).held = false := by decide +kernel

/-- One STANDARD slot at A1 position 0, its row settling or not, the POLL on the line, the module in a state. -/
def polled (st : Option Settle) (m : ModState) (misses : Nat) : Part := { yard with
  slotMap := [(1, ⟨.A, 1, 0, .standard, 0⟩)]
  rows := [(1, ⟨some (.tag 500), st, some .locked, none, none⟩)]
  chanA := { yard.chanA with onLine := some (.poll 1 false), modules := [(1, ⟨m, misses, none, false, []⟩)] } }

theorem test_meets_Polls : (yard.chan .A).pollTurn yard.mono = true ∧ (yard.chan .A).nextPoll yard.mono = some (1, false)
    ∧ ((polled none .active 0).chan .A).onLine = some (.poll 1 false) ∧ ((polled none .active 0).chan .A).state = .running
    ∧ ((polled none .active 0).chan .A).modState 1 = .active
    ∧ ([⟨.empty, .locked, none⟩] : List PosReport)[0]? = some ⟨.empty, .locked, none⟩
    ∧ (polled none .active 0).slotAt .A 1 0 = some 1 ∧ (∀ x, x < 8 → x ≠ 0 → (polled none .active 0).slotAt .A 1 x = none)
    ∧ ((polled none .active 0).slotEntry 1).kind = .standard
    ∧ Table.look (polled (some ⟨.empty, 999, 5200⟩) .active 0).rows 1
      = some ⟨some (.tag 500), some ⟨.empty, 999, 5200⟩, some .locked, none, none⟩
    ∧ Table.look ((polled none .silent 6).chan .A).modules 1 = some ⟨.silent, 6, none, false, []⟩
    ∧ Table.look ((polled none .silent 5).chan .A).modules 1 = some ⟨.silent, 5, none, false, []⟩
    ∧ Table.look ((polled none .down 0).chan .A).modules 1 = some ⟨.down, 0, none, false, []⟩ := by decide +kernel

/-- A row of a module in a state that is UNKNOWN, a command on the line of its channel, which is in a state; key 0 as given. -/
def unseen (st : ChanState) (m : ModState) (line : LineCmd) (k : KeyRec) : Part := { yard with
  slotMap := [(1, ⟨.A, 1, 0, .standard, 0⟩)], rows := [(1, SlotRow.fresh)], keys := [(0, k)]
  chanA := { yard.chanA with
    state := st, onLine := some line, lastPolled := 1, modules := [(1, ⟨m, 0, some 15000, false, []⟩)] } }

theorem test_meets_Sightings : ([⟨.empty, .locked, none⟩] : List PosReport)[0]? = some ⟨.empty, .locked, none⟩
    ∧ ([⟨.tag 500, .locked, none⟩] : List PosReport)[0]? = some ⟨.tag 500, .locked, none⟩
    ∧ (unseen .running .absent (.assign 77 1) (keyIn .away none)).keyAt 1 = none
    ∧ (unseen .running .absent (.assign 77 1) (keyIn .inn (some 1))).keyAt 1 = some (0, keyIn .inn (some 1))
    ∧ (unseen .running .down (.assign 77 1) (keyIn .inn (some 1))).keyByTag 500 = some (0, keyIn .inn (some 1))
    ∧ ((unseen .running .down (.assign 77 1) (keyIn .away none)).chan .A).modState 1 = .down
    ∧ (unseen .running .down (.assign 77 1) (keyIn .away none)).alt.find .moduleDown (.module .A 1) = none
    ∧ ((unseen (.starting .firstPoll) .active (.poll 1 false) (keyIn .away none)).chan .A).kept = []
    ∧ (∀ x, x ≤ 30 → 1 < x → ((unseen (.starting .firstPoll) .active (.poll 1 false) (keyIn .away none)).chan .A).modState x ≠ .active)
    ∧ ((unseen .running .down (.poll 1 true) (keyIn .away none)).chan .A).onLine = some (.poll 1 true)
    ∧ ((unseen .running .silent (.poll 1 true) (keyIn .away none)).chan .A).modState 1 = .silent
    ∧ Table.look (unseen .running .down (.poll 1 true) (keyIn .away none)).rows 1 = some ⟨none, none, none, none, none⟩ := by
  decide +kernel

/-- A module SILENT, at its seventh miss, a release standing on its slot. -/
def missing (st : CtxState) (res : Option CtxResult) : Part :=
  let p := lostIn st res
  { p with chanA := { p.chanA with onLine := some (.poll 1 false), modules := [(1, ⟨.silent, 6, none, false, []⟩)] } }

theorem test_meets_PollsOfAContext : Table.look (reporting .opening (.tag 500) none .locked).rows 1
      = some ⟨some (.tag 500), none, some .locked, some 0, none⟩
    ∧ Table.look (reporting .opening (.tag 500) none .locked).ctxs 0 = some (ctxIn .opening none)
    ∧ Table.look (reporting .removedSettling (.tag 500) (some ⟨.empty, 999, 5200⟩) .locked).rows 1
      = some ⟨some (.tag 500), some ⟨.empty, 999, 5200⟩, some .locked, some 0, none⟩
    ∧ (ctxIn .removedSettling none).window = some 5000
    ∧ (reporting .removedSettling (.tag 500) (some ⟨.empty, 999, 5200⟩) .locked).Carries 0 1 (ctxIn .removedSettling none) auth70 0 key0
    ∧ ({ reporting .removedSettling (.tag 500) (some ⟨.empty, 999, 5200⟩) .locked with mono := 4999 } : Part).mono < 5000
    ∧ Table.look ((missing .opened none).chan .A).modules 1 = some ⟨.silent, 6, none, false, []⟩
    ∧ 1 ∈ (missing .opened none).moduleSlots .A 1 ∧ ((missing .opened none).chan .A).held = false := by decide +kernel

/-- The yard with a module that is ACTIVE, and one that is DOWN and due to be probed. -/
def probing : Part := { yard with
  chanA := { yard.chanA with modules := [(1, ⟨.active, 0, none, true, []⟩), (2, ⟨.down, 7, some 5000, true, []⟩)] } }

/-- One position of A1 in the Slot Map, a STANDARD slot with row r, key 0 as given; the POLL on the line. -/
def watching (r : SlotRow) (k : KeyRec) (own : Table Nat) : Part := { yard with
  slotMap := [(1, ⟨.A, 1, 0, .standard, 0⟩)], rows := [(1, r)], keys := [(0, k)]
  chanA := { yard.chanA with onLine := some (.poll 1 false), modules := [(1, ⟨.active, 0, none, false, own⟩)] } }

theorem test_meets_PollsOfAStandardSlot : (probing.chan .A).pollTurn 5000 = true ∧ (probing.chan .A).nextPoll 5000 = some (2, true)
    ∧ GoodReply good 1 ∧ ¬ GoodReply bad 1
    ∧ ((locking .opening none (.lockOpen 1 0 0) none).chan .A).onLine = some (.queued (.lockOpen 1 0 0)) ∧ BusCmd.addr (.lockOpen 1 0 0) = 1
    ∧ (watching ⟨some .empty, none, some .opened, none, none⟩ (keyIn .away none) []).slotEntry 1 = ⟨.A, 1, 0, .standard, 0⟩
    ∧ ((watching ⟨some .empty, none, some .opened, none, none⟩ (keyIn .away none) []).chan .A).modState 1 = .active
    ∧ (watching ⟨some .empty, none, some .opened, none, none⟩ (keyIn .away none) []).slotAt .A 1 0 = some 1
    ∧ ((watching ⟨some .empty, none, some .locked, none, none⟩ (keyIn .away none) [(0, 3000)]).chan .A).queue.length < 12
    ∧ (Table.look ((watching ⟨some .empty, none, some .locked, none, none⟩ (keyIn .away none) [(0, 3000)]).chan .A).modules 1).map
      (fun m => Table.look m.ownClose 0) = some (some 3000) ∧ 3000 + 2000 ≤ yard.mono ∧ yard.mono < 3001 + 2000
    ∧ (watching SlotRow.fresh (keyIn .away none) []).keyAt 1 = none
    ∧ (watching SlotRow.fresh (keyIn .inn (some 1)) []).keyAt 1 = some (0, keyIn .inn (some 1))
    ∧ (watching SlotRow.fresh (keyIn .inn (some 1)) []).keyByTag 500 = some (0, keyIn .inn (some 1))
    ∧ (watching ⟨none, none, some .opened, none, none⟩ (keyIn .inn (some 1)) []).keyAt 1 = some (0, keyIn .inn (some 1))
    ∧ (watching SlotRow.fresh { keyIn .out none with rental := some 0 } []).keyByTag 500
      = some (0, { keyIn .out none with rental := some 0 })
    ∧ Table.look rented.rentals 0 = some ⟨60, 0, 500, 900, 29, .overdue, 0, .counter, none⟩ := by decide +kernel

/-- The drop position of A1 alone in the Slot Map, the filter of its slot, key 0 as given, n keys in the Drop Bin list. -/
def dropping (live : List (Nat × Nat)) (k : KeyRec) (n : Nat) : Part := { yard with
  slotMap := [(3, ⟨.A, 1, 7, .drop, 0⟩)], filters := [(3, live)], keys := [(0, k)], dropBin := List.replicate n ⟨9, 3, 5⟩
  chanA := { yard.chanA with onLine := some (.poll 1 false) } }

def chuteRead : List PosReport := List.replicate 7 ⟨.empty, .locked, none⟩ ++ [⟨.empty, .locked, some 500⟩]

/-- A filter with eight live entries, the earliest the third. -/
def eight : List (Nat × Nat) := [(1, 4000), (2, 3000), (3, 2500), (4, 2500), (5, 4000), (6, 4100), (7, 4200), (8, 4300)]

theorem test_meets_PollsOfADropPosition : chuteRead[7]? = some ⟨.empty, .locked, some 500⟩
    ∧ (dropping [] (keyIn .away none) 94).slotAt .A 1 7 = some 3 ∧ ((dropping [] (keyIn .away none) 94).slotEntry 3).kind = .drop
    ∧ (∃ e ∈ (([(500, 4000)] : List (Nat × Nat)).filter (fun e => decide (5000 < e.2 + 10000))), e.1 = 500)
    ∧ eight.filter (fun e => decide (5000 < e.2 + 10000)) = [(1, 4000), (2, 3000)] ++ (3, 2500) :: eight.drop 3 ∧ eight.length = 8
    ∧ (∀ e ∈ eight.take 2, 2500 < e.2) ∧ (∀ e ∈ eight.drop 3, 2500 ≤ e.2) ∧ (∀ e ∈ eight, e.1 ≠ 500)
    ∧ (dropping [] { keyIn .away none with tag := 501 } 0).keyByTag 500 = none
    ∧ (dropping [] (keyIn .away none) 94).keyByTag 500 = some (0, keyIn .away none)
    ∧ (dropping [] (keyIn .inn (some 1)) 95).dropBin.length = 95 ∧ 96 ≤ (dropping [] (keyIn .misplaced (some 1)) 96).dropBin.length
    ∧ (({ dropping [] (keyIn .dropped none) 96 with filters := [] } : Part).raise .dropFull (.slot 3) none).link.reports.length < 48
    ∧ (dropping [] (keyIn .dropped none) 95).keyByTag 500 = some (0, keyIn .dropped none)
    ∧ (dropping [] (keyIn .dropped none) 95).dropBin.length < 96 ∧ 96 ≤ (dropping [] (keyIn .dropped none) 96).dropBin.length
    ∧ (dropping [] { keyIn .out none with rental := some 0 } 94).keyByTag 500 = some (0, { keyIn .out none with rental := some 0 })
    ∧ Table.look rented.rentals 0 = some ⟨60, 0, 500, 900, 29, .overdue, 0, .counter, none⟩ := by decide +kernel

/-- The yard with one command in channel A's queue, before another. -/
def sending (b : BusCmd) : Part := { yard with
  ctxs := [(0, ctxIn .opening none)]
  tfl := { yard.tfl with tracking := [(0, ⟨.queued, 1, 9, .A, 1, .query, 5000⟩)] }
  chanA := { yard.chanA with queue := [.readTags 1, b] } }

theorem test_meets_Arbiter : ((sending (.lockOpen 1 0 0)).chan .A).choice 5000 = some (.lockOpen 1 0 0)
    ∧ ((sending (.lockClose 1 0 (.ctx 0))).chan .A).choice 5000 = some (.lockClose 1 0 (.ctx 0))
    ∧ ((sending (.lockClose 1 0 .own)).chan .A).choice 5000 = some (.lockClose 1 0 .own)
    ∧ ((sending (.passed 1 .query [1#8] 0)).chan .A).choice 5000 = some (.passed 1 .query [1#8] 0)
    ∧ ((sending (.passed 1 .lampRaw (List.replicate 8 0#8) 0)).chan .A).choice 5000
      = some (.passed 1 .lampRaw (List.replicate 8 0#8) 0)
    ∧ (List.replicate 8 0#8).map lampOfByte = dark.map some
    ∧ (Table.look (sending (.lockOpen 1 0 0)).tfl.tracking 0).map (·.state) = some .queued
    ∧ BusCmd.lockOpen 1 0 0 ∈ ((sending (.lockOpen 1 0 0)).chan .A).queue ∧ BusCmd.isLock (.lockOpen 1 0 0) = true
    ∧ ((sending (.lamp 1 dark)).chan .A).passDue 5000 = false ∧ ((sending (.lamp 1 dark)).chan .A).onLine = none
    ∧ ((sending (.lamp 1 dark)).chan .A).held = false ∧ ((sending (.lamp 1 dark)).chan .A).state = .running
    ∧ (sending (.lockOpen 1 0 0)).cen.deferred = false := by decide +kernel

/-- The module table of a channel, the module last polled. -/
def polling (st : ChanState) (last : Nat) (ms : List (Nat × ModState × Option Nat)) : Channel := { yard.chanA with
  state := st, lastPolled := last, modules := ms.map (fun e => (e.1, ⟨e.2.1, 0, e.2.2, false, []⟩)) }

/-- Modules 1 and 30 served, 2 DOWN and its re-probe due at 5000, 7 DOWN and due later. -/
def line : List (Nat × ModState × Option Nat) :=
  [(1, .active, none), (2, .down, some 5000), (7, .down, some 5001), (30, .silent, none)]

theorem test_meets_ArbiterPolls : ((sending (.lockClose 1 0 .left)).chan .A).choice 5000 = some (.lockClose 1 0 .left)
    ∧ (polling .running 1 line).state = .running ∧ (polling .running 1 line).pollTurn 5000 = true
    ∧ Table.look (polling .running 1 line).modules 2 = some ⟨.down, 0, some 5000, false, []⟩
    ∧ (∀ b, b < 31 → 0 < b → b < 2 → ∀ m ∈ Table.look (polling .running 1 line).modules b, m.reprobe = none)
    ∧ (∀ e ∈ (polling .running 1 line).modules, ∀ t ∈ e.2.reprobe, 4999 < t)
    ∧ Table.look (polling .running 30 line).modules 30 = some ⟨.silent, 0, none, false, []⟩
    ∧ (∀ e ∈ (polling .running 30 line).modules, e.1 ≤ 30)
    ∧ (polling .running 0 [(7, .down, none)]).nextPoll 5000 = none
    ∧ (polling (.starting .firstPoll) 0 line).pollTurn 5000 = true ∧ (polling (.starting .firstPoll) 1 line).nextPoll 5000 = none
    ∧ (polling .recovering 0 line).state ≠ .running ∧ (polling .recovering 0 line).state ≠ .starting .firstPoll
    ∧ ({ polling .running 1 line with nextIdent := some 5001 } : Channel).pollTurn 5000 = true := by decide +kernel

/-- A freed context leaves its LOCK_CLOSE in the queue, and the sending of it opens no context of its number to lock states. -/
theorem test_left_close : (((closeWaiting owed).freeCtx 0).chan .A).queue = [.lockClose 2 0 (.ctx 1), .lockClose 1 0 .left]
    ∧ (({ sending (.lockClose 1 0 .left) with ctxs := [(0, { ctxIn .opening none with lockSent := false })] } : Part).sendLockClose
      .A).ctxs = [(0, { ctxIn .opening none with lockSent := false })] := by decide +kernel

/-- A lock command before n others in channel A's queue, A1 marked behind, the READ_TAGS of the census deferred or not. -/
def deferring (n : Nat) (read : Bool) (image : List Lamp) : Part := { lamped [] image [] [1] with
  ctxs := [(0, ctxIn .opening none)]
  cen := { yard.cen with state := .sweeping, pos := some (.A, 1), read := some .notSent, deferred := read }
  chanA := { yard.chanA with queue := .lockOpen 1 0 0 :: List.replicate n (.passed 1 .query [1#8] 0) } }

theorem test_meets_DeferredOffers : (deferring 11 true dark).cen.deferred = true
    ∧ (deferring 11 true dark).cen.pos = some (.A, 1)
    ∧ ((deferring 11 true dark).chan .A).choice 5000 = some (.lockOpen 1 0 0)
    ∧ (((deferring 11 true dark).chan .A).queue.erase (.lockOpen 1 0 0)).length = 11
    ∧ (((deferring 10 true dark).chan .A).queue.erase (.lockOpen 1 0 0)).length < 11
    ∧ 12 ≤ (((deferring 12 true dark).chan .A).queue.erase (.lockOpen 1 0 0)).length
    ∧ (deferring 11 false dark).cen.deferred = false ∧ (deferring 11 true dark).lmp.touched = []
    ∧ (deferring 11 true dark).lmp.behind = [lampKey .A 1] ∧ (deferring 11 true dark).Served .A 1
    ∧ (deferring 11 true dark).eightLamps .A 1 = shown
    ∧ Table.look (deferring 11 true dark).lmp.images (lampKey .A 1) = some dark
    ∧ Table.look (deferring 11 true shown).lmp.images (lampKey .A 1) = some shown
    ∧ BusCmd.isLock (.lockOpen 1 0 0) = true := by decide +kernel

/-- The same offers behind a frame that is no raw lamp frame. -/
theorem test_meets_DeferredOffersBehindAFrame :
    (({ deferring 11 true dark with chanA := { yard.chanA with queue := [.passed 1 .query [1#8] 0, .lamp 2 dark] } } : Part).chan
      .A).choice 5000 = some (.passed 1 .query [1#8] 0)
    ∧ ∀ x y z, BusCmd.passed 1 .query [1#8] 0 ≠ .passed x .lampRaw y z := by
  refine ⟨by decide +kernel, fun x y z h => ?_⟩
  injection h with _ h
  exact absurd h (by decide)

theorem test_meets_DeferredOffersAlone (ls : List Lamp) : BusCmd.lamp 1 ls ∉ ((deferring 11 true dark).chan .A).queue := by
  simp [deferring, Part.chan]

/-! ## Hypotheses met: tables, policy and restart -/

def readFrame (t i n : Nat) : Frame := ask 0x49 (beBytes 1 t ++ (beBytes 2 i ++ beBytes 1 n))
def writeFrame (t i : Nat) (e : List Byte) : Frame := ask 0x48 (beBytes 1 t ++ (beBytes 2 i ++ (beBytes 1 1 ++ e)))

theorem test_meets_TableRead : (asks yard (readFrame 0 435 46)).Asks .tableRead (readFrame 0 435 46) []
    ∧ (asks yard (readFrame 7 0 1)).Asks .tableRead (readFrame 7 0 1) []
    ∧ (readFrame 0 435 46).payload = 9#8 :: (beBytes 1 0 ++ (beBytes 2 435 ++ beBytes 1 46))
    ∧ (1 ≤ 46 ∧ 46 ≤ 46 ∧ 1 ≤ 435 ∧ 435 + 46 ≤ 1 + 480) ∧ ¬ (1 ≤ 1 ∧ 1 ≤ 30 ∧ 0 ≤ 30 ∧ 30 + 1 ≤ 0 + 30) ∧ yard.essRoom = true := by
  decide +kernel

/-- Of each table, at the last place of its range; a map on a channel that is OFF and one that is not. -/
theorem test_meets_TableWrite :
    (asks yard (writeFrame 4 15 (GroupEntry.bytes GroupEntry.powerOn))).Asks .tableWrite
      (writeFrame 4 15 (GroupEntry.bytes GroupEntry.powerOn)) []
    ∧ (asks yard (writeFrame 3 62 (Terminal.bytes ⟨.counter, true, false⟩))).Asks .tableWrite
      (writeFrame 3 62 (Terminal.bytes ⟨.counter, true, false⟩)) []
    ∧ (∃ x ∈ Table.put yard.tfl.terminals 62 ⟨.counter, true, false⟩, x.2.role = .office ∧ x.2.load = true)
    ∧ (∀ x ∈ Table.put yard.tfl.terminals 1 ⟨.counter, true, false⟩, x.2.role = .office → x.2.load = false)
    ∧ (asks yard (writeFrame 2 29 (mapEntryBytes (some ⟨4294967295, 30⟩)))).Asks .tableWrite
      (writeFrame 2 29 (mapEntryBytes (some ⟨4294967295, 30⟩))) []
    ∧ (yard.chan .B).map = [] ∧ (yard.chan .B).state = .off
    ∧ (asks { yard with chanB := { yard.chanB with state := .faulted } } (writeFrame 2 29 (mapEntryBytes (some ⟨5, 30⟩)))).Asks
      .tableWrite (writeFrame 2 29 (mapEntryBytes (some ⟨5, 30⟩))) []
    ∧ (asks yard (writeFrame 0 1 (SlotEntry.bytes ⟨.A, 1, 0, .standard, 15⟩))).Asks .tableWrite
      (writeFrame 0 1 (SlotEntry.bytes ⟨.A, 1, 0, .standard, 15⟩)) []
    ∧ Table.look yard.slotMap 1 = some ⟨.A, 1, 0, .standard, 0⟩ ∧ Table.rising yard.slotMap = true
    ∧ slotMapOk yard.slotMap = true ∧ yard.essRoom = true := by decide +kernel

/-- Channel A OFF and empty of keys, a filter on its drop position. -/
def resting : Part := { yard with chanA := { yard.chanA with state := .off }, keys := [], filters := [(3, [(1, 1)])] }

def night : List (Nat × ZonePoint) := [(0, ⟨0, .unstaffed⟩), (3, ⟨600, .staffed⟩)]

/-- A Slot Map entry that changes kind or place: on running and on resting channels, into a full position and a free one. -/
theorem test_meets_TableWriteOfASlot :
    (asks resting (writeFrame 0 480 (SlotEntry.bytes ⟨.B, 30, 7, .drop, 15⟩))).Asks .tableWrite
      (writeFrame 0 480 (SlotEntry.bytes ⟨.B, 30, 7, .drop, 15⟩)) []
    ∧ (let live := ((Table.put resting.slotMap 480 ⟨.B, 30, 7, .drop, 15⟩).map (·.2)).filter (fun x => x.kind != .disabled)
       (live.filter (fun x => x.kind == .drop)).length ≤ 2 ∧ (live.map (fun x => (x.chan, x.addr, x.pos))).Nodup)
    ∧ (let live := ((Table.put resting.slotMap 4 ⟨.A, 1, 1, .drop, 3⟩).map (·.2)).filter (fun x => x.kind != .disabled)
       ¬ (live.map (fun x => (x.chan, x.addr, x.pos))).Nodup)
    ∧ { resting.slotEntry 480 with group := 15 } ≠ (⟨.B, 30, 7, .drop, 15⟩ : SlotEntry)
    ∧ (resting.chan .A).state = .off ∧ (resting.chan .B).state = .off ∧ resting.keyAt 480 = none ∧ resting.alt.entries = []
    ∧ (yard.chan .A).state ≠ .off ∧ resting.essRoom = true := by decide +kernel

theorem test_meets_TableWriteOfAZone :
    (asks yard (writeFrame 5 7 (pointBytes (some ⟨1439, .unstaffed⟩)))).Asks .tableWrite
      (writeFrame 5 7 (pointBytes (some ⟨1439, .unstaffed⟩))) []
    ∧ ((Table.put yard.schedule 7 ⟨1439, .unstaffed⟩).map (·.2.minuteOfDay)).Nodup
    ∧ ({ yard with schedule := Table.put yard.schedule 7 ⟨1439, .staffed⟩ } : Part).zoneEval = yard.zone
    ∧ ({ yard with schedule := Table.put yard.schedule 7 ⟨1439, .unstaffed⟩ } : Part).zoneEval ≠ yard.zone
    ∧ ¬ ((Table.put night 7 ⟨600, .unstaffed⟩).map (·.2.minuteOfDay)).Nodup
    ∧ (∀ x, (none : Option ZonePoint) = some x → x.minuteOfDay ≤ 1439)
    ∧ (night.map (·.2.minuteOfDay)).Nodup ∧ (∀ y ∈ night, y.2.minuteOfDay ≤ 599 → y.2.minuteOfDay ≤ 0)
    ∧ (∀ y ∈ night.drop 1, 599 < y.2.minuteOfDay) ∧ yard.clock.set = true := by
  refine ⟨by decide +kernel, by decide +kernel, by decide +kernel, by decide +kernel, by decide +kernel, nofun, by decide +kernel,
    by decide +kernel, by decide +kernel, rfl⟩

theorem test_meets_TableWriteOfAPass :
    (asks yard (writeFrame 6 15 (passBytes (some ⟨some .kiosk, some .lampRaw, .pass⟩)))).Asks .tableWrite
      (writeFrame 6 15 (passBytes (some ⟨some .kiosk, some .lampRaw, .pass⟩))) []
    ∧ (asks yard (writeFrame 6 0 (passBytes none))).Asks .tableWrite (writeFrame 6 0 (passBytes none)) []
    ∧ (asks yard (writeFrame 6 1 [1#8, 255#8, 0x44#8, 0#8])).Asks .tableWrite (writeFrame 6 1 [1#8, 255#8, 0x44#8, 0#8]) [] := by
  decide +kernel

def policyFrame (f v : Nat) : Frame := ask 0x4A (beBytes 1 f ++ policyBytes f v)

theorem test_meets_PolicySet : (asks yard (policyFrame 7 65535)).Asks .policySet (policyFrame 7 65535) []
    ∧ (asks yard (policyFrame 9 255)).Asks .policySet (policyFrame 9 255) []
    ∧ (policyFrame 7 65535).payload = 9#8 :: (beBytes 1 7 ++ policyBytes 7 65535) := by decide +kernel

/-- A part with policy values of its own for the re-alert and census intervals, its census started at a minute or never. -/
def ruled (p : Part) (alert census : Nat) (start : Option Nat) : Part := { p with
  policy := { p.policy with reAlert := alert, censusInterval := census }, cen := { p.cen with startMin := start } }

/-- A changed due-soon window or escalation delay that changes the tier of a rental and one that does not; a re-alert interval and
a census interval set, cleared and changed; a value equal to the one in force. -/
theorem test_meets_PolicyActs : (tiered .dueSoon 1060).due = [0] ∧ tierOf 0 240 1060 29 1000 = .onTime
    ∧ tierOf 60 240 1060 29 1000 = .dueSoon ∧ tierOf 61 240 1061 29 1000 = .dueSoon ∧ tierOf 60 30 941 29 1000 = .escalated
    ∧ tierOf 60 240 941 29 1000 = .overdue ∧ (tiered .dueSoon 1060).now = 1000
    ∧ (asks (tiered .dueSoon 1060) (policyFrame 3 0)).Asks .policySet (policyFrame 3 0) []
    ∧ (asks (tiered .overdue 941) (policyFrame 4 0)).Asks .policySet (policyFrame 4 0) []
    ∧ policyClamp 3 0 ≠ yard.policy.get 3 ∧ policyClamp 4 0 = 30 ∧ 30 ≠ yard.policy.get 4 ∧ policyClamp 3 60 = yard.policy.get 3
    ∧ (((tiered .overdue 941).replaceAlert .overdue .escalated (.rental 60)).essRoom = true)
    ∧ (asks (ruled yard 60 0 none) (policyFrame 5 0)).Asks .policySet (policyFrame 5 0) []
    ∧ (asks (ruled yard 0 0 none) (policyFrame 5 1)).Asks .policySet (policyFrame 5 1) []
    ∧ policyClamp 5 0 = 0 ∧ policyClamp 5 1 = 15 ∧ (ruled yard 60 0 none).policy.get 5 = 60 ∧ (ruled yard 0 0 none).policy.get 5 = 0
    ∧ (asks (ruled yard 60 30 (some 990)) (policyFrame 10 0)).Asks .policySet (policyFrame 10 0) []
    ∧ (asks (ruled yard 60 30 (some 990)) (policyFrame 10 1440)).Asks .policySet (policyFrame 10 1440) []
    ∧ policyClamp 10 0 = 0 ∧ policyClamp 10 1440 = 1440 ∧ (ruled yard 60 30 (some 990)).policy.get 10 = 30
    ∧ (ruled yard 60 30 none).cen.startMin = none ∧ yard.clock.set = true ∧ yard.essRoom = true
    ∧ (asks yard (policyFrame 11 1)).Asks .policySet (policyFrame 11 1) [] ∧ policyClamp 11 1 ≠ yard.policy.get 11 := by
  decide +kernel

/-- R194: brought to the nearest value, the larger when two are as near. -/
theorem test_policyClamp : policyClamp 7 150 = 200 ∧ policyClamp 7 149 = 100 ∧ policyClamp 7 2001 = 2000 ∧ policyClamp 9 15 = 20
    ∧ policyClamp 9 14 = 10 ∧ policyClamp 9 120 = 160 ∧ policyClamp 9 1 = 10 ∧ policyClamp 9 255 = 160 := by decide

def restartFrame (b : Byte) : Frame := ask 0x4D [b]

theorem test_meets_Restarts : (asks (releasing .opened none) (restartFrame 1#8)).Asks .restartAll (restartFrame 1#8) []
    ∧ (asks yard (restartFrame 0#8)).Asks .restartLogic (restartFrame 0#8) [] ∧ (restartFrame 1#8).payload = [9#8, 1#8]
    ∧ (restartFrame 0#8).payload = [9#8, 0#8] ∧ yard.ctxs = [] ∧ yard.waitQ = [] ∧ (yard.chan .A).state ≠ .off
    ∧ (∀ o ∈ ({ yard.lmp with overrides := [(1, dark), (60, dark)] } : Lmp).overrides, o.1 ∈ allModules)
    ∧ (yard.chan .B).state = .off := by decide +kernel

/-- Key 0 barred at its slot 1 by nothing, a settle, its module or the group of its slot. -/
def barred (settle : Option Settle) (m : ModState) (g : GroupEntry) : Part := { yard with
  rows := [(1, ⟨some (.tag 500), settle, some .locked, none, none⟩)], groups := [(0, g)]
  chanA := { yard.chanA with modules := [(1, ⟨m, 0, none, false, []⟩)] } }

def noGroup : GroupEntry := ⟨⟨false, false, false⟩, ⟨false, false, false⟩⟩

/-- A key chosen for a class; each of the four conditions of a named key failing, and none; a class with no key, and with a key
that fails the last condition alone. -/
theorem test_meets_KeyChoice : yard.chooseKey (.cls 3) .office
      = .ok (0, ⟨500, 9, 3, some 1, .inn, some 1, some 900, none, none, none⟩)
    ∧ (Table.look onHold.keys 0).map (·.hold) = some (some .office)
    ∧ Table.look yard.rows 1 = some ⟨some (.tag 500), none, some .locked, none, none⟩
    ∧ Table.look (barred (some ⟨.empty, 1, 9999⟩) .active GroupEntry.powerOn).rows 1
      = some ⟨some (.tag 500), some ⟨.empty, 1, 9999⟩, some .locked, none, none⟩
    ∧ (barred none .silent GroupEntry.powerOn).moduleActive .A 1 = false ∧ (barred none .active noGroup).moduleActive .A 1 = true
    ∧ ((barred none .active noGroup).group 0).permits .staffed .office = false
    ∧ ((barred none .active GroupEntry.powerOn).group 0).permits .staffed .office = true
    ∧ (barred none .active noGroup).zone = .staffed ∧ (∀ e ∈ yard.keys, e.2.cls ≠ 7) := by decide +kernel

end Sys2Proof.Tests
end

section
/-! PROOFS. The range hold (R20 to R22): which frame a request's row takes, the operands of HOLD_RANGE_START and
HOLD_RANGE_END read back from their payloads, what each owner answers in each of its cases, and the two statements. -/

namespace Sys2Proof.Machine
open Sys2Proof

/-! ## The frame of a request's row (R24, R183) -/

/-- A row that is none of the TFL's own four is a request, known by its kind and payload. -/
theorem requestRow_of_tflRow {f : Frame} {row : Instr} (h : tflRow f = row) (hdrop : row ≠ .tflFrameDropped)
    (hunknown : row ≠ .unknownRequest) (htime : row ≠ .broadcastTimeSet) (hmodule : row ≠ .moduleFrame) :
    requestRow f.kind f.payload = some row := by
  have hr : (requestRow f.kind f.payload).getD .unknownRequest = row := by
    unfold tflRow at h
    split_ifs at h
    · exact absurd h.symm hdrop
    · exact h
    · exact absurd h.symm htime
    · exact absurd h.symm hdrop
    · exact absurd h.symm hmodule
    · exact absurd h.symm hdrop
  cases he : requestRow f.kind f.payload with
  | none => exact absurd (by simpa [he] using hr.symm) hunknown
  | some i => simpa [he] using hr

/-- The requests that leave their owner's Hold Sequence as it was, by their rows (R24): the table of kinds is gone through, the
kinds of several rows with their options. -/
theorem sequenceExempt_iff_row {kind : Nat} {pl : List Byte} {row : Instr} (h : requestRow kind pl = some row) :
    sequenceExempt kind = true ↔
      row ∈ [.keyQuery, .holdRangeStart, .holdRangeEnd, .holdApply, .statusRead] := by
  unfold requestRow at h
  split at h <;> cases h <;> (repeat' split) <;> simp [sequenceExempt]

/-- An exempt request finds the Hold Sequence as it stood. -/
theorem Part.asked_holdSeq_of_exempt (p : Part) (f : Frame) (rest : List Frame) (h : sequenceExempt f.kind = true) :
    (p.asked f rest).holdSeq = p.holdSeq := by
  simp [Part.asked, Part.sequenceReset, h]

/-- HOLD_RANGE_START and HOLD_RANGE_END find the Hold Sequence as it stood: its reset is their owner's to judge (R24). -/
theorem State.Asks.holdRange_holdSeq {s : State} {row : Instr} {f : Frame} {rest : List Frame} (h : s.Asks row f rest)
    (hrow : row = .holdRangeStart ∨ row = .holdRangeEnd) : (s.part.asked f rest).holdSeq = s.part.holdSeq := by
  obtain ⟨_, _, htaken, _⟩ := h
  have hrequest : requestRow f.kind f.payload = some row := by
    apply requestRow_of_tflRow htaken <;> rcases hrow with rfl | rfl <;> nofun
  have hlisted : row ∈ [.keyQuery, .holdRangeStart, .holdRangeEnd, .holdApply, .statusRead] := by
    rcases hrow with rfl | rfl <;> simp
  exact s.part.asked_holdSeq_of_exempt f rest ((sequenceExempt_iff_row hrequest).2 hlisted)

/-! ## The Hold Sequence and the operands -/

theorem HoldSeq.ownedBy_iff (h : HoldSeq) (t : Nat) :
    h.ownedBy t = true ↔ (∃ a r, h = .started t a r) ∨ ∃ a b r, h = .ended t a b r := by
  cases h <;> simp [HoldSeq.ownedBy]

theorem parseReason_eq_some_iff (k : Nat) (r : HoldReason) : parseReason k = some r ↔ k = HoldReason.code r := by
  unfold parseReason
  split <;> cases r <;> simp_all [HoldReason.code]

theorem parseReason_eq_none (k : Nat) (h : 2 < k) : parseReason k = none := by
  match k with
  | k + 3 => rfl

theorem exists_reason_of_le (k : Nat) (h : k ≤ 2) : ∃ r, k = HoldReason.code r := by
  match k with
  | 0 => exact ⟨.damage, rfl⟩
  | 1 => exact ⟨.service, rfl⟩
  | 2 => exact ⟨.office, rfl⟩

theorem slotArg_eq_some (n : Nat) (h1 : 1 ≤ n) (h480 : n ≤ 480) : slotArg n = some n := if_pos ⟨h1, h480⟩

theorem slotArg_eq_none (n : Nat) (h : n < 1 ∨ 480 < n) : slotArg n = none := if_neg (by simp [Config.slots]; omega)

/-- The payload of HOLD_RANGE_START gives its slot and its reason, each judged. -/
theorem parseRangeStart_payload (tag reason : Byte) (n : Nat) (hn : n < 65536) :
    parseRangeStart (tag :: (beBytes 2 n ++ [reason]))
      = (slotArg n).bind (fun m => (parseReason reason.toNat).map (fun r => (m, r))) := by
  have hslot : field (tag :: (beBytes 2 n ++ [reason])) 1 2 = n := field_at [tag] [reason] 2 n hn
  have hreason : byteAt (tag :: (beBytes 2 n ++ [reason])) 3 = reason.toNat := by simp [byteAt, field, beBytes, beNat]
  simp [parseRangeStart, hslot, hreason]

theorem parseRangeStart_none (tag reason : Byte) (n : Nat) (hn : n < 65536) (h : n < 1 ∨ 480 < n ∨ 2 < reason.toNat) :
    parseRangeStart (tag :: (beBytes 2 n ++ [reason])) = none := by
  rw [parseRangeStart_payload tag reason n hn]
  rcases or_assoc.2 h with hslot | hreason
  · rw [slotArg_eq_none n hslot, Option.bind_none]
  · simp [parseReason_eq_none _ hreason]

theorem parseRangeStart_some (tag reason : Byte) (n : Nat) (r : HoldReason) (hn : n < 65536)
    (h : ¬ (n < 1 ∨ 480 < n ∨ 2 < reason.toNat)) (hr : reason.toNat = HoldReason.code r) :
    parseRangeStart (tag :: (beBytes 2 n ++ [reason])) = some (n, r) := by
  rw [parseRangeStart_payload tag reason n hn, slotArg_eq_some n (by omega) (by omega), Option.bind_some,
    (parseReason_eq_some_iff _ r).2 hr, Option.map_some]

/-- The payload of HOLD_RANGE_END gives its slot, judged. -/
theorem parseRangeEnd_payload (tag : Byte) (n : Nat) (hn : n < 65536) :
    parseRangeEnd (tag :: beBytes 2 n) = slotArg n := by
  have hslot : field (tag :: beBytes 2 n) 1 2 = n := by simpa using field_at [tag] [] 2 n hn
  simp [parseRangeEnd, parseNum, hslot]

/-! ## HOLD_RANGE_START (R21) -/

section Start
variable (p : Part) (f : Frame)

theorem Part.doHoldStart_bad_owner (hlen : f.payload.length = 4) (hparse : parseRangeStart f.payload = none)
    (hown : p.holdSeq.ownedBy f.origin = true) : p.doHoldStart f = p.holdReset.answer .badArgument [] := by
  simp [Part.doHoldStart, hparse, hown, hlen, Part.refuse, Part.answer]

theorem Part.doHoldStart_bad_other (hparse : parseRangeStart f.payload = none)
    (hown : p.holdSeq.ownedBy f.origin = false) : p.doHoldStart f = p.answer .badArgument [] := by
  simp [Part.doHoldStart, hparse, hown, Part.refuse, Part.answer]

theorem Part.doHoldStart_accepted {n : Nat} {r : HoldReason} (hparse : parseRangeStart f.payload = some (n, r))
    (hfree : p.holdSeq = .idle ∨ p.holdSeq.ownedBy f.origin = true) :
    p.doHoldStart f = ({ p with holdSeq := .started f.origin n r } : Part).answer .ok [] := by
  simp [Part.doHoldStart, hparse, hfree]

theorem Part.doHoldStart_busy {n : Nat} {r : HoldReason} (hparse : parseRangeStart f.payload = some (n, r))
    (hbusy : p.holdSeq ≠ .idle) (hown : p.holdSeq.ownedBy f.origin = false) :
    p.doHoldStart f = p.answer .busy [] := by
  simp [Part.doHoldStart, hparse, hbusy, hown, Part.refuse, Part.answer]

end Start

/-! ## HOLD_RANGE_END (R22) -/

section End
variable (p : Part) (f : Frame)

theorem Part.doHoldEnd_other (hlen : f.payload.length = 3) (hown : p.holdSeq.ownedBy f.origin = false) :
    p.doHoldEnd f = p.answer .sequenceError [] := by
  cases hs : p.holdSeq <;> simp_all [Part.doHoldEnd, HoldSeq.ownedBy, Part.refuse, Part.answer]

theorem Part.doHoldEnd_bad_owner (hlen : f.payload.length = 3) (hparse : parseRangeEnd f.payload = none)
    (hown : p.holdSeq.ownedBy f.origin = true) : p.doHoldEnd f = p.holdReset.answer .badArgument [] := by
  obtain ⟨a, r, hs⟩ | ⟨a, b, r, hs⟩ := (HoldSeq.ownedBy_iff _ _).1 hown <;>
    simp [Part.doHoldEnd, hlen, hs, hparse, Part.refuse, Part.answer]

theorem Part.doHoldEnd_ended {a b n : Nat} {r : HoldReason} (hlen : f.payload.length = 3)
    (hparse : parseRangeEnd f.payload = some n) (hs : p.holdSeq = .ended f.origin a b r) :
    p.doHoldEnd f = p.holdReset.answer .sequenceError [] := by
  simp [Part.doHoldEnd, hlen, hs, hparse, Part.refuse, Part.answer]

theorem Part.doHoldEnd_below {a n : Nat} {r : HoldReason} (hlen : f.payload.length = 3)
    (hparse : parseRangeEnd f.payload = some n) (hs : p.holdSeq = .started f.origin a r) (hlt : n < a) :
    p.doHoldEnd f = p.holdReset.answer .sequenceError [] := by
  simp [Part.doHoldEnd, hlen, hs, hparse, hlt, Part.refuse, Part.answer]

theorem Part.doHoldEnd_accepted {a n : Nat} {r : HoldReason} (hlen : f.payload.length = 3)
    (hparse : parseRangeEnd f.payload = some n) (hs : p.holdSeq = .started f.origin a r) (hle : a ≤ n) :
    p.doHoldEnd f = ({ p with holdSeq := .ended f.origin a n r } : Part).answer .ok [] := by
  simp [Part.doHoldEnd, hlen, hs, hparse, Nat.not_lt.2 hle]

end End

/-! ## The statements -/

theorem State.becomes_holdRangeStart {s : State} {f : Frame} {rest : List Frame} {q : Part} {r : Result}
    {fields : List Byte} (h : s.Asks .holdRangeStart f rest)
    (ho : (s.part.asked f rest).doHoldStart f = q.answer r fields) (room : q.essRoom = true) :
    s.Becomes (exec .holdRangeStart s) (q.queued (s.part.replyTo f r fields)) :=
  s.becomes_reply .holdRangeStart f rest Part.doHoldStart q r fields h ho room

theorem State.becomes_holdRangeEnd {s : State} {f : Frame} {rest : List Frame} {q : Part} {r : Result}
    {fields : List Byte} (h : s.Asks .holdRangeEnd f rest)
    (ho : (s.part.asked f rest).doHoldEnd f = q.answer r fields) (room : q.essRoom = true) :
    s.Becomes (exec .holdRangeEnd s) (q.queued (s.part.replyTo f r fields)) :=
  s.becomes_reply .holdRangeEnd f rest Part.doHoldEnd q r fields h ho room

/-- Settles O25: the slot and the reason are read back from the payload, and what the owner answers in each case of R21 is the
response that enters. -/
theorem holdRangeStart : Obligations.HoldRangeStart := by
  unfold Obligations.HoldRangeStart
  intro s f rest tag reason n hasks hpay hn hroom p own bad
  have hseq : p.holdSeq = s.part.holdSeq := hasks.holdRange_holdSeq (.inl rfl)
  have hlen : f.payload.length = 4 := by simp [hpay]
  have hbad : bad → parseRangeStart f.payload = none := fun hb => hpay ▸ parseRangeStart_none tag reason n hn hb
  have hgood : ∀ r, ¬ bad → reason.toNat = HoldReason.code r → parseRangeStart f.payload = some (n, r) :=
    fun r hb hr => hpay ▸ parseRangeStart_some tag reason n r hn hb hr
  refine ⟨fun hb ho => ?_, fun hb ho => ?_, fun r hb hr ho => ?_, fun hb hbusy ho => ?_⟩
  · exact State.becomes_holdRangeStart hasks (p.doHoldStart_bad_owner f hlen (hbad hb) (hseq ▸ ho)) hroom
  · exact State.becomes_holdRangeStart hasks (p.doHoldStart_bad_other f (hbad hb) (hseq ▸ ho)) hroom
  · exact State.becomes_holdRangeStart hasks (p.doHoldStart_accepted f (hgood r hb hr) (hseq ▸ ho)) hroom
  · obtain ⟨r, hr⟩ := exists_reason_of_le reason.toNat (by omega)
    exact State.becomes_holdRangeStart hasks (p.doHoldStart_busy f (hgood r hb hr) (hseq ▸ hbusy) (hseq ▸ ho)) hroom

/-- Settles O26: the slot is read back from the payload, and what the owner answers in each case of R22 is the response that
enters. -/
theorem holdRangeEnd : Obligations.HoldRangeEnd := by
  unfold Obligations.HoldRangeEnd
  intro s f rest tag n hasks hpay hn hroom p reset
  have hseq : p.holdSeq = s.part.holdSeq := hasks.holdRange_holdSeq (.inr rfl)
  have hlen : f.payload.length = 3 := by simp [hpay]
  have hparse : parseRangeEnd f.payload = slotArg n := hpay ▸ parseRangeEnd_payload tag n hn
  refine ⟨fun ho => ?_, fun ho hb => ?_, fun a b r hs h1 h480 => ?_, fun a r hs h1 h480 => ⟨fun hlt => ?_, fun hle => ?_⟩⟩
  · exact State.becomes_holdRangeEnd hasks (p.doHoldEnd_other f hlen (hseq ▸ ho)) hroom
  · have hread := hparse.trans (slotArg_eq_none n hb)
    exact State.becomes_holdRangeEnd hasks (p.doHoldEnd_bad_owner f hlen hread (hseq ▸ ho)) hroom
  · have hread := hparse.trans (slotArg_eq_some n h1 h480)
    exact State.becomes_holdRangeEnd hasks (p.doHoldEnd_ended f hlen hread (hseq.trans hs)) hroom
  · have hread := hparse.trans (slotArg_eq_some n h1 h480)
    exact State.becomes_holdRangeEnd hasks (p.doHoldEnd_below f hlen hread (hseq.trans hs) hlt) hroom
  · have hread := hparse.trans (slotArg_eq_some n h1 h480)
    exact State.becomes_holdRangeEnd hasks (p.doHoldEnd_accepted f hlen hread (hseq.trans hs) hle) hroom

end Sys2Proof.Machine
end

section
/-! PROOFS. CLEAR_LOCKOUT (R31): the rental number read back from its payload, what the owner answers in each case, and the
statement. -/

namespace Sys2Proof.Machine
open Sys2Proof

/-- A payload that is a tag and one number of w bytes gives the number. -/
theorem parseNum_payload (tag : Byte) (w n : Nat) (hn : n < 256 ^ w) : parseNum w (tag :: beBytes w n) = some n := by
  have hlen : (tag :: beBytes w n).length = 1 + w := by simp [Nat.add_comm]
  have hfield : field (tag :: beBytes w n) 1 w = n := by simpa using field_at [tag] [] w n hn
  rw [parseNum, if_pos hlen, hfield]

/-- The taking of a request leaves the authorizations. -/
@[simp] theorem Part.asked_auth (p : Part) (f : Frame) (rest : List Frame) (n : Nat) :
    (p.asked f rest).auth n = p.auth n := rfl

/-! ## The owner's answers -/

section Cases
variable (p : Part) (f : Frame) {n : Nat}

theorem Part.doClearLockout_notFound (hparse : parseNum 4 f.payload = some n) (hauth : p.auth n = none) :
    p.doClearLockout f = p.answer .notFound [] := by
  simp [Part.doClearLockout, hparse, hauth, Part.refuse, Part.answer]

theorem Part.doClearLockout_notLockedOut {a : Auth} (hparse : parseNum 4 f.payload = some n)
    (hauth : p.auth n = some a) (hstate : a.state ≠ .lockedOut) : p.doClearLockout f = p.answer .notLockedOut [] := by
  simp [Part.doClearLockout, hparse, hauth, hstate, Part.refuse, Part.answer]

theorem Part.doClearLockout_cleared {a : Auth} (hparse : parseNum 4 f.payload = some n) (hauth : p.auth n = some a)
    (hstate : a.state = .lockedOut) :
    p.doClearLockout f = ((p.onAuth n (fun x => { x with state := .waiting, attempts := p.policy.attempts })).remove
      .lockout (.rental n)).answer .ok [] := by
  simp [Part.doClearLockout, hparse, hauth, hstate]

end Cases

/-! ## The statement -/

theorem State.becomes_clearLockout {s : State} {f : Frame} {rest : List Frame} {q : Part} {r : Result}
    {fields : List Byte} (h : s.Asks .clearLockout f rest)
    (ho : (s.part.asked f rest).doClearLockout f = q.answer r fields) (room : q.essRoom = true) :
    s.Becomes (exec .clearLockout s) (q.queued (s.part.replyTo f r fields)) :=
  s.becomes_reply .clearLockout f rest Part.doClearLockout q r fields h ho room

/-- Settles O30: the rental number is read back from the payload, and what the owner answers in each case of R31, by the
authorization found and its state, is the response that enters. -/
theorem clearLockout : Obligations.ClearLockout := by
  unfold Obligations.ClearLockout
  intro s f rest tag n hasks hpay hn hroom p
  have hparse : parseNum 4 f.payload = some n := hpay ▸ parseNum_payload tag 4 n hn
  have hfound : p.auth n = s.part.auth n := s.part.asked_auth f rest n
  refine ⟨fun hnone => ?_, fun a hsome hstate => ?_, fun a hsome hstate => ?_⟩
  · exact State.becomes_clearLockout hasks (p.doClearLockout_notFound f hparse (hfound.trans hnone)) hroom
  · exact State.becomes_clearLockout hasks (p.doClearLockout_notLockedOut f hparse (hfound.trans hsome) hstate) hroom
  · intro q hq
    exact State.becomes_clearLockout hasks (p.doClearLockout_cleared f hparse (hfound.trans hsome) hstate) hq

end Sys2Proof.Machine
end

section
/-! PROOFS. The late assessment (R78 to R82): each of its stages under the name that the model gives it, then the snapshot's
fields; and the tier of an OPEN rental by its five conditions (R96). -/

namespace Sys2Proof.Machine
open Sys2Proof

/-! ## The class and the late minutes (R78, R79) -/

/-- The lateness R and the condition that R78 sets on it, for each class. -/
def RetClass.Meets (D G T : Nat) : RetClass → Prop
  | .early => T < D
  | .onTime => T = D
  | .inGrace => 0 < T - D ∧ T - D ≤ G
  | .late => G < T - D

theorem lateClass_meets (D G T : Nat) : (lateClass D G T).Meets D G T := by
  unfold lateClass
  split_ifs with hearly hat hgrace
  · exact hearly
  · exact hat
  · exact ⟨by omega, hgrace⟩
  · exact Nat.lt_of_not_le hgrace

theorem lateClass_eq_of_meets {D G T : Nat} {c : RetClass} (h : c.Meets D G T) : lateClass D G T = c := by
  unfold lateClass
  cases c with
  | early => exact if_pos h
  | onTime =>
    have hat : T = D := h
    rw [if_neg (by omega), if_pos hat]
  | inGrace =>
    obtain ⟨hafter, hgrace⟩ := h
    rw [if_neg (by omega), if_neg (by omega), if_pos hgrace]
  | late =>
    have hlate : G < T - D := h
    rw [if_neg (by omega), if_neg (by omega), if_neg (by omega)]

/-- The class of R78 is the one whose condition the lateness meets. -/
theorem lateClass_eq_iff (D G T : Nat) (c : RetClass) : lateClass D G T = c ↔ c.Meets D G T :=
  ⟨fun h => h ▸ lateClass_meets D G T, lateClass_eq_of_meets⟩

theorem lateMinutes_eq (D G T : Nat) : lateMinutes D G T = if G < T - D then T - D else 0 :=
  if_congr (lateClass_eq_iff D G T .late) rfl rfl

/-! ## The cap and the saturation (R79 to R81) -/

section Parts
variable (M L C : Nat)

theorem cappedParts_days : (cappedParts M L C).1 =
    if C ≤ ceilDiv (M - 1440 * (M / 1440)) L then M / 1440 + 1 else M / 1440 :=
  apply_ite Prod.fst _ _ _

theorem cappedParts_blocks : (cappedParts M L C).2 =
    if C ≤ ceilDiv (M - 1440 * (M / 1440)) L then 0 else ceilDiv (M - 1440 * (M / 1440)) L :=
  apply_ite Prod.snd _ _ _

theorem lateParts_days : (lateParts M L C).1 = if 255 < (cappedParts M L C).1 then 255 else (cappedParts M L C).1 :=
  apply_ite Prod.fst _ _ _

theorem lateParts_blocks : (lateParts M L C).2.1 = if 255 < (cappedParts M L C).1 then 0 else (cappedParts M L C).2 :=
  apply_ite (fun parts : Nat × Nat × Bool => parts.2.1) _ _ _

theorem lateParts_saturated : (lateParts M L C).2.2 = decide (255 < (cappedParts M L C).1) := by
  simp only [lateParts]
  split_ifs with hmany
  · exact (decide_eq_true hmany).symm
  · exact (decide_eq_false hmany).symm

/-- The cap keeps the late blocks below C (R80). -/
theorem cappedParts_blocks_lt (hC : 1 ≤ C) : (cappedParts M L C).2 < C := by
  rw [cappedParts_blocks]
  split_ifs with hcap
  · exact hC
  · exact Nat.lt_of_not_le hcap

theorem lateParts_blocks_lt (hC : 1 ≤ C) : (lateParts M L C).2.1 < C := by
  rw [lateParts_blocks]
  split_ifs
  · exact hC
  · exact cappedParts_blocks_lt M L C hC

end Parts

/-- A quotient of 0 rounded up is 0 (R77). -/
theorem ceilDiv_zero {L : Nat} (hL : 1 ≤ L) : ceilDiv 0 L = 0 :=
  Nat.div_eq_of_lt (by omega)

/-- With no late minutes nothing is capped and nothing saturated. -/
theorem lateParts_zero {L C : Nat} (hL : 1 ≤ L) (hC : 1 ≤ C) : lateParts 0 L C = (0, 0, false) := by
  have hcapped : cappedParts 0 L C = (0, 0) := by
    have hcap : ¬ C ≤ 0 := by omega
    simp [cappedParts, ceilDiv_zero hL, hcap]
  simp [lateParts, hcapped]

/-! ## The days in use (R82) -/

theorem daysInUse_days (O G T : Nat) : (daysInUse O G T).1 =
    if 255 < max 1 (ceilDiv (T - O - G) 1440) then 255 else max 1 (ceilDiv (T - O - G) 1440) :=
  apply_ite Prod.fst _ _ _

theorem daysInUse_saturated (O G T : Nat) :
    (daysInUse O G T).2 = decide (255 < max 1 (ceilDiv (T - O - G) 1440)) := by
  simp only [daysInUse]
  split_ifs with hmany
  · exact (decide_eq_true hmany).symm
  · exact (decide_eq_false hmany).symm

/-! ## The snapshot -/

section Assess
variable (r : Rental) (T L C : Nat) (place : Option Nat) (st : KeyState) (late man overflow : Bool)

theorem Rental.assess_cls_eq_iff (c : RetClass) :
    (r.assess T L C place st late man overflow).cls = c ↔ c.Meets r.due r.grace T :=
  lateClass_eq_iff r.due r.grace T c

theorem Rental.assess_lateMinutes :
    (r.assess T L C place st late man overflow).lateMinutes = if r.grace < T - r.due then T - r.due else 0 :=
  lateMinutes_eq r.due r.grace T

theorem Rental.assess_lateDays : (r.assess T L C place st late man overflow).lateDays =
    (lateParts (if r.grace < T - r.due then T - r.due else 0) L C).1 :=
  congrArg (fun M => (lateParts M L C).1) (lateMinutes_eq r.due r.grace T)

theorem Rental.assess_lateBlocks : (r.assess T L C place st late man overflow).lateBlocks =
    (lateParts (if r.grace < T - r.due then T - r.due else 0) L C).2.1 :=
  congrArg (fun M => (lateParts M L C).2.1) (lateMinutes_eq r.due r.grace T)

/-- SATURATED is set by the late days (R81) or by the days in use (R82). -/
theorem Rental.assess_saturated : (r.assess T L C place st late man overflow).flags.saturated =
    ((lateParts (if r.grace < T - r.due then T - r.due else 0) L C).2.2 || (daysInUse r.out r.grace T).2) :=
  congrArg (fun M => (lateParts M L C).2.2 || (daysInUse r.out r.grace T).2) (lateMinutes_eq r.due r.grace T)

theorem Rental.assess_lateParts_within_grace (hL : 1 ≤ L) (hC : 1 ≤ C) (h : T - r.due ≤ r.grace) :
    (r.assess T L C place st late man overflow).lateDays = 0
      ∧ (r.assess T L C place st late man overflow).lateBlocks = 0 := by
  rw [Rental.assess_lateDays, Rental.assess_lateBlocks, if_neg (Nat.not_lt.mpr h), lateParts_zero hL hC]
  exact ⟨rfl, rfl⟩

end Assess

/-! ## The tiers (R96) -/

/-- The condition that R96 sets on the present minute, for each tier. -/
def Tier.Meets (S X D G now : Nat) : Tier → Prop
  | .onTime => now + S < D ∨ (S = 0 ∧ now ≤ D)
  | .dueSoon => 0 < S ∧ D ≤ now + S ∧ now ≤ D
  | .grace => D < now ∧ now ≤ D + G
  | .overdue => D + G < now ∧ now < D + G + X
  | .escalated => D + G + X ≤ now

theorem tierOf_meets (S X D G now : Nat) : (tierOf S X D G now).Meets S X D G now := by
  unfold tierOf
  split_ifs with hdue hfar hgrace hover
  · show now + S < D ∨ (S = 0 ∧ now ≤ D)
    omega
  · show 0 < S ∧ D ≤ now + S ∧ now ≤ D
    omega
  · exact ⟨Nat.lt_of_not_le hdue, hgrace⟩
  · exact ⟨Nat.lt_of_not_le hgrace, hover⟩
  · exact Nat.le_of_not_lt hover

/-- The escalation delay is at least 1, so that no minute of the grace is ESCALATED. -/
theorem tierOf_eq_of_meets {S X D G now : Nat} (hX : 1 ≤ X) {t : Tier} (h : t.Meets S X D G now) :
    tierOf S X D G now = t := by
  unfold tierOf
  cases t with
  | onTime =>
    have hcond : now + S < D ∨ (S = 0 ∧ now ≤ D) := h
    rw [if_pos (by omega), if_pos (by omega)]
  | dueSoon =>
    obtain ⟨hwindow, hnear, hdue⟩ := h
    rw [if_pos hdue, if_neg (by omega)]
  | grace =>
    obtain ⟨hpast, hgrace⟩ := h
    rw [if_neg (by omega), if_pos hgrace]
  | overdue =>
    obtain ⟨hpast, hbefore⟩ := h
    rw [if_neg (by omega), if_neg (by omega), if_pos hbefore]
  | escalated =>
    have hpast : D + G + X ≤ now := h
    rw [if_neg (by omega), if_neg (by omega), if_neg (by omega)]

/-- Of the five conditions of R96 exactly one holds, that of the tier. -/
theorem tierOf_eq_iff (S X D G now : Nat) (hX : 1 ≤ X) (t : Tier) :
    tierOf S X D G now = t ↔ t.Meets S X D G now :=
  ⟨fun h => h ▸ tierOf_meets S X D G now, tierOf_eq_of_meets hX⟩

/-! ## The statement -/

/-- Settles O45: each field of the snapshot is the stage that gives it, and the tier the one whose condition holds. -/
theorem lateAssessmentAndTiers : Obligations.LateAssessmentAndTiers := by
  unfold Obligations.LateAssessmentAndTiers
  refine ⟨fun r T L C place st late man overflow hL hC => ?_, fun S X D G now hX => ?_⟩
  · intro x R M d0 b0 d b E U
    have hcls (c : RetClass) : x.cls = c ↔ c.Meets r.due r.grace T :=
      r.assess_cls_eq_iff T L C place st late man overflow c
    have hd : (cappedParts M L C).1 = d := cappedParts_days M L C
    have hb : (cappedParts M L C).2 = b := cappedParts_blocks M L C
    have hdays : x.lateDays = if 255 < d then 255 else d :=
      (r.assess_lateDays T L C place st late man overflow).trans (hd ▸ lateParts_days M L C)
    have hblocks : x.lateBlocks = if 255 < d then 0 else b :=
      (r.assess_lateBlocks T L C place st late man overflow).trans (hd ▸ hb ▸ lateParts_blocks M L C)
    have hsat : x.flags.saturated = (decide (255 < d) || decide (255 < U)) :=
      (r.assess_saturated T L C place st late man overflow).trans
        (congrArg₂ or (hd ▸ lateParts_saturated M L C) (daysInUse_saturated r.out r.grace T))
    have hbelow : x.lateBlocks < C :=
      (r.assess_lateBlocks T L C place st late man overflow).trans_lt (lateParts_blocks_lt M L C hC)
    exact ⟨hcls .early, hcls .onTime, hcls .inGrace, hcls .late,
      r.assess_lateMinutes T L C place st late man overflow, hdays, hblocks, daysInUse_days r.out r.grace T, hsat,
      rfl, rfl, hbelow, r.assess_lateParts_within_grace T L C place st late man overflow hL hC⟩
  · have htier (t : Tier) := tierOf_eq_iff S X D G now hX t
    exact ⟨htier .onTime, htier .dueSoon, htier .grace, htier .overdue, htier .escalated⟩

end Sys2Proof.Machine
end

section
/-! PROOFS. The machine: a step runs the front command, an empty queue lets a millisecond pass, every command completes, the
power-on state. -/

namespace Sys2Proof.Machine
open Sys2Proof

/-- The step of a state whose queue is empty idles. -/
theorem step_of_empty {s : State} (h : s.pending = []) : step s = .next s.idle := by
  simp [step, h]

/-- A command runs with its own meaning, whose state keeps the commands that wait. -/
theorem exec_completes (c : Instr) (s : State) : ∃ t, exec c s = .next t ∧ t.pending = s.pending := by
  cases c <;> exact ⟨_, rfl, rfl⟩

theorem step_completes (s : State) : s.Safe := by
  unfold State.Safe step
  split
  · exact (exec_completes ..).imp fun _ h => h.1
  · exact ⟨_, rfl⟩

/-- Settles O1. -/
theorem stepRunsFrontCommand : Obligations.StepRunsFrontCommand := fun _ _ => rfl

/-- Settles O2: an idle step passes a millisecond, or hands the one that completes a second to its row. -/
theorem idleStepPassesAMillisecond : Obligations.IdleStepPassesAMillisecond := by
  unfold Obligations.IdleStepPassesAMillisecond
  intro s hempty
  rw [step_of_empty hempty]
  refine ⟨fun h => ⟨({ s.part with mono := s.part.mono + 1 } : Part).dueCommands, ?_⟩, fun h => ?_⟩
  · simp [State.idle, h]
  · by_cases ht : s.part.tickNext = true
    · exact ⟨.minuteTick, [.authExpiry, .reAlert, .scheduledCensusStart] ++
        ({ s.part with mono := s.part.mono + 1 } : Part).dueCommands, by simp [State.idle, h, ht], by simp [ht]⟩
    · exact ⟨.monotonicSecond, ({ s.part with mono := s.part.mono + 1 } : Part).dueCommands,
        by simp [State.idle, h, ht], by simp [ht]⟩

/-- Settles O3: every arm of exec answers the state with another part. -/
theorem everyCommandCompletes : Obligations.EveryCommandCompletes := ⟨exec_completes, step_completes⟩

/-- The terminals of the power-on table (R184, R199). -/
theorem powerOn_terminal (t : Nat) :
    State.reset.part.terminal t = if t = 1 then ⟨.office, true, true⟩ else ⟨.none, false, false⟩ := by
  by_cases h : t = 1
  · subst h; rfl
  · simp [State.reset, Part.powerOn, Part.terminal, Table.look, Terminal.powerOn, h, Ne.symm h]

/-- Every group permits each of the three roles at power-on (R8). -/
theorem powerOn_permits (g : Nat) (z : Zone) (r : Role) (h : r ≠ .none) :
    (State.reset.part.group g).permits z r = true := by
  cases z <;> cases r <;> first | rfl | exact absurd rfl h

theorem flagsPowerOn_getLsbD (i : Nat) : flagsPowerOn.getLsbD i = decide (i = 14) := by
  by_cases h : i < 16
  · have all : ∀ i < 16, flagsPowerOn.getLsbD i = decide (i = 14) := by decide
    exact all i h
  · rw [BitVec.getLsbD_of_ge _ _ (by omega)]
    simp only [Bool.false_eq, decide_eq_false_iff_not]
    omega

/-- A channel of the power-on state is the power-on channel (R150). -/
theorem powerOn_chan (c : Chan) : State.reset.part.chan c = Channel.powerOn := by cases c <;> rfl

/-- Settles O4: POWER_ON does not look at the state, and the fields of the reset state are those of the table. -/
theorem powerOnState : Obligations.PowerOnState := by
  unfold Obligations.PowerOnState
  refine ⟨fun _ _ => rfl, ?_⟩
  intro p
  have hchan (c : Chan) : p.chan c = Channel.powerOn := powerOn_chan c
  simp only [hchan]
  exact ⟨rfl, rfl, rfl, rfl, rfl, rfl, rfl, rfl, rfl, rfl, powerOn_terminal, rfl, rfl,
    fun _ => ⟨rfl, rfl, rfl, rfl, rfl, rfl, rfl, rfl, rfl, rfl, rfl⟩, rfl, rfl, fun _ => rfl, powerOn_permits, rfl, rfl, rfl, rfl,
    rfl, rfl, rfl, rfl, rfl, rfl, rfl, rfl, rfl, rfl, flagsPowerOn_getLsbD, rfl, rfl, rfl, rfl, rfl, rfl, rfl, rfl, rfl, rfl, rfl,
    rfl, rfl⟩

end Sys2Proof.Machine
end

section
/-! PROOFS. The invariants that every step keeps, first layer: the clauses of Part.Sound by the records they speak of, and the
relation Part.Since, which says what every operation keeps between steps' own resettings of clock, zone and tables. -/

namespace Sys2Proof.Machine
open Sys2Proof

/-! ## Tables -/

theorem Table.mem_of_look {α : Type} {t : Table α} {i : Nat} {v : α} (h : Table.look t i = some v) : (i, v) ∈ t := by
  induction t with
  | nil => simp at h
  | cons e r ih =>
    obtain ⟨k, w⟩ := e
    simp only [Table.look] at h
    split at h
    · rename_i hk
      cases h
      simp [hk]
    · exact List.mem_cons_of_mem _ (ih h)

theorem Table.look_isSome_iff {α : Type} (t : Table α) (i : Nat) : (Table.look t i).isSome ↔ i ∈ t.map (·.1) := by
  induction t with
  | nil => simp
  | cons e r ih =>
    obtain ⟨k, w⟩ := e
    simp only [Table.look, List.map_cons, List.mem_cons]
    split
    · rename_i hk
      simp [hk]
    · rename_i hk
      rw [ih]
      simp [Ne.symm hk]

theorem Table.look_of_mem {α : Type} {t : Table α} (ht : Table.rising t) {i : Nat} {v : α} (h : (i, v) ∈ t) :
    Table.look t i = some v := by
  rw [Table.rising_iff] at ht
  induction t with
  | nil => simp at h
  | cons e r ih =>
    rw [List.pairwise_cons] at ht
    rcases List.mem_cons.1 h with rfl | hr
    · simp [Table.look]
    · have := ht.1 _ hr
      simp [Table.look, Nat.ne_of_lt this, ih ht.2 hr]

/-- Tables with the same indexes rise alike. -/
theorem Table.rising_of_fst {α β : Type} {t : Table α} {u : Table β} (h : u.map (·.1) = t.map (·.1)) (ht : Table.rising t) :
    Table.rising u := by
  rw [Table.rising_iff] at ht ⊢
  have ht' : (t.map (·.1)).Pairwise (· < ·) := List.pairwise_map.2 ht
  rw [← h] at ht'
  exact List.pairwise_map.1 ht'

theorem Table.rising_filter {α : Type} {t : Table α} (f : Nat × α → Bool) (ht : Table.rising t) : Table.rising (t.filter f) := by
  rw [Table.rising_iff] at ht ⊢
  exact ht.filter f

/-- A record written over one of the same identity leaves the identities as they were. -/
theorem Table.map_put_same {α β : Type} {t : Table α} (ht : Table.rising t) (f : α → β) {i : Nat} {v : α}
    (h : (i, f v) ∈ t.map (fun e => (e.1, f e.2))) :
    (Table.put t i v).map (fun e => (e.1, f e.2)) = t.map (fun e => (e.1, f e.2)) := by
  rw [Table.rising_iff] at ht
  induction t with
  | nil => simp at h
  | cons e r ih =>
    obtain ⟨k, w⟩ := e
    rw [List.pairwise_cons] at ht
    simp only [List.map_cons, List.mem_cons, Prod.mk.injEq] at h
    rcases h with ⟨rfl, hv⟩ | hr
    · simp [Table.put, hv]
    · obtain ⟨e, he, hei⟩ := List.mem_map.1 hr
      have hlt : k < i := by
        have := ht.1 e he
        simp only [Prod.mk.injEq] at hei
        rw [← hei.1]
        exact this
      simp [Table.put, Nat.not_lt.2 hlt.le, Nat.ne_of_gt hlt, ih ht.2 hr]

/-- An index that is listed stays listed when its record is written, and no other enters. -/
theorem Table.fst_put_mem {α : Type} {t : Table α} {i : Nat} {v : α} {e : Nat × α} (h : e ∈ Table.put t i v) :
    e.1 = i ∨ e ∈ t := (Table.mem_put t i v e h).imp_left (fun he => by rw [he])

/-! ## What is sound, record by record -/

/-- The identities of the keys: handle, tag id, home slot. -/
def Part.keyIds (p : Part) : List (Nat × Nat × Option Nat) := p.keys.map (fun e => (e.1, e.2.tag, e.2.home))

/-- The rental numbers in use (R28). -/
def Part.numbers (p : Part) : List Nat := p.auths.map (·.rental) ++ p.rentals.map (·.2.number)

/-- A channel's tables: the Module Table holds the addresses of the Module Map (R155). -/
structure Channel.Sound (ch : Channel) : Prop where
  mapRises : Table.rising ch.map
  modulesRise : Table.rising ch.modules
  mapOk : moduleMapOk ch.map
  mapped : ∀ a, (Table.look ch.modules a).isSome ↔ ∃ e ∈ ch.map, e.2.addr = a

/-- The Alert Register (R103, R115). -/
structure Alt.Sound (a : Alt) (clockSet : Bool) : Prop where
  noticesRise : Table.rising a.notices
  subjects : (a.entries.map (fun e => (e.kind, e.subject))).Nodup
  places : (a.entries.map (·.place)).Nodup
  placesIn : ∀ e ∈ a.entries, e.place < Config.alertPlaces
  noticesIn : ∀ e ∈ a.notices, e.1 < Config.alertPlaces
  clockFlag : a.flags.getLsbD 14 = !clockSet

/-- The clauses of Part.Sound but for tiers and zone, grouped by the records they speak of. -/
structure Part.Records (p : Part) : Prop where
  keys : Table.rising p.keys ∧ (∀ e ∈ p.keys, e.1 < Config.handles) ∧ (p.keys.map (·.2.tag)).Nodup
    ∧ (p.keys.filterMap (·.2.home)).Nodup
  rows : Table.rising p.rows ∧ Table.rising p.slotMap ∧ (∀ n, (Table.look p.rows n).isSome ↔ (p.slotEntry n).kind = .standard)
    ∧ slotMapOk p.slotMap
  ctxs : Table.rising p.ctxs ∧ ∀ e ∈ p.ctxs, e.1 < Config.contexts
  rentals : Table.rising p.rentals ∧ p.numbers.Nodup
    ∧ p.due.Nodup ∧ p.DueOrdered ∧ ∀ i, i ∈ p.due ↔ ∃ r, Table.look p.rentals i = some r ∧ r.snap = none
  alt : p.alt.Sound p.clock.set
  waiters : p.link.waiters.Nodup ∧ (Waiter.tfl ∈ p.link.waiters ↔ p.tfl.held.isSome)
  queue : (p.waitQ.map (·.id)).Nodup ∧ ∀ w ∈ p.waitQ, w.id < p.nextId
  chanA : p.chanA.Sound
  chanB : p.chanB.Sound
  terminals : Table.rising p.tfl.terminals ∧ officeHasLoad p.tfl.terminals
  tracking : Table.rising p.tfl.passTable ∧ Table.rising p.tfl.tracking ∧ ∀ e ∈ p.tfl.tracking, e.1 < Config.trackCap
  lamps : Table.rising p.lmp.images ∧ Table.rising p.lmp.overrides ∧ ∀ e ∈ p.lmp.overrides, e.1 ∈ allModules
  plain : Table.rising p.groups ∧ Table.rising p.filters ∧ Table.rising p.dupCounts
  schedule : Table.rising p.schedule ∧ (p.schedule.map (·.2.minuteOfDay)).Nodup
  clock : p.clock.minute ≤ Config.maxMinute ∧ p.clock.second ≤ 59 ∧ p.clock.dayOffset ≤ 1439
    ∧ (p.clock.atLimit = true ↔ p.clock.set = true ∧ p.clock.minute = Config.maxMinute)
  policy : ∀ i, i < 12 → policyClamp i (p.policy.get i) = p.policy.get i

/-- The tier of every OPEN record is that of the present minute (R96). -/
def Part.TiersCurrent (p : Part) : Prop := ∀ e ∈ p.rentals, e.2.snap = none → e.2.tier = p.tierNow e.2

theorem Part.sound_iff (p : Part) : p.Sound ↔ p.Records ∧ p.TiersCurrent ∧ p.zone = p.zoneEval := by
  constructor
  · intro h
    obtain ⟨keys, rows, slotMap, groups, ctxs, rentals, filters, dup, schedule, terminals, pass, tracking, images, overrides,
      notices, chans⟩ := h.tablesRise
    obtain ⟨subjects, places, placesIn, noticesIn⟩ := h.alertsDistinct
    obtain ⟨ctxsIn, trackingIn, overridesIn⟩ := h.indexesInRange
    have chan (c : Chan) : (p.chan c).Sound :=
      ⟨(chans c).1, (chans c).2, (h.modulesMapped c).1, (h.modulesMapped c).2⟩
    exact ⟨{
      keys := ⟨keys, h.keysDistinct⟩
      rows := ⟨rows, slotMap, h.slotsRowed⟩
      ctxs := ⟨ctxs, ctxsIn⟩
      rentals := ⟨rentals, h.numbersDistinct, h.dueOpen⟩
      alt := ⟨notices, subjects, places, placesIn, noticesIn, h.clockUnset⟩
      waiters := h.waitersOnce
      queue := h.queueNumbered
      chanA := chan .A
      chanB := chan .B
      terminals := ⟨terminals, h.officeLoads⟩
      tracking := ⟨pass, tracking, trackingIn⟩
      lamps := ⟨images, overrides, overridesIn⟩
      plain := ⟨groups, filters, dup⟩
      schedule := ⟨schedule, h.zoneCurrent.1⟩
      clock := h.clockInRange
      policy := h.policyInRange }, h.tiersCurrent, h.zoneCurrent.2⟩
  · rintro ⟨h, tiers, zone⟩
    obtain ⟨keys, keysDistinct⟩ := h.keys
    obtain ⟨rows, slotMap, slotsRowed⟩ := h.rows
    obtain ⟨rentals, numbers, due⟩ := h.rentals
    obtain ⟨pass, tracking, trackingIn⟩ := h.tracking
    obtain ⟨images, overrides, overridesIn⟩ := h.lamps
    obtain ⟨groups, filters, dup⟩ := h.plain
    have chan (c : Chan) : (p.chan c).Sound := by cases c; exacts [h.chanA, h.chanB]
    exact {
      tablesRise := ⟨keys, rows, slotMap, groups, h.ctxs.1, rentals, filters, dup, h.schedule.1, h.terminals.1, pass, tracking,
        images, overrides, h.alt.noticesRise, fun c => ⟨(chan c).mapRises, (chan c).modulesRise⟩⟩
      keysDistinct := keysDistinct
      numbersDistinct := numbers
      dueOpen := due
      tiersCurrent := tiers
      alertsDistinct := ⟨h.alt.subjects, h.alt.places, h.alt.placesIn, h.alt.noticesIn⟩
      clockUnset := h.alt.clockFlag
      waitersOnce := h.waiters
      queueNumbered := h.queue
      slotsRowed := slotsRowed
      modulesMapped := fun c => ⟨(chan c).mapOk, (chan c).mapped⟩
      officeLoads := h.terminals.2
      zoneCurrent := ⟨h.schedule.2, zone⟩
      clockInRange := h.clock
      policyInRange := h.policy
      indexesInRange := ⟨h.ctxs.2, trackingIn, overridesIn⟩ }

/-! ## What operations keep -/

/-- The part q, within the step that began at p, or since the last resetting of a table within it: monotonic time, the strap, clock,
zone, schedule and policy stand; capacities and records are kept, the tiers with them; and the keys are the same ones. -/
structure Part.Since (p q : Part) : Prop where
  mono : q.mono = p.mono
  strap : q.strapHigh = p.strapHigh
  clock : q.clock = p.clock
  zone : q.zone = p.zone
  schedule : q.schedule = p.schedule
  policy : q.policy = p.policy
  bounded : p.Bounded → q.Bounded
  records : p.Records → q.Records
  tiers : p.Records → p.TiersCurrent → q.TiersCurrent
  ids : p.Records → q.keyIds = p.keyIds

/-- From step to step: time does not go back, the strap stands, and capacities and sound records are kept. -/
structure Part.Kept (p q : Part) : Prop where
  mono : p.mono ≤ q.mono
  strap : q.strapHigh = p.strapHigh
  bounded : p.Bounded → q.Bounded
  sound : p.Sound → q.Sound

theorem Part.Since.refl (p : Part) : p.Since p := ⟨rfl, rfl, rfl, rfl, rfl, rfl, id, id, fun _ => id, fun _ => rfl⟩

theorem Part.Since.trans {p q r : Part} (h : p.Since q) (k : q.Since r) : p.Since r where
  mono := k.mono.trans h.mono
  strap := k.strap.trans h.strap
  clock := k.clock.trans h.clock
  zone := k.zone.trans h.zone
  schedule := k.schedule.trans h.schedule
  policy := k.policy.trans h.policy
  bounded := k.bounded ∘ h.bounded
  records := k.records ∘ h.records
  tiers hp ht := k.tiers (h.records hp) (h.tiers hp ht)
  ids hp := (k.ids (h.records hp)).trans (h.ids hp)

theorem Part.Since.now {p q : Part} (h : p.Since q) : q.now = p.now := by unfold Part.now; rw [h.clock]

theorem Part.Since.zoneEval {p q : Part} (h : p.Since q) : q.zoneEval = p.zoneEval := by
  unfold Part.zoneEval; rw [h.clock, h.schedule]

theorem Part.Since.tierNow {p q : Part} (h : p.Since q) (r : Rental) : q.tierNow r = p.tierNow r := by
  unfold Part.tierNow; rw [h.policy, h.now]

theorem Part.Since.kept {p q : Part} (h : p.Since q) : p.Kept q where
  mono := h.mono.ge
  strap := h.strap
  bounded := h.bounded
  sound hp := by
    obtain ⟨records, tiers, zone⟩ := (p.sound_iff).1 hp
    exact (q.sound_iff).2 ⟨h.records records, h.tiers records tiers, by rw [h.zone, zone, h.zoneEval]⟩

theorem Part.Kept.trans {p q r : Part} (h : p.Kept q) (k : q.Kept r) : p.Kept r :=
  ⟨h.mono.trans k.mono, k.strap.trans h.strap, k.bounded ∘ h.bounded, k.sound ∘ h.sound⟩

theorem Part.Kept.refl (p : Part) : p.Kept p := (Part.Since.refl p).kept

/-- A fold of operations that each keep what they find keeps it. -/
theorem Part.Since.foldl {α : Type} {p : Part} {f : Part → α → Part} (l : List α)
    (step : ∀ q, p.Since q → ∀ a ∈ l, p.Since (f q a)) {q : Part} (h : p.Since q) : p.Since (l.foldl f q) := by
  induction l generalizing q with
  | nil => exact h
  | cons a r ih =>
    exact ih (fun q hq b hb => step q hq b (List.mem_cons_of_mem _ hb)) (step q h a (List.mem_cons_self ..))

end Sys2Proof.Machine
end

section
/-! PROOFS. The invariants that every step keeps, second layer: the Branch Link Port's queues and the Alert Unit. -/

namespace Sys2Proof.Machine
open Sys2Proof

variable {p q : Part}

/-! ## The Branch Link Port -/

/-- The order of the waiting owners is sound (R180): each waits once, the TFL exactly while it holds a response. -/
def Part.WaitersOnce (p : Part) : Prop := p.link.waiters.Nodup ∧ (Waiter.tfl ∈ p.link.waiters ↔ p.tfl.held.isSome)

theorem Part.Since.setLink (h : p.Since q) (l : Link)
    (reports : q.link.reports.length ≤ Config.reportCap → l.reports.length ≤ Config.reportCap)
    (inbound : q.link.inbound.length ≤ Config.inboundCap → l.inbound.length ≤ Config.inboundCap)
    (waiters : q.WaitersOnce → ({ q with link := l } : Part).WaitersOnce) : p.Since { q with link := l } :=
  { h with
    bounded := fun hp => by
      obtain ⟨hr, hi, rest⟩ := h.bounded hp
      exact ⟨reports hr, inbound hi, rest⟩
    records := fun hp => { h.records hp with waiters := waiters (h.records hp).waiters } }

/-- A change of the link that leaves its queues alone. -/
theorem Part.Since.onLink (h : p.Since q) {f : Link → Link} (reports : (f q.link).reports = q.link.reports)
    (inbound : (f q.link).inbound = q.link.inbound) (waiters : (f q.link).waiters = q.link.waiters) : p.Since (q.onLink f) :=
  h.setLink (f q.link) (fun k => by rwa [reports]) (fun k => by rwa [inbound])
    (fun k => by unfold Part.WaitersOnce at k ⊢; simpa only [waiters] using k)

theorem Part.Since.linkCount (h : p.Since q) (f : LinkCounters → LinkCounters) : p.Since (q.linkCount f) := h.onLink rfl rfl rfl

theorem Part.Since.setRx (h : p.Since q) (r : Receiver) : p.Since (q.setRx r) := h.onLink rfl rfl rfl

theorem Part.Since.enter (h : p.Since q) (r : Report) (room : q.link.reports.length < Config.reportCap) : p.Since (q.enter r) :=
  h.setLink _ (fun _ => by simp [Link.enter]; omega) id id

theorem Part.Since.enter_essRoom (h : p.Since q) (r : Report) (room : q.essRoom = true) : p.Since (q.enter r) :=
  h.enter r (q.link.room_lt room)

theorem Part.WaitersOnce.await (h : p.WaitersOnce) {w : Waiter} (hw : w ≠ .tfl) : (p.await w).WaitersOnce := by
  obtain ⟨once, tfl⟩ := h
  unfold Part.WaitersOnce
  simp only [Part.await_fields, Link.await_fields]
  split
  · exact ⟨once, tfl⟩
  · rename_i hc
    refine ⟨?_, by simp [tfl, hw.symm]⟩
    rw [List.nodup_append]
    exact ⟨once, by simp, by rintro a ha b hb rfl; simp at hb; subst hb; simp [ha] at hc⟩

theorem Part.Since.await (h : p.Since q) {w : Waiter} (hw : w ≠ .tfl) : p.Since (q.await w) :=
  h.setLink _ (fun k => by rwa [Link.await_fields]) (fun k => by rwa [Link.await_fields]) (fun k => k.await hw)

/-- Owners other than the TFL leave the waiting order. -/
theorem Part.WaitersOnce.filter (h : p.WaitersOnce) (f : Waiter → Bool) (tfl : f .tfl = true) :
    ({ p with link := { p.link with waiters := p.link.waiters.filter f } } : Part).WaitersOnce :=
  ⟨h.1.filter f, by simp only [List.mem_filter, tfl, and_true]; exact h.2⟩

theorem Part.Since.unwait (h : p.Since q) {w : Waiter} (hw : w ≠ .tfl) : p.Since (q.unwait w) :=
  h.setLink _ id id (fun k => k.filter _ (by simp [hw.symm]))

/-- The TFL stalls with its response (R180). -/
theorem Part.Since.respond (h : p.Since q) (r : Report) : p.Since (q.respond r) := by
  unfold Part.respond
  split
  · exact h.enter_essRoom r ‹_›
  · refine { h with bounded := fun hp => ?_, records := fun hp => { h.records hp with waiters := ?_ } }
    · obtain ⟨hr, hi, rest⟩ := h.bounded hp
      exact ⟨by simpa [Link.await_fields] using hr, by simpa [Link.await_fields] using hi, rest⟩
    · obtain ⟨once, -⟩ := (h.records hp).waiters
      simp only [Part.await_fields, Link.await_fields]
      split
      · rename_i hc
        exact ⟨once, by simpa using hc⟩
      · rename_i hc
        refine ⟨?_, by simp⟩
        rw [List.nodup_append]
        exact ⟨once, by simp, by rintro a ha b hb rfl; simp at hb; subst hb; simp [ha] at hc⟩

/-- The oldest waiting owner, not the TFL, leaves the order. -/
theorem Part.Since.popWaiter (h : p.Since q) {w : Waiter} {ws : List Waiter} (head : q.link.waiters = w :: ws)
    (hw : w = .tfl → q.tfl.held = none) : p.Since q.popWaiter := by
  refine h.setLink _ id id (fun k => ?_)
  obtain ⟨once, tfl⟩ := k
  rw [head] at once tfl
  rw [List.nodup_cons] at once
  refine ⟨by simpa [head] using once.2, ?_⟩
  by_cases hwt : w = .tfl
  · subst hwt
    simp [hw rfl] at tfl
  · simpa [head, Ne.symm hwt] using tfl

/-! ## The Alert Register -/

theorem Alt.Sound.modify {a : Alt} {b : Bool} (h : a.Sound b) (i : Nat) (f : AlertEntry → AlertEntry)
    (same : ∀ e ∈ a.entries, e.place = i → (f e).place = e.place ∧ (f e).kind = e.kind ∧ (f e).subject = e.subject) :
    (a.modify i f).Sound b := by
  have keeps (e : AlertEntry) (he : e ∈ a.entries) : (if e.place = i then f e else e).place = e.place
      ∧ (if e.place = i then f e else e).kind = e.kind ∧ (if e.place = i then f e else e).subject = e.subject := by
    split
    · exact same e he ‹_›
    · exact ⟨rfl, rfl, rfl⟩
  have places : (a.modify i f).entries.map (·.place) = a.entries.map (·.place) := by
    simp only [Alt.modify, List.map_map]
    exact List.map_congr_left fun e he => (keeps e he).1
  have subjects : (a.modify i f).entries.map (fun e => (e.kind, e.subject)) = a.entries.map (fun e => (e.kind, e.subject)) := by
    simp only [Alt.modify, List.map_map]
    exact List.map_congr_left fun e he => Prod.ext (keeps e he).2.1 (keeps e he).2.2
  exact { h with
    subjects := subjects ▸ h.subjects
    places := places ▸ h.places
    placesIn := fun e he => by
      obtain ⟨x, hx, rfl⟩ := List.mem_map.1 he
      rw [(keeps x hx).1]
      exact h.placesIn x hx }

/-- Every entry is changed, each keeping its place, kind and subject. -/
theorem Alt.Sound.map {a : Alt} {b : Bool} (h : a.Sound b) (f : AlertEntry → AlertEntry)
    (same : ∀ e, (f e).place = e.place ∧ (f e).kind = e.kind ∧ (f e).subject = e.subject) :
    ({ a with entries := a.entries.map f } : Alt).Sound b :=
  { h with
    subjects := by
      have : (a.entries.map f).map (fun e => (e.kind, e.subject)) = a.entries.map (fun e => (e.kind, e.subject)) := by
        rw [List.map_map]
        exact List.map_congr_left fun e _ => Prod.ext (same e).2.1 (same e).2.2
      exact this ▸ h.subjects
    places := by
      have : (a.entries.map f).map (·.place) = a.entries.map (·.place) := by
        rw [List.map_map]
        exact List.map_congr_left fun e _ => (same e).1
      exact this ▸ h.places
    placesIn := fun e he => by
      obtain ⟨x, hx, rfl⟩ := List.mem_map.1 he
      rw [(same x).1]
      exact h.placesIn x hx }

theorem Alt.Sound.drop {a : Alt} {b : Bool} (h : a.Sound b) (i : Nat) : (a.drop i).Sound b :=
  { h with
    subjects := h.subjects.sublist (List.filter_sublist.map _)
    places := h.places.sublist (List.filter_sublist.map _)
    placesIn := fun e he => h.placesIn e (List.mem_of_mem_filter he) }

/-- An entry goes to the youngest end, no entry of another place being of its kind and subject. -/
theorem Alt.Sound.youngest {a : Alt} {b : Bool} (h : a.Sound b) (e : AlertEntry) (place : e.place < Config.alertPlaces)
    (own : ∀ x ∈ a.entries, x.kind = e.kind → x.subject = e.subject → x.place = e.place) : (a.youngest e).Sound b := by
  refine { h with subjects := ?_, places := ?_, placesIn := ?_ }
  · simp only [Alt.youngest, List.map_append, List.map_cons, List.map_nil]
    rw [List.nodup_append]
    refine ⟨h.subjects.sublist (List.filter_sublist.map _), by simp, ?_⟩
    rintro u hu v hv rfl
    obtain ⟨x, hx, hxu⟩ := List.mem_map.1 hu
    obtain ⟨hx, hne⟩ := List.mem_filter.1 hx
    simp only [List.mem_singleton] at hv
    rw [hv, Prod.mk.injEq] at hxu
    simp [own x hx hxu.1 hxu.2] at hne
  · simp only [Alt.youngest, List.map_append, List.map_cons, List.map_nil]
    rw [List.nodup_append]
    refine ⟨h.places.sublist (List.filter_sublist.map _), by simp, ?_⟩
    rintro u hu v hv rfl
    obtain ⟨x, hx, hxu⟩ := List.mem_map.1 hu
    simp only [List.mem_singleton] at hv
    simp [hxu.trans hv] at hx
  · intro x hx
    simp only [Alt.youngest, List.mem_append, List.mem_singleton] at hx
    rcases hx with hx | rfl
    · exact h.placesIn x (List.mem_of_mem_filter hx)
    · exact place

theorem Alt.Sound.putNotice {a : Alt} {b : Bool} (h : a.Sound b) (i : Nat) (r : Report) (place : i < Config.alertPlaces) :
    ({ a with notices := Table.put a.notices i r } : Alt).Sound b :=
  { h with
    noticesRise := Table.rising_put _ _ _ h.noticesRise
    noticesIn := fun e he => by
      rcases Table.fst_put_mem he with hi | he
      · rwa [hi]
      · exact h.noticesIn e he }

theorem Alt.Sound.delNotice {a : Alt} {b : Bool} (h : a.Sound b) (i : Nat) :
    ({ a with notices := Table.del a.notices i } : Alt).Sound b :=
  { h with
    noticesRise := Table.rising_del _ _ h.noticesRise
    noticesIn := fun e he => h.noticesIn e (Table.mem_del _ _ _ he).1 }

/-- Two entries of one kind and subject are one. -/
theorem Alt.Sound.subject_unique {a : Alt} {b : Bool} (h : a.Sound b) {x y : AlertEntry} (hx : x ∈ a.entries)
    (hy : y ∈ a.entries) (kind : x.kind = y.kind) (subject : x.subject = y.subject) : x = y :=
  List.inj_on_of_nodup_map h.subjects hx hy (Prod.ext kind subject)

theorem Alt.Sound.place_unique {a : Alt} {b : Bool} (h : a.Sound b) {x y : AlertEntry} (hx : x ∈ a.entries)
    (hy : y ∈ a.entries) (place : x.place = y.place) : x = y :=
  List.inj_on_of_nodup_map h.places hx hy place

theorem setBit_getLsbD_other (w : BitVec 16) (i j : Nat) (h : i ≠ j) : (setBit w i).getLsbD j = w.getLsbD j := by
  unfold setBit
  by_cases hj : j < 16
  · rw [BitVec.getLsbD_or, BitVec.getLsbD_shiftLeft]
    have : (decide (j < 16) && !decide (j < i) && (1#16).getLsbD (j - i)) = false := by
      by_cases hji : j < i
      · simp [hji]
      · have hpos : j - i ≠ 0 := by omega
        simp [hpos]
    rw [this, Bool.or_false]
  · rw [BitVec.getLsbD_of_ge _ _ (by omega), BitVec.getLsbD_of_ge _ _ (by omega)]

theorem Alt.Sound.setBit {a : Alt} {b : Bool} (h : a.Sound b) (i : Nat) (hi : i ≠ 14) :
    ({ a with flags := setBit a.flags i } : Alt).Sound b :=
  { h with clockFlag := (setBit_getLsbD_other _ _ _ hi).trans h.clockFlag }

theorem Alt.mem_of_find {a : Alt} {k : AlertKind} {s : Subject} {e : AlertEntry} (h : a.find k s = some e) :
    e ∈ a.entries ∧ e.kind = k ∧ e.subject = s := by
  have hk := List.find?_some h
  simp only [Bool.and_eq_true, beq_iff_eq] at hk
  exact ⟨List.mem_of_find?_eq_some h, hk⟩

theorem Alt.not_mem_of_find {a : Alt} {k : AlertKind} {s : Subject} (h : a.find k s = none) (x : AlertEntry)
    (hx : x ∈ a.entries) (kind : x.kind = k) : x.subject ≠ s := by
  have := List.find?_eq_none.1 h x hx
  simpa [kind] using this

theorem Alt.freePlace_some {a : Alt} {i : Nat} (h : a.freePlace = some i) : i < Config.alertPlaces :=
  List.mem_range.1 (List.mem_of_find?_eq_some h)

/-! ## The Alert Unit -/

theorem Part.Since.setAlt (h : p.Since q) (a : Alt) (sound : p.Records → q.alt.Sound q.clock.set → a.Sound q.clock.set) :
    p.Since { q with alt := a } :=
  { h with records := fun hp => { h.records hp with alt := sound hp (h.records hp).alt } }

theorem Part.Since.setFlag (h : p.Since q) (i : Nat) (hi : i ≠ 14) : p.Since (q.setFlag i) :=
  h.setAlt _ (fun _ k => k.setBit i hi)

theorem Part.Since.altSound (h : p.Since q) (hp : p.Records) : q.alt.Sound q.clock.set := (h.records hp).alt

theorem Part.Since.awaitAlert (h : p.Since q) (i : Nat) : p.Since (q.await (.alertPlace i)) := h.await nofun

/-- The entry in a place is changed, keeping its place, kind and subject. -/
theorem Part.Since.modifyAlert (h : p.Since q) (i : Nat) (f : AlertEntry → AlertEntry)
    (same : ∀ e, (f e).place = e.place ∧ (f e).kind = e.kind ∧ (f e).subject = e.subject) :
    p.Since { q with alt := q.alt.modify i f } :=
  h.setAlt _ (fun _ k => k.modify i f (fun e _ _ => same e))

theorem Part.Since.dropAlert (h : p.Since q) (i : Nat) : p.Since { q with alt := q.alt.drop i } :=
  h.setAlt _ (fun _ k => k.drop i)

theorem Part.Since.offerAlert (h : p.Since q) (i : Nat) (f : AlertFlags) : p.Since (q.offerAlert i f) := by
  unfold Part.offerAlert
  split
  · exact h
  · split
    · exact h.modifyAlert i _ (fun _ => by exact ⟨rfl, rfl, rfl⟩)
    · split
      · exact h.enter_essRoom _ ‹_›
      · exact .awaitAlert (h.modifyAlert i _ (fun _ => by exact ⟨rfl, rfl, rfl⟩)) i

theorem Part.Since.offerNotice (h : p.Since q) {i : Nat} (r : Report) (place : p.Records → i < Config.alertPlaces) :
    p.Since (q.offerNotice i r) := by
  unfold Part.offerNotice
  split
  · exact h.enter_essRoom _ ‹_›
  · exact (h.setAlt _ (fun hp k => k.putNotice i r (place hp))).awaitAlert i

theorem Part.Since.giveUpAlert (h : p.Since q) (i : Nat) : p.Since (q.giveUpAlert i) := by
  unfold Part.giveUpAlert
  split
  · exact h
  · exact h.unwait nofun

/-- A new entry in a place, none standing of its kind and subject. -/
theorem Part.Since.register (h : p.Since q) {i : Nat} {k : AlertKind} {s : Subject} (d : Option Detail)
    (place : p.Records → i < Config.alertPlaces) (own : ∀ x ∈ q.alt.entries, x.kind = k → x.subject ≠ s) :
    p.Since (q.register i k s d) :=
  (h.setAlt _ (fun hp hs => hs.youngest _ (place hp) (fun x hx hk hx' => absurd hx' (own x hx hk)))).offerAlert _ _

theorem AlertKind.code_ne (k : AlertKind) : k.code ≠ 14 := by cases k <;> decide

/-- Neither notice nor giving up touches the entries of the register. -/
theorem Part.offerNotice_entries (p : Part) (i : Nat) (r : Report) : (p.offerNotice i r).alt.entries = p.alt.entries := by
  unfold Part.offerNotice
  split <;> rfl

theorem Part.giveUpAlert_alt (p : Part) (i : Nat) : (p.giveUpAlert i).alt = p.alt := by
  unfold Part.giveUpAlert
  split <;> rfl

theorem Part.Since.place_lt (h : p.Since q) {e : AlertEntry} (he : e ∈ q.alt.entries) (hp : p.Records) :
    e.place < Config.alertPlaces := (h.altSound hp).placesIn e he

/-- The entry of a place leaves it, with a notice unless its ALERT is pending. -/
theorem Part.Since.dropNotified (h : p.Since q) {e : AlertEntry} (he : e ∈ q.alt.entries) (r : Report) :
    p.Since (if e.pending.isSome then ({ q with alt := q.alt.drop e.place } : Part).giveUpAlert e.place
      else ({ q with alt := q.alt.drop e.place } : Part).offerNotice e.place r) := by
  split
  · exact (h.dropAlert _).giveUpAlert _
  · exact (h.dropAlert _).offerNotice r (h.place_lt he)

/-- The entry found of a kind and subject takes the youngest end again, of that kind and subject. -/
theorem Part.Since.youngestAgain (h : p.Since q) {e x : AlertEntry} (he : e ∈ q.alt.entries) (place : x.place = e.place)
    (kind : x.kind = e.kind) (subject : x.subject = e.subject) : p.Since { q with alt := q.alt.youngest x } :=
  h.setAlt _ (fun hp k => k.youngest x (place ▸ h.place_lt he hp)
    (fun y hy hk hs => by rw [k.subject_unique hy he (hk.trans kind) (hs.trans subject), place]))

theorem Part.Since.raise (h : p.Since q) (k : AlertKind) (s : Subject) (d : Option Detail) : p.Since (q.raise k s d) := by
  have h := h.setFlag k.code k.code_ne
  unfold Part.raise
  dsimp only
  split
  · rename_i e he
    obtain ⟨he, hk, hs⟩ := Alt.mem_of_find he
    split
    · exact .offerAlert (h.youngestAgain he (by rfl) (by rfl) (by rfl)) _ _
    · refine h.setAlt _ (fun _ k => k.modify _ _ (fun x hx hxe => ?_))
      rw [k.place_unique hx he hxe]
      exact ⟨rfl, rfl, rfl⟩
  · rename_i hnone
    have own := fun x hx => Alt.not_mem_of_find hnone x hx
    split
    · rename_i i hi
      exact h.register d (fun _ => Alt.freePlace_some hi) own
    · split
      · rename_i e he
        have he := List.mem_of_find?_eq_some he
        refine (h.dropNotified he _).register d (h.place_lt he) (fun x hx => own x ?_)
        split at hx
        · rw [Part.giveUpAlert_alt] at hx
          exact List.mem_of_mem_filter hx
        · rw [Part.offerNotice_entries] at hx
          exact List.mem_of_mem_filter hx
      · exact h.setFlag _ (by decide)

theorem Part.Since.removeQuietly (h : p.Since q) (e : AlertEntry) : p.Since (q.removeQuietly e) := by
  unfold Part.removeQuietly
  dsimp only
  split
  · exact (h.dropAlert _).giveUpAlert _
  · exact h.dropAlert _

theorem Part.Since.replaceAlert (h : p.Since q) (old new : AlertKind) (s : Subject) : p.Since (q.replaceAlert old new s) := by
  unfold Part.replaceAlert
  split
  · exact h.raise _ _ _
  · exact (h.removeQuietly _).raise _ _ _
  · rename_i e he hnone
    obtain ⟨he, -, hsub⟩ := Alt.mem_of_find he
    have own := fun x hx => Alt.not_mem_of_find hnone x hx
    have hf := h.setFlag new.code new.code_ne
    have given : p.Since (if e.pending.isSome then (q.setFlag new.code).giveUpAlert e.place else q.setFlag new.code) := by
      split
      · exact hf.giveUpAlert _
      · exact hf
    have entries : (if e.pending.isSome then (q.setFlag new.code).giveUpAlert e.place else q.setFlag new.code).alt.entries
        = q.alt.entries := by
      split
      · rw [Part.giveUpAlert_alt, Part.setFlag]
      · rfl
    refine .offerAlert (given.setAlt _ fun hp k => ?_) _ _
    refine k.youngest _ (h.place_lt (e := e) he hp) (fun x hx hxk hxs => ?_)
    rw [entries] at hx
    exact absurd (hxs.trans hsub) (own x hx hxk)

theorem Part.Since.remove (h : p.Since q) (k : AlertKind) (s : Subject) : p.Since (q.remove k s) := by
  unfold Part.remove
  split
  · exact h
  · exact h.dropNotified (Alt.mem_of_find ‹_›).1 _

theorem Part.Since.removeSubject (h : p.Since q) (s : Subject) : p.Since (q.removeSubject s) :=
  Part.Since.foldl _ (fun _ hr k _ => hr.remove k s) h

theorem Part.Since.reAlertPlace (h : p.Since q) (m i : Nat) : p.Since (Part.reAlertPlace m q i) := by
  unfold Part.reAlertPlace
  split
  · exact h
  · split
    · exact .offerAlert (.modifyAlert (h.setFlag _ (AlertKind.code_ne _)) i _ (fun _ => by exact ⟨rfl, rfl, rfl⟩)) _ _
    · exact h

theorem Part.Since.reAlertAll (h : p.Since q) (m : Nat) : p.Since (q.reAlertAll m) :=
  Part.Since.foldl _ (fun _ hr i _ => hr.reAlertPlace m i) h

theorem Part.Since.mapAlerts (h : p.Since q) (f : AlertEntry → AlertEntry)
    (same : ∀ e, (f e).place = e.place ∧ (f e).kind = e.kind ∧ (f e).subject = e.subject) :
    p.Since { q with alt := { q.alt with entries := q.alt.entries.map f } } :=
  h.setAlt _ (fun _ k => k.map f same)

theorem Part.Since.clampReAlerts (h : p.Since q) : p.Since q.clampReAlerts :=
  h.mapAlerts _ (fun _ => by exact ⟨rfl, rfl, rfl⟩)

theorem Part.Since.intervalChanged (h : p.Since q) (old : Nat) : p.Since (q.intervalChanged old) := by
  unfold Part.intervalChanged
  split
  · exact h.mapAlerts _ (fun _ => by exact ⟨rfl, rfl, rfl⟩)
  · split
    · exact h.mapAlerts _ (fun e => by split <;> exact ⟨rfl, rfl, rfl⟩)
    · exact h

/-- An ordinary report, entered or dropped (R179). -/
theorem Part.Since.offerOrd (h : p.Since q) (r : Report) : p.Since (q.offerOrd r) := by
  have dropped : p.Since (q.onLink fun l => { l with
      counters := { l.counters with reportsDropped := satUp l.counters.reportsDropped }, lossEpisode := true }) :=
    h.onLink rfl rfl rfl
  unfold Part.offerOrd
  split
  · exact h.enter r (Nat.lt_trans ‹_› (by decide))
  · dsimp only
    split
    · exact dropped
    · exact dropped.raise _ _ _

end Sys2Proof.Machine
end

section
/-! PROOFS. The invariants that every step keeps, third layer: lamps, channels, rows, keys, authorizations, contexts, rentals, and
the other records, each by the operations that write it. -/

namespace Sys2Proof.Machine
open Sys2Proof

variable {p q : Part}

/-! ## Tables, again -/

/-- A record written stands between what was before it and after it; one of its index is replaced. -/
theorem Table.put_split {α : Type} (t : Table α) (i : Nat) (v : α) :
    ∃ l r, Table.put t i v = l ++ (i, v) :: r ∧ (t = l ++ r ∨ ∃ w, t = l ++ (i, w) :: r) := by
  induction t with
  | nil => exact ⟨[], [], rfl, .inl rfl⟩
  | cons e t ih =>
    obtain ⟨k, w⟩ := e
    simp only [Table.put]
    split
    · exact ⟨[], (k, w) :: t, rfl, .inl rfl⟩
    · split
      · rename_i hk
        exact ⟨[], t, rfl, .inr ⟨w, by rw [hk]; rfl⟩⟩
      · obtain ⟨l, r, hput, ht⟩ := ih
        refine ⟨(k, w) :: l, r, by rw [hput]; rfl, ht.imp (fun h => by rw [h]; rfl) ?_⟩
        rintro ⟨x, h⟩
        exact ⟨x, by rw [h]; rfl⟩

/-- A table seen through a function of its records. -/
theorem Table.look_mapRec {α β : Type} (f : α → β) (t : Table α) (i : Nat) :
    Table.look (t.map (fun e => (e.1, f e.2))) i = (Table.look t i).map f := by
  induction t with
  | nil => rfl
  | cons e r ih =>
    obtain ⟨k, w⟩ := e
    simp only [List.map_cons, Table.look]
    split
    · rfl
    · exact ih

/-- The indexes are the same when the records are changed one by one. -/
theorem Table.fst_mapRec {α β : Type} (f : Nat × α → β) (t : Table α) :
    (t.map (fun e => (e.1, f e))).map (·.1) = t.map (·.1) := by
  rw [List.map_map]
  rfl

/-! ## Lamps -/

theorem Part.Since.setLamps (h : p.Since q) (l : Lmp) (images : Table.rising q.lmp.images → Table.rising l.images := by exact id)
    (overrides : Table.rising q.lmp.overrides ∧ (∀ e ∈ q.lmp.overrides, e.1 ∈ allModules) →
      Table.rising l.overrides ∧ ∀ e ∈ l.overrides, e.1 ∈ allModules := by exact id) : p.Since { q with lmp := l } :=
  { h with records := fun hp =>
      let k := (h.records hp).lamps
      { h.records hp with lamps := ⟨images k.1, overrides k.2⟩ } }

theorem Part.Since.touch (h : p.Since q) (ks : List Nat) : p.Since (q.touch ks) := h.setLamps _
theorem Part.Since.touchSlot (h : p.Since q) (s : Nat) : p.Since (q.touchSlot s) := h.touch _
theorem Part.Since.touchSlotO (h : p.Since q) (s : Option Nat) : p.Since (q.touchSlotO s) := by
  cases s
  exacts [h, h.touchSlot _]

theorem Part.Since.markBehind (h : p.Since q) (k : Nat) : p.Since (q.markBehind k) := h.setLamps _
theorem Part.Since.clearBehind (h : p.Since q) (k : Nat) : p.Since (q.clearBehind k) := h.setLamps _
theorem Part.Since.imageUnknown (h : p.Since q) (k : Nat) : p.Since (q.imageUnknown k) :=
  h.setLamps _ (by exact Table.rising_del _ _)
theorem Part.Since.imageTakes (h : p.Since q) (k : Nat) (ls : List Lamp) : p.Since (q.imageTakes k ls) :=
  h.setLamps _ (by exact Table.rising_put _ _ _)
theorem Part.Since.testStart (h : p.Since q) : p.Since q.testStart := .touch (h.setLamps _) _
theorem Part.Since.clearOverrides (h : p.Since q) (ks : List Nat) : p.Since (q.clearOverrides ks) :=
  .touch (h.setLamps _ (overrides := by exact fun k =>
    ⟨Table.rising_filter _ k.1, fun e he => k.2 e (List.mem_of_mem_filter he)⟩)) _

theorem Part.Since.testEnd (h : p.Since q) : p.Since q.testEnd := by
  unfold Part.testEnd
  split
  · exact .touch (h.setLamps _) _
  · exact h

theorem Part.Since.testPhase (h : p.Since q) : p.Since q.testPhase := by
  unfold Part.testPhase
  split
  · exact h
  · split
    · exact h
    · exact .touch (h.setLamps _) _

theorem Part.Since.blankingChanged (h : p.Since q) (r : Part) : p.Since (q.blankingChanged r) := by
  unfold Part.blankingChanged
  split
  · exact h
  · exact h.touch _

/-! ## Channels -/

/-- What an operation keeps of a channel: its queue's capacity and its tables. -/
structure Channel.Keeps (ch ch' : Channel) : Prop where
  queue : ch.queue.length ≤ Config.queueCap → ch'.queue.length ≤ Config.queueCap
  sound : ch.Sound → ch'.Sound

/-- The addresses of the Module Table and the Module Map stand. -/
theorem Channel.Keeps.of_same {ch ch' : Channel} (map : ch'.map = ch.map) (modules : ch'.modules.map (·.1) = ch.modules.map (·.1))
    (queue : ch.queue.length ≤ Config.queueCap → ch'.queue.length ≤ Config.queueCap) : ch.Keeps ch' where
  queue := queue
  sound k :=
    { mapRises := map ▸ k.mapRises
      modulesRise := Table.rising_of_fst modules k.modulesRise
      mapOk := map ▸ k.mapOk
      mapped := fun a => by rw [Table.look_isSome_iff, modules, ← Table.look_isSome_iff, k.mapped, map] }

theorem Part.Since.onChan (h : p.Since q) (c : Chan) (f : Channel → Channel) (keeps : (q.chan c).Keeps (f (q.chan c))) :
    p.Since (q.onChan c f) := by
  cases c with
  | A =>
    exact { h with
      bounded := fun hp => by
        obtain ⟨reports, inbound, queueA, rest⟩ := h.bounded hp
        exact ⟨reports, inbound, keeps.queue queueA, rest⟩
      records := fun hp => { h.records hp with chanA := keeps.sound (h.records hp).chanA } }
  | B =>
    exact { h with
      bounded := fun hp => by
        obtain ⟨reports, inbound, queueA, queueB, rest⟩ := h.bounded hp
        exact ⟨reports, inbound, queueA, keeps.queue queueB, rest⟩
      records := fun hp => { h.records hp with chanB := keeps.sound (h.records hp).chanB } }

/-- A change of the channel that leaves its tables and its queue alone. -/
theorem Part.Since.onChan_same (h : p.Since q) (c : Chan) (f : Channel → Channel) (map : ∀ ch, (f ch).map = ch.map := by exact fun _ => rfl)
    (modules : ∀ ch, (f ch).modules = ch.modules := by exact fun _ => rfl)
    (queue : ∀ ch, (f ch).queue = ch.queue := by exact fun _ => rfl) : p.Since (q.onChan c f) :=
  h.onChan c f (.of_same (map _) (by rw [modules]) (by rw [queue]; exact id))

theorem Part.Since.push (h : p.Since q) (c : Chan) (b : BusCmd) (room : (q.chan c).queue.length < Config.queueCap) :
    p.Since (q.onChan c (·.push b)) :=
  h.onChan c _ (.of_same rfl rfl fun _ => by simp only [Channel.push, List.length_append, List.length_singleton]; omega)

theorem Part.Since.push_other (h : p.Since q) (c : Chan) (b : BusCmd) (room : (q.chan c).otherRoom = true) :
    p.Since (q.onChan c (·.push b)) :=
  h.push c b (Nat.lt_trans (of_decide_eq_true room) (by decide))

theorem Part.Since.withdraw (h : p.Since q) (c : Chan) (f : BusCmd → Bool) : p.Since (q.onChan c (·.withdraw f)) :=
  h.onChan c _ (.of_same rfl rfl (Channel.withdraw_le _ f).trans)

theorem Part.Since.pushLock (h : p.Since q) (c : Chan) (b : BusCmd) : p.Since (q.onChan c (·.pushLock b)) :=
  h.onChan c _ <| by
    refine .of_same ?_ ?_ (Channel.pushLock_le _ b) <;> unfold Channel.pushLock <;> split <;> rfl

theorem Part.Since.pushClose (h : p.Since q) (c : Chan) (i a pos : Nat) : p.Since (q.onChan c (·.pushClose i a pos)) :=
  h.onChan c _ <| by
    refine .of_same ?_ ?_ (Channel.pushClose_le _ i a pos) <;> unfold Channel.pushClose Channel.pushLock <;> (repeat' split) <;> rfl

theorem Channel.leaveClose_keeps (ch : Channel) (i : Nat) : ch.Keeps (ch.leaveClose i) :=
  .of_same rfl rfl (ch.leaveClose_length i).trans_le

theorem Part.Since.leaveClose (h : p.Since q) (i : Nat) : p.Since (q.leaveClose i) :=
  (h.onChan .A _ (Channel.leaveClose_keeps _ i)).onChan .B _ (Channel.leaveClose_keeps _ i)

theorem Part.Since.onModule (h : p.Since q) (c : Chan) (a : Nat) (f : ModEntry → ModEntry) : p.Since (q.onModule c a f) :=
  h.onChan c _ (.of_same rfl (Table.map_fst_modify _ _ _) id)

theorem Part.Since.lineFree (h : p.Since q) (c : Chan) : p.Since (q.lineFree c) :=
  h.onChan_same c _

theorem Part.Since.countMiss (h : p.Since q) (c : Chan) : p.Since (q.countMiss c) :=
  h.onChan_same c _

/-- A Module Table filled with an entry for each address of a Module Map. -/
theorem modules_filled (f : MapEntry → ModEntry) (t : Table MapEntry) (m : Table ModEntry) (hm : Table.rising m) :
    Table.rising (t.foldl (fun m e => Table.put m e.2.addr (f e.2)) m)
      ∧ ∀ a, (Table.look (t.foldl (fun m e => Table.put m e.2.addr (f e.2)) m) a).isSome
        ↔ (Table.look m a).isSome ∨ ∃ e ∈ t, e.2.addr = a := by
  induction t generalizing m with
  | nil => exact ⟨hm, fun a => by simp⟩
  | cons e r ih =>
    obtain ⟨rises, mapped⟩ := ih (Table.put m e.2.addr (f e.2)) (Table.rising_put _ _ _ hm)
    refine ⟨rises, fun a => (mapped a).trans ?_⟩
    by_cases ha : a = e.2.addr
    · subst ha
      simp [Table.look_put_same]
    · rw [Table.look_put_other _ _ _ _ ha]
      simp [Ne.symm ha]

theorem Channel.Sound.fresh {ch ch' : Channel} (h : ch.Sound) (map : ch'.map = ch.map)
    (modules : ch'.modules = ch.freshModules) : ch'.Sound := by
  obtain ⟨rises, mapped⟩ := modules_filled (fun _ => ModEntry.fresh) ch.map [] rfl
  exact { mapRises := map ▸ h.mapRises, modulesRise := modules ▸ rises, mapOk := map ▸ h.mapOk
          mapped := fun a => by rw [modules, map, Channel.freshModules, mapped]; simp }

/-- The Module Table is made anew, and the queue does not grow. -/
theorem Channel.Keeps.fresh {ch ch' : Channel} (map : ch'.map = ch.map) (modules : ch'.modules = ch.freshModules)
    (queue : ch'.queue.length ≤ ch.queue.length) : ch.Keeps ch' :=
  ⟨queue.trans, fun h => h.fresh map modules⟩

/-! ## The recomputation of lamps -/

theorem Part.Since.offerLamp (h : p.Since q) (c : Chan) (a : Nat) : p.Since (q.offerLamp c a) := by
  unfold Part.offerLamp
  split
  · exact (h.push_other c _ ‹_›).clearBehind _
  · exact h.markBehind _

theorem Part.Since.recompute (h : p.Since q) (k : Nat) : p.Since (q.recompute k) := by
  unfold Part.recompute
  dsimp only
  repeat' split
  · exact h
  · exact h.onChan _ _ (.of_same rfl rfl (by simp))
  · exact h.withdraw _ _
  · exact h.offerLamp _ _
  · exact h

theorem Part.Since.lampRun (h : p.Since q) : p.Since q.lampRun :=
  Part.Since.foldl _ (fun _ hr k _ => hr.recompute k) (h.setLamps _)

theorem Part.Since.reofferLamps (h : p.Since q) (c : Chan) : p.Since (q.reofferLamps c) := by
  refine Part.Since.foldl _ (fun r hr a _ => ?_) h
  repeat' split
  · exact hr.offerLamp _ _
  · exact hr.clearBehind _
  · exact hr

theorem Part.Since.lampLost (h : p.Since q) (c : Chan) (a : Nat) : p.Since (q.lampLost c a) :=
  ((h.imageUnknown _).clearBehind _).withdraw _ _

theorem Part.Since.lampAnew (h : p.Since q) (c : Chan) (a : Nat) : p.Since (q.lampAnew c a) := (h.lampLost c a).touch _

theorem Part.Since.lampChannelLost (h : p.Since q) (c : Chan) : p.Since (q.lampChannelLost c) :=
  Part.Since.foldl _ (fun _ hr a _ => hr.lampLost c a) h

theorem Part.Since.rawSent (h : p.Since q) (c : Chan) (a : Nat) (data : List Byte) : p.Since (q.rawSent c a data) := by
  unfold Part.rawSent
  split
  · exact (h.imageTakes _ _).touch _
  · exact (h.imageUnknown _).touch _

theorem Part.Since.lampMissed (h : p.Since q) (c : Chan) (a : Nat) : p.Since (q.lampMissed c a) := (h.imageUnknown _).touch _

theorem Part.Since.setOverride (h : p.Since q) (c : Chan) (a : Nat) (data : List Byte) (h1 : 1 ≤ a) (h30 : a ≤ 30) :
    p.Since (q.setOverride c a data) := by
  refine .touch (.withdraw (.clearBehind (h.setLamps _ (overrides := ?_)) _) _ _) _
  refine fun k => ⟨Table.rising_put _ _ _ k.1, fun e he => ?_⟩
  rcases Table.fst_put_mem he with hk | he
  · rw [hk]
    exact lampKey_mem_allModules c a h1 h30
  · exact k.2 e he

/-! ## Rows -/

theorem Part.Since.setRows (h : p.Since q) (rows : Table SlotRow) (same : rows.map (·.1) = q.rows.map (·.1)) :
    p.Since { q with rows := rows } :=
  { h with records := fun hp =>
      have ⟨rises, slotMap, rowed, mapOk⟩ := (h.records hp).rows
      { h.records hp with rows := ⟨Table.rising_of_fst same rises, slotMap, fun n => by
          rw [Table.look_isSome_iff, same, ← Table.look_isSome_iff]
          exact rowed n, mapOk⟩ } }

theorem Part.Since.onRow (h : p.Since q) (s : Nat) (f : SlotRow → SlotRow) : p.Since (q.onRow s f) :=
  h.setRows _ (Table.map_fst_modify _ _ _)

theorem Part.Since.rowsUnknown (h : p.Since q) (slots : List Nat) : p.Since (q.rowsUnknown slots) :=
  Part.Since.foldl _ (fun _ hr s _ => (hr.onRow s _).touchSlot s) h

theorem Part.Since.guidesAbsent (h : p.Since q) : p.Since q.guidesAbsent :=
  (h.setRows _ (Table.fst_mapRec _ _)).touch _

/-! ## Keys -/

/-- Key handle i belongs, since the part p, to the key with the tag id and home of k. -/
def Part.HasKey (p : Part) (i : Nat) (k : KeyRec) : Prop := p.Records → (i, k.tag, k.home) ∈ p.keyIds

theorem Part.Since.setKeys (h : p.Since q) (keys : Table KeyRec)
    (same : p.Records → ({ q with keys := keys } : Part).keyIds = q.keyIds) : p.Since { q with keys := keys } :=
  { h with
    records := fun hp => by
      have ids := same hp
      obtain ⟨rises, handles, tags, homes⟩ := (h.records hp).keys
      have fst : keys.map (·.1) = q.keys.map (·.1) := by
        simpa [Part.keyIds, Function.comp_def] using congrArg (List.map (·.1)) ids
      have tagsSame : keys.map (·.2.tag) = q.keys.map (·.2.tag) := by
        simpa [Part.keyIds, Function.comp_def] using congrArg (List.map (·.2.1)) ids
      have homesSame : keys.filterMap (·.2.home) = q.keys.filterMap (·.2.home) := by
        simpa [Part.keyIds, List.filterMap_map, Function.comp_def] using congrArg (List.filterMap (·.2.2)) ids
      refine { h.records hp with
        keys := ⟨Table.rising_of_fst fst rises, fun e he => ?_, tagsSame ▸ tags, homesSame ▸ homes⟩ }
      have : e.1 ∈ q.keys.map (·.1) := fst ▸ List.mem_map_of_mem he
      obtain ⟨x, hx, hxe⟩ := List.mem_map.1 this
      exact hxe ▸ handles x hx
    ids := fun hp => (same hp).trans (h.ids hp) }

theorem Part.Since.setKey (h : p.Since q) {i : Nat} {k : KeyRec} (hk : p.HasKey i k) : p.Since (q.setKey i k) := by
  refine .touchSlotO (.touchSlotO (.touchSlotO (h.setKeys _ fun hp => ?_) _) _) _
  have := hk hp
  rw [← h.ids hp] at this
  exact Table.map_put_same (h.records hp).keys.1 (fun k => (k.tag, k.home)) this

theorem Part.Since.hasKey_of_mem (h : p.Since q) {i : Nat} {k : KeyRec} (hk : (i, k) ∈ q.keys) : p.HasKey i k := fun hp =>
  h.ids hp ▸ List.mem_map_of_mem (f := fun e : Nat × KeyRec => (e.1, e.2.tag, e.2.home)) hk

theorem Part.Since.hasKey_of_look (h : p.Since q) {i : Nat} {k : KeyRec} (hk : Table.look q.keys i = some k) : p.HasKey i k :=
  h.hasKey_of_mem (Table.mem_of_look hk)

theorem Part.Since.hasKey_of_find (h : p.Since q) {f : Nat × KeyRec → Bool} {i : Nat} {k : KeyRec}
    (hk : q.keys.find? f = some (i, k)) : p.HasKey i k :=
  h.hasKey_of_mem (List.mem_of_find?_eq_some hk)

theorem Part.Since.hasKey_of_occ (h : p.Since q) {o : Occ} {i : Nat} {k : KeyRec} (hk : q.keyOfOcc o = some (i, k)) :
    p.HasKey i k := by
  cases o with
  | tag t => exact h.hasKey_of_find hk
  | empty => cases hk
  | unread => cases hk

/-! ## Authorizations and the Release Wait Queue -/

/-- Fewer authorizations, or the same numbers. -/
theorem Part.Since.setAuths (h : p.Since q) (auths : List Auth)
    (fewer : (auths.map (·.rental)).Sublist (q.auths.map (·.rental))) : p.Since { q with auths := auths } :=
  { h with
    bounded := fun hp => by
      obtain ⟨reports, inbound, queueA, queueB, room, rest⟩ := h.bounded hp
      have := fewer.length_le
      simp only [List.length_map] at this
      exact ⟨reports, inbound, queueA, queueB, this.trans room, rest⟩
    records := fun hp =>
      have ⟨rises, numbers, due⟩ := (h.records hp).rentals
      { h.records hp with rentals := ⟨rises, numbers.sublist (fewer.append_right _), due⟩ } }

theorem Part.Since.onAuth (h : p.Since q) (n : Nat) (f : Auth → Auth) (same : ∀ a, (f a).rental = a.rental) :
    p.Since (q.onAuth n f) := by
  refine h.setAuths _ ?_
  rw [List.map_map]
  refine (List.map_congr_left fun a _ => ?_).symm ▸ List.Sublist.refl _
  simp only [Function.comp_apply]
  split
  · exact same a
  · rfl

theorem Part.Since.delAuth (h : p.Since q) (n : Nat) : p.Since (q.delAuth n) := h.setAuths _ (List.filter_sublist.map _)

/-- Fewer entries wait, or the same ones marked. -/
theorem Part.Since.setWaitQ (h : p.Since q) (waitQ : List WaitEntry) (fewer : (waitQ.map (·.id)).Sublist (q.waitQ.map (·.id))) :
    p.Since { q with waitQ := waitQ } :=
  { h with
    bounded := fun hp => by
      obtain ⟨reports, inbound, queueA, queueB, auths, room, rest⟩ := h.bounded hp
      have := fewer.length_le
      simp only [List.length_map] at this
      exact ⟨reports, inbound, queueA, queueB, auths, this.trans room, rest⟩
    records := fun hp =>
      have ⟨once, below⟩ := (h.records hp).queue
      { h.records hp with queue := ⟨once.sublist fewer, fun w hw => by
          obtain ⟨x, hx, hxw⟩ := List.mem_map.1 (fewer.subset (List.mem_map_of_mem (f := (·.id)) hw))
          exact hxw ▸ below x hx⟩ } }

theorem Part.Since.filterWaitQ (h : p.Since q) (f : WaitEntry → Bool) : p.Since { q with waitQ := q.waitQ.filter f } :=
  h.setWaitQ _ (List.filter_sublist.map _)

theorem Part.Since.endEntry (h : p.Since q) (w : WaitEntry) (r : Result) : p.Since (q.endEntry w r) := by
  unfold Part.endEntry
  dsimp only
  split
  · exact (h.enter_essRoom _ ‹_›).filterWaitQ _
  · refine .await (h.setWaitQ _ ?_) nofun
    rw [List.map_map]
    refine (List.map_congr_left fun x _ => ?_).symm ▸ List.Sublist.refl _
    simp only [Function.comp_apply]
    split <;> rfl

theorem Part.Since.endQueued (h : p.Since q) (n : Nat) (r : Result) : p.Since (q.endQueued n r) := by
  unfold Part.endQueued
  split
  · exact h.endEntry _ _
  · exact h

/-! ## Contexts -/

theorem Part.Since.setCtxs (h : p.Since q) (ctxs : Table Ctx)
    (sound : p.Records → Table.rising q.ctxs ∧ (∀ e ∈ q.ctxs, e.1 < Config.contexts) →
      Table.rising ctxs ∧ ∀ e ∈ ctxs, e.1 < Config.contexts) : p.Since { q with ctxs := ctxs } :=
  { h with records := fun hp => { h.records hp with ctxs := sound hp (h.records hp).ctxs } }

theorem Part.Since.onCtx (h : p.Since q) (i : Nat) (f : Ctx → Ctx) : p.Since (q.onCtx i f) :=
  h.setCtxs _ fun _ k => ⟨Table.rising_modify _ _ _ k.1, fun e he => by
    have : e.1 ∈ q.ctxs.map (·.1) := Table.map_fst_modify q.ctxs i f ▸ List.mem_map_of_mem he
    obtain ⟨x, hx, hxe⟩ := List.mem_map.1 this
    exact hxe ▸ k.2 x hx⟩

theorem Part.Since.setResult (h : p.Since q) (i : Nat) (r : CtxResult) : p.Since (q.setResult i r) := h.onCtx i _

theorem Part.Since.putCtx (h : p.Since q) (i : Nat) (c : Ctx) (hi : p.Records → i < Config.contexts) :
    p.Since { q with ctxs := Table.put q.ctxs i c } :=
  h.setCtxs _ fun hp k => ⟨Table.rising_put _ _ _ k.1, fun e he => by
    rcases Table.fst_put_mem he with hk | he
    exacts [hk ▸ hi hp, k.2 e he]⟩

theorem Part.Since.delCtx (h : p.Since q) (i : Nat) : p.Since { q with ctxs := Table.del q.ctxs i } :=
  h.setCtxs _ fun _ k => ⟨Table.rising_del _ _ k.1, fun e he => k.2 e (Table.mem_del _ _ _ he).1⟩

theorem Part.Since.ctx_lt (h : p.Since q) {i : Nat} {c : Ctx} (hc : Table.look q.ctxs i = some c) (hp : p.Records) :
    i < Config.contexts := (h.records hp).ctxs.2 _ (Table.mem_of_look hc)

/-! ## Census, Drop Bin list, Tracking entries and the plain records -/

theorem Part.Since.onCen (h : p.Since q) (f : Cen → Cen)
    (list : q.cen.list.length ≤ Config.mismatchCap → (f q.cen).list.length ≤ Config.mismatchCap) : p.Since (q.onCen f) :=
  { h with
    records := fun hp => { h.records hp with }
    bounded := fun hp => by
      obtain ⟨reports, inbound, queueA, queueB, auths, waitQ, dropBin, room⟩ := h.bounded hp
      exact ⟨reports, inbound, queueA, queueB, auths, waitQ, dropBin, list room⟩ }

theorem Part.Since.setDropBin (h : p.Since q) (bin : List DropEntry)
    (room : q.dropBin.length ≤ Config.dropCap → bin.length ≤ Config.dropCap) : p.Since { q with dropBin := bin } :=
  { h with
    records := fun hp => { h.records hp with }
    bounded := fun hp => by
      obtain ⟨reports, inbound, queueA, queueB, auths, waitQ, dropBin, rest⟩ := h.bounded hp
      exact ⟨reports, inbound, queueA, queueB, auths, waitQ, room dropBin, rest⟩ }

theorem Part.Since.setTracking (h : p.Since q) (t : Table Track)
    (sound : Table.rising q.tfl.tracking ∧ (∀ e ∈ q.tfl.tracking, e.1 < Config.trackCap) →
      Table.rising t ∧ ∀ e ∈ t, e.1 < Config.trackCap) : p.Since { q with tfl := { q.tfl with tracking := t } } :=
  { h with records := fun hp =>
      have ⟨pass, tracking⟩ := (h.records hp).tracking
      { h.records hp with tracking := ⟨pass, sound tracking⟩ } }

theorem Part.Since.delTrack (h : p.Since q) (e : Nat) :
    p.Since { q with tfl := { q.tfl with tracking := Table.del q.tfl.tracking e } } :=
  h.setTracking _ fun k => ⟨Table.rising_del _ _ k.1, fun x hx => k.2 x (Table.mem_del _ _ _ hx).1⟩

theorem Part.Since.putTrack (h : p.Since q) {e : Nat} (t : Track)
    (he : (∀ e ∈ q.tfl.tracking, e.1 < Config.trackCap) → e < Config.trackCap) :
    p.Since { q with tfl := { q.tfl with tracking := Table.put q.tfl.tracking e t } } :=
  h.setTracking _ fun k => ⟨Table.rising_put _ _ _ k.1, fun x hx => by
    rcases Table.fst_put_mem hx with hk | hx
    exacts [hk ▸ he k.2, k.2 x hx]⟩

theorem Part.Since.trackSent (h : p.Since q) (e : Nat) : p.Since (q.trackSent e) :=
  h.setTracking _ fun k => ⟨Table.rising_modify _ _ _ k.1, fun x hx => by
    have : x.1 ∈ q.tfl.tracking.map (·.1) := Table.map_fst_modify q.tfl.tracking e _ ▸ List.mem_map_of_mem hx
    obtain ⟨y, hy, hyx⟩ := List.mem_map.1 this
    exact hyx ▸ k.2 y hy⟩

theorem Part.Since.setHold (h : p.Since q) (x : HoldSeq) : p.Since { q with holdSeq := x } := { h with records := fun hp => { h.records hp with } }

theorem Part.Since.setFilters (h : p.Since q) (x : Table (List (Nat × Nat))) (rises : Table.rising q.filters → Table.rising x) :
    p.Since { q with filters := x } :=
  { h with records := fun hp =>
      have ⟨groups, filters, dup⟩ := (h.records hp).plain
      { h.records hp with plain := ⟨groups, rises filters, dup⟩ } }

theorem Part.Since.setDupCounts (h : p.Since q) (x : Table Nat) (rises : Table.rising q.dupCounts → Table.rising x) :
    p.Since { q with dupCounts := x } :=
  { h with records := fun hp =>
      have ⟨groups, filters, dup⟩ := (h.records hp).plain
      { h.records hp with plain := ⟨groups, filters, rises dup⟩ } }

theorem Part.Since.setTicks (h : p.Since q) (rel alt cen : List Nat) :
    p.Since { q with tickRel := rel, tickAlt := alt, tickCen := cen } := { h with records := fun hp => { h.records hp with } }

end Sys2Proof.Machine
end

section
/-! PROOFS. The invariants that every step keeps, fourth layer: the Rental Table, the Due List and the tiers. -/

namespace Sys2Proof.Machine
open Sys2Proof

variable {p q : Part}

/-! ## Tables -/

/-- A record written over another is the table with that record changed. -/
theorem Table.put_over {α : Type} {t : Table α} (ht : Table.rising t) {i : Nat} {w : α} (hw : Table.look t i = some w) (v : α) :
    Table.put t i v = t.map (fun e => if e.1 = i then (i, v) else e) := by
  rw [Table.rising_iff] at ht
  induction t with
  | nil => simp at hw
  | cons e r ih =>
    obtain ⟨k, x⟩ := e
    rw [List.pairwise_cons] at ht
    simp only [Table.look] at hw
    split at hw
    · rename_i hk
      subst hk
      have others : r.map (fun e => if e.1 = k then (k, v) else e) = r := by
        conv => rhs; rw [← List.map_id r]
        exact List.map_congr_left fun e he => if_neg (Nat.ne_of_gt (ht.1 e he))
      simp [Table.put, others]
    · rename_i hk
      have hlt : k < i := ht.1 _ (Table.mem_of_look hw)
      simp [Table.put, Nat.not_lt.2 hlt.le, Nat.ne_of_gt hlt, Nat.ne_of_lt hlt, ih ht.2 hw]

theorem Table.map_self {α : Type} (t : List α) (f : α → α) (h : ∀ e ∈ t, f e = e) : t.map f = t := by
  conv => rhs; rw [← List.map_id t]
  exact List.map_congr_left h

/-! ## The Due List and the numbers -/

/-- What the Due List and the rental numbers go by: place, number, due minute, OPEN or not. -/
def rentalIds (t : Table Rental) : List (Nat × Nat × Nat × Bool) :=
  t.map (fun e => (e.1, e.2.number, e.2.due, e.2.snap.isNone))

/-- The clause of Part.Records on rentals. -/
def Part.RentalsOk (p : Part) : Prop := Table.rising p.rentals ∧ p.numbers.Nodup
  ∧ p.due.Nodup ∧ p.DueOrdered ∧ ∀ i, i ∈ p.due ↔ ∃ r, Table.look p.rentals i = some r ∧ r.snap = none

theorem look_of_rentalIds {t u : Table Rental} (h : rentalIds u = rentalIds t) (i : Nat) :
    (Table.look u i).map (fun r => (r.number, r.due, r.snap.isNone))
      = (Table.look t i).map (fun r => (r.number, r.due, r.snap.isNone)) := by
  rw [← Table.look_mapRec, ← Table.look_mapRec]
  exact congrArg (Table.look · i) h

/-- Records alike in those stand alike. -/
theorem Part.RentalsOk.of_ids (h : p.RentalsOk) (t : Table Rental) (same : rentalIds t = rentalIds p.rentals) :
    ({ p with rentals := t } : Part).RentalsOk := by
  obtain ⟨rises, numbers, once, ⟨used, order⟩, isOpen⟩ := h
  have looks := look_of_rentalIds same
  have fst : t.map (·.1) = p.rentals.map (·.1) := by
    simpa [rentalIds, Function.comp_def] using congrArg (List.map (·.1)) same
  have nums : t.map (·.2.number) = p.rentals.map (·.2.number) := by
    simpa [rentalIds, Function.comp_def] using congrArg (List.map (·.2.1)) same
  have back {i : Nat} {a : Rental} (ha : Table.look t i = some a) :
      ∃ b, Table.look p.rentals i = some b ∧ b.number = a.number ∧ b.due = a.due ∧ b.snap.isNone = a.snap.isNone := by
    have := looks i
    rw [ha] at this
    simpa [Option.map_eq_some_iff] using this.symm
  refine ⟨Table.rising_of_fst fst rises, ?_, once, ⟨fun i hi => ?_, order.imp fun {i j} hij a b ha hb => ?_⟩, fun i => ?_⟩
  · simpa only [Part.numbers, nums] using numbers
  · show (Table.look t i).isSome = true
    rw [Table.look_isSome_iff, fst, ← Table.look_isSome_iff]
    exact used i hi
  · obtain ⟨a', ha', hn, hd, -⟩ := back ha
    obtain ⟨b', hb', hn', hd', -⟩ := back hb
    rw [← hn, ← hd, ← hn', ← hd']
    exact hij a' b' ha' hb'
  · rw [isOpen i]
    show (∃ r, Table.look p.rentals i = some r ∧ r.snap = none) ↔ ∃ r, Table.look t i = some r ∧ r.snap = none
    have := looks i
    cases hu : Table.look t i <;> cases hv : Table.look p.rentals i <;> simp_all
    rw [← Option.isNone_iff_eq_none, ← Option.isNone_iff_eq_none, this.2.2]

/-! ## The tiers -/

theorem Part.Since.setRentals (h : p.Since q) (t : Table Rental) (ok : p.Records → q.RentalsOk →
      ({ q with rentals := t } : Part).RentalsOk)
    (tiers : p.Records → q.TiersCurrent → ({ q with rentals := t } : Part).TiersCurrent) : p.Since { q with rentals := t } :=
  { h with
    records := fun hp => { h.records hp with rentals := ok hp (h.records hp).rentals }
    tiers := fun hp ht => tiers hp (h.tiers hp ht) }

theorem Part.tierAlert_restA (p : Part) (n : Nat) (a b : Tier) : (p.tierAlert n a b).restA = p.restA := by
  unfold Part.tierAlert
  cases a <;> cases b <;> simp [Tier.alerting]

theorem Part.Since.tierAlert (h : p.Since q) (n : Nat) (a b : Tier) : p.Since (q.tierAlert n a b) := by
  unfold Part.tierAlert
  dsimp only
  repeat' split
  · exact h.replaceAlert _ _ _
  · exact h.replaceAlert _ _ _
  · exact h
  · exact h
  · exact h.raise _ _ _
  · exact h.raise _ _ _
  · exact (h.remove _ _).remove _ _
  · exact h

/-- The tier of one record after its recomputation at the part p (R97). -/
def Part.retiered (p : Part) (is : List Nat) (e : Nat × Rental) : Nat × Rental :=
  if e.1 ∈ is ∧ e.2.snap = none then (e.1, { e.2 with tier := p.tierNow e.2 }) else e

theorem Part.retiered_ids (p : Part) (is : List Nat) (t : Table Rental) :
    rentalIds (List.map (p.retiered is) t) = rentalIds t := by
  unfold rentalIds
  rw [List.map_map]
  refine List.map_congr_left fun e _ => ?_
  simp only [Function.comp_apply, Part.retiered]
  split <;> rfl

theorem Part.tierChange_rentals (p : Part) (i : Nat) (r : Rental) (a b : Tier) :
    (p.tierChange i r a b).rentals = Table.put p.rentals i { r with tier := b } := by
  have alert (x : Part) : (x.tierAlert r.number a b).rentals = x.rentals := by
    have := congrArg Part.rentals (x.tierAlert_restA r.number a b)
    exact this
  have home (x : Part) (s : Option Nat) : (x.touchSlotO s).rentals = x.rentals := by cases s <;> rfl
  unfold Part.tierChange
  dsimp only
  split <;> simp only [Part.offerOrd_fields, alert, home]

/-- The recomputation of one tier writes it, and no other. -/
theorem Part.recomputeTier_rentals (p : Part) (i : Nat) (rises : Table.rising p.rentals) :
    (p.recomputeTier i).rentals = p.rentals.map (p.retiered [i]) := by
  have none_at (e : Nat × Rental) (he : e ∈ p.rentals) (hi : e.1 = i) : Table.look p.rentals i = some e.2 :=
    Table.look_of_mem rises (hi ▸ he)
  unfold Part.recomputeTier
  split
  · rename_i hnone
    refine (Table.map_self _ _ fun e he => ?_).symm
    refine if_neg fun k => ?_
    rw [none_at e he (by simpa using k.1)] at hnone
    cases hnone
  · rename_i r hr
    split
    · rename_i hsame
      refine (Table.map_self _ _ fun e he => ?_).symm
      unfold Part.retiered
      split
      · rename_i k
        obtain ⟨hi, hsnap⟩ := k
        rw [none_at e he (by simpa using hi)] at hr
        cases hr
        rw [(hsame.resolve_left (by simp [hsnap]))]
      · rfl
    · rename_i hdiff
      rw [Part.tierChange_rentals, Table.put_over rises hr]
      refine List.map_congr_left fun e he => ?_
      unfold Part.retiered
      by_cases hi : e.1 = i
      · have := (none_at e he hi).symm.trans hr
        cases this
        have hsnap : e.2.snap = none := by simpa using not_or.1 hdiff |>.1
        simp [hi, hsnap]
      · simp [hi]

theorem Part.Since.recomputeTier (h : p.Since q) (i : Nat) : p.Since (q.recomputeTier i) := by
  unfold Part.recomputeTier
  split
  · exact h
  · rename_i r hr
    split
    · exact h
    · have written : p.Since { q with rentals := Table.put q.rentals i { r with tier := q.tierNow r } } := by
        refine h.setRentals _ (fun _ ok => ok.of_ids _ ?_) (fun _ ht e he hsnap => ?_)
        · exact Table.map_put_same ok.1 (fun r => (r.number, r.due, r.snap.isNone))
            (List.mem_map_of_mem (f := fun e : Nat × Rental => (e.1, e.2.number, e.2.due, e.2.snap.isNone))
              (Table.mem_of_look hr))
        · rcases Table.mem_put _ _ _ _ he with rfl | he
          · rfl
          · exact ht e he hsnap
      have told := (written.touchSlotO (q.homeOf r.key)).tierAlert r.number r.tier (q.tierNow r)
      unfold Part.tierChange
      dsimp only
      split
      · exact told.offerOrd _
      · exact told

/-- Every tier listed is recomputed. -/
theorem Part.foldl_recomputeTier_rentals (is : List Nat) (p : Part) (rises : Table.rising p.rentals) :
    (is.foldl Part.recomputeTier p).rentals = p.rentals.map (p.retiered is) := by
  induction is generalizing p with
  | nil => exact (Table.map_self _ _ fun e _ => by simp [Part.retiered]).symm
  | cons i is ih =>
    have since := (Part.Since.refl p).recomputeTier i
    have next := p.recomputeTier_rentals i rises
    have rises' : Table.rising (p.recomputeTier i).rentals := by
      rw [next]
      refine Table.rising_of_fst ?_ rises
      rw [List.map_map]
      refine List.map_congr_left fun e _ => ?_
      simp only [Function.comp_apply, Part.retiered]
      split <;> rfl
    rw [List.foldl_cons, ih _ rises', next, List.map_map]
    refine List.map_congr_left fun e _ => ?_
    have tier : (p.recomputeTier i).tierNow = p.tierNow := funext since.tierNow
    simp only [Function.comp_apply, Part.retiered, List.mem_cons, List.not_mem_nil, or_false, tier]
    by_cases hs : e.2.snap = none
    · by_cases hi : e.1 = i
      · simp [hi, hs, Part.tierNow]
      · simp [hi, hs]
    · simp [hs]

theorem Part.Since.recomputeTiers (h : p.Since q) : p.Since q.recomputeTiers :=
  Part.Since.foldl _ (fun _ hr i _ => hr.recomputeTier i) h

/-- After the recomputation of the Due List every OPEN record has its tier. -/
theorem Part.recomputeTiers_current (p : Part) (h : p.Records) : p.recomputeTiers.TiersCurrent := by
  have since := (Part.Since.refl p).recomputeTiers
  obtain ⟨rises, -, -, -, isOpen⟩ := h.rentals
  intro e he hsnap
  unfold Part.recomputeTiers at he
  rw [Part.foldl_recomputeTier_rentals _ _ rises] at he
  obtain ⟨x, hx, rfl⟩ := List.mem_map.1 he
  rw [since.tierNow]
  unfold Part.retiered at hsnap ⊢
  split at hsnap
  · rename_i k
    rw [if_pos k]
    rfl
  · rename_i k
    exact absurd ⟨(isOpen x.1).2 ⟨x.2, Table.look_of_mem rises hx, hsnap⟩, hsnap⟩ k

/-! ## Records written -/

/-- An OPEN record written in a place, at its place of the Due List. -/
theorem Part.RentalsOk.putOpen (h : p.RentalsOk) (i : Nat) (r : Rental) (hopen : r.snap = none)
    (numbers : ({ p with rentals := Table.put p.rentals i r } : Part).numbers.Nodup) :
    ({ p with rentals := Table.put p.rentals i r } : Part).dueInsert i |>.RentalsOk := by
  obtain ⟨rises, -, once, ⟨used, order⟩, isOpen⟩ := h
  have here : Table.look (Table.put p.rentals i r) i = some r := Table.look_put_same _ _ _
  have there (j : Nat) (hj : j ≠ i) : Table.look (Table.put p.rentals i r) j = Table.look p.rentals j :=
    Table.look_put_other _ _ _ _ hj
  have aside (j : Nat) (hj : j ∈ p.due.filter (fun j => j != i)) : j ∈ p.due ∧ j ≠ i := by simpa using hj
  refine ⟨Table.rising_put _ _ _ rises, numbers, insertBy_nodup _ _ _ (once.filter _) (by simp), ?_, fun j => ?_⟩
  · refine Part.dueInsert_ordered _ i (by simp [here]) ⟨fun j hj => ?_, ?_⟩
    · obtain ⟨hj, hne⟩ := aside j hj
      show (Table.look (Table.put p.rentals i r) j).isSome = true
      rw [there j hne]
      exact used j hj
    · refine (order.filter _).imp_of_mem fun {j k} hj hk hjk a b ha hb => ?_
      rw [there j (aside j hj).2] at ha
      rw [there k (aside k hk).2] at hb
      exact hjk a b ha hb
  · show j ∈ insertBy _ i (p.due.filter (fun j => j != i)) ↔ ∃ x, Table.look (Table.put p.rentals i r) j = some x ∧ x.snap = none
    rw [mem_insertBy]
    by_cases hj : j = i
    · subst hj
      simp [here, hopen]
    · rw [there j hj, ← isOpen j]
      simp [hj]

/-- A place is written with an OPEN record, which takes its tier: a new rental (R94) or an extended one (R100). -/
theorem Part.Since.putOpen (h : p.Since q) (i : Nat) (r : Rental) (s : Option Nat) (hopen : r.snap = none)
    (numbers : p.Records → ({ q with rentals := Table.put q.rentals i r } : Part).numbers.Nodup) :
    p.Since (((({ q with rentals := Table.put q.rentals i r } : Part).touchSlotO s).dueInsert i).recomputeTier i) := by
  have swap : (({ q with rentals := Table.put q.rentals i r } : Part).touchSlotO s).dueInsert i
      = (({ q with rentals := Table.put q.rentals i r } : Part).dueInsert i).touchSlotO s := by cases s <;> rfl
  rw [swap]
  have ok (hp : p.Records) := Part.RentalsOk.putOpen (h.records hp).rentals i r hopen (numbers hp)
  generalize hx : (({ q with rentals := Table.put q.rentals i r } : Part).dueInsert i) = x at ok ⊢
  have since := (((Part.Since.refl x).touchSlotO s).recomputeTier i)
  have records (hp : p.Records) : x.Records := by subst hx; exact { h.records hp with rentals := ok hp }
  have rest : x.mono = q.mono ∧ x.strapHigh = q.strapHigh ∧ x.clock = q.clock ∧ x.zone = q.zone ∧ x.schedule = q.schedule
      ∧ x.policy = q.policy ∧ x.keyIds = q.keyIds ∧ x.rentals = Table.put q.rentals i r := by
    subst hx; exact ⟨rfl, rfl, rfl, rfl, rfl, rfl, rfl, rfl⟩
  obtain ⟨mono, strap, clock, zone, schedule, policy, ids, rentals⟩ := rest
  refine ⟨since.mono.trans (mono.trans h.mono), since.strap.trans (strap.trans h.strap), since.clock.trans (clock.trans h.clock),
    since.zone.trans (zone.trans h.zone), since.schedule.trans (schedule.trans h.schedule),
    since.policy.trans (policy.trans h.policy), fun hp => since.bounded (by subst hx; exact h.bounded hp),
    fun hp => since.records (records hp), fun hp ht => ?_, fun hp => (since.ids (records hp)).trans (ids.trans (h.ids hp))⟩
  have home : (x.touchSlotO s).rentals = x.rentals := by cases s <;> rfl
  have rises : Table.rising (x.touchSlotO s).rentals := home ▸ (ok hp).1
  have tier : (x.touchSlotO s).tierNow = q.tierNow := by
    funext r
    cases s <;> simp only [Part.tierNow, Part.now, Part.touchSlotO, Part.touchSlot, Part.touch_fields, policy, clock]
  intro e he hsnap
  rw [Part.recomputeTier_rentals _ _ rises, home, rentals] at he
  obtain ⟨y, hy, rfl⟩ := List.mem_map.1 he
  rw [since.tierNow, show x.tierNow = q.tierNow by funext r; simp only [Part.tierNow, Part.now, policy, clock]]
  unfold Part.retiered at hsnap ⊢
  rw [tier] at hsnap ⊢
  split at hsnap
  · rename_i k
    rw [if_pos k]
    rfl
  · rename_i k
    rw [if_neg k]
    rcases Table.mem_put _ _ _ _ hy with rfl | hy
    · exact absurd ⟨by simp, hopen⟩ k
    · exact h.tiers hp ht y hy hsnap

/-- The numbers in use when a record takes a number that is not. -/
theorem Part.numbers_put_fresh (p : Part) (h : p.numbers.Nodup) (i : Nat) (r : Rental) (fresh : r.number ∉ p.numbers) :
    ({ p with rentals := Table.put p.rentals i r } : Part).numbers.Nodup := by
  obtain ⟨l, m, hput, ht⟩ := Table.put_split p.rentals i r
  have sub : (p.auths.map (·.rental) ++ (l ++ m).map (·.2.number)).Sublist p.numbers := by
    refine List.Sublist.append_left ?_ _
    rcases ht with ht | ⟨w, ht⟩
    · rw [ht]
    · rw [ht]
      exact ((List.Sublist.refl l).append (List.sublist_cons_self _ _)).map _
  have perm : ({ p with rentals := Table.put p.rentals i r } : Part).numbers.Perm
      (r.number :: (p.auths.map (·.rental) ++ (l ++ m).map (·.2.number))) := by
    simp only [Part.numbers, hput, List.map_append, List.map_cons]
    rw [← List.append_assoc, ← List.append_assoc]
    exact List.perm_middle
  rw [perm.nodup_iff, List.nodup_cons]
  exact ⟨fun hm => fresh (sub.subset hm), h.sublist sub⟩

/-- The numbers in use when a record is written over one of its number. -/
theorem Part.numbers_put_same (p : Part) (h : p.RentalsOk) {i : Nat} {r w : Rental} (hw : Table.look p.rentals i = some w)
    (same : r.number = w.number) : ({ p with rentals := Table.put p.rentals i r } : Part).numbers = p.numbers := by
  have := Table.map_put_same h.1 (fun r : Rental => r.number) (i := i) (v := r)
    (same ▸ List.mem_map_of_mem (f := fun e : Nat × Rental => (e.1, e.2.number)) (Table.mem_of_look hw))
  have nums : (Table.put p.rentals i r).map (·.2.number) = p.rentals.map (·.2.number) := by
    simpa [Function.comp_def] using congrArg (List.map (·.2)) this
  simp only [Part.numbers, nums]

/-- A record closes and leaves the Due List (R60, R61). -/
theorem Part.RentalsOk.close (h : p.RentalsOk) {i : Nat} {r w : Rental} (hw : Table.look p.rentals i = some w)
    (same : r.number = w.number) (closed : r.snap ≠ none) :
    (({ p with rentals := Table.put p.rentals i r } : Part).dueRemove i).RentalsOk := by
  have numbers := p.numbers_put_same h hw same
  obtain ⟨rises, once', once, ⟨used, order⟩, isOpen⟩ := h
  have here : Table.look (Table.put p.rentals i r) i = some r := Table.look_put_same _ _ _
  have there (j : Nat) (hj : j ≠ i) : Table.look (Table.put p.rentals i r) j = Table.look p.rentals j :=
    Table.look_put_other _ _ _ _ hj
  have aside (j : Nat) (hj : j ∈ p.due.filter (fun j => j != i)) : j ∈ p.due ∧ j ≠ i := by simpa using hj
  refine ⟨Table.rising_put _ _ _ rises, ?_, once.filter _, ⟨fun j hj => ?_, ?_⟩, fun j => ?_⟩
  · exact numbers ▸ once'
  · obtain ⟨hj, hne⟩ := aside j hj
    show (Table.look (Table.put p.rentals i r) j).isSome = true
    rw [there j hne]
    exact used j hj
  · refine (order.filter _).imp_of_mem fun {j k} hj hk hjk a b ha hb => ?_
    have ha : Table.look (Table.put p.rentals i r) j = some a := ha
    have hb : Table.look (Table.put p.rentals i r) k = some b := hb
    rw [there j (aside j hj).2] at ha
    rw [there k (aside k hk).2] at hb
    exact hjk a b ha hb
  · show j ∈ p.due.filter (fun j => j != i) ↔ ∃ x, Table.look (Table.put p.rentals i r) j = some x ∧ x.snap = none
    by_cases hj : j = i
    · subst hj
      simp [here, closed]
    · rw [there j hj, ← isOpen j]
      simp [hj]

/-- The place of a record that is not OPEN becomes free (R62). -/
theorem Part.Since.freeRental (h : p.Since q) (i : Nat)
    (closed : p.Records → ∀ r, Table.look q.rentals i = some r → r.snap ≠ none) : p.Since (q.freeRental i) := by
  refine h.setRentals _ (fun hp ok => ?_) (fun _ ht e he => ht e (Table.mem_del _ _ _ he).1)
  obtain ⟨rises, numbers, once, ⟨used, order⟩, isOpen⟩ := ok
  have out : i ∉ q.due := fun hi => by
    obtain ⟨r, hr, hsnap⟩ := (isOpen i).1 hi
    exact closed hp r hr hsnap
  have there (j : Nat) (hj : j ≠ i) : Table.look (Table.del q.rentals i) j = Table.look q.rentals j :=
    Table.look_del_other _ _ _ hj
  have ne (j : Nat) (hj : j ∈ q.due) : j ≠ i := fun e => out (e ▸ hj)
  have sub : (Table.del q.rentals i).Sublist q.rentals := by
    induction q.rentals with
    | nil => exact List.Sublist.refl _
    | cons e r ih =>
      simp only [Table.del]
      split
      · exact ih.cons _
      · exact ih.cons_cons _
  refine ⟨Table.rising_del _ _ rises, numbers.sublist ((sub.map _).append_left _), once, ⟨fun j hj => ?_, ?_⟩, fun j => ?_⟩
  · show (Table.look (Table.del q.rentals i) j).isSome = true
    rw [there j (ne j hj)]
    exact used j hj
  · refine order.imp_of_mem fun {j k} hj hk hjk a b ha hb => ?_
    have ha : Table.look (Table.del q.rentals i) j = some a := ha
    have hb : Table.look (Table.del q.rentals i) k = some b := hb
    rw [there j (ne j hj)] at ha
    rw [there k (ne k hk)] at hb
    exact hjk a b ha hb
  · show j ∈ q.due ↔ ∃ x, Table.look (Table.del q.rentals i) j = some x ∧ x.snap = none
    by_cases hj : j = i
    · subst hj
      simp [out, Table.look_del_same]
    · rw [there j hj, isOpen j]

/-- An OPEN rental is closed with its snapshot, and its RETURN offered (R60, R62). -/
theorem Part.Since.closeRental (h : p.Since q) {i : Nat} {r : Rental} (hr : p.Records → Table.look q.rentals i = some r)
    (x : Snapshot) : p.Since (q.closeRental i r x) := by
  have swap (s : Option Nat) : (({ q with rentals := Table.put q.rentals i { r with snap := some x } } : Part).touchSlotO s).dueRemove i
      = (({ q with rentals := Table.put q.rentals i { r with snap := some x } } : Part).dueRemove i).touchSlotO s := by
    cases s <;> rfl
  have closed : p.Since (({ q with rentals := Table.put q.rentals i { r with snap := some x } } : Part).dueRemove i) :=
    { h with
      records := fun hp => { h.records hp with rentals := Part.RentalsOk.close (h.records hp).rentals (hr hp) rfl nofun }
      tiers := fun hp ht e he hsnap => by
        rcases Table.mem_put _ _ _ _ he with rfl | he
        · cases hsnap
        · exact h.tiers hp ht e he hsnap }
  unfold Part.closeRental
  dsimp only
  rw [swap]
  have told := ((closed.touchSlotO (q.homeOf r.key)).remove .overdue (.rental r.number)).remove .escalated (.rental r.number)
  unfold Part.offerReturn
  split
  · refine (told.enter_essRoom _ ‹_›).freeRental i (fun _ w hw => ?_)
    have home (y : Part) (s : Option Nat) : (y.touchSlotO s).rentals = y.rentals := by cases s <;> rfl
    simp only [Part.enter_fields, Part.remove_fields, home, Part.dueRemove_fields, Table.look_put_same] at hw
    cases hw
    nofun
  · exact told.await nofun

end Sys2Proof.Machine
end

section
/-! PROOFS. What every step keeps, fifth layer: the operations of the Release Engine, the Return Engine and the Census Engine. -/

namespace Sys2Proof.Machine
open Sys2Proof

variable {p q : Part}

/-! ## The writing of a key -/

@[simp] theorem Part.touchSlotO_fields (p : Part) (s : Option Nat) :
    (p.touchSlotO s).mono = p.mono ∧ (p.touchSlotO s).strapHigh = p.strapHigh ∧ (p.touchSlotO s).link = p.link ∧
    (p.touchSlotO s).tfl = p.tfl ∧ (p.touchSlotO s).chanA = p.chanA ∧ (p.touchSlotO s).chanB = p.chanB ∧
    (p.touchSlotO s).rows = p.rows ∧ (p.touchSlotO s).keys = p.keys ∧ (p.touchSlotO s).slotMap = p.slotMap ∧
    (p.touchSlotO s).groups = p.groups ∧ (p.touchSlotO s).holdSeq = p.holdSeq ∧ (p.touchSlotO s).auths = p.auths ∧
    (p.touchSlotO s).ctxs = p.ctxs ∧ (p.touchSlotO s).waitQ = p.waitQ ∧ (p.touchSlotO s).nextId = p.nextId ∧
    (p.touchSlotO s).dropBin = p.dropBin ∧ (p.touchSlotO s).filters = p.filters ∧
    (p.touchSlotO s).dupCounts = p.dupCounts ∧ (p.touchSlotO s).clock = p.clock ∧ (p.touchSlotO s).zone = p.zone ∧
    (p.touchSlotO s).schedule = p.schedule ∧ (p.touchSlotO s).rentals = p.rentals ∧ (p.touchSlotO s).due = p.due ∧
    (p.touchSlotO s).tickRel = p.tickRel ∧ (p.touchSlotO s).tickAlt = p.tickAlt ∧ (p.touchSlotO s).tickCen = p.tickCen ∧
    (p.touchSlotO s).alt = p.alt ∧ (p.touchSlotO s).cen = p.cen ∧ (p.touchSlotO s).policy = p.policy := by
  cases s <;> simp [Part.touchSlotO]

@[simp] theorem Part.setKey_fields (p : Part) (h : Nat) (k : KeyRec) :
    (p.setKey h k).mono = p.mono ∧ (p.setKey h k).strapHigh = p.strapHigh ∧ (p.setKey h k).link = p.link ∧
    (p.setKey h k).tfl = p.tfl ∧ (p.setKey h k).chanA = p.chanA ∧ (p.setKey h k).chanB = p.chanB ∧
    (p.setKey h k).rows = p.rows ∧ (p.setKey h k).keys = Table.put p.keys h k ∧ (p.setKey h k).slotMap = p.slotMap ∧
    (p.setKey h k).groups = p.groups ∧ (p.setKey h k).holdSeq = p.holdSeq ∧ (p.setKey h k).auths = p.auths ∧
    (p.setKey h k).ctxs = p.ctxs ∧ (p.setKey h k).waitQ = p.waitQ ∧ (p.setKey h k).nextId = p.nextId ∧
    (p.setKey h k).dropBin = p.dropBin ∧ (p.setKey h k).filters = p.filters ∧
    (p.setKey h k).dupCounts = p.dupCounts ∧ (p.setKey h k).clock = p.clock ∧ (p.setKey h k).zone = p.zone ∧
    (p.setKey h k).schedule = p.schedule ∧ (p.setKey h k).rentals = p.rentals ∧ (p.setKey h k).due = p.due ∧
    (p.setKey h k).tickRel = p.tickRel ∧ (p.setKey h k).tickAlt = p.tickAlt ∧ (p.setKey h k).tickCen = p.tickCen ∧
    (p.setKey h k).alt = p.alt ∧ (p.setKey h k).cen = p.cen ∧ (p.setKey h k).policy = p.policy := by
  simp [Part.setKey]

/-! ## Authorizations and keys -/

theorem Part.Since.retarget (h : p.Since q) (i cls : Nat) : p.Since (q.retarget i cls) := by
  unfold Part.retarget
  split
  · exact h
  · exact .offerOrd (h.onAuth _ _ fun _ => by rfl) _

theorem Part.Since.keyTaken (h : p.Since q) {i : Nat} {k : KeyRec} (hk : p.HasKey i k) : p.Since (q.keyTaken i k) := by
  have taken := (h.setKey (k := k.gone .missing none none) hk).raise .taken (.key i) none
  unfold Part.keyTaken
  dsimp only
  split
  · exact taken.retarget _ _
  · exact taken

theorem Part.Since.restoreTarget (h : p.Since q) (t : Target) : p.Since (q.restoreTarget t) := by
  unfold Part.restoreTarget
  split
  · exact h
  · split
    · split
      · rename_i k hk _
        exact h.setKey (h.hasKey_of_look (k := k) hk :)
      · exact h
    · exact h

theorem Part.Since.authExpire (h : p.Since q) (m n : Nat) : p.Since (Part.authExpire m q n) := by
  unfold Part.authExpire
  split
  · exact h
  · split
    · exact h
    · exact ((((h.delAuth _).restoreTarget _).remove _ _).endQueued _ _).offerOrd _

theorem Part.Since.authExpireAll (h : p.Since q) (m : Nat) : p.Since (q.authExpireAll m) :=
  Part.Since.foldl _ (fun _ hr n _ => hr.authExpire m n) h

/-! ## Contexts -/

theorem Part.Since.startCtx (h : p.Since q) {i : Nat} (hi : p.Records → i < Config.contexts) (r : RelReq) (g : Grant) :
    p.Since (q.startCtx i r g) := by
  have active : p.Since (match r.subject with
      | .rental n => q.onAuth n (fun a => { a with state := .active })
      | _ => q) := by
    split
    · exact h.onAuth _ _ fun _ => by rfl
    · exact h
  unfold Part.startCtx
  dsimp only
  refine .touchSlot (.pushLock (.onRow (.putCtx ?_ i _ hi) _ _) _ _) _
  split
  · rename_i j k hjk
    obtain ⟨j', -, hlook⟩ := Option.bind_eq_some_iff.1 hjk
    obtain ⟨k', hlook, he⟩ := Option.map_eq_some_iff.1 hlook
    cases he
    have hk : p.HasKey j k := active.hasKey_of_look hlook
    exact active.setKey hk
  · exact active

theorem Part.Since.takeQueueFrom (n : Nat) {i : Nat} (hi : p.Records → i < Config.contexts) {q : Part} (h : p.Since q) :
    p.Since (takeQueueFrom n i q) := by
  induction n generalizing q with
  | zero => exact h
  | succ n ih =>
    unfold Machine.takeQueueFrom
    split
    · exact h
    · split
      · exact (h.filterWaitQ _).startCtx hi _ _
      · exact ih (h.endEntry _ _)

theorem Part.Since.unbind (h : p.Since q) (i : Nat) (c : Ctx) : p.Since (q.unbind i c) := by
  unfold Part.unbind
  split
  · exact (h.onRow _ _).touchSlot _
  · exact h

theorem Part.Since.freeCtx (h : p.Since q) (i : Nat) : p.Since (q.freeCtx i) := by
  unfold Part.freeCtx
  split
  · exact h
  · rename_i c hc
    exact (((h.delCtx i).unbind i c).leaveClose i).takeQueueFrom _ (h.ctx_lt hc)

theorem Part.Since.ctxFinal (h : p.Since q) (i : Nat) : p.Since (q.ctxFinal i) := by
  unfold Part.ctxFinal
  split
  · exact h
  · split
    · exact (h.enter_essRoom _ ‹_›).freeCtx i
    · refine .touchSlotO (.await (w := .context i) (h.onCtx i _) ?_) _
      nofun

theorem Part.Since.returnKey (h : p.Since q) (c : Ctx) : p.Since (q.returnKey c) := by
  unfold Part.returnKey
  split
  · exact h
  · rename_i j k hjk
    obtain ⟨j', -, hlook⟩ := Option.bind_eq_some_iff.1 hjk
    obtain ⟨k', hlook, he⟩ := Option.map_eq_some_iff.1 hlook
    cases he
    split
    · exact h
    · have hk : p.HasKey j k := h.hasKey_of_look hlook
      refine h.setKey ?_
      split
      · exact hk
      · exact hk

theorem Part.Since.authBack (h : p.Since q) (r : RelReq) : p.Since (q.authBack r) := by
  unfold Part.authBack
  repeat' split
  · exact h
  · exact (h.delAuth _).offerOrd _
  · exact h.onAuth _ _ fun _ => by rfl
  · exact h
  · exact h

theorem Part.Since.beginClose (h : p.Since q) (i : Nat) (c : Ctx) : p.Since (q.beginClose i c) :=
  ((h.pushClose _ _ _ _).onCtx _ _).touchSlot _

theorem Part.Since.giveUp (h : p.Since q) (i : Nat) (c : Ctx) (r : CtxResult) : p.Since (q.giveUp i c r) :=
  (((h.setResult i r).authBack _).returnKey c).beginClose i c

theorem Part.Since.markJam (h : p.Since q) (s : Nat) : p.Since (q.markJam s) := ((h.onRow _ _).touchSlot _).raise _ _ _

theorem Part.Since.ctxFault (h : p.Since q) (i : Nat) (c : Ctx) : p.Since (q.ctxFault i c) := (h.markJam _).giveUp _ _ _

theorem Part.Since.closeFail (h : p.Since q) (i : Nat) (c : Ctx) : p.Since (q.closeFail i c) :=
  ((h.markJam _).onCtx _ _).ctxFinal _

theorem Part.Since.openWindow (h : p.Since q) (i : Nat) : p.Since (q.openWindow i) := h.onCtx i _

theorem Part.Since.ctxLock (h : p.Since q) (i : Nat) (l : LockState) : p.Since (q.ctxLock i l) := by
  unfold Part.ctxLock
  split
  · exact h
  · split
    · exact (h.openWindow _).touchSlotO _
    · exact h.ctxFault _ _
    · exact h.raise _ _ _
    · exact h.raise _ _ _
    · exact (h.onCtx _ _).ctxFinal _
    · exact h.closeFail _ _
    · exact h

theorem Part.Since.windowExpire (h : p.Since q) (i : Nat) : p.Since (q.windowExpire i) := by
  unfold Part.windowExpire
  repeat' split
  · exact h
  · exact h.giveUp _ _ _
  · exact h

theorem Part.Since.ctxSettleStart (h : p.Since q) (i : Nat) : p.Since (q.ctxSettleStart i) := by
  unfold Part.ctxSettleStart
  repeat' split
  · exact h
  · exact ((h.openWindow _).onCtx _ _).touchSlotO _
  · exact (h.onCtx _ _).touchSlotO _
  · exact h

theorem Part.Since.ctxSettleCancel (h : p.Since q) (i : Nat) : p.Since (q.ctxSettleCancel i) := by
  unfold Part.ctxSettleCancel
  repeat' split
  · exact h
  · exact ((h.onCtx _ _).touchSlotO _).windowExpire _
  · exact h

theorem Part.Since.lockLimitOpening (h : p.Since q) (i : Nat) : p.Since (q.lockLimitOpening i) := by
  unfold Part.lockLimitOpening
  repeat' split
  · exact h
  · exact h.ctxFault _ _
  · exact h

theorem Part.Since.lockLimitClosing (h : p.Since q) (i : Nat) : p.Since (q.lockLimitClosing i) := by
  unfold Part.lockLimitClosing
  repeat' split
  · exact h
  · exact h.closeFail _ _
  · exact h

/-! ## Removals -/

theorem Part.auth_some {p : Part} {n : Nat} {a : Auth} (h : p.auth n = some a) : a ∈ p.auths ∧ a.rental = n :=
  ⟨List.mem_of_find?_eq_some h, by simpa using List.find?_some h⟩

theorem Part.Since.createRental (h : p.Since q) (i number key out due grace : Nat) (kind : RentalKind)
    (fresh : p.Records → number ∉ q.numbers) : p.Since (q.createRental i number key out due grace kind) :=
  h.putOpen i _ _ rfl fun hp => q.numbers_put_fresh (h.records hp).rentals.2.1 i _ (fresh hp)

theorem Part.Since.relComplete (h : p.Since q) (i : Nat) (c : Ctx) {j : Nat} {k : KeyRec} {a : Auth} (hk : p.HasKey j k)
    (ha : a ∈ q.auths) (m : Nat) (late : Bool) : p.Since (q.relComplete i c j k a m late) := by
  have created : ∀ x : Ctx → Ctx, p.Since ((((q.onCtx i x).delAuth a.rental).setKey j
      (k.gone .out (some (c.reservation.getD 0)) none)).createRental (c.reservation.getD 0) a.rental j m a.due
      (a.grace.getD q.policy.graceDefault) (if c.req.kind = .pickup then .kiosk else .counter)) := fun x => by
    refine .createRental (((h.onCtx i x).delAuth a.rental).setKey (k := k.gone .out (some (c.reservation.getD 0)) none) hk) _ _ _ _ _ _ _ (fun hp => ?_)
    have once := (h.records hp).rentals.2.1
    simp only [Part.numbers, List.nodup_append] at once
    simp only [Part.numbers, Part.setKey_fields, Part.delAuth_fields, Part.onCtx_fields, List.mem_append, List.mem_map,
      List.mem_filter, not_or]
    refine ⟨by rintro ⟨b, ⟨-, hb⟩, he⟩; simp [he] at hb, ?_⟩
    rintro ⟨e, he, hn⟩
    exact once.2.2 a.rental (List.mem_map_of_mem ha) e.2.number (List.mem_map_of_mem (f := (·.2.number)) he) hn.symm
  unfold Part.relComplete
  dsimp only
  simp only [Part.setKey_fields, Part.delAuth_fields, Part.onCtx_fields]
  split
  · exact created _
  · exact (created _).beginClose _ _

theorem Part.Since.keyService (h : p.Since q) {i : Nat} {k : KeyRec} (hk : p.HasKey i k) : p.Since (q.keyService i k) := by
  have away := h.setKey (k := k.gone .away none (some .service)) hk
  unfold Part.keyService
  dsimp only
  split
  · exact away.retarget _ _
  · exact away

theorem Part.Since.removalPlain (h : p.Since q) (s : Nat) {k : Option (Nat × KeyRec)}
    (hk : ∀ e, k = some e → p.HasKey e.1 e.2) : p.Since (q.removalPlain s k) := by
  unfold Part.removalPlain
  split
  · exact h.keyTaken (hk _ rfl)
  · exact h.remove _ _

theorem Part.Since.ctxKeyLeft (h : p.Since q) (i s : Nat) (old : Occ) (m : Nat) : p.Since (q.ctxKeyLeft i s old m) := by
  unfold Part.ctxKeyLeft
  split
  · exact h
  · rename_i c hc
    dsimp only
    have located : ∀ e, (q.keyOfOcc old).filter (fun e => e.2.loc == some s) = some e → p.HasKey e.1 e.2 := fun e he =>
      h.hasKey_of_occ (Option.filter_eq_some_iff.1 he).1
    have own : ∀ e, ((q.keyOfOcc old).filter (fun e => e.2.loc == some s)).filter (fun e => c.key == some e.1) = some e →
        p.HasKey e.1 e.2 := fun e he => located e (Option.filter_eq_some_iff.1 he).1
    generalize (q.keyOfOcc old).filter (fun e => e.2.loc == some s) = l at located own
    have foreign := h.remove .foreign (.slot s)
    split
    · split
      · split
        · rename_i j k a hown ha
          exact h.relComplete i c (own (j, k) hown) (Part.auth_some ha).1 m false
        · exact h.removalPlain s located
      · split
        · rename_i j k hown
          exact ((h.keyService (own (j, k) hown)).setResult _ _).beginClose _ _
        · exact h.removalPlain s located
      · refine .beginClose (.setResult ?_ _ _) _ _
        split
        · exact foreign.keyService (located _ rfl)
        · exact foreign
    · split
      · split
        · split
          · rename_i j k a ha
            split
            · exact h.relComplete i c (located (j, k) rfl) (Part.auth_some ha).1 m true
            · exact h.removalPlain s located
          · exact h.removalPlain s located
        · split
          · rename_i j k hown
            split
            · exact ((h.keyService (own (j, k) hown)).setResult _ _).beginClose _ _
            · exact h.removalPlain s located
          · exact h.removalPlain s located
        · exact foreign.removalPlain s located
      · split
        · exact foreign.removalPlain s located
        · exact h.removalPlain s located

/-! ## Relocation, loss and restart -/

theorem Part.Since.endForRelocation (h : p.Since q) (i : Nat) (c : Ctx) : p.Since (q.endForRelocation i c) :=
  ((h.setResult _ _).authBack _).beginClose _ _

theorem Part.Since.ctxFinalUnbound (h : p.Since q) (i : Nat) : p.Since (q.ctxFinalUnbound i) := by
  unfold Part.ctxFinalUnbound
  split
  · exact h
  · rename_i c _
    have free := h.unbind i c
    dsimp only
    split
    · exact ((free.enter_essRoom _ ‹_›).onCtx _ _).freeCtx i
    · exact (free.onCtx _ _).await nofun

theorem Part.Since.ctxEnd (h : p.Since q) (i : Nat) (r : CtxResult) : p.Since (q.ctxEnd i r) := by
  unfold Part.ctxEnd
  split
  · exact h
  · split
    · exact (h.unbind _ _).onCtx _ _
    · split
      · exact h.ctxFinalUnbound i
      · exact (h.setResult _ _).ctxFinalUnbound i
    · exact (((h.setResult _ _).authBack _).returnKey _).ctxFinalUnbound i

theorem Part.Since.ctxsLost (h : p.Since q) (slots : List Nat) : p.Since (q.ctxsLost slots) := by
  refine Part.Since.foldl _ (fun r hr i _ => ?_) h
  split
  · exact hr.ctxEnd i _
  · exact hr

theorem Part.Since.endAllEntries (h : p.Since q) : p.Since q.endAllEntries :=
  Part.Since.foldl _ (fun _ hr w _ => hr.endEntry w _) h

theorem Part.Since.relRestart (h : p.Since q) : p.Since q.relRestart :=
  Part.Since.foldl _ (fun _ hr i _ => hr.ctxEnd i _) h.endAllEntries

/-! ## Returns -/

theorem Part.rentalOf_look {p : Part} {k : KeyRec} {i : Nat} {r : Rental} (h : p.rentalOf k = some (i, r)) :
    Table.look p.rentals i = some r := by
  obtain ⟨j, -, hj⟩ := Option.bind_eq_some_iff.1 h
  obtain ⟨x, hx, he⟩ := Option.map_eq_some_iff.1 hj
  cases he
  exact hx

theorem Part.Since.returnToSlot (h : p.Since q) {i : Nat} {k : KeyRec} (hk : p.HasKey i k) (s T : Nat) (late : Bool) :
    p.Since (q.returnToSlot i k s T late) := by
  have placed := h.setKey (k := k.placed s T) hk
  unfold Part.returnToSlot
  dsimp only
  split
  · exact placed
  · rename_i j r hj
    exact placed.closeRental (fun _ => by simpa using Part.rentalOf_look hj) _

theorem Part.Since.dropRoom (h : p.Since q) : p.Since q.dropRoom := by
  unfold Part.dropRoom
  split
  · exact .touch (Part.Since.foldl _ (fun _ hr s _ => hr.remove .dropFull (.slot s)) h) _
  · exact h

theorem Part.Since.dropOut (h : p.Since q) (i : Nat) : p.Since (q.dropOut i) :=
  (h.setDropBin _ (List.length_filter_le _ _).trans).dropRoom

theorem Part.Since.relocateReleasing (h : p.Since q) {i : Nat} {k : KeyRec} (hk : p.HasKey i k) (s m : Nat) :
    p.Since (q.relocateReleasing i k s m) := by
  unfold Part.relocateReleasing
  split
  · exact h.setKey hk
  · refine (h.endForRelocation _ _).setKey ?_
    split
    · exact hk
    · exact hk

theorem Part.Since.relocate (h : p.Since q) {i : Nat} {k : KeyRec} (hk : p.HasKey i k) (s m : Nat) :
    p.Since (q.relocate i k s m) := by
  unfold Part.relocate
  split
  · exact h.relocateReleasing hk s m
  · exact h.setKey hk
  · exact h.setKey hk

theorem Part.Since.foreign (h : p.Since q) (s : Nat) (o : Occ) : p.Since (q.foreign s o) := h.raise _ _ _

theorem Part.Since.keyArrived (h : p.Since q) (s : Nat) (o : Occ) (m : Nat) (late : Bool) : p.Since (q.keyArrived s o m late) := by
  unfold Part.keyArrived
  split
  · exact h.foreign _ _
  · rename_i i k hik
    have hk := h.hasKey_of_occ hik
    have placed := h.setKey (k := k.placed s m) hk
    split
    · exact h.returnToSlot hk _ _ _
    · exact placed.offerOrd _
    · exact (placed.remove _ _).offerOrd _
    · exact ((h.dropOut i).setKey (k := k.placed s m) hk).offerOrd _
    · split
      · exact h
      · exact (h.relocate hk s m).offerOrd _

theorem Part.Since.keyLeft (h : p.Since q) (s : Nat) (old : Occ) (m : Nat) : p.Since (q.keyLeft s old m) := by
  unfold Part.keyLeft
  split
  · exact h.ctxKeyLeft _ _ _ _
  · split
    · exact h.remove _ _
    · rename_i i k hik
      split
      · exact h.keyTaken (h.hasKey_of_occ hik)
      · exact h

theorem Part.Since.sighting (h : p.Since q) (s : Nat) (v : Occ) (m : Nat) : p.Since (q.sighting s v m) := by
  have taken : p.Since (match q.keyAt s with
      | some (h, k) => if v = Occ.tag k.tag then q else q.keyTaken h k
      | none => q) := by
    split
    · rename_i i k hik
      split
      · exact h
      · exact h.keyTaken (h.hasKey_of_find hik)
    · exact h
  unfold Part.sighting
  dsimp only
  split
  · exact taken.remove _ _
  · exact taken.keyArrived _ _ _ _

/-! ## The drop chute -/

theorem Part.Since.dropAppend (h : p.Since q) (i s m : Nat) (room : q.dropBin.length < Config.dropCap) :
    p.Since (q.dropAppend i s m) := by
  have entered : p.Since { q with dropBin := q.dropBin ++ [⟨i, s, m⟩] } :=
    h.setDropBin _ fun _ => by simp only [List.length_append, List.length_singleton]; omega
  unfold Part.dropAppend
  dsimp only
  split
  · exact (entered.raise _ _ _).touch _
  · exact entered

theorem Part.Since.intoBin (h : p.Since q) {i : Nat} {k : KeyRec} (hk : p.HasKey i k) (s m : Nat) : p.Since (q.intoBin i k s m) := by
  unfold Part.intoBin
  split
  · exact (h.setKey (k := k.gone .away none (some .dropOverflow)) hk).raise _ _ _
  · rename_i hroom
    refine (h.setKey (k := k.gone .dropped none none) hk).dropAppend _ _ _ ?_
    simpa [Part.dropBinFull] using hroom

theorem Part.Since.dropUnexpected (h : p.Since q) {i : Nat} {k : KeyRec} (hk : p.HasKey i k) (s m : Nat) :
    p.Since (q.dropUnexpected i k s m) := by
  unfold Part.dropUnexpected
  dsimp only
  refine .offerOrd ?_ _
  split
  · split
    · exact h.raise _ _ _
    · exact h
  · exact (h.remove _ _).intoBin hk _ _
  · exact (h.intoBin hk _ _).retarget _ _
  · split
    · exact ((h.endForRelocation _ _).intoBin hk _ _).retarget _ _
    · exact (h.intoBin hk _ _).retarget _ _
  · exact h.intoBin hk _ _

theorem Part.intoBin_rentals (p : Part) (i : Nat) (k : KeyRec) (s m : Nat) : (p.intoBin i k s m).rentals = p.rentals := by
  unfold Part.intoBin Part.dropAppend
  dsimp only
  (repeat' split) <;> simp

theorem Part.Since.dropReturn (h : p.Since q) {i : Nat} {k : KeyRec} (hk : p.HasKey i k) (s T : Nat) :
    p.Since (q.dropReturn i k s T) := by
  have binned := h.intoBin hk s T
  unfold Part.dropReturn
  dsimp only
  split
  · exact binned
  · rename_i j r hj
    exact binned.closeRental (fun _ => by rw [Part.intoBin_rentals]; exact Part.rentalOf_look hj) _

theorem Part.Since.dropAccepted (h : p.Since q) (s t m : Nat) : p.Since (q.dropAccepted s t m) := by
  unfold Part.dropAccepted
  split
  · exact h.foreign _ _
  · rename_i i k hik
    split
    · exact h.dropReturn (h.hasKey_of_find hik) _ _
    · exact h.dropUnexpected (h.hasKey_of_find hik) _ _

theorem Part.Since.dropRead (h : p.Since q) (s t : Nat) : p.Since (q.dropRead s t) := by
  unfold Part.dropRead
  dsimp only
  split
  · exact .setDupCounts (h.setFilters _ (Table.rising_put _ _ _)) _ (Table.rising_put _ _ _)
  · exact .dropAccepted (h.setFilters _ (Table.rising_put _ _ _)) _ _ _

/-! ## The census -/

theorem Part.Since.cenCount (h : p.Since q) (f : CenCounts → CenCounts) : p.Since (q.cenCount f) := h.onCen _ id

theorem Part.Since.mismatch (h : p.Since q) (m : Mismatch) : p.Since (q.mismatch m) := by
  refine h.onCen _ fun room => ?_
  dsimp only
  split
  · simp only [List.length_append, List.length_singleton]
    omega
  · exact room

theorem Part.Since.unverified (h : p.Since q) (slots : List Nat) : p.Since (q.unverified slots) := by
  refine Part.Since.foldl _ (fun r hr s _ => ?_) h
  split
  · exact hr.mismatch _
  · exact hr

theorem Part.Since.moduleUnverified (h : p.Since q) (c : Chan) (a : Nat) : p.Since (q.moduleUnverified c a) :=
  (h.unverified _).cenCount _

theorem Part.Since.cenEnd (h : p.Since q) (o : Outcome) (st : CenState) : p.Since (q.cenEnd o st) := by
  have ended := (h.onCen (fun c => { c with
    state := st, outcome := some o, endMin := some q.now, pos := none, deferred := false }) id).offerOrd
      (q.onCen (fun c => { c with
        state := st, outcome := some o, endMin := some q.now, pos := none, deferred := false })).cen.doneReport
  unfold Part.cenEnd
  dsimp only
  repeat' split
  · exact ended.raise _ _ _
  · exact ended.remove _ _
  · exact ended

theorem Part.Since.offerRead (h : p.Since q) (c : Chan) (a : Nat) : p.Since (q.offerRead c a) := by
  unfold Part.offerRead
  split
  · exact (h.push_other c _ ‹_›).onCen _ id
  · exact h.onCen _ id

theorem Part.Since.reofferRead (h : p.Since q) (c : Chan) : p.Since (q.reofferRead c) := by
  unfold Part.reofferRead
  repeat' split
  · exact h.offerRead _ _
  · exact h
  · exact h

theorem Part.Since.reachLost (h : p.Since q) (c : Chan) : p.Since (q.reachLost c) := by
  unfold Part.reachLost
  repeat' split
  · exact h.onCen _ id
  · exact h
  · exact h.onCen _ id
  · exact h

theorem Part.Since.sweepOn (l : List (Chan × Nat)) {q : Part} (h : p.Since q) : p.Since (sweepOn l q) := by
  induction l generalizing q with
  | nil => exact h.cenEnd _ _
  | cons x r ih =>
    obtain ⟨c, a⟩ := x
    unfold Machine.sweepOn
    dsimp only
    have reached := h.reachLost c
    repeat' split
    · exact ih reached
    · exact (reached.onCen _ id).offerRead _ _
    · exact ih (reached.moduleUnverified c a)

theorem Part.Since.cenStart (h : p.Since q) (cause : CenCause) (scope : Scope) : p.Since (q.cenStart cause scope) :=
  Part.Since.sweepOn _ (h.onCen _ fun _ => Nat.zero_le _)

theorem Part.Since.cenPlace (h : p.Since q) {i : Nat} {k : KeyRec} (hk : p.HasKey i k) (s : Nat) : p.Since (q.cenPlace i k s) := by
  unfold Part.cenPlace
  split
  · exact h.setKey hk
  · exact (h.setKey (k := k.placed s q.now) hk).remove _ _
  · exact (h.dropOut _).setKey hk
  · exact h
  · exact h.relocate hk _ _

theorem Part.Since.cenEqual (h : p.Since q) (s : Nat) (v : Occ) : p.Since (q.cenEqual s v) := by
  unfold Part.cenEqual
  split
  · exact (h.foreign _ _).mismatch _
  · rename_i i k hik
    repeat' split
    · exact h.cenCount _
    · exact h.mismatch _
    · exact (h.cenPlace (h.hasKey_of_occ hik) s).mismatch _

theorem Part.Since.cenJudge (h : p.Since q) (s : Nat) (v o : Occ) : p.Since (q.cenJudge s v o) := by
  unfold Part.cenJudge
  repeat' split
  · rename_i i k hik
    exact (h.keyTaken (h.hasKey_of_find hik)).mismatch _
  · exact h.cenCount _
  · exact h.mismatch _
  · exact h.cenEqual _ _
  · exact h.mismatch _

theorem Part.Since.cenPosition (h : p.Since q) (c : Chan) (a pos : Nat) (v : Occ) : p.Since (q.cenPosition c a pos v) := by
  unfold Part.cenPosition
  dsimp only
  repeat' split
  · exact h
  · exact h
  · exact h.cenCount _
  · exact h.unverified _
  · exact (h.cenCount _).cenJudge _ _ _

theorem Part.Since.cenCompare (h : p.Since q) (c : Chan) (a : Nat) (reads : List Occ) : p.Since (q.cenCompare c a reads) :=
  Part.Since.foldl _ (fun _ hr x _ => hr.cenPosition c a x.2 x.1) h

theorem Part.Since.cenAnswer (h : p.Since q) (c : Chan) (a : Nat) (reads : Option (List Occ)) :
    p.Since (q.cenAnswer c a reads) := by
  unfold Part.cenAnswer
  split
  · exact h
  · exact h.onCen _ id
  · split
    · exact h
    · refine Part.Since.sweepOn _ (Part.Since.onCen ?_ _ id)
      split
      · exact (h.cenCount _).cenCompare _ _ _
      · exact h.moduleUnverified _ _

theorem Part.Since.cenChannelLost (h : p.Since q) (c : Chan) (sent : Bool) : p.Since (q.cenChannelLost c sent) := by
  unfold Part.cenChannelLost
  split
  · exact h
  · split
    · exact h.onCen _ id
    · exact h
  · split
    · exact h
    · split
      · refine Part.Since.sweepOn _ (Part.Since.onCen (Part.Since.foldl _ (fun r hr x _ => ?_) h) _ id)
        split
        · exact hr
        · exact hr.moduleUnverified _ _
      · split
        · exact h.onCen _ id
        · exact h

theorem Part.Since.cenRestart (h : p.Since q) : p.Since q.cenRestart := h.onCen _ fun _ => Nat.zero_le _

theorem Part.Since.cenTick (h : p.Since q) (m : Nat) : p.Since (q.cenTick m) := by
  unfold Part.cenTick
  dsimp only
  repeat' split
  · exact h
  · exact h.onCen _ id
  · exact h
  · exact h.cenStart _ _
  · exact h.onCen _ id

theorem Part.Since.cenClamp (h : p.Since q) : p.Since q.cenClamp := by
  unfold Part.cenClamp
  dsimp only
  split
  · exact h
  · exact h.onCen _ id

theorem Part.Since.cenPolicy (h : p.Since q) : p.Since q.cenPolicy := by
  unfold Part.cenPolicy
  exact h.onCen _ id

end Sys2Proof.Machine
end

section
/-! PROOFS. What every step keeps, sixth layer: the operations of the Slot Bus Channels. -/

namespace Sys2Proof.Machine
open Sys2Proof

variable {p q : Part}

/-! ## Pass-through tracking -/

theorem Part.Since.trackRespond (h : p.Since q) (e : Nat) (r : Result) (fields : List Byte) :
    p.Since (q.trackRespond e r fields) := by
  unfold Part.trackRespond
  split
  · exact h
  · rename_i t ht
    split
    · exact h
    · dsimp only
      split
      · exact (h.enter_essRoom _ ‹_›).delTrack e
      · refine (h.putTrack _ fun k => k _ (Table.mem_of_look ht)).await (w := .tracking e) ?_
        nofun

theorem Part.Since.trackMiss (h : p.Since q) (e : Nat) (c : Chan) (a : Nat) (want : TrackState) :
    p.Since (q.trackMiss e c a want) := by
  unfold Part.trackMiss
  repeat' split
  · exact h
  · exact h.trackRespond _ _ _
  · exact h

theorem Part.Since.trackAnswer (h : p.Since q) (e : Nat) (c : Chan) (a : Nat) (status : Byte) (data : List Byte) :
    p.Since (q.trackAnswer e c a status data) := by
  unfold Part.trackAnswer
  repeat' split
  · exact h
  · exact h.trackRespond _ _ _
  · exact h

theorem Part.Since.trackAbort (h : p.Since q) (c : Chan) : p.Since (q.trackAbort c) := by
  refine Part.Since.foldl _ (fun r hr e _ => ?_) h
  split
  · exact hr.trackRespond _ _ _
  · exact hr

theorem Part.Since.dropWaiters (h : p.Since q) (f : Waiter → Bool) (tfl : f .tfl = true) :
    p.Since { q with link := { q.link with waiters := q.link.waiters.filter f } } :=
  h.setLink _ id id fun k => k.filter f tfl

theorem Part.Since.trackDropAll (h : p.Since q) : p.Since q.trackDropAll :=
  (((h.withdraw .A _).withdraw .B _).setTracking [] fun _ => ⟨rfl, fun _ he => absurd he List.not_mem_nil⟩).dropWaiters _ rfl

theorem Part.Since.trackExpire (h : p.Since q) (e : Nat) : p.Since (q.trackExpire e) := by
  unfold Part.trackExpire
  split
  · exact h
  · rename_i t _
    split
    · exact h
    · split
      · exact h
      · exact h.trackRespond _ _ _
      · refine .trackRespond ?_ _ _ _
        split
        · exact (h.withdraw t.chan _).touch _
        · exact h.withdraw t.chan _

/-! ## Rows -/

theorem Part.Since.ownClose (h : p.Since q) (c : Chan) (a pos : Nat) : p.Since (q.ownClose c a pos) := by
  unfold Part.ownClose
  dsimp only
  split
  · rename_i hcond
    simp only [Bool.and_eq_true] at hcond
    exact h.push_other c _ hcond.2
  · exact h

theorem Part.Since.looseLock (h : p.Since q) (s : Nat) (l : LockState) : p.Since (q.looseLock s l) := by
  cases l with
  | locked => exact h
  | jammed => exact h.raise _ _ _
  | opened => exact (h.raise _ _ _).ownClose _ _ _

theorem Part.Since.lockReport (h : p.Since q) (s : Nat) (l : LockState) : p.Since (q.lockReport s l) := by
  unfold Part.lockReport
  split
  · exact h
  · rename_i r _
    have noted : p.Since (if l = .locked ∧ r.lock ≠ some .locked then
        ((q.onRow s (fun r => { r with lock := some l })).touchSlot s).remove .lockJam (.slot s)
        else (q.onRow s (fun r => { r with lock := some l })).touchSlot s) := by
      split
      · exact ((h.onRow s _).touchSlot s).remove _ _
      · exact (h.onRow s _).touchSlot s
    dsimp only
    split
    · split
      · exact noted.looseLock _ _
      · split
        · exact noted.ctxLock _ _
        · exact noted
    · exact noted.looseLock _ _

theorem Part.Since.tell (h : p.Since q) (r : SlotRow) {f : Part → Nat → Part} (told : ∀ i, p.Since (f q i)) :
    p.Since (q.tell r f) := by
  unfold Part.tell
  split
  · exact told _
  · exact h

theorem Part.Since.settleSet (h : p.Since q) (s : Nat) (v : Occ) : p.Since (q.settleSet s v) := h.onRow _ _

theorem Part.Since.occReport (h : p.Since q) (c : Chan) (s : Nat) (v : Occ) : p.Since (q.occReport c s v) := by
  have set := h.settleSet s v
  unfold Part.occReport
  split
  · exact h
  · rename_i r _
    split
    · exact ((h.onRow s _).touchSlot s).sighting _ _ _
    · split
      · split
        · exact h
        · dsimp only
          split
          · exact set.tell r fun i => set.ctxSettleStart i
          · exact set
      · rename_i st _
        have calm : p.Since ((q.onRow s (fun r => { r with settle := none })).onChan c
            (fun ch => { ch with bounces := satUp ch.bounces })) :=
          (h.onRow s _).onChan_same c _
        split
        · exact h
        · split
          · dsimp only
            split
            · exact calm.tell r fun i => calm.ctxSettleCancel i
            · exact calm
          · dsimp only
            repeat' split
            · exact set.tell r fun i => set.ctxSettleStart i
            · exact set.tell r fun i => set.ctxSettleCancel i
            · exact set

theorem Part.Since.takePosition (h : p.Since q) (c : Chan) (a pos : Nat) (r : PosReport) :
    p.Since (q.takePosition c a pos r) := by
  unfold Part.takePosition
  repeat' split
  · exact h
  · exact (h.lockReport _ _).occReport _ _ _
  · exact h.dropRead _ _
  · exact h
  · exact h

theorem Part.Since.takeReports (h : p.Since q) (c : Chan) (a : Nat) (rs : List PosReport) : p.Since (q.takeReports c a rs) :=
  Part.Since.foldl _ (fun _ hr x _ => hr.takePosition c a x.2 x.1) h

theorem Part.Since.settleExpire (h : p.Since q) (s : Nat) : p.Since (q.settleExpire s) := by
  unfold Part.settleExpire
  split
  · exact h
  · split
    · rename_i st old _ _
      split
      · exact h
      · have settled := (h.onRow s (fun r => { r with occ := some st.cand, settle := none })).touchSlot s
        have left : p.Since (if old = .empty then (q.onRow s (fun r => { r with occ := some st.cand, settle := none })).touchSlot s
            else ((q.onRow s (fun r => { r with occ := some st.cand, settle := none })).touchSlot s).keyLeft s old st.firstSeen) := by
          split
          · exact settled
          · exact settled.keyLeft _ _ _
        dsimp only
        split
        · exact left
        · exact left.keyArrived _ _ _ _
    · exact h

/-! ## Modules -/

theorem Part.Since.deferredLost (h : p.Since q) (c : Chan) (a : Nat) : p.Since (q.deferredLost c a) := by
  unfold Part.deferredLost
  split
  · exact h.cenAnswer _ _ _
  · exact h

theorem Part.Since.tellLoss (h : p.Since q) (c : Chan) (b : BusCmd) : p.Since (q.tellLoss c b) := by
  unfold Part.tellLoss
  split
  · exact h.trackMiss _ _ _ _
  · exact h.cenAnswer _ _ _
  · exact h

theorem Part.Since.moduleLost (h : p.Since q) (c : Chan) (a : Nat) (st : ModState) : p.Since (q.moduleLost c a st) := by
  have withdrawn := (h.onModule c a
    (fun m => { m with state := st, reprobe := some (q.mono + Config.reprobeTime) })).onChan c (fun ch =>
      { ch.withdraw (fun b => b.addr == a) with nextIdent := some (ch.nextIdent.getD (q.mono + Config.identTime)) })
      (.of_same rfl rfl (Channel.withdraw_le _ _).trans)
  have dark := ((withdrawn.rowsUnknown (q.moduleSlots c a)).ctxsLost (q.moduleSlots c a)).lampLost c a
  have told := Part.Since.foldl ((q.chan c).queue.filter (fun b => b.addr == a))
    (f := fun q b => q.tellLoss c b) (fun _ hr b _ => hr.tellLoss c b) dark
  exact ((told.deferredLost c a).raise _ _ _).offerOrd _

theorem Part.Since.moduleFound (h : p.Since q) (c : Chan) (a : Nat) : p.Since (q.moduleFound c a) :=
  (((h.onModule c a _).remove _ _).offerOrd _).touch _

theorem Part.Since.goodAnswer (h : p.Since q) (c : Chan) (a : Nat) (poll : Bool) : p.Since (q.goodAnswer c a poll) := by
  unfold Part.goodAnswer
  repeat' split
  · exact h.onModule _ _ _
  · exact (h.onModule _ _ _).touch _
  · exact h.onModule _ _ _
  · exact h.moduleFound _ _
  · exact h

theorem Part.Since.chargeMiss (h : p.Since q) (c : Chan) (a : Nat) : p.Since (q.chargeMiss c a) := by
  have counted := h.countMiss c
  unfold Part.chargeMiss
  dsimp only
  split
  · exact counted
  · split
    · exact counted.onModule _ _ _
    · split
      · exact (counted.onModule _ _ _).moduleLost _ _ _
      · exact counted.onModule _ _ _
    · exact counted

/-! ## Channel states -/

theorem Channel.leave_keeps (ch : Channel) (st : ChanState) : ch.Keeps (ch.leave st) :=
  .of_same rfl (Table.fst_mapRec _ _) fun _ => Nat.zero_le _

theorem Part.Since.channelLeave (h : p.Since q) (c : Chan) (st : ChanState) : p.Since (q.channelLeave c st) := by
  have left := ((h.onChan c (·.leave st) (Channel.leave_keeps _ st)).rowsUnknown (q.chanSlots c)).ctxsLost (q.chanSlots c)
  unfold Part.channelLeave
  refine .trackAbort (.clearOverrides (.lampChannelLost ?_ c) _) c
  split
  · exact left.cenChannelLost _ _
  · exact left

theorem Part.Since.channelStart (h : p.Since q) (c : Chan) : p.Since (q.channelStart c) :=
  h.onChan c _ (.fresh rfl rfl (Nat.zero_le _))

theorem Part.Since.hang (h : p.Since q) (c : Chan) : p.Since (q.hang c) := by
  have left := h.channelLeave c .recovering
  have hung : p.Since (let recent := (q.chan c).history.filter (fun t => decide (q.mono < t + Config.historyTime))
      let r := q.channelLeave c .recovering
      if 3 ≤ recent.length then
        (r.onChan c (fun ch => { ch with
          state := .faulted, history := recent, modules := ch.freshModules, nextIdent := none, pulse := none })).raise
            .channelFault (.chan c) none
      else r.onChan c (fun ch => { ch with
        history := recent ++ [q.mono], recoveries := satUp ch.recoveries, pulse := some (q.mono + Config.pulseTime) })) := by
    dsimp only
    split
    · exact (left.onChan c _ (.fresh rfl rfl (Nat.le_refl _))).raise _ _ _
    · exact left.onChan_same c _
  unfold Part.hang
  split
  · exact hung
  · exact hung
  · exact h

theorem Part.Since.lineHang (h : p.Since q) (c : Chan) (ms : Nat) : p.Since (q.lineHang c ms) := by
  have found : p.Since (q.onChan c (fun ch => { ch with held := decide (0 < ms) })) :=
    h.onChan_same c _
  unfold Part.lineHang
  dsimp only
  split
  · exact found.hang c
  · exact found

theorem Part.Since.enterRunning (h : p.Since q) (c : Chan) : p.Since (q.enterRunning c) :=
  .touch (Part.Since.foldl (α := Nat × List PosReport) (f := fun q x => q.takeReports c x.1 x.2) _
    (fun _ hr x _ => hr.takeReports c x.1 x.2) (h.onChan_same c _)) _

theorem Part.Since.firstPollOn (h : p.Since q) (c : Chan) : p.Since (q.firstPollOn c) := by
  unfold Part.firstPollOn
  repeat' split
  · exact h
  · exact h.enterRunning c
  · exact h

theorem Part.Since.pulseEnd (h : p.Since q) (c : Chan) : p.Since (q.pulseEnd c) := by
  unfold Part.pulseEnd
  split
  · exact h
  · split
    · exact h
    · split
      · exact h.channelStart c
      · split
        · exact h
        · exact h.onChan_same c _
      · exact h.onChan_same c _

/-! ## Enumeration -/

theorem Part.Since.enumerationEnd (h : p.Since q) (c : Chan) : p.Since (q.enumerationEnd c) := by
  unfold Part.enumerationEnd
  refine .firstPollOn (Part.Since.onChan_same ?_ c _) c
  exact Part.Since.foldl _ (fun _ hr a _ => hr.moduleLost c a .absent) h

theorem Part.Since.passEnd (h : p.Since q) (c : Chan) : p.Since (q.passEnd c) :=
  h.onChan_same c _

theorem Part.Since.roundsEnd (h : p.Since q) (c : Chan) : p.Since (q.roundsEnd c) := by
  unfold Part.roundsEnd
  split
  · exact h.enumerationEnd c
  · exact h.passEnd c
  · exact h

theorem Part.Since.roundsCheck (h : p.Since q) (c : Chan) : p.Since (q.roundsCheck c) := by
  unfold Part.roundsCheck
  split
  · exact h.roundsEnd c
  · exact h

theorem Part.Since.round (h : p.Since q) (c : Chan) (serial : Option Nat) : p.Since (q.round c serial) := by
  unfold Part.round
  split
  · exact h
  · have begun : p.Since ((q.onChan c (fun ch => if ch.state = .running ∧ ¬ ch.passOn then
        { ch with passOn := true, rounds := 0 } else ch)).onChan c (fun ch => { ch with sent := ch.roundFrames serial })) := by
      refine .onChan_same (h.onChan_same c _ ?_ ?_ ?_) c _ <;>
        (intro ch; split <;> rfl)
    dsimp only
    split
    · exact begun.roundsEnd c
    · have counted := begun.onChan_same c (fun ch => { ch with rounds := ch.rounds + 1 })
      split
      · exact (counted.onModule _ _ _).onChan_same c _
      · exact ((counted.onChan_same c _).raise _ _ _).roundsCheck c

/-! ## The arbiter and the sending of commands -/

theorem Part.Since.sendPoll (h : p.Since q) (c : Chan) : p.Since (q.sendPoll c) := by
  unfold Part.sendPoll
  dsimp only
  split
  · exact h
  · split
    · exact h
    · rename_i a probe _
      split
      · exact (h.onChan_same c _).onModule _ _ _
      · exact h.onChan_same c _

theorem Part.Since.sendQueued (h : p.Since q) (c : Chan) (b : BusCmd) {f : Part → Part}
    (act : ∀ r, p.Since r → p.Since (f r)) : p.Since (q.sendQueued c b f) :=
  ((act _ (h.onChan c _ (.of_same rfl rfl (List.length_erase_le).trans))).reofferRead c).reofferLamps c

theorem Part.Since.sendLockOpen (h : p.Since q) (c : Chan) : p.Since (q.sendLockOpen c) := by
  unfold Part.sendLockOpen
  split
  · exact h.sendQueued c _ fun _ hr => hr.onCtx _ _
  · exact h

theorem Part.Since.sendLockClose (h : p.Since q) (c : Chan) : p.Since (q.sendLockClose c) := by
  unfold Part.sendLockClose
  split
  · exact h.sendQueued c _ fun _ hr => hr.onCtx _ _
  · exact h.sendQueued c _ fun _ hr => hr.onModule _ _ _
  · exact h.sendQueued c _ fun _ hr => hr
  · exact h

theorem Part.Since.sendPassed (h : p.Since q) (c : Chan) : p.Since (q.sendPassed c) := by
  unfold Part.sendPassed
  split
  · refine h.sendQueued c _ fun r hr => ?_
    dsimp only
    split
    · exact (hr.trackSent _).rawSent _ _ _
    · exact hr.trackSent _
  · exact h

theorem Part.Since.sendReadTags (h : p.Since q) (c : Chan) : p.Since (q.sendReadTags c) := by
  unfold Part.sendReadTags
  split
  · exact h.sendQueued c _ fun _ hr => hr.onCen _ id
  · exact h

theorem Part.Since.sendLamp (h : p.Since q) (c : Chan) : p.Since (q.sendLamp c) := by
  unfold Part.sendLamp
  split
  · exact h.sendQueued c _ fun _ hr => hr.imageTakes _ _
  · exact h

/-! ## Answers and misses -/

theorem Part.Since.tellMiss (h : p.Since q) (c : Chan) (b : BusCmd) : p.Since (q.tellMiss c b) := by
  unfold Part.tellMiss
  split
  · exact h
  · exact h
  · split
    · exact (h.lampMissed _ _).trackMiss _ _ _ _
    · exact h.trackMiss _ _ _ _
  · exact h.cenAnswer _ _ _
  · exact h.lampMissed _ _

theorem Part.Since.commandMiss (h : p.Since q) (c : Chan) : p.Since (q.commandMiss c) := by
  have free := h.lineFree c
  unfold Part.commandMiss
  split
  · exact h
  · split
    · exact (free.countMiss c).roundsCheck c
    · exact ((free.onModule _ _ _).chargeMiss _ _).firstPollOn c
    · exact (free.chargeMiss _ _).tellMiss _ _
    · exact h

theorem Part.Since.judged (h : p.Since q) (c : Chan) (a : Nat) (r : Reply) {act : Part → Part}
    (good : p.Since (q.lineFree c) → p.Since (act (q.lineFree c))) : p.Since (q.judged c a r act) := by
  unfold Part.judged
  split
  · exact good (h.lineFree c)
  · exact h.commandMiss c

theorem Part.Since.assignAnswer (h : p.Since q) (c : Chan) (r : Reply) (rs : List PosReport) :
    p.Since (q.assignAnswer c r rs) := by
  unfold Part.assignAnswer
  split
  · rename_i a _
    refine h.judged c a r fun free => .roundsCheck ?_ c
    have lit := (free.goodAnswer c a true).lampAnew c a
    split
    · exact lit.takeReports _ _ _
    · exact lit
  · exact h

theorem Part.Since.pollAnswer (h : p.Since q) (c : Chan) (r : Reply) (rs : List PosReport) : p.Since (q.pollAnswer c r rs) := by
  unfold Part.pollAnswer
  split
  · rename_i a _ _
    refine h.judged c a r fun free => ?_
    have good := (free.goodAnswer c a true).onModule c a (fun m => { m with ack := true })
    dsimp only
    split
    · exact good.takeReports _ _ _
    · exact (good.onChan_same c _).firstPollOn c
  · exact h

theorem Part.Since.lockAnswered (h : p.Since q) (c : Chan) (a pos : Nat) (l : LockState) : p.Since (q.lockAnswered c a pos l) := by
  have good := h.goodAnswer c a false
  unfold Part.lockAnswered
  dsimp only
  split
  · exact good.lockReport _ _
  · exact good

theorem Part.Since.lockOpenAnswer (h : p.Since q) (c : Chan) (r : Reply) (l : LockState) : p.Since (q.lockOpenAnswer c r l) := by
  unfold Part.lockOpenAnswer
  split
  · exact h.judged c _ r fun free => free.lockAnswered _ _ _ _
  · exact h

theorem Part.Since.lockCloseAnswer (h : p.Since q) (c : Chan) (r : Reply) (l : LockState) :
    p.Since (q.lockCloseAnswer c r l) := by
  unfold Part.lockCloseAnswer
  split
  · exact h.judged c _ r fun free => free.lockAnswered _ _ _ _
  · exact h

theorem Part.Since.lampAnswer (h : p.Since q) (c : Chan) (r : Reply) : p.Since (q.lampAnswer c r) := by
  unfold Part.lampAnswer
  split
  · exact h.judged c _ r fun free => free.goodAnswer _ _ _
  · exact h

theorem Part.Since.passAnswer (h : p.Since q) (c : Chan) (r : Reply) : p.Since (q.passAnswer c r) := by
  unfold Part.passAnswer
  split
  · exact h.judged c _ r fun free => (free.goodAnswer _ _ _).trackAnswer _ _ _ _ _
  · exact h

theorem Part.Since.readTagsAnswer (h : p.Since q) (c : Chan) (x : Option (Answered (List Occ))) :
    p.Since (q.readTagsAnswer c x) := by
  unfold Part.readTagsAnswer
  split
  · split
    · exact h.judged c _ _ fun free => (free.goodAnswer _ _ _).cenAnswer _ _ _
    · exact h.commandMiss c
  · exact h

end Sys2Proof.Machine
end

section
/-! PROOFS. What every step keeps, seventh layer: the Branch Link Port, the Traffic Filter, ticks and guides, and the requests
that leave clock, schedule, policy and the set of keys as they are. -/

namespace Sys2Proof.Machine
open Sys2Proof

variable {p q : Part}

/-! ## The receiver and the link watch -/

theorem Part.Since.huntOn (h : p.Since q) (run stray start : Bool) : p.Since (q.huntOn run stray start) := by
  unfold Part.huntOn
  dsimp only
  split
  · exact (h.setRx _).linkCount _
  · exact h.setRx _

theorem Part.Since.huntAgain (h : p.Since q) : p.Since q.huntAgain := h.setRx _

theorem Part.Since.syncError (h : p.Since q) (b : Byte) : p.Since (q.syncError b) := by
  unfold Part.syncError
  repeat' split
  · exact h
  · exact h.huntOn _ _ _
  · exact h

theorem Part.Since.syncPair (h : p.Since q) : p.Since q.syncPair := by
  unfold Part.syncPair
  split
  · exact h.setRx _
  · exact h

theorem Part.Since.framingError (h : p.Since q) : p.Since q.framingError := by
  have counted := h.linkCount (fun c => { c with framingError := satUp c.framingError })
  unfold Part.framingError
  dsimp only
  split
  · exact counted.huntOn _ _ _
  · exact counted.huntAgain

theorem Part.Since.headerJudged (h : p.Since q) (x : Header) : p.Since (q.headerJudged x) := by
  unfold Part.headerJudged
  split
  · exact h.huntAgain.linkCount _
  · rename_i g corrected _
    have counted : p.Since (if corrected then q.linkCount (fun c => { c with headerCorrected := satUp c.headerCorrected })
        else q) := by
      split
      · exact h.linkCount _
      · exact h
    dsimp only
    split
    · exact counted.huntAgain.linkCount _
    · split
      · exact counted.setRx _
      · exact counted.setRx _

theorem Part.Since.headerReceived (h : p.Since q) (row : List (Option Byte)) : p.Since (q.headerReceived row) := by
  unfold Part.headerReceived
  repeat' split
  · exact h
  · exact h.headerJudged _
  · exact h.setRx _
  · exact h

theorem Part.Since.payloadReceived (h : p.Since q) (bs : List Byte) : p.Since (q.payloadReceived bs) := by
  unfold Part.payloadReceived
  dsimp only
  repeat' split
  · exact h
  · exact h.setRx _
  · exact h.setRx _
  · exact h

theorem Part.Since.frameTruncated (h : p.Since q) : p.Since q.frameTruncated := by
  unfold Part.frameTruncated
  split
  · exact h.huntAgain.linkCount _
  · exact h

theorem Part.Since.offerFrame (h : p.Since q) (f : Frame) : p.Since (q.offerFrame f) := by
  unfold Part.offerFrame
  split
  · exact h.setLink _ id (fun _ => by simp only [List.length_append, List.length_singleton]; omega) id
  · refine .linkCount (.onLink h ?_ ?_ ?_) _ <;> rfl

theorem Part.Since.watchAfresh (h : p.Since q) : p.Since q.watchAfresh := h.onLink rfl rfl rfl

theorem Part.Since.watchFrame (h : p.Since q) : p.Since q.watchFrame := by
  unfold Part.watchFrame
  split
  · exact h
  · refine .onLink h ?_ ?_ ?_ <;> rfl
  · refine .onLink ((h.remove _ _).offerOrd _) ?_ ?_ ?_ <;> rfl

theorem Part.Since.frameJudged (h : p.Since q) (x : Header) (bs : List Byte) (hi lo : Byte) :
    p.Since (q.frameJudged x bs hi lo) := by
  unfold Part.frameJudged
  dsimp only
  repeat' split
  · exact h.huntAgain.watchFrame.offerFrame _
  · exact h.huntAgain.watchFrame
  · exact h.huntAgain.linkCount _

theorem Part.Since.frameReceived (h : p.Since q) (row : List (Option Byte)) : p.Since (q.frameReceived row) := by
  unfold Part.frameReceived
  repeat' split
  · exact h
  · exact h.frameJudged _ _ _ _
  · exact h.setRx _
  · exact h

theorem Part.Since.watchExpire (h : p.Since q) : p.Since q.watchExpire := by
  unfold Part.watchExpire
  split
  · split
    · exact h
    · refine .setHold (.trackDropAll (.testEnd (.clearOverrides (.raise (.onLink h ?_ ?_ ?_) _ _ _) _))) _ <;> rfl
  · exact h

/-! ## The Report Queue's other end -/

theorem Part.Since.ctsFound (h : p.Since q) (asserted : Bool) : p.Since (q.ctsFound asserted) := by
  refine h.onLink ?_ ?_ ?_ <;> (unfold Link.sendHead; split <;> rfl)

theorem Part.Since.reportSent (h : p.Since q) : p.Since q.reportSent := by
  unfold Part.reportSent Part.onLink
  dsimp only
  split
  · rename_i rest _ hreports
    refine h.setLink _ (fun k => ?_) id id
    simp only [hreports, List.length_cons] at k
    exact Nat.le_of_succ_le k
  · exact h

/-- The TFL, whose turn it is, is stalled no more (R180). -/
theorem Part.Since.unstall (h : p.Since q) {ws : List Waiter} (head : q.link.waiters = .tfl :: ws) :
    p.Since { q.popWaiter with tfl := { q.tfl with held := none } } := by
  refine { h with bounded := h.bounded, records := fun hp => { h.records hp with waiters := ?_ } }
  obtain ⟨once, -⟩ := (h.records hp).waiters
  rw [head, List.nodup_cons] at once
  simp only [Part.popWaiter, Part.onLink, head, List.drop_succ_cons, List.drop_zero, Option.isSome_none, Bool.false_eq_true,
    iff_false]
  exact ⟨once.2, once.1⟩

theorem Part.Since.delNotice (h : p.Since q) (i : Nat) :
    p.Since { q with alt := { q.alt with notices := Table.del q.alt.notices i } } :=
  h.setAlt _ fun _ k => k.delNotice i

theorem Part.Since.ownerEnters (h : p.Since q) {w : Waiter} {ws : List Waiter} (head : q.link.waiters = w :: ws)
    (room : q.link.reports.length < Config.reportCap) : p.Since (q.ownerEnters w) := by
  cases w with
  | rental i =>
    have popped := h.popWaiter head (by nofun)
    unfold Part.ownerEnters
    dsimp only
    split
    · rename_i r x hrx
      obtain ⟨r', hlook, hx⟩ := Option.bind_eq_some_iff.1 hrx
      obtain ⟨x', hsnap, he⟩ := Option.map_eq_some_iff.1 hx
      cases he
      refine (popped.enter _ room).freeRental i fun _ y hy => ?_
      cases hlook.symm.trans hy
      simp [hsnap]
    · exact popped
  | context c =>
    have popped := h.popWaiter head (by nofun)
    unfold Part.ownerEnters
    dsimp only
    split
    · exact (popped.enter _ room).freeCtx c
    · exact popped
  | waitEntry id =>
    have popped := h.popWaiter head (by nofun)
    unfold Part.ownerEnters
    dsimp only
    split
    · exact (popped.enter _ room).filterWaitQ _
    · exact popped
  | alertPlace i =>
    have popped := h.popWaiter head (by nofun)
    unfold Part.ownerEnters
    dsimp only
    split
    · exact (h.enter _ room).delNotice i
    · exact (popped.enter _ room).delNotice i
    · rename_i e f _ _
      exact Part.Since.modifyAlert (popped.enter (q.alt.alertReport e f) room) i _ fun _ => by exact ⟨rfl, rfl, rfl⟩
    · exact popped
  | tracking e =>
    have popped := h.popWaiter head (by nofun)
    unfold Part.ownerEnters
    dsimp only
    split
    · exact (popped.enter _ room).delTrack e
    · exact popped
  | tfl =>
    unfold Part.ownerEnters
    dsimp only
    split
    · exact (h.unstall head).enter _ room
    · exact h.popWaiter head fun _ => ‹_›

theorem Part.Since.waitingEnters (h : p.Since q) : p.Since q.waitingEnters := by
  unfold Part.waitingEnters
  split
  · exact h
  · split
    · exact h.ownerEnters ‹_› ‹_›
    · exact h

/-! ## Ticks and guides -/

theorem Part.Since.relTick (h : p.Since q) : p.Since q.relTick := by
  unfold Part.relTick
  split
  · exact h
  · exact (h.setTicks _ q.tickAlt q.tickCen).authExpireAll _

theorem Part.Since.altTick (h : p.Since q) : p.Since q.altTick := by
  unfold Part.altTick
  split
  · exact h
  · exact (h.setTicks q.tickRel _ q.tickCen).reAlertAll _

theorem Part.Since.cenTakeTick (h : p.Since q) : p.Since q.cenTakeTick := by
  unfold Part.cenTakeTick
  split
  · exact h
  · exact (h.setTicks q.tickRel q.tickAlt _).cenTick _

theorem Part.Since.takeTicks (h : p.Since q) : p.Since q.takeTicks :=
  Part.Since.foldl _ (fun _ hr m _ => hr.cenTick m) (Part.Since.foldl _ (fun _ hr m _ => hr.reAlertAll m)
    (Part.Since.foldl _ (fun _ hr m _ => hr.authExpireAll m) (h.setTicks [] [] [])))

theorem Part.Since.guideExpire (h : p.Since q) (s : Nat) : p.Since (q.guideExpire s) := by
  unfold Part.guideExpire
  split
  · exact (h.onRow s _).touchSlot s
  · exact h

/-! ## The Traffic Filter -/

theorem Part.Since.sequenceStep (h : p.Since q) (f : Frame) : p.Since (q.sequenceStep f) := by
  unfold Part.sequenceStep
  split
  · exact h.setHold _
  · exact h

theorem Part.Since.passRefuse (h : p.Since q) (f : Frame) (reason : Nat) : p.Since (q.passRefuse f reason) := h.respond _

theorem destModule_some {d : Nat} {c : Chan} {a : Nat} (h : destModule d = some (c, a)) : 1 ≤ a ∧ a ≤ 30 := by
  unfold destModule at h
  repeat' split at h
  · obtain ⟨-, rfl⟩ := Prod.mk.inj (Option.some.inj h)
    omega
  · obtain ⟨-, rfl⟩ := Prod.mk.inj (Option.some.inj h)
    omega
  · cases h

theorem Part.Since.passOn (h : p.Since q) (f : Frame) (c : Chan) {a e : Nat} (cls : ModClass) (ha : 1 ≤ a ∧ a ≤ 30)
    (free : Table.lowestFree q.tfl.tracking Config.trackCap = some e) (room : (q.chan c).otherRoom = true) :
    p.Since (q.passOn f c a e cls) := by
  have passed (t : Track) (b : BusCmd) := (h.putTrack t fun _ => (Table.lowestFree_some _ _ _ free).1).push_other c b
    (by cases c <;> exact room)
  unfold Part.passOn
  dsimp only
  split
  · exact (passed _ _).setOverride _ _ _ ha.1 ha.2
  · exact passed _ _

theorem Part.Since.judgePass (h : p.Since q) (f : Frame) (c : Chan) {a : Nat} (cls : ModClass) (ha : 1 ≤ a ∧ a ≤ 30) :
    p.Since (q.judgePass f c a cls) := by
  unfold Part.judgePass
  split
  · exact h.linkCount _
  · exact Part.Since.passRefuse (h.linkCount _) f 4
  · split
    · exact h.passRefuse _ _
    · split
      · exact h.passRefuse _ _
      · split
        · exact h.passRefuse _ _
        · split
          · exact h.passRefuse _ _
          · split
            · exact h.passRefuse _ _
            · rename_i e hfree hroom
              exact h.passOn f c cls ha hfree (by simpa using hroom)

theorem Part.Since.judgeModule (h : p.Since q) (f : Frame) : p.Since (q.judgeModule f) := by
  unfold Part.judgeModule
  split
  · exact h
  · rename_i c a hdest
    dsimp only
    repeat' split
    · exact h.passRefuse _ _
    · exact h.passRefuse _ _
    · exact h.passRefuse _ _
    · exact h.judgePass _ _ _ (destModule_some hdest)

theorem Part.Since.dropFrame (h : p.Since q) (f : Frame) : p.Since (q.dropFrame f) := by
  unfold Part.dropFrame
  split
  · exact h.linkCount _
  · exact h

/-- The frame at the head leaves the Inbound Queue and is acted on. -/
theorem Part.Kept.tflRun (p : Part) (row : Instr) {act : Part → Frame → Part} (acts : ∀ (q : Part) (f : Frame), q.Kept (act q f)) :
    p.Kept (p.tflRun row act) := by
  unfold Part.tflRun
  split
  · exact .refl p
  · rename_i f rest hin
    split
    · have taken : p.Since (p.onLink (fun l => { l with inbound := rest })) :=
        (Part.Since.refl p).setLink _ id (fun k => Nat.le_of_succ_le (by simpa [hin] using k)) id
      exact taken.kept.trans (acts _ f)
    · exact .refl p

/-- A request is refused or dealt with by its owner, and answered (R183). -/
theorem Part.Kept.request (p : Part) (f : Frame) {owner : Part → Frame → Answer} (acts : ∀ (q : Part) (f : Frame), q.Kept (owner q f).part) :
    p.Kept (p.request f owner) := by
  have stepped := (Part.Since.refl p).sequenceStep f
  have answered (a : Answer) (b : Bool) : a.part.Kept (a.send f b) := ((Part.Since.refl a.part).respond _).kept
  unfold Part.request
  dsimp only
  split
  · exact stepped.kept.trans (answered ((p.sequenceStep f).refuse _) _)
  · exact (stepped.kept.trans (acts _ _)).trans (answered _ _)

theorem Part.Kept.requestRun (p : Part) (row : Instr) {owner : Part → Frame → Answer} (acts : ∀ (q : Part) (f : Frame), q.Kept (owner q f).part) :
    p.Kept (p.requestRun row owner) :=
  .tflRun p row fun q f => .request q f acts

/-! ## Requests about keys -/

theorem Part.Since.hasKey_of_tag (h : p.Since q) {t i : Nat} {k : KeyRec} (hk : q.keyByTag t = some (i, k)) : p.HasKey i k :=
  h.hasKey_of_find hk

theorem Part.Since.doKeyQuery (h : p.Since q) (f : Frame) : p.Since (q.doKeyQuery f).part := by
  unfold Part.doKeyQuery
  split
  · exact h
  · split
    · split <;> exact h
    · exact h

theorem Part.Since.doKeyHold (h : p.Since q) (f : Frame) : p.Since (q.doKeyHold f).part := by
  unfold Part.doKeyHold
  split
  · exact h
  · split
    · exact h
    · rename_i i k hk
      exact h.setKey (h.hasKey_of_tag (k := k) hk :)

theorem Part.Since.doGuide (h : p.Since q) (f : Frame) : p.Since (q.doGuide f).part := by
  unfold Part.doGuide
  repeat' split
  · exact h
  · exact h
  · exact h
  · exact h
  · exact (h.onRow _ _).touchSlot _

theorem Part.Since.holdReset (h : p.Since q) : p.Since q.holdReset := h.setHold _

theorem Part.Since.doHoldStart (h : p.Since q) (f : Frame) : p.Since (q.doHoldStart f).part := by
  unfold Part.doHoldStart
  dsimp only
  split
  · split
    · exact h.holdReset
    · exact h
  · split
    · exact h.setHold _
    · exact h

theorem Part.Since.doHoldEnd (h : p.Since q) (f : Frame) : p.Since (q.doHoldEnd f).part := by
  unfold Part.doHoldEnd
  split
  · exact h
  · split
    · exact h
    · split
      · exact h
      · split
        · exact h.holdReset
        · split
          · exact h.holdReset
          · exact h.setHold _
    · split
      · exact h
      · split <;> exact h.holdReset

theorem Part.Since.holdRange (h : p.Since q) (a b : Nat) (r : HoldReason) : p.Since (q.holdRange a b r) := by
  refine Part.Since.foldl _ (fun x hx e he => ?_) h
  have hk : p.HasKey e.1 e.2 := h.hasKey_of_mem (List.mem_of_mem_filter he)
  exact hx.setKey hk

theorem Part.Since.doHoldApply (h : p.Since q) (f : Frame) : p.Since (q.doHoldApply f).part := by
  unfold Part.doHoldApply
  split
  · exact h
  · split
    · exact h
    · split
      · exact h
      · exact h.holdReset
    · split
      · exact h
      · exact (h.holdRange _ _ _).holdReset

/-! ## Requests about releases -/

theorem Part.Since.doAuthDelete (h : p.Since q) (f : Frame) : p.Since (q.doAuthDelete f).part := by
  unfold Part.doAuthDelete
  repeat' split
  · exact h
  · exact h
  · exact h
  · exact (((h.delAuth _).restoreTarget _).remove _ _).endQueued _ _

theorem Part.Since.doClearLockout (h : p.Since q) (f : Frame) : p.Since (q.doClearLockout f).part := by
  unfold Part.doClearLockout
  repeat' split
  · exact h
  · exact h
  · exact h
  · refine Part.Since.remove (h.onAuth _ _ ?_) _ _
    exact fun _ => rfl

/-- A release waits, under the next id (R39). -/
theorem Part.Since.pushWait (h : p.Since q) (r : RelReq) (room : q.waitQ.length < Config.waitCap) :
    p.Since { q with waitQ := q.waitQ ++ [⟨q.nextId, r, none⟩], nextId := q.nextId + 1 } := by
  refine { h with bounded := fun hp => ?_, records := fun hp => { h.records hp with queue := ?_ } }
  · obtain ⟨hreports, hinbound, hA, hB, hauths, -, rest⟩ := h.bounded hp
    refine ⟨hreports, hinbound, hA, hB, hauths, ?_, rest⟩
    simp only [List.length_append, List.length_singleton]
    omega
  · obtain ⟨once, below⟩ := (h.records hp).queue
    simp only [List.map_append, List.map_cons, List.map_nil, List.mem_append, List.mem_singleton]
    refine ⟨List.nodup_append.2 ⟨once, List.nodup_singleton _, ?_⟩, ?_⟩
    · rintro a ha b hb rfl
      obtain ⟨w, hw, rfl⟩ := List.mem_map.1 ha
      exact (below w hw).ne (List.mem_singleton.1 hb)
    · rintro w (hw | rfl)
      · exact Nat.lt_succ_of_lt (below w hw)
      · exact Nat.lt_succ_self _

theorem Part.Since.queueRelease (h : p.Since q) (r : RelReq) : p.Since (q.queueRelease r).part := by
  unfold Part.queueRelease
  repeat' split
  · exact h
  · exact h
  · exact h.pushWait r (by omega)

theorem Part.Since.startRelease (h : p.Since q) (r : RelReq) (g : Grant) : p.Since (q.startRelease r g).part := by
  unfold Part.startRelease
  split
  · exact h.queueRelease r
  · exact h.startCtx (fun _ => (Table.lowestFree_some _ _ _ ‹_›).1) r g

theorem Part.Since.doRelease (h : p.Since q) (f : Frame) : p.Since (q.doRelease f).part := by
  unfold Part.doRelease
  repeat' split
  · exact h
  · exact h
  · exact h
  · exact h
  · exact h.startRelease _ _

theorem Part.Since.wrongCode (h : p.Since q) (a : Auth) : p.Since (q.wrongCode a).part := by
  unfold Part.wrongCode
  dsimp only
  split
  · refine Part.Since.raise (h.onAuth _ _ ?_) _ _ _
    exact fun _ => rfl
  · exact h.onAuth _ _ fun _ => by rfl

theorem Part.Since.doPickup (h : p.Since q) (f : Frame) : p.Since (q.doPickup f).part := by
  unfold Part.doPickup
  repeat' split
  · exact h
  · exact h
  · exact h
  · exact h
  · exact h.wrongCode _
  · exact h
  · exact h.startRelease _ _

theorem Part.Since.doServiceRelease (h : p.Since q) (f : Frame) : p.Since (q.doServiceRelease f).part := by
  unfold Part.doServiceRelease
  split
  · exact h
  · dsimp only
    split
    · exact h
    · exact h.startRelease _ _

theorem Part.Since.doCancelRelease (h : p.Since q) (f : Frame) : p.Since (q.doCancelRelease f).part := by
  unfold Part.doCancelRelease
  split
  · exact h
  · split
    · split
      · exact h.endEntry _ _
      · exact h
    · split
      · exact h
      · split
        · exact h
        · split
          · exact h
          · exact h.giveUp _ _ _

/-! ## Requests about rentals -/

theorem Part.rentalByNumber_mem {p : Part} {n i : Nat} {r : Rental} (h : p.rentalByNumber n = some (i, r)) : (i, r) ∈ p.rentals :=
  List.mem_of_find?_eq_some h

theorem Part.Since.closeManual (h : p.Since q) {i : Nat} {r : Rental} (hr : (i, r) ∈ q.rentals) : p.Since (q.closeManual i r) := by
  have look (hp : p.Records) : Table.look q.rentals i = some r := Table.look_of_mem (h.records hp).rentals.1 hr
  unfold Part.closeManual
  dsimp only
  refine Part.Since.closeRental ?_ (fun hp => ?_) _
  · split
    · rename_i k hk
      exact h.setKey (h.hasKey_of_look (k := k) hk :)
    · exact h
  · split <;> simpa using look hp

theorem Part.Since.doCloseManual (h : p.Since q) (f : Frame) : p.Since (q.doCloseManual f).part := by
  unfold Part.doCloseManual
  repeat' split
  · exact h
  · exact h
  · exact h
  · exact h.closeManual (Part.rentalByNumber_mem ‹_›)

end Sys2Proof.Machine
end

section
/-! PROOFS. What every step keeps, eighth layer: the remaining requests that leave clock, schedule, policy and the set of keys as
they are, and the restarts. -/

namespace Sys2Proof.Machine
open Sys2Proof

variable {p q : Part}

/-! ## Requests about rentals and alerts -/

theorem Part.Since.doRentalQuery (h : p.Since q) (f : Frame) : p.Since (q.doRentalQuery f).part := by
  unfold Part.doRentalQuery
  split
  · exact h
  · split <;> exact h

theorem Part.Since.doOverdueList (h : p.Since q) (f : Frame) : p.Since (q.doOverdueList f).part := by
  unfold Part.doOverdueList
  split <;> exact h

theorem Part.Since.doAckAlert (h : p.Since q) (f : Frame) : p.Since (q.doAckAlert f).part := by
  unfold Part.doAckAlert
  repeat' split
  · exact h
  · exact h
  · exact h.removeQuietly _
  · exact h.modifyAlert _ _ fun _ => by exact ⟨rfl, rfl, rfl⟩

theorem flagsAfterClear_getLsbD (w : BitVec 16) : (flagsAfterClear w).getLsbD 14 = w.getLsbD 14 := by
  simp [flagsAfterClear, flagClockUnset]

theorem Part.Since.clearFlags (h : p.Since q) : p.Since q.clearFlags :=
  h.setAlt _ fun _ k => { k with clockFlag := (flagsAfterClear_getLsbD _).trans k.clockFlag }

theorem Part.Since.doFlagsRead (h : p.Since q) (f : Frame) : p.Since (q.doFlagsRead f).part := by
  unfold Part.doFlagsRead
  split
  · exact h
  · split
    · exact h.clearFlags
    · exact h

theorem Part.Since.doEnableSet (h : p.Since q) (f : Frame) : p.Since (q.doEnableSet f).part := by
  unfold Part.doEnableSet
  split
  · exact h
  · exact h.setAlt _ fun _ k => { k with }

/-! ## Requests about the census -/

theorem Part.Since.doCensusStart (h : p.Since q) (f : Frame) : p.Since (q.doCensusStart f).part := by
  unfold Part.doCensusStart
  repeat' split
  · exact h
  · exact h.cenStart _ _
  · exact h

theorem Part.Since.readWithdrawn (h : p.Since q) : p.Since q.readWithdrawn := by
  unfold Part.readWithdrawn
  split
  · exact (h.withdraw _ _).onCen _ id
  · exact h

theorem Part.Since.censusAbort (h : p.Since q) : p.Since q.censusAbort := by
  unfold Part.censusAbort
  split
  · exact h.cenEnd _ _
  · exact h.readWithdrawn.cenEnd _ _
  · exact h.cenEnd _ _

theorem Part.Since.doCensusAbort (h : p.Since q) (f : Frame) : p.Since (q.doCensusAbort f).part := by
  unfold Part.doCensusAbort
  repeat' split
  · exact h
  · exact h.censusAbort
  · exact h

theorem Part.Since.doCensusRead (h : p.Since q) (f : Frame) : p.Since (q.doCensusRead f).part := by
  unfold Part.doCensusRead
  split <;> exact h

/-! ## Requests about lamps and channels -/

theorem Part.Since.setBlank (h : p.Since q) (b : Bool) : p.Since (q.setBlank b) := .blankingChanged (h.setLamps _) _

theorem Part.Since.doBlankOn (h : p.Since q) (f : Frame) : p.Since (q.doBlankOn f).part := by
  unfold Part.doBlankOn
  split
  · exact h.setBlank true
  · exact h

theorem Part.Since.doLampRelease (h : p.Since q) (f : Frame) : p.Since (q.doLampRelease f).part := by
  unfold Part.doLampRelease
  dsimp only
  split
  · exact h
  · split
    · exact h
    · split
      · exact h.clearOverrides _
      · exact h

theorem Part.Since.chanOn (h : p.Since q) (c : Chan) : p.Since (q.chanOn c) := by
  have removed := h.remove .channelFault (.chan c)
  unfold Part.chanOn
  dsimp only
  split
  · exact (removed.onChan_same c _).channelStart c
  · exact (removed.onChan_same c _).channelStart c
  · exact removed

theorem Part.Since.doChannelOn (h : p.Since q) (f : Frame) : p.Since (q.doChannelOn f).part := by
  unfold Part.doChannelOn
  split
  · exact h.chanOn _
  · exact h

theorem Part.Since.chanOff (h : p.Since q) (c : Chan) : p.Since (q.chanOff c) := by
  unfold Part.chanOff
  split
  · exact h.onChan_same c _
  · exact h.onChan_same c _
  · exact (h.channelLeave c .off).onChan c _ (.fresh rfl rfl (Nat.le_refl _))

theorem Part.Since.doReenumerate (h : p.Since q) (f : Frame) : p.Since (q.doReenumerate f).part := by
  unfold Part.doReenumerate
  dsimp only
  split
  · refine h.onChan_same _ _ ?_ ?_ ?_ <;> (intro ch; unfold Channel.passNow; split <;> rfl)
  · exact h

/-! ## Status, counters and restart -/

theorem Part.Since.doTableRead (h : p.Since q) (f : Frame) : p.Since (q.doTableRead f).part := by
  unfold Part.doTableRead
  dsimp only
  repeat' split
  all_goals exact h

theorem Part.Since.doStatusRead (h : p.Since q) (f : Frame) : p.Since (q.doStatusRead f).part := by
  unfold Part.doStatusRead
  split
  · exact h
  · have read : p.Since (q.onLink (fun l => { l with overrunBit := false })) := h.onLink rfl rfl rfl
    exact read

theorem Table.rising_foldl_del {α : Type} (ns : List Nat) {t : Table α} (h : Table.rising t) :
    Table.rising (ns.foldl (fun t s => Table.del t s) t) := by
  induction ns generalizing t with
  | nil => exact h
  | cons n r ih => exact ih (Table.rising_del _ _ h)

theorem Part.Since.clearCounters (h : p.Since q) : p.Since q.clearCounters := by
  have links : p.Since (q.linkCount fun _ => LinkCounters.zero) := h.linkCount _
  exact ((links.onChan_same .A Channel.clearCounters).onChan_same .B Channel.clearCounters).setDupCounts _
    (Table.rising_foldl_del _)

theorem Part.Since.doCountersRead (h : p.Since q) (f : Frame) : p.Since (q.doCountersRead f).part := by
  unfold Part.doCountersRead
  split
  · exact h
  · split
    · exact h.clearCounters
    · exact h

theorem Part.Since.restartChannel (h : p.Since q) (c : Chan) : p.Since (q.restartChannel c) := by
  unfold Part.restartChannel
  split
  · exact h
  · exact ((h.rowsUnknown _).lampChannelLost c).onChan c _ (.fresh rfl rfl (Nat.zero_le _))

theorem Part.Since.restartEmpties (h : p.Since q) : p.Since q.restartEmpties := by
  have emptied : p.Since (q.onLink (fun l => { l with inbound := [] })) := h.setLink _ id (fun _ => Nat.zero_le _) id
  exact emptied.setFilters [] fun _ => rfl

theorem Part.Since.restartLogic (h : p.Since q) : p.Since q.restartLogic :=
  have quiet := (h.relRestart.setHold .idle).guidesAbsent
  have started := (quiet.trackDropAll.restartChannel .A).restartChannel .B
  ((started.cenRestart.testEnd).clearOverrides _).restartEmpties.watchAfresh

theorem Part.Since.doRestartLogic (h : p.Since q) (f : Frame) : p.Since (q.doRestartLogic f).part := by
  unfold Part.doRestartLogic
  split
  · exact h.restartLogic
  · exact h

/-! ## Tables whose writing leaves schedule and Slot Map -/

theorem Table.rising_putD {α : Type} [DecidableEq α] (d : α) {t : Table α} (i : Nat) (v : α) (h : Table.rising t) :
    Table.rising (Table.putD d t i v) := by
  unfold Table.putD
  split
  · exact Table.rising_del _ _ h
  · exact Table.rising_put _ _ _ h

theorem rising_writeDefault {α : Type} [DecidableEq α] (d : α) {t : Table α} (i : Nat) (xs : List α) (h : Table.rising t) :
    Table.rising (writeDefault d t i xs) := by
  unfold writeDefault
  generalize xs.zipIdx i = l
  induction l generalizing t with
  | nil => exact h
  | cons x r ih => exact ih (Table.rising_putD d _ _ h)

theorem Table.rising_putO {α : Type} {t : Table α} (i : Nat) (v : Option α) (h : Table.rising t) :
    Table.rising (Table.putO t i v) := by
  cases v with
  | none => exact Table.rising_del _ _ h
  | some x => exact Table.rising_put _ _ _ h

theorem rising_writePlaces {α : Type} {t : Table α} (i : Nat) (xs : List (Option α)) (h : Table.rising t) :
    Table.rising (writePlaces t i xs) := by
  unfold writePlaces
  generalize xs.zipIdx i = l
  induction l generalizing t with
  | nil => exact h
  | cons x r ih => exact ih (Table.rising_putO _ _ h)

theorem Part.Since.setTerminals (h : p.Since q) (t : Table Terminal) (ok : Table.rising q.tfl.terminals →
    Table.rising t ∧ officeHasLoad t) : p.Since { q with tfl := { q.tfl with terminals := t } } :=
  { h with records := fun hp => { h.records hp with terminals := ok (h.records hp).terminals.1 } }

theorem Part.Since.setGroups (h : p.Since q) (t : Table GroupEntry) (rises : Table.rising q.groups → Table.rising t) :
    p.Since { q with groups := t } :=
  { h with records := fun hp =>
      have ⟨groups, filters, dup⟩ := (h.records hp).plain
      { h.records hp with plain := ⟨rises groups, filters, dup⟩ } }

theorem Part.Since.setPassTable (h : p.Since q) (t : Table PassEntry) (rises : Table.rising q.tfl.passTable → Table.rising t) :
    p.Since { q with tfl := { q.tfl with passTable := t } } :=
  { h with records := fun hp =>
      have ⟨pass, tracking, trackingIn⟩ := (h.records hp).tracking
      { h.records hp with tracking := ⟨rises pass, tracking, trackingIn⟩ } }

theorem Channel.remapped_keeps (ch : Channel) (i : Nat) (es : List (Option MapEntry))
    (ok : moduleMapOk (writePlaces ch.map i es)) : ch.Keeps (ch.remapped (writePlaces ch.map i es)) where
  queue := id
  sound k := by
    obtain ⟨rises, mapped⟩ := modules_filled (fun e => (Table.look ch.modules e.addr).getD ModEntry.fresh)
      (writePlaces ch.map i es) [] rfl
    exact { mapRises := rising_writePlaces i es k.mapRises, modulesRise := rises, mapOk := ok
            mapped := fun a => (mapped a).trans (by simp; rfl) }

theorem Part.Since.writeModules (h : p.Since q) (c : Chan) (i : Nat) (es : List (Option MapEntry)) {r : Part}
    (hr : q.writeModules c i es = .ok r) : p.Since r := by
  unfold Part.writeModules at hr
  dsimp only at hr
  split at hr
  · cases hr
  · rename_i hok
    split at hr
    · cases hr
    · cases hr
      exact Part.Since.foldl _ (fun _ hx a _ => hx.remove _ _)
        (h.onChan c _ ((q.chan c).remapped_keeps i es (by simpa using hok)))

end Sys2Proof.Machine
end

section
/-! PROOFS. What every step keeps, ninth layer: what moves clock, schedule, policy or the set of keys, the Slot Map, and the
power-on state. -/

namespace Sys2Proof.Machine
open Sys2Proof

variable {p q : Part}

/-! ## Records that tiers and zone have still to follow -/

/-- As Part.Kept, but for the tiers and the zone, which may be out of date. -/
structure Part.Near (p q : Part) : Prop where
  mono : p.mono ≤ q.mono
  strap : q.strapHigh = p.strapHigh
  bounded : p.Bounded → q.Bounded
  records : p.Records → q.Records

theorem Part.Since.near (h : p.Since q) : p.Near q := ⟨h.mono.ge, h.strap, h.bounded, h.records⟩

theorem Part.Near.trans {r : Part} (h : p.Near q) (k : q.Near r) : p.Near r :=
  ⟨h.mono.trans k.mono, k.strap.trans h.strap, k.bounded ∘ h.bounded, k.records ∘ h.records⟩

theorem Part.Near.kept (h : p.Near q) (tiers : p.Records → p.TiersCurrent → q.TiersCurrent)
    (zone : p.zone = p.zoneEval → q.zone = q.zoneEval) : p.Kept q where
  mono := h.mono
  strap := h.strap
  bounded := h.bounded
  sound hp := by
    obtain ⟨records, current, evaluated⟩ := p.sound_iff.1 hp
    exact q.sound_iff.2 ⟨h.records records, tiers records current, zone evaluated⟩

/-- The part with the zone its schedule gives. -/
theorem Part.rezoned (p : Part) : p.Near { p with zone := p.zoneEval } := ⟨Nat.le_refl _, rfl, id, fun hp => { hp with }⟩

theorem Part.zoneRun_since (p : Part) : ({ p with zone := p.zoneEval } : Part).Since p.zoneRun := by
  unfold Part.zoneRun
  split
  · rename_i h
    rw [h]
    exact .refl p
  · exact ((Part.Since.refl _).intervalChanged _).blankingChanged _

theorem Part.zoneRun_near (p : Part) : p.Near p.zoneRun := p.rezoned.trans p.zoneRun_since.near

/-- The zone in force is that of the schedule (R91). -/
theorem Part.zoneRun_zone (p : Part) : p.zoneRun.zone = p.zoneRun.zoneEval := by
  rw [p.zoneRun_since.zone, p.zoneRun_since.zoneEval]
  rfl

theorem Part.zoneRun_kept (p : Part) (schedule : q.Near p) (tiers : q.Records → q.TiersCurrent → p.TiersCurrent) :
    q.Kept p.zoneRun :=
  (schedule.trans p.zoneRun_near).kept
    (fun hq ht => p.zoneRun_since.tiers (p.rezoned.records (schedule.records hq)) (tiers hq ht))
    fun _ => p.zoneRun_zone

/-- When the zone and then every tier have been worked out afresh, records are sound (R85, R88). -/
theorem Part.Near.reworked (h : p.Near q) : p.Kept q.zoneRun.recomputeTiers := by
  have since := (Part.Since.refl q.zoneRun).recomputeTiers
  refine (h.trans (q.zoneRun_near.trans since.near)).kept (fun hp _ => ?_) fun _ => ?_
  · exact q.zoneRun.recomputeTiers_current (q.zoneRun_near.records (h.records hp))
  · rw [since.zone, since.zoneEval, q.zoneRun_zone]

/-! ## Clock -/

theorem setBit_clock (w : BitVec 16) : (setBit w flagClockLimit).getLsbD 14 = w.getLsbD 14 :=
  setBit_getLsbD_other _ _ _ (by decide)

theorem clearBit_unset (w : BitVec 16) : (clearBit w flagClockUnset).getLsbD 14 = false := by
  simp [clearBit, flagClockUnset]

theorem clearBit_limit (w : BitVec 16) : (clearBit w flagClockLimit).getLsbD 14 = w.getLsbD 14 := by
  simp [clearBit, flagClockLimit]

/-- A clock that has just been set to a minute, before it is looked at whether that is the last. -/
theorem Part.setClock_near (p : Part) (c : Clock) (a : Alt) (minute : p.Records → c.minute ≤ Config.maxMinute) (second : c.second ≤ 59)
    (offset : p.Records → c.dayOffset ≤ 1439) (running : c.set = true ∧ c.atLimit = false)
    (alt : p.Records → p.alt.Sound p.clock.set → a.Sound c.set) : p.Near ({ p with clock := c, alt := a } : Part).limitCheck := by
  have sound (hp : p.Records) := alt hp hp.alt
  unfold Part.limitCheck
  dsimp only
  split
  · rename_i last
    exact ⟨Nat.le_refl _, rfl, id, fun hp => { hp with
      alt := (sound hp).setBit _ (by decide)
      clock := ⟨minute hp, Nat.zero_le _, offset hp, by simp [Part.setFlag, running.1, last]⟩ }⟩
  · rename_i before
    exact ⟨Nat.le_refl _, rfl, id, fun hp => { hp with
      alt := sound hp
      clock := ⟨minute hp, second, offset hp, by simp [running.2, before]⟩ }⟩

/-- A running clock that is not at its limit has not reached the last minute (R86). -/
theorem Part.minute_lt (p : Part) (running : p.clock.set = true ∧ p.clock.atLimit = false) (hp : p.Records) :
    p.clock.minute + 1 ≤ Config.maxMinute := by
  obtain ⟨minute, -, -, limit⟩ := hp.clock
  have : p.clock.minute ≠ Config.maxMinute := fun h => by
    have := limit.2 ⟨running.1, h⟩
    simp [running.2] at this
  omega

theorem Part.minuteAdvance_kept (p : Part) (running : p.clock.set = true ∧ p.clock.atLimit = false) : p.Kept p.minuteAdvance := by
  have near := p.setClock_near { p.clock with second := 0, minute := p.clock.minute + 1 } p.alt (p.minute_lt running)
    (Nat.zero_le _) (fun hp => hp.clock.2.2.1) running fun _ => id
  exact near.reworked.trans ((Part.Since.refl _).setTicks _ _ _).kept

theorem Part.toNextSecond_kept (p : Part) : p.Kept p.toNextSecond := by
  refine Part.Near.kept ⟨?_, rfl, id, fun hp => { hp with }⟩ (fun _ => id) id
  show p.mono ≤ (p.mono / 1000 + 1) * 1000
  omega

theorem Part.clockSecond_kept (p : Part) : p.Kept p.clockSecond := by
  unfold Part.clockSecond
  split
  · rename_i running
    simp only [Bool.and_eq_true, Bool.not_eq_true'] at running
    split
    · exact p.minuteAdvance_kept running
    · refine Part.Near.kept ⟨Nat.le_refl _, rfl, id, fun hp => ?_⟩ (fun _ => id) id
      obtain ⟨minute, -, rest⟩ := hp.clock
      exact { hp with clock := ⟨minute, by dsimp only; omega, rest⟩ }
  · exact .refl p

theorem Part.minuteTick_kept (p : Part) : p.Kept p.minuteTick := by
  unfold Part.minuteTick
  split
  · rename_i next
    simp only [Part.tickNext, Bool.and_eq_true, Bool.not_eq_true'] at next
    exact p.toNextSecond_kept.trans (p.toNextSecond.minuteAdvance_kept next.1)
  · exact .refl p

/-- The clock is set, to a minute of a frame's field (R88). -/
theorem Part.setTime_kept (p : Part) {minute second : Nat} (w : Nat) (hm : minute ≤ Config.maxMinute) (hs : second ≤ 59) :
    p.Kept (p.setTime minute second w) := by
  have ticked := (Part.Since.refl p).takeTicks
  have near := p.takeTicks.setClock_near ⟨true, minute, second, dayOffsetFor minute w, false⟩
    ((p.takeTicks.clearFlag flagClockUnset).clearFlag flagClockLimit).alt (fun _ => hm) hs
    (fun _ => Nat.le_of_lt_succ (Nat.mod_lt _ (by decide))) ⟨rfl, rfl⟩
    fun _ k => { k with clockFlag := (clearBit_limit _).trans (clearBit_unset _) }
  exact ticked.kept.trans (near.reworked.trans
    (((((Part.Since.refl _).authExpireAll _).reAlertAll _).clampReAlerts.cenTick _).cenClamp).kept)

theorem beNat_lt (bs : List Byte) : beNat bs < 256 ^ bs.length := by
  induction bs with
  | nil => simp [beNat]
  | cons b r ih =>
    have := b.isLt
    rw [beNat_cons, List.length_cons, Nat.pow_succ]
    calc b.toNat * 256 ^ r.length + beNat r < b.toNat * 256 ^ r.length + 256 ^ r.length := by omega
      _ = (b.toNat + 1) * 256 ^ r.length := by ring
      _ ≤ 256 * 256 ^ r.length := Nat.mul_le_mul_right _ (by omega)
      _ = 256 ^ r.length * 256 := by ring

theorem field_lt (bs : List Byte) (o w : Nat) : field bs o w < 256 ^ w := by
  unfold field
  exact (beNat_lt _).trans_le (Nat.pow_le_pow_right (by decide) (List.length_take_le _ _))

theorem parseTimeSet_some {bs : List Byte} {m sec w : Nat} (h : parseTimeSet bs = some (m, sec, w)) :
    m ≤ Config.maxMinute ∧ sec ≤ 59 := by
  have below := field_lt bs 1 3
  unfold parseTimeSet at h
  split at h
  · rename_i hform
    simp only [Option.some.injEq, Prod.mk.injEq] at h
    obtain ⟨hm, hsec, -⟩ := h
    rw [hm] at below
    rw [hsec] at hform
    exact ⟨by unfold Config.maxMinute; omega, hform.2.1⟩
  · cases h

theorem Part.doTimeSet_kept (p : Part) (f : Frame) : p.Kept (p.doTimeSet f).part := by
  unfold Part.doTimeSet
  split
  · exact .refl p
  · rename_i m sec w hform
    obtain ⟨hm, hs⟩ := parseTimeSet_some hform
    have set := p.setTime_kept w hm hs
    dsimp only [Part.answer]
    exact set

theorem Part.broadcastTime_kept (p : Part) (f : Frame) : p.Kept (p.broadcastTime f) := by
  unfold Part.broadcastTime
  split
  · exact .refl p
  · split
    · exact .refl p
    · obtain ⟨hm, hs⟩ := parseTimeSet_some ‹_›
      exact p.setTime_kept _ hm hs

/-! ## Schedule and policy -/

theorem Part.writeSchedule_kept (p : Part) (i : Nat) (es : List (Option ZonePoint)) {r : Part}
    (hr : p.writeSchedule i es = .ok r) : p.Kept r := by
  unfold Part.writeSchedule at hr
  dsimp only at hr
  split at hr
  · rename_i distinct
    cases hr
    refine Part.zoneRun_kept _ ⟨Nat.le_refl _, rfl, id, fun hp => { hp with
      schedule := ⟨rising_writePlaces i es hp.schedule.1, of_decide_eq_true distinct⟩ }⟩ fun _ => id
  · cases hr

theorem clampRange_bounds {lo hi : Nat} (h : lo ≤ hi) (v : Nat) : lo ≤ clampRange lo hi v ∧ clampRange lo hi v ≤ hi := by
  unfold clampRange
  omega

theorem clampRange_of_bounds {lo hi v : Nat} (h : lo ≤ v ∧ v ≤ hi) : clampRange lo hi v = v := by
  unfold clampRange
  omega

theorem clampRange_idem {lo hi : Nat} (h : lo ≤ hi) (v : Nat) : clampRange lo hi (clampRange lo hi v) = clampRange lo hi v :=
  clampRange_of_bounds (clampRange_bounds h v)

/-- A field whose value 0 stands for off. -/
theorem clampOrOff_idem {lo hi : Nat} (h : lo ≤ hi) (v : Nat) :
    (if (if v = 0 then 0 else clampRange lo hi v) = 0 then 0 else clampRange lo hi (if v = 0 then 0 else clampRange lo hi v))
      = if v = 0 then 0 else clampRange lo hi v := by
  have := clampRange_idem h v
  split <;> grind

theorem roundedHundred_idem (v : Nat) :
    (clampRange 100 2000 ((clampRange 100 2000 v + 50) / 100 * 100) + 50) / 100 * 100
      = (clampRange 100 2000 v + 50) / 100 * 100 := by
  have := clampRange_bounds (lo := 100) (hi := 2000) (by decide) v
  rw [clampRange_of_bounds (v := (clampRange 100 2000 v + 50) / 100 * 100) (by omega)]
  omega

theorem nearestWatch_idem (v : Nat) : nearestWatch (nearestWatch v) = nearestWatch v := by
  unfold nearestWatch
  repeat' split
  all_goals omega

theorem policyClamp_idem : ∀ i v, policyClamp i (policyClamp i v) = policyClamp i v
  | 0, v => clampRange_idem (by decide) v
  | 1, v => clampRange_idem (by decide) v
  | 2, v => clampRange_idem (by decide) v
  | 3, v => clampRange_idem (by decide) v
  | 4, v => clampRange_idem (by decide) v
  | 5, v => clampOrOff_idem (by decide) v
  | 6, v => clampRange_idem (by decide) v
  | 7, v => roundedHundred_idem v
  | 8, v => clampRange_idem (by decide) v
  | 9, v => nearestWatch_idem v
  | 10, v => clampOrOff_idem (by decide) v
  | _ + 11, v => by
    show min 1 (min 1 v) = min 1 v
    omega

theorem Policy.get_set_same (x : Policy) (v : Nat) : ∀ field, field < 11 → (x.set field v).get field = v
  | 0, _ | 1, _ | 2, _ | 3, _ | 4, _ | 5, _ | 6, _ | 7, _ | 8, _ | 9, _ | 10, _ => rfl
  | n + 11, h => absurd h (by omega)

theorem Policy.get_set_other (x : Policy) (v : Nat) {i field : Nat} (hi : i < 12) (hf : field < 12) (h : i ≠ field) :
    (x.set field v).get i = x.get i := by
  interval_cases field <;> interval_cases i <;> first | rfl | exact absurd rfl h

/-- The blanking field is a bit. -/
theorem Policy.blank_inRange (x : Policy) (n : Nat) : policyClamp (n + 11) (x.get (n + 11)) = x.get (n + 11) := by
  show min 1 (bit x.blankUnstaffed) = bit x.blankUnstaffed
  cases x.blankUnstaffed <;> rfl

/-- A policy value within its limits. -/
def Policy.InRange (x : Policy) : Prop := ∀ i, i < 12 → policyClamp i (x.get i) = x.get i

theorem Policy.set_inRange {x : Policy} (h : x.InRange) (field v : Nat) : (x.set field (policyClamp field v)).InRange := by
  intro i hi
  by_cases last : i = 11
  · subst last
    exact Policy.blank_inRange _ 0
  · by_cases low : field < 11
    · by_cases same : i = field
      · subst same
        rw [x.get_set_same _ i low, policyClamp_idem]
      · rw [x.get_set_other _ hi (by omega) same]
        exact h i hi
    · obtain ⟨n, rfl⟩ := Nat.exists_eq_add_of_le' (Nat.le_of_not_lt low)
      have stands : (x.set (n + 11) (policyClamp (n + 11) v)).get i = x.get i :=
        x.get_set_other _ hi (field := 11) (by decide) last
      rw [stands]
      exact h i hi

theorem Policy.writeAll_inRange {x : Policy} (h : x.InRange) (vs : List (Nat × Nat)) : (x.writeAll vs).InRange := by
  unfold Policy.writeAll
  induction vs generalizing x with
  | nil => exact h
  | cons v r ih => exact ih (Policy.set_inRange h _ _)

theorem Part.policyActs_kept (p : Part) (new : Policy) (vs : List (Nat × Nat)) (range : p.policy.InRange → new.InRange) :
    p.Kept (p.policyActs new vs) := by
  have set : p.Near { p with policy := new } := ⟨Nat.le_refl _, rfl, id, fun hp => { hp with policy := range hp.policy }⟩
  have retiered : p.Kept (if p.policy.dueSoon ≠ new.dueSoon ∨ p.policy.escalation ≠ new.escalation then
      ({ p with policy := new } : Part).recomputeTiers else { p with policy := new }) := by
    split
    · have since := (Part.Since.refl { p with policy := new }).recomputeTiers
      refine (set.trans since.near).kept (fun hp _ => Part.recomputeTiers_current _ (set.records hp)) fun hz => ?_
      rw [since.zone, since.zoneEval]
      exact hz
    · rename_i same
      obtain ⟨dueSoon, escalation⟩ : p.policy.dueSoon = new.dueSoon ∧ p.policy.escalation = new.escalation := by
        simpa using same
      refine set.kept (fun _ ht e he hsnap => ?_) id
      rw [ht e he hsnap]
      unfold Part.tierNow
      rw [dueSoon, escalation]
      rfl
  unfold Part.policyActs
  dsimp only
  generalize (if p.policy.dueSoon ≠ new.dueSoon ∨ p.policy.escalation ≠ new.escalation then
      ({ p with policy := new } : Part).recomputeTiers else { p with policy := new }) = q at retiered
  have realerted : q.Since (if p.policy.reAlert ≠ new.reAlert then q.intervalChanged p.interval else q) := by
    split
    · exact (Part.Since.refl q).intervalChanged _
    · exact .refl q
  generalize (if p.policy.reAlert ≠ new.reAlert then q.intervalChanged p.interval else q) = r at realerted
  have counted : q.Since (if p.policy.censusInterval ≠ new.censusInterval then r.cenPolicy else r) := by
    split
    · exact realerted.cenPolicy
    · exact realerted
  generalize (if p.policy.censusInterval ≠ new.censusInterval then r.cenPolicy else r) = u at counted
  have watched : q.Since (if vs.any (fun x => x.1 == 9) then u.watchAfresh else u) := by
    split
    · exact counted.watchAfresh
    · exact counted
  refine retiered.trans (Part.Since.kept ?_)
  split
  · exact watched.blankingChanged _
  · exact watched

theorem Part.doPolicySet_kept (p : Part) (f : Frame) : p.Kept (p.doPolicySet f).part := by
  have acts (vs : List (Nat × Nat)) := p.policyActs_kept (p.policy.writeAll vs) vs fun h => Policy.writeAll_inRange h vs
  unfold Part.doPolicySet
  split
  · exact .refl p
  · split
    · exact .refl p
    · split
      · exact .refl p
      · dsimp only
        split <;> exact acts _

/-! ## Keys and authorizations that enter, keys that leave -/

theorem Table.put_fresh {α : Type} {t : Table α} (ht : Table.rising t) {i : Nat} (h : Table.look t i = none) (v : α) :
    ∃ l r, Table.put t i v = l ++ (i, v) :: r ∧ t = l ++ r := by
  obtain ⟨l, r, hput, hsplit | ⟨w, hsplit⟩⟩ := Table.put_split t i v
  · exact ⟨l, r, hput, hsplit⟩
  · have := Table.look_of_mem ht (i := i) (v := w) (hsplit ▸ by simp)
    simp [h] at this

/-- A key enters a free handle, under a tag id of its own and a home slot of its own (R15). -/
theorem Part.enterKey_near (p : Part) {i : Nat} {k : KeyRec} (free : Table.lowestFree p.keys Config.handles = some i)
    (tag : ∀ e ∈ p.keys, e.2.tag ≠ k.tag) (home : ∀ e ∈ p.keys, ∀ s, k.home = some s → e.2.home ≠ some s) :
    p.Near { p with keys := Table.put p.keys i k } := by
  refine ⟨Nat.le_refl _, rfl, id, fun hp => { hp with keys := ?_ }⟩
  obtain ⟨hi, none⟩ := Table.lowestFree_some _ _ _ free
  obtain ⟨rises, handles, tags, homes⟩ := hp.keys
  obtain ⟨l, r, hput, ht⟩ := Table.put_fresh rises none k
  refine ⟨Table.rising_put _ _ _ rises, fun e he => ?_, ?_, ?_⟩
  · rcases Table.fst_put_mem he with h | h
    · exact h ▸ hi
    · exact handles e h
  · rw [ht, List.map_append] at tags
    simp only [hput, List.map_append, List.map_cons]
    refine List.nodup_middle.2 (List.nodup_cons.2 ⟨?_, tags⟩)
    rw [← List.map_append, ← ht, List.mem_map]
    exact fun ⟨e, he, hk⟩ => tag e he hk
  · rw [ht, List.filterMap_append] at homes
    simp only [hput, List.filterMap_append, List.filterMap_cons]
    cases hk : k.home with
    | none => exact homes
    | some s =>
      refine List.nodup_middle.2 (List.nodup_cons.2 ⟨?_, homes⟩)
      rw [← List.filterMap_append, ← ht, List.mem_filterMap]
      exact fun ⟨e, he, hs⟩ => home e he s hk hs

theorem Part.keyAddCheck_none {t cls : Nat} {home : Option Nat} (ok : p.keyAddCheck t cls home = none) :
    p.keyByTag t = none ∧ (∀ s, home = some s → ∀ e ∈ p.keys, e.2.home ≠ some s)
      ∧ ∃ i, Table.lowestFree p.keys Config.handles = some i := by
  unfold Part.keyAddCheck at ok
  iterate 5 (split at ok; · cases ok)
  rename_i tag homes full
  refine ⟨by simpa using tag, ?_, Option.ne_none_iff_exists'.1 (by simpa using full)⟩
  rintro s rfl e he hs
  exact homes (by simpa using ⟨e.1, e.2, he, hs⟩)

theorem Part.keyEnter_kept (p : Part) {i t cls : Nat} (vehicle : Nat) {home : Option Nat} (ok : p.keyAddCheck t cls home = none)
    (free : Table.lowestFree p.keys Config.handles = some i) : p.Kept (p.keyEnter i t vehicle cls home) := by
  obtain ⟨tag, homes, -⟩ := Part.keyAddCheck_none ok
  have entered (k : KeyRec) (hk : k.tag = t) (hh : k.home = home) : p.Kept (p.setKey i k) := by
    have near := p.enterKey_near (k := k) free (fun e he => by simpa [hk] using List.find?_eq_none.1 tag e he)
      (fun e he s hs => homes s (hh ▸ hs) e he)
    exact (near.kept (fun _ => id) id).trans ((((Part.Since.refl _).touchSlotO _).touchSlotO _).touchSlotO _).kept
  unfold Part.keyEnter
  dsimp only
  split
  · exact (entered _ rfl rfl).trans ((Part.Since.refl _).remove _ _).kept
  · exact entered _ rfl rfl

theorem Part.doKeyAdd_kept (p : Part) (f : Frame) : p.Kept (p.doKeyAdd f).part := by
  unfold Part.doKeyAdd
  split
  · exact .refl p
  · dsimp only
    split
    · exact .refl p
    · rename_i ok
      obtain ⟨-, -, i, hi⟩ := Part.keyAddCheck_none ok
      simp only [hi, Option.getD_some]
      exact p.keyEnter_kept _ ok hi

theorem Table.del_sublist {α : Type} (t : Table α) (i : Nat) : (Table.del t i).Sublist t := by
  induction t with
  | nil => exact .slnil
  | cons e r ih =>
    unfold Table.del
    split
    · exact ih.cons _
    · exact ih.cons_cons _

theorem Part.keyFree_kept (p : Part) (i : Nat) (k : KeyRec) : p.Kept (p.keyFree i k) := by
  have left : p.Since (if k.state = .dropped then p.dropOut i else p) := by
    split
    · exact (Part.Since.refl p).dropOut i
    · exact .refl p
  have quiet := left.removeSubject (.key i)
  unfold Part.keyFree
  dsimp only
  generalize (if k.state = .dropped then p.dropOut i else p).removeSubject (.key i) = q at quiet
  have deleted : q.Near { q with keys := Table.del q.keys i } := by
    refine ⟨Nat.le_refl _, rfl, id, fun hq => { hq with keys := ?_ }⟩
    obtain ⟨rises, handles, tags, homes⟩ := hq.keys
    have sub := Table.del_sublist q.keys i
    exact ⟨Table.rising_del _ _ rises, fun e he => handles e (sub.mem he), tags.sublist (sub.map _),
      homes.sublist (sub.filterMap _)⟩
  exact quiet.kept.trans ((deleted.kept (fun _ => id) id).trans ((Part.Since.refl _).touchSlotO _).kept)

theorem Part.doKeyDelete_kept (p : Part) (f : Frame) : p.Kept (p.doKeyDelete f).part := by
  unfold Part.doKeyDelete
  repeat' split
  · exact .refl p
  · exact .refl p
  · exact .refl p
  · exact .refl p
  · exact p.keyFree_kept _ _

/-- An authorization enters under a number that is not in use (R28). -/
theorem Part.Since.pushAuth (h : p.Since q) (a : Auth) (room : q.auths.length < Config.authCap) (fresh : a.rental ∉ q.numbers) :
    p.Since { q with auths := q.auths ++ [a] } := by
  refine { h with bounded := fun hp => ?_, records := fun hp => { h.records hp with rentals := ?_ } }
  · obtain ⟨hreports, hinbound, hA, hB, -, rest⟩ := h.bounded hp
    refine ⟨hreports, hinbound, hA, hB, ?_, rest⟩
    simp only [List.length_append, List.length_singleton]
    omega
  · obtain ⟨rises, once, rest⟩ := (h.records hp).rentals
    refine ⟨rises, ?_, rest⟩
    simp only [Part.numbers, List.map_append, List.map_cons, List.map_nil, List.append_assoc, List.singleton_append]
    exact List.nodup_middle.2 (List.nodup_cons.2 ⟨fresh, once⟩)

theorem Part.Since.assignKey (h : p.Since q) (t : Target) : p.Since (q.assignKey t) := by
  unfold Part.assignKey
  split
  · exact h
  · split
    · rename_i k hk
      exact h.setKey (h.hasKey_of_look (k := k) hk :)
    · exact h

theorem Part.Since.doAuthAdd (h : p.Since q) (f : Frame) : p.Since (q.doAuthAdd f).part := by
  unfold Part.doAuthAdd
  split
  · exact h
  · split
    · exact h
    · rename_i a _ _ ok
      have checks : ((q.auth a.rental).isSome || (q.rentalByNumber a.rental).isSome) = false
          ∧ q.auths.length < Config.authCap := by
        unfold Part.authAddCheck at ok
        grind
      obtain ⟨fresh, room⟩ := checks
      refine Part.Since.assignKey (h.pushAuth _ room ?_) _
      rw [Bool.or_eq_false_iff] at fresh
      simp only [Part.auth, Part.rentalByNumber, List.find?_isSome, Bool.eq_false_iff, ne_eq, not_exists, not_and] at fresh
      simp only [Part.numbers, List.mem_append, List.mem_map, not_or, not_exists, not_and]
      exact ⟨fun x hx => by simpa using fresh.1 x hx, fun x hx => by simpa using fresh.2 x hx⟩

/-- An extension writes a record over itself, under the same number (R100). -/
theorem Part.Since.doExtend (h : p.Since q) (f : Frame) : p.Since (q.doExtend f).part := by
  unfold Part.doExtend
  repeat' split
  · exact h
  · exact h
  · exact h
  · exact h
  · exact h
  · rename_i i r hr hopen _ _
    have hsnap : r.snap = none := by simpa using hopen
    refine h.putOpen i _ none hsnap fun hp => ?_
    have rentals := (h.records hp).rentals
    have numbers (x : Rental) (hx : x.number = r.number) :=
      Part.numbers_put_same q rentals (r := x) (Table.look_of_mem rentals.1 (Part.rentalByNumber_mem hr)) hx
    rw [numbers _ (by rfl)]
    exact rentals.2.1

/-! ## The Slot Map -/

/-- The rows that stand are those of the STANDARD slots (R7). -/
def RowsFit (rows : Table SlotRow) (map : Table SlotEntry) : Prop :=
  ∀ n, (Table.look rows n).isSome ↔ ((Table.look map n).getD SlotEntry.powerOn).kind = .standard

/-- What the writing of a place does to alerts and lamps. -/
def Part.slotTold (p : Part) (s : Nat) (old new : SlotEntry) : Part :=
  let q := if old.changed new then p.removeSubject (.slot s) else p
  if old = new then q else (q.touch [lampKey old.chan old.addr]).touch [lampKey new.chan new.addr]

theorem Part.Since.slotTold (h : p.Since q) (s : Nat) (old new : SlotEntry) : p.Since (q.slotTold s old new) := by
  have quiet : p.Since (if old.changed new then q.removeSubject (.slot s) else q) := by
    split
    · exact h.removeSubject _
    · exact h
  unfold Part.slotTold
  dsimp only
  generalize (if old.changed new then q.removeSubject (.slot s) else q) = r at quiet
  split
  · exact quiet
  · exact (quiet.touch _).touch _

/-- The part with other rows, filters and Slot Map. -/
def Part.remade (p : Part) (map : Table SlotEntry) (rows : Table SlotRow) (filters : Table (List (Nat × Nat))) : Part :=
  { p with slotMap := map, rows := rows, filters := filters }

theorem Part.offerNotice_remade (p : Part) (i : Nat) (r : Report) (map : Table SlotEntry) (rows : Table SlotRow)
    (filters : Table (List (Nat × Nat))) :
    (p.remade map rows filters).offerNotice i r = (p.offerNotice i r).remade map rows filters := by
  unfold Part.offerNotice
  rw [show (p.remade map rows filters).essRoom = p.essRoom from rfl]
  split <;> rfl

theorem Part.giveUpAlert_remade (p : Part) (i : Nat) (map : Table SlotEntry) (rows : Table SlotRow)
    (filters : Table (List (Nat × Nat))) :
    (p.remade map rows filters).giveUpAlert i = (p.giveUpAlert i).remade map rows filters := by
  unfold Part.giveUpAlert
  rw [show (p.remade map rows filters).alt = p.alt from rfl]
  split <;> rfl

theorem Part.remove_remade (p : Part) (k : AlertKind) (s : Subject) (map : Table SlotEntry) (rows : Table SlotRow)
    (filters : Table (List (Nat × Nat))) :
    (p.remade map rows filters).remove k s = (p.remove k s).remade map rows filters := by
  unfold Part.remove
  rw [show (p.remade map rows filters).alt = p.alt from rfl]
  split
  · rfl
  · rename_i e _
    dsimp only
    split
    · exact Part.giveUpAlert_remade { p with alt := p.alt.drop e.place } _ map rows filters
    · exact Part.offerNotice_remade { p with alt := p.alt.drop e.place } _ _ map rows filters

theorem Part.removeSubject_remade (p : Part) (s : Subject) (map : Table SlotEntry) (rows : Table SlotRow)
    (filters : Table (List (Nat × Nat))) :
    (p.remade map rows filters).removeSubject s = (p.removeSubject s).remade map rows filters := by
  unfold Part.removeSubject
  generalize alertKinds = ks
  induction ks generalizing p with
  | nil => rfl
  | cons k r ih =>
    rw [List.foldl_cons, List.foldl_cons, Part.remove_remade]
    exact ih _

/-- The rows after a place has been written over old. -/
def rowsAfter (rows : Table SlotRow) (s : Nat) (old new : SlotEntry) : Table SlotRow :=
  if old.changed new then slotRowAfter rows s new else rows

/-- The filters after a place has been written over old. -/
def filtersAfter (filters : Table (List (Nat × Nat))) (s : Nat) (old new : SlotEntry) : Table (List (Nat × Nat)) :=
  if old.changed new then Table.del filters s else filters

theorem Part.slotWritten_remade (p : Part) (s : Nat) (old new : SlotEntry) (map : Table SlotEntry) (rows : Table SlotRow)
    (filters : Table (List (Nat × Nat))) :
    (p.remade map rows filters).slotWritten s old new
      = (p.slotTold s old new).remade map (rowsAfter rows s old new) (filtersAfter filters s old new) := by
  have quiet : (if old.changed new then
      (p.remade map (slotRowAfter rows s new) (Table.del filters s)).removeSubject (.slot s) else p.remade map rows filters)
      = (if old.changed new then p.removeSubject (.slot s) else p).remade map (rowsAfter rows s old new)
        (filtersAfter filters s old new) := by
    unfold rowsAfter filtersAfter
    split
    · exact p.removeSubject_remade _ _ _ _
    · rfl
  unfold Part.slotWritten Part.slotTold
  refine (congrArg (fun q : Part => if old = new then q else
    (q.touch [lampKey old.chan old.addr]).touch [lampKey new.chan new.addr]) quiet).trans ?_
  dsimp only
  split <;> rfl

theorem rising_rowsAfter {rows : Table SlotRow} (s : Nat) (old new : SlotEntry) (h : Table.rising rows) :
    Table.rising (rowsAfter rows s old new) := by
  unfold rowsAfter slotRowAfter
  repeat' split
  · exact Table.rising_put _ _ _ h
  · exact Table.rising_del _ _ h
  · exact h

theorem rising_filtersAfter {filters : Table (List (Nat × Nat))} (s : Nat) (old new : SlotEntry) (h : Table.rising filters) :
    Table.rising (filtersAfter filters s old new) := by
  unfold filtersAfter
  split
  · exact Table.rising_del _ _ h
  · exact h

theorem SlotEntry.kind_of_not_changed {old new : SlotEntry} (h : old.changed new = false) : old.kind = new.kind := by
  unfold SlotEntry.changed at h
  have same : { old with group := new.group } = new := by simpa using h
  rw [← same]

/-- Rows fit the Slot Map again when the place's row has followed it (R5, R7). -/
theorem RowsFit.written {rows : Table SlotRow} {map : Table SlotEntry} (h : RowsFit rows map) (s : Nat) (new : SlotEntry) :
    RowsFit (rowsAfter rows s ((Table.look map s).getD SlotEntry.powerOn) new) (Table.putD SlotEntry.powerOn map s new) := by
  intro n
  by_cases hn : n = s
  · subst hn
    rw [Table.look_putD_same]
    unfold rowsAfter
    split
    · unfold slotRowAfter
      split
      · simp [Table.look_put_same, *]
      · simp [Table.look_del_same, *]
    · rename_i hsame
      rw [h n, SlotEntry.kind_of_not_changed (by simpa using hsame)]
  · rw [Table.look_putD_other _ _ _ _ _ hn, ← h n]
    unfold rowsAfter slotRowAfter
    repeat' split
    · rw [Table.look_put_other _ _ _ _ hn]
    · rw [Table.look_del_other _ _ _ hn]
    · rfl

/-- Places written one after the other over the entries the Slot Map had: what is told, and the rows and filters that follow. -/
theorem Part.slotsWritten_remade (old : Nat → SlotEntry) (final : Table SlotEntry) (es : List SlotEntry) (i : Nat) {p q : Part}
    (h : p.Since q) (map : Table SlotEntry) (rows : Table SlotRow) (filters : Table (List (Nat × Nat)))
    (ahead : ∀ n, i ≤ n → (Table.look map n).getD SlotEntry.powerOn = old n) :
    ∃ r rows' filters', (es.zipIdx i).foldl (fun q x => q.slotWritten x.2 (old x.2) x.1) (q.remade final rows filters)
        = r.remade final rows' filters' ∧ p.Since r ∧ (Table.rising rows → Table.rising rows')
      ∧ (Table.rising filters → Table.rising filters')
      ∧ (RowsFit rows map → RowsFit rows' ((es.zipIdx i).foldl (fun t x => Table.putD SlotEntry.powerOn t x.2 x.1) map)) := by
  induction es generalizing i q map rows filters with
  | nil => exact ⟨q, rows, filters, rfl, h, id, id, id⟩
  | cons e es ih =>
    rw [List.zipIdx_cons, List.foldl_cons, List.foldl_cons, Part.slotWritten_remade]
    obtain ⟨r, rows', filters', heq, since, hrows, hfilters, hfit⟩ := ih (i + 1) (h.slotTold i (old i) e)
      (Table.putD SlotEntry.powerOn map i e) (rowsAfter rows i (old i) e) (filtersAfter filters i (old i) e)
      (fun n hn => by
        rw [Table.look_putD_other _ _ _ _ _ (by omega)]
        exact ahead n (by omega))
    refine ⟨r, rows', filters', heq, since, hrows ∘ rising_rowsAfter _ _ _, hfilters ∘ rising_filtersAfter _ _ _,
      fun fit => hfit ?_⟩
    rw [← ahead i (Nat.le_refl i)]
    exact fit.written i e

theorem Part.writeSlots_kept (p : Part) (i : Nat) (es : List SlotEntry) {r : Part} (hr : p.writeSlots i es = .ok r) :
    p.Kept r := by
  obtain ⟨q, rows, filters, heq, since, hrows, hfilters, hfit⟩ := Part.slotsWritten_remade p.slotEntry
    (writeDefault SlotEntry.powerOn p.slotMap i es) es i (Part.Since.refl p) p.slotMap p.rows p.filters fun _ _ => rfl
  unfold Part.writeSlots at hr
  dsimp only at hr
  split at hr
  · cases hr
  · rename_i refused
    have ok : slotMapOk (writeDefault SlotEntry.powerOn p.slotMap i es) = true := by simpa using refused
    split at hr
    · cases hr
    · have hq := heq.symm.trans (Except.ok.inj hr)
      subst hq
      refine Part.Near.kept ⟨since.mono.ge, since.strap, since.bounded, fun hp => ?_⟩ since.tiers fun hz => ?_
      · obtain ⟨rises, mapRises, fit, -⟩ := hp.rows
        obtain ⟨groups, filtersRise, dup⟩ := (since.records hp).plain
        have hpf := hp.plain.2.1
        exact { since.records hp with
          rows := ⟨hrows rises, rising_writeDefault _ i es mapRises, hfit fit, ok⟩
          plain := ⟨groups, hfilters hpf, dup⟩ }
      · exact since.zone.trans (hz.trans since.zoneEval.symm)

theorem Part.writeTerminals_kept (p : Part) (i : Nat) (es : List Terminal) {r : Part} (hr : p.writeTerminals i es = .ok r) :
    p.Kept r := by
  unfold Part.writeTerminals at hr
  dsimp only at hr
  split at hr
  · cases hr
    exact ((Part.Since.refl p).setTerminals _ fun k => ⟨rising_writeDefault _ i es k, ‹_›⟩).kept
  · cases hr

theorem writeWith_ok {α : Type} {f : List Byte → Option α} {bs : List (List Byte)} {w : List α → Except Result Part} {r : Part}
    (h : writeWith f bs w = .ok r) : ∃ xs, w xs = .ok r := by
  unfold writeWith at h
  split at h
  · cases h
  · exact ⟨_, h⟩

theorem Part.tableWrite_kept (p : Part) (t i : Nat) (bs : List (List Byte)) {r : Part} (hr : p.tableWrite t i bs = .ok r) :
    p.Kept r := by
  unfold Part.tableWrite at hr
  split at hr
  · exact (writeWith_ok hr).elim fun es he => p.writeSlots_kept i es he
  · exact (writeWith_ok hr).elim fun es he => ((Part.Since.refl p).writeModules _ _ es he).kept
  · exact (writeWith_ok hr).elim fun es he => ((Part.Since.refl p).writeModules _ _ es he).kept
  · exact (writeWith_ok hr).elim fun es he => p.writeTerminals_kept i es he
  · obtain ⟨xs, hxs⟩ := writeWith_ok hr
    cases hxs
    exact ((Part.Since.refl p).setGroups _ (rising_writeDefault _ i xs)).kept
  · exact (writeWith_ok hr).elim fun es he => p.writeSchedule_kept i es he
  · obtain ⟨xs, hxs⟩ := writeWith_ok hr
    cases hxs
    exact ((Part.Since.refl p).setPassTable _ (rising_writePlaces i xs)).kept
  · cases hr

theorem Part.doTableWrite_kept (p : Part) (f : Frame) : p.Kept (p.doTableWrite f).part := by
  unfold Part.doTableWrite
  dsimp only
  split
  · exact .refl p
  · split
    · exact .refl p
    · split
      · exact .refl p
      · rename_i q hq
        exact p.tableWrite_kept _ _ _ hq

/-! ## The power-on state -/

theorem Channel.Sound.empty {ch : Channel} (map : ch.map = []) (modules : ch.modules = []) : ch.Sound := by
  refine ⟨by rw [map]; rfl, by rw [modules]; rfl, by rw [map]; rfl, fun a => ?_⟩
  rw [map, modules]
  simp [Table.look]

theorem Part.powerOn_bounded (b : Bool) : (Part.powerOn b).Bounded := by
  refine ⟨?_, ?_, ?_, ?_, ?_, ?_, ?_, ?_⟩ <;> exact Nat.zero_le _

theorem Part.powerOn_policy (b : Bool) : (Part.powerOn b).policy.InRange := by
  show ∀ i, i < 12 → policyClamp i ((Part.powerOn false).policy.get i) = (Part.powerOn false).policy.get i
  decide

theorem Part.powerOn_alt (b : Bool) : (Part.powerOn b).alt.Sound false where
  noticesRise := rfl
  subjects := .nil
  places := .nil
  placesIn := (List.forall_mem_nil _)
  noticesIn := (List.forall_mem_nil _)
  clockFlag := by
    show flagsPowerOn.getLsbD 14 = true
    simp [flagsPowerOn_getLsbD]

theorem Part.powerOn_records (b : Bool) : (Part.powerOn b).Records where
  keys := ⟨rfl, (List.forall_mem_nil _), .nil, .nil⟩
  rows := ⟨rfl, rfl, fun n => by simp [Part.powerOn, Part.slotEntry, SlotEntry.powerOn], rfl⟩
  ctxs := ⟨rfl, (List.forall_mem_nil _)⟩
  rentals := ⟨rfl, .nil, .nil, ⟨(List.forall_mem_nil _), .nil⟩, fun i => by simp [Part.powerOn]⟩
  alt := Part.powerOn_alt b
  waiters := ⟨.nil, by simp [Part.powerOn]⟩
  queue := ⟨.nil, (List.forall_mem_nil _)⟩
  chanA := .empty rfl rfl
  chanB := .empty rfl rfl
  terminals := ⟨rfl, rfl⟩
  tracking := ⟨rfl, rfl, (List.forall_mem_nil _)⟩
  lamps := ⟨rfl, rfl, (List.forall_mem_nil _)⟩
  plain := ⟨rfl, rfl, rfl⟩
  schedule := ⟨rfl, .nil⟩
  clock := ⟨Nat.zero_le _, Nat.zero_le _, Nat.zero_le _, by simp [Part.powerOn]⟩
  policy := Part.powerOn_policy b

theorem Part.powerOn_sound (b : Bool) : (Part.powerOn b).Sound :=
  (Part.sound_iff _).2 ⟨Part.powerOn_records b, (List.forall_mem_nil _), rfl⟩

theorem Part.restartAll_records (p : Part) : p.restartAll.Records :=
  { Part.powerOn_records p.strapHigh with
    chanA := .empty rfl rfl
    chanB := .empty rfl rfl }

/-- Everything but time, strap and the levels of the inputs is as at power-on (R199). -/
theorem Part.restartAll_kept (p : Part) : p.Kept p.restartAll where
  mono := Nat.le_refl _
  strap := rfl
  bounded _ := Part.powerOn_bounded p.strapHigh
  sound _ := (Part.sound_iff _).2 ⟨p.restartAll_records, (List.forall_mem_nil _), rfl⟩

end Sys2Proof.Machine
end

section
/-! PROOFS. The invariants and the monotonic time: every command but POWER_ON keeps them by the operation it runs, and the lamps are
recomputed at its end. -/

namespace Sys2Proof.Machine
open Sys2Proof

/-- The command's operation keeps what Part.Kept says, and the lamps are recomputed behind it (R138). -/
def RunsKept (s : State) (o : Host.Outcome State Fault Refusal) : Prop :=
  ∃ q : Part, o = .next { s with part := q.lampRun } ∧ s.part.Kept q

theorem Part.Kept.runs {s : State} {q : Part} (h : s.part.Kept q) : RunsKept s (.next { s with part := q.lampRun }) := ⟨q, rfl, h⟩

theorem Part.Since.runs {s : State} {q : Part} (h : s.part.Since q) : RunsKept s (.next { s with part := q.lampRun }) := h.kept.runs

/-- The taking of a request whose owner leaves clock, schedule, policy and the set of keys. -/
theorem requestRuns (s : State) (row : Instr) {owner : Part → Frame → Answer}
    (acts : ∀ {p q : Part}, p.Since q → ∀ f, p.Since (owner q f).part) :
    RunsKept s (.next { s with part := (s.part.requestRun row owner).lampRun }) :=
  (Part.Kept.requestRun s.part row fun q f => (acts (.refl q) f).kept).runs

theorem exec_kept (c : Instr) (s : State) (h : ∀ high, c ≠ .powerOn high) : RunsKept s (exec c s) := by
  have now := Part.Since.refl s.part
  cases c with
  | powerOn high => exact absurd rfl (h high)
  | headerReceived dest origin kind len check => exact (now.headerReceived _).runs
  | framingError => exact now.framingError.runs
  | syncError byte => exact (now.syncError byte).runs
  | frameTruncated => exact now.frameTruncated.runs
  | frameReceived crcHigh crcLow => exact (now.frameReceived _).runs
  | linkWatchExpiry => exact now.watchExpire.runs
  | clearToSendAsserted asserted => exact (now.ctsFound asserted).runs
  | reportSent => exact now.reportSent.runs
  | waitingOwnerReportEnters => exact now.waitingEnters.runs
  | syncPairFound => exact now.syncPair.runs
  | payloadReceived bytes => exact (now.payloadReceived bytes).runs
  | tflFrameDropped => exact (Part.Kept.tflRun s.part _ fun q f => ((Part.Since.refl q).dropFrame f).kept).runs
  | moduleFrame => exact (Part.Kept.tflRun s.part _ fun q f => ((Part.Since.refl q).judgeModule f).kept).runs
  | broadcastTimeSet => exact (Part.Kept.tflRun s.part _ Part.broadcastTime_kept).runs
  | unknownRequest => exact requestRuns s _ fun h _ => h
  | keyAdd => exact (Part.Kept.requestRun s.part _ Part.doKeyAdd_kept).runs
  | keyDelete => exact (Part.Kept.requestRun s.part _ Part.doKeyDelete_kept).runs
  | timeSet => exact (Part.Kept.requestRun s.part _ Part.doTimeSet_kept).runs
  | tableWrite => exact (Part.Kept.requestRun s.part _ Part.doTableWrite_kept).runs
  | policySet => exact (Part.Kept.requestRun s.part _ Part.doPolicySet_kept).runs
  | restartAll => exact (Part.Kept.requestRun s.part _ fun q _ => q.restartAll_kept).runs
  | keyQuery => exact requestRuns s _ .doKeyQuery
  | keyHold => exact requestRuns s _ .doKeyHold
  | guide => exact requestRuns s _ .doGuide
  | holdRangeStart => exact requestRuns s _ .doHoldStart
  | holdRangeEnd => exact requestRuns s _ .doHoldEnd
  | holdApply => exact requestRuns s _ .doHoldApply
  | authAdd => exact requestRuns s _ .doAuthAdd
  | authDelete => exact requestRuns s _ .doAuthDelete
  | clearLockout => exact requestRuns s _ .doClearLockout
  | release => exact requestRuns s _ .doRelease
  | pickup => exact requestRuns s _ .doPickup
  | serviceRelease => exact requestRuns s _ .doServiceRelease
  | cancelRelease => exact requestRuns s _ .doCancelRelease
  | rentalCloseManual => exact requestRuns s _ .doCloseManual
  | extend => exact requestRuns s _ .doExtend
  | rentalQuery => exact requestRuns s _ .doRentalQuery
  | overdueList => exact requestRuns s _ .doOverdueList
  | ackAlert => exact requestRuns s _ .doAckAlert
  | flagsRead => exact requestRuns s _ .doFlagsRead
  | enableSet => exact requestRuns s _ .doEnableSet
  | censusStart => exact requestRuns s _ .doCensusStart
  | censusAbort => exact requestRuns s _ .doCensusAbort
  | censusRead => exact requestRuns s _ .doCensusRead
  | lampControlBlankOn => exact requestRuns s _ .doBlankOn
  | lampControlBlankOff => exact requestRuns s _ fun h _ => h.setBlank false
  | lampControlTest => exact requestRuns s _ fun h _ => h.testStart
  | lampRelease => exact requestRuns s _ .doLampRelease
  | channelControlOn => exact requestRuns s _ .doChannelOn
  | channelControlOff => exact requestRuns s _ fun h _ => h.chanOff _
  | channelControlReenumerate => exact requestRuns s _ .doReenumerate
  | tableRead => exact requestRuns s _ .doTableRead
  | statusRead => exact requestRuns s _ .doStatusRead
  | countersRead => exact requestRuns s _ .doCountersRead
  | restartLogic => exact requestRuns s _ .doRestartLogic
  | guideExpiry slot => exact (now.guideExpire slot).runs
  | lampTestPhaseExpiry => exact now.testPhase.runs
  | passThroughExpiry entry => exact (now.trackExpire entry).runs
  | monotonicSecond => exact (s.part.toNextSecond_kept.trans s.part.toNextSecond.clockSecond_kept).runs
  | minuteTick => exact s.part.minuteTick_kept.runs
  | authExpiry => exact now.relTick.runs
  | reAlert => exact now.altTick.runs
  | scheduledCensusStart => exact now.cenTakeTick.runs
  | lineHang line => exact (now.lineHang _ _).runs
  | resetPulseEnd chan => exact (now.pulseEnd chan).runs
  | enumerationRound chan serial => exact (now.round chan serial).runs
  | assignAnswer chan answer => exact (now.assignAnswer chan _ _).runs
  | sendPoll chan => exact (now.sendPoll chan).runs
  | sendReadTags chan => exact (now.sendReadTags chan).runs
  | sendLockOpen chan => exact (now.sendLockOpen chan).runs
  | sendLockClose chan => exact (now.sendLockClose chan).runs
  | sendLamp chan => exact (now.sendLamp chan).runs
  | sendPassedFrame chan => exact (now.sendPassed chan).runs
  | pollAnswer chan answer => exact (now.pollAnswer chan _ _).runs
  | settleExpiry slot => exact (now.settleExpire slot).runs
  | lockOpenAnswer chan answer => exact (now.lockOpenAnswer chan _ _).runs
  | lockCloseAnswer chan answer => exact (now.lockCloseAnswer chan _ _).runs
  | lockLimitOpening context => exact (now.lockLimitOpening context).runs
  | lockLimitClosing context => exact (now.lockLimitClosing context).runs
  | removalWindowExpiry context => exact (now.windowExpire context).runs
  | readTagsAnswer chan answer => exact (now.readTagsAnswer chan answer).runs
  | lampAnswer answer => exact (now.lampAnswer _ _).runs
  | passThroughAnswer chan ends data => exact (now.passAnswer chan _).runs
  | commandMiss chan => exact (now.commandMiss chan).runs

/-- A millisecond passes. -/
theorem Part.passing_kept (p : Part) : p.Kept { p with mono := p.mono + 1 } :=
  Part.Near.kept ⟨Nat.le_succ _, rfl, id, fun hp => { hp with }⟩ (fun _ => id) id

theorem idle_kept (s : State) : s.part.Kept s.idle.part ∧ (s.part.Settled → s.idle.part.Settled) := by
  unfold State.idle
  dsimp only
  split
  · exact ⟨.refl _, id⟩
  · exact ⟨s.part.passing_kept, id⟩

/-- The state that POWER_ON makes. -/
theorem step_powerOn {s t : State} {b : Bool} {rest : List Instr} (h : s.pending = .powerOn b :: rest) (ht : step s = .next t) :
    t.part = Part.powerOn b := by
  unfold step at ht
  rw [h] at ht
  injection ht with ht
  exact ht ▸ rfl

/-- A step that is not POWER_ON keeps what Part.Kept says, and leaves no lamp to recompute where none was left. -/
theorem step_kept {s t : State} (h : ∀ high, s.pending.head? ≠ some (.powerOn high)) (ht : step s = .next t) :
    s.part.Kept t.part ∧ (s.part.Settled → t.part.Settled) := by
  unfold step at ht
  split at ht
  · rename_i c rest hpending
    obtain ⟨q, hq, kept⟩ := exec_kept c { s with pending := rest } fun high hc => h high (by rw [hpending, hc]; rfl)
    rw [hq] at ht
    injection ht with ht
    subst ht
    exact ⟨kept.trans (Part.Since.refl q).lampRun.kept, fun _ => q.lampRun_touched⟩
  · injection ht with ht
    subst ht
    exact idle_kept s

/-- Settles O5: POWER_ON makes a sound state, and every other step keeps capacities and records and ends by recomputing the lamps. -/
theorem everyStepKeepsTheInvariants : Obligations.EveryStepKeepsTheInvariants := by
  unfold Obligations.EveryStepKeepsTheInvariants
  intro s t ht
  by_cases hpower : ∃ high, s.pending.head? = some (.powerOn high)
  · obtain ⟨high, hhead⟩ := hpower
    obtain ⟨rest, hpending⟩ := List.head?_eq_some_iff.1 hhead
    rw [step_powerOn hpending ht]
    exact ⟨fun _ => Part.powerOn_bounded high, fun _ => rfl, fun _ => Part.powerOn_sound high⟩
  · obtain ⟨kept, settled⟩ := step_kept (fun high hh => hpower ⟨high, hh⟩) ht
    exact ⟨kept.bounded, settled, kept.sound⟩

/-- Settles O6. -/
theorem resetKeepsTheInvariants : Obligations.ResetKeepsTheInvariants :=
  ⟨Part.powerOn_bounded false, rfl, Part.powerOn_sound false⟩

/-- Settles O7. -/
theorem timeAndStrapHoldUntilPowerOn : Obligations.TimeAndStrapHoldUntilPowerOn := fun _ _ h ht =>
  ⟨(step_kept h ht).1.mono, (step_kept h ht).1.strap⟩

end Sys2Proof.Machine
end

section
/-! PROOFS. The receiver of the Branch Link Port (R173 to R176): HUNT and abandoned frames, headers, payloads and complete frames. -/

namespace Sys2Proof.Machine
open Sys2Proof

/-- A row that ends by recomputing the lamps of part q leads to q, up to the lamps. -/
theorem State.becomes_of_eq {s : State} {q p : Part} (h : q = p) : s.Becomes (.next { s with part := q.lampRun }) p :=
  ⟨_, rfl, rfl, by rw [h, Part.lampRun_unlit]⟩

/-! ## HUNT -/

/-- The link of a part with another receiver state and other counters. -/
theorem Part.onLink_eq (p : Part) (f : Link → Link) (l : Link) (h : f p.link = l) : p.onLink f = { p with link := l } := by
  rw [Part.onLink, h]

theorem Part.huntOn_stray (p : Part) (run start : Bool) :
    p.huntOn run true start = { p with link := { p.link with
      rx := .hunt true start
      counters := if run = true then p.link.counters
        else { p.link.counters with syncError := satUp p.link.counters.syncError } } } := by
  cases run <;> simp [Part.huntOn, Part.setRx, Part.linkCount, Part.onLink]

theorem Part.syncPair_found {p : Part} {run : Bool} (h : p.link.rx = .hunt run true) :
    p.syncPair = p.setRx (.header [] p.mono) := by
  simp [Part.syncPair, h]

theorem Part.syncError_hunt {p : Part} {run start : Bool} (h : p.link.rx = .hunt run start) (b : Byte)
    (hpair : ¬ (start = true ∧ b = 0x3A#8)) : p.syncError b = p.huntOn run (start || b != 0xC5#8) (b == 0xC5#8) := by
  unfold Part.syncError
  rw [h]
  exact if_neg (by simpa [syncSecond] using hpair)

theorem Part.framingError_hunt {p : Part} {run start : Bool} (h : p.link.rx = .hunt run start) :
    p.framingError = (p.linkCount (fun c => { c with framingError := satUp c.framingError })).huntOn run true false := by
  unfold Part.framingError
  rw [h]

theorem Part.framingError_frame {p : Part} (h : ∀ run start, p.link.rx ≠ .hunt run start) :
    p.framingError = (p.linkCount (fun c => { c with framingError := satUp c.framingError })).huntAgain := by
  unfold Part.framingError
  split
  · exact absurd ‹_› (h _ _)
  · rfl

theorem Part.frameTruncated_overdue {p : Part} {last : Nat} (h : p.link.rx.lastByte = some last) (hlate : last + 20 ≤ p.mono) :
    p.frameTruncated = p.huntAgain.linkCount (fun c => { c with truncated := satUp c.truncated }) := by
  simp [Part.frameTruncated, Part.byteOverdue, h, Config.byteGap, hlate]

theorem Part.frameTruncated_early {p : Part} {last : Nat} (h : p.link.rx.lastByte = some last) (hearly : p.mono < last + 20) :
    p.frameTruncated = p := by
  simp [Part.frameTruncated, Part.byteOverdue, h, Config.byteGap, Nat.not_le.2 hearly]

/-- Settles O8. -/
theorem receiverHuntsAndAbandons : Obligations.ReceiverHuntsAndAbandons := by
  unfold Obligations.ReceiverHuntsAndAbandons
  intro s
  dsimp only
  refine ⟨fun run h => ?_, fun run start h => ⟨?_, ?_, ?_, ?_⟩, fun h => ?_, fun last h => ⟨fun hlate => ?_, fun hearly => ?_⟩⟩
  · exact State.becomes_of_eq (Part.syncPair_found h)
  · rintro rfl
    refine State.becomes_of_eq ((Part.syncError_hunt h _ (by simp)).trans ?_)
    exact Part.huntOn_start _ _ _
  · rintro rfl
    refine State.becomes_of_eq ((Part.syncError_hunt h _ (by decide)).trans ?_)
    exact Part.huntOn_stray _ _ _
  · intro b hb hpair
    refine State.becomes_of_eq ((Part.syncError_hunt h b hpair).trans ?_)
    simp only [bne_iff_ne.2 hb, beq_eq_false_iff_ne.2 hb, Bool.or_true]
    exact Part.huntOn_stray _ _ _
  · exact State.becomes_of_eq ((Part.framingError_hunt h).trans (Part.huntOn_stray _ _ _))
  · exact State.becomes_of_eq (Part.framingError_frame h)
  · exact State.becomes_of_eq (Part.frameTruncated_overdue h hlate)
  · exact State.becomes_of_eq (Part.frameTruncated_early h hearly)

end Sys2Proof.Machine
end

section
/-! PROOFS. The header check (R174, R202): what a bit in error does to syndrome and parity, and the headers taken or abandoned. -/

namespace Sys2Proof.Machine
open Sys2Proof

/-! ## Parity and syndrome of bits given by their index -/

theorem oddBits_cons (b : Bool) (bs : List Bool) : oddBits (b :: bs) = (b != oddBits bs) := by
  have acc (l : List Bool) (a : Bool) : l.foldl (fun a b => a != b) a = (a != l.foldl (fun a b => a != b) false) := by
    induction l generalizing a with
    | nil => simp
    | cons x r ih => rw [List.foldl_cons, List.foldl_cons, ih, ih (false != x)]; cases a <;> simp
  unfold oddBits
  rw [List.foldl_cons, acc]
  cases b <;> simp

/-- Where one of the bits is inverted the parity is. -/
theorem oddBits_flip (f : Nat → Bool) (l : List Nat) (once : l.Nodup) (d : Nat) :
    oddBits (l.map (fun i => f i != (i == d))) = (oddBits (l.map f) != decide (d ∈ l)) := by
  induction l with
  | nil => simp [oddBits]
  | cons i r ih =>
    obtain ⟨hi, hr⟩ := List.nodup_cons.1 once
    rw [List.map_cons, List.map_cons, oddBits_cons, oddBits_cons, ih hr]
    by_cases h : i = d
    · subst h
      cases f i <;> simp [hi]
    · rw [beq_eq_false_iff_ne.2 h]
      simp [Ne.symm h]

/-- The exclusive-or of the numbers whose bit is set. -/
def xorOver (f : Nat → Bool) (g : Nat → Nat) (l : List Nat) : Nat := l.foldl (fun a i => if f i then a ^^^ g i else a) 0

theorem xorOver_cons (f : Nat → Bool) (g : Nat → Nat) (i : Nat) (l : List Nat) :
    xorOver f g (i :: l) = (if f i then g i else 0) ^^^ xorOver f g l := by
  have acc (l : List Nat) (a : Nat) : l.foldl (fun a i => if f i then a ^^^ g i else a) a = a ^^^ xorOver f g l := by
    unfold xorOver
    induction l generalizing a with
    | nil => simp
    | cons x r ih =>
      rw [List.foldl_cons, List.foldl_cons, ih, ih (if f x then 0 ^^^ g x else 0)]
      cases f x <;> simp [Nat.xor_assoc]
  unfold xorOver
  rw [List.foldl_cons, acc, xorOver]
  simp

theorem xorOver_flip (f : Nat → Bool) (g : Nat → Nat) (l : List Nat) (once : l.Nodup) (d : Nat) :
    xorOver (fun i => f i != (i == d)) g l = xorOver f g l ^^^ (if d ∈ l then g d else 0) := by
  induction l with
  | nil => simp [xorOver]
  | cons i r ih =>
    obtain ⟨hi, hr⟩ := List.nodup_cons.1 once
    rw [xorOver_cons, xorOver_cons, ih hr]
    by_cases h : i = d
    · subst h
      cases f i <;> simp [hi, Nat.xor_comm]
    · rw [beq_eq_false_iff_ne.2 h, Bool.bne_false]
      simp [Ne.symm h, Nat.xor_assoc]

theorem xorOver_lt (f : Nat → Bool) (g : Nat → Nat) (n : Nat) (l : List Nat) (h : ∀ i ∈ l, g i < 2 ^ n) :
    xorOver f g l < 2 ^ n := by
  induction l with
  | nil => simp [xorOver]
  | cons i r ih =>
    rw [xorOver_cons]
    refine Nat.xor_lt_two_pow ?_ (ih fun j hj => h j (List.mem_cons_of_mem _ hj))
    split
    · exact h i (List.mem_cons_self ..)
    · exact Nat.two_pow_pos n

/-! ## The header by its bits -/

/-- Data bit i of a header. -/
def Header.bit (h : Header) (i : Nat) : Bool :=
  if i < 8 then h.dest.getLsbD i else if i < 16 then h.origin.getLsbD (i - 8) else if i < 24 then h.kind.getLsbD (i - 16)
  else h.len.getLsbD (i - 24)

/-- The Hamming position of data bit i. -/
def hammingPosition (i : Nat) : Nat := hammingPositions.getD i 0

theorem Header.bits_eq (h : Header) : h.bits = (List.range 32).map h.bit := rfl

theorem Header.checkBits_eq (h : Header) : h.checkBits = xorOver h.bit hammingPosition (List.range 32) := rfl

theorem Header.checkBits_lt (h : Header) : h.checkBits < 64 := by
  rw [h.checkBits_eq]
  exact xorOver_lt _ _ 6 _ (by decide)

theorem flipBit_getLsbD (b : Byte) {k : Nat} (hk : k < 8) (i : Nat) : (flipBit b k).getLsbD i = (b.getLsbD i != (i == k)) := by
  have one : (1#8 <<< k).getLsbD i = (i == k) := by
    rw [← BitVec.twoPow_eq, BitVec.getLsbD_twoPow]
    simp [hk, beq_eq_decide, @eq_comm _ k]
  unfold flipBit
  rw [BitVec.getLsbD_xor, one]

theorem flipBit_toNat (b : Byte) {k : Nat} (hk : k < 8) : (flipBit b k).toNat = b.toNat ^^^ 2 ^ k := by
  unfold flipBit
  rw [BitVec.toNat_xor, ← BitVec.twoPow_eq, BitVec.toNat_twoPow, Nat.mod_eq_of_lt (Nat.pow_lt_pow_right (by decide) hk)]

theorem flipBit_flipBit (b : Byte) (k : Nat) : flipBit (flipBit b k) k = b := by
  simp [flipBit]

theorem Header.flipData_flipData (h : Header) (d : Nat) : (h.flipData d).flipData d = h := by
  unfold Header.flipData
  repeat' split
  all_goals simp [flipBit_flipBit]

theorem Header.flipData_check (h : Header) (d : Nat) : (h.flipData d).check = h.check := by
  unfold Header.flipData
  repeat' split
  all_goals rfl

theorem Header.bit_flipData (h : Header) {d : Nat} (hd : d < 32) (i : Nat) :
    (h.flipData d).bit i = (h.bit i != (i == d)) := by
  unfold Header.flipData Header.bit
  repeat' split
  all_goals grind [flipBit_getLsbD]

/-- An inverted data bit moves the syndrome by its position, and makes the parity the other. -/
theorem Header.flipData_checked (h : Header) {d : Nat} (hd : d < 32) :
    (h.flipData d).syndrome = h.syndrome ^^^ hammingPosition d ∧ (h.flipData d).parityBad = !h.parityBad := by
  have bits : (h.flipData d).bits = (List.range 32).map (fun i => h.bit i != (i == d)) :=
    (h.flipData d).bits_eq.trans (List.map_congr_left fun i _ => h.bit_flipData hd i)
  have sums : (h.flipData d).checkBits = xorOver (fun i => h.bit i != (i == d)) hammingPosition (List.range 32) := by
    unfold Header.checkBits
    rw [bits]
    rfl
  have mem : d ∈ List.range 32 := List.mem_range.2 hd
  constructor
  · unfold Header.syndrome
    rw [sums, xorOver_flip _ _ _ List.nodup_range, if_pos mem, ← h.checkBits_eq, h.flipData_check]
    simp [Nat.xor_comm, Nat.xor_left_comm]
  · unfold Header.parityBad
    rw [bits, oddBits_flip _ _ List.nodup_range, ← h.bits_eq, h.flipData_check, decide_eq_true mem]
    cases oddBits h.bits <;> cases oddNat 7 h.check.toNat <;> rfl

/-- An inverted check bit moves the syndrome by its value, bit 6 aside, and makes the parity the other. -/
theorem Header.flipCheck_checked (h : Header) {k : Nat} (hk : k < 7) :
    ({ h with check := flipBit h.check k } : Header).syndrome = h.syndrome ^^^ (2 ^ k % 64)
      ∧ ({ h with check := flipBit h.check k } : Header).parityBad = !h.parityBad := by
  have value := flipBit_toNat h.check (k := k) (by omega)
  constructor
  · show h.checkBits ^^^ (flipBit h.check k).toNat % 64 = h.checkBits ^^^ h.check.toNat % 64 ^^^ (2 ^ k % 64)
    rw [value, show 64 = 2 ^ 6 from rfl, Nat.xor_mod_two_pow, Nat.xor_assoc]
  · have odd : oddNat 7 (flipBit h.check k).toNat = !oddNat 7 h.check.toNat := by
      have bits (i : Nat) : (h.check.toNat ^^^ 2 ^ k).testBit i = (h.check.toNat.testBit i != (i == k)) := by
        have one : (2 ^ k).testBit i = (i == k) := by
          simp [Nat.testBit_two_pow, beq_eq_decide, @eq_comm _ k]
        rw [Nat.testBit_xor, one]
      unfold oddNat
      rw [value]
      simp only [bits]
      rw [oddBits_flip _ _ List.nodup_range, decide_eq_true (List.mem_range.2 hk)]
      simp
    show (oddBits h.bits != oddNat 7 (flipBit h.check k).toNat) = !(oddBits h.bits != oddNat 7 h.check.toNat)
    rw [odd]
    cases oddBits h.bits <;> cases oddNat 7 h.check.toNat <;> rfl

/-! ## What the check makes of it -/

/-- A header with the check byte the part builds, bit 7 aside, has no bit in error. -/
theorem Header.built_checked (h : Header) (hc : h.check = h.build ∨ h.check = h.build ||| 0x80#8) :
    h.syndrome = 0 ∧ h.parityBad = false := by
  have lt := h.checkBits_lt
  have parity : ∀ c < 64, ∀ odd : Bool, oddNat 7 (c + if (odd != oddNat 6 c) = true then 64 else 0) = odd
      ∧ oddNat 7 ((c + if (odd != oddNat 6 c) = true then 64 else 0) ||| 128) = odd
      ∧ ((c + if (odd != oddNat 6 c) = true then 64 else 0) ||| 128) % 64 = c := by decide +kernel
  obtain ⟨low, high, rest⟩ := parity h.checkBits lt (oddBits h.bits)
  have value : h.build.toNat = h.checkBits + if (oddBits h.bits != oddNat 6 h.checkBits) = true then 64 else 0 := by
    unfold Header.build
    dsimp only
    rw [BitVec.toNat_ofNat, Nat.mod_eq_of_lt]
    split <;> omega
  unfold Header.syndrome Header.parityBad
  rcases hc with hc | hc
  · have mod : h.build.toNat % 64 = h.checkBits := by
      rw [value]
      split <;> omega
    rw [hc, mod, value, low]
    simp
  · rw [hc, BitVec.toNat_or, value]
    show h.checkBits ^^^ (_ ||| 128) % 64 = 0 ∧ (oddBits h.bits != oddNat 7 (_ ||| 128)) = false
    rw [rest, high]
    simp

/-- Positions of data bits: none is the position of a check bit, each is found, and no two are the same. -/
theorem hammingPosition_facts : ∀ d < 32, hammingPosition d ≠ 0 ∧ checkBitAt (hammingPosition d) = none
    ∧ hammingPositions.findIdx? (fun q => q == hammingPosition d) = some d
    ∧ (∀ k < 7, hammingPosition d ≠ 2 ^ k % 64) ∧ ∀ e < 32, d ≠ e → hammingPosition d ≠ hammingPosition e := by decide +kernel

theorem checkBit_facts : ∀ k < 7, (∀ l < 7, k ≠ l → 2 ^ k % 64 ≠ 2 ^ l % 64)
    ∧ (2 ^ k % 64 = 0 → k = 6) ∧ (2 ^ k % 64 ≠ 0 → checkBitAt (2 ^ k % 64) = some k) := by decide +kernel

theorem Header.judge_good {h : Header} (hs : h.syndrome = 0) (hp : h.parityBad = false) : h.judge = some (h, false) := by
  simp [Header.judge, hs, hp]

/-- An even number of bits in error and a syndrome: uncorrectable. -/
theorem Header.judge_none {h : Header} (hs : h.syndrome ≠ 0) (hp : h.parityBad = false) : h.judge = none := by
  simp [Header.judge, hs, hp]

theorem Header.judge_data {h : Header} {d : Nat} (hd : d < 32) (hs : h.syndrome = hammingPosition d) (hp : h.parityBad = true) :
    h.judge = some (h.flipData d, true) := by
  obtain ⟨pos, check, found, -⟩ := hammingPosition_facts d hd
  simp [Header.judge, hs, hp, pos, check, found]

theorem Header.judge_check {h : Header} {k : Nat} (hk : k < 7) (hs : h.syndrome = 2 ^ k % 64) (hp : h.parityBad = true) :
    h.judge = some ({ h with check := flipBit h.check k }, true) := by
  obtain ⟨-, last, found⟩ := checkBit_facts k hk
  by_cases h0 : 2 ^ k % 64 = 0
  · obtain rfl := last h0
    simp [Header.judge, hs, hp]
  · simp only [Header.judge, hp, if_true, hs, h0, if_false, found h0]

theorem crc16_digits : crc16 [0x31#8, 0x32#8, 0x33#8, 0x34#8, 0x35#8, 0x36#8, 0x37#8, 0x38#8, 0x39#8] = 0x29B1#16 := by decide +kernel

theorem crc8_digits : crc8 [0x31#8, 0x32#8, 0x33#8, 0x34#8, 0x35#8, 0x36#8, 0x37#8, 0x38#8, 0x39#8] = 0xF4#8 := by decide +kernel

/-- Settles O10: an error in a bit moves syndrome and parity by what the bit stands for, so that one is found again and two are
seen. -/
theorem headerCheckCorrectsOneBitAndFindsTwo : Obligations.HeaderCheckCorrectsOneBitAndFindsTwo := by
  unfold Obligations.HeaderCheckCorrectsOneBitAndFindsTwo
  refine ⟨fun h hc => ?_, crc16_digits, crc8_digits, by decide⟩
  obtain ⟨hs, hp⟩ := h.built_checked (.inl hc)
  have data (d : Nat) (hd : d < 32) : (h.flipData d).syndrome = hammingPosition d ∧ (h.flipData d).parityBad = true := by
    obtain ⟨s, p⟩ := h.flipData_checked hd
    exact ⟨by rw [s, hs, Nat.zero_xor], by rw [p, hp]; rfl⟩
  have check (k : Nat) (hk : k < 7) : ({ h with check := flipBit h.check k } : Header).syndrome = 2 ^ k % 64
      ∧ ({ h with check := flipBit h.check k } : Header).parityBad = true := by
    obtain ⟨s, p⟩ := h.flipCheck_checked hk
    exact ⟨by rw [s, hs, Nat.zero_xor], by rw [p, hp]; rfl⟩
  refine ⟨fun d hd => ?_, fun k hk => ?_, fun d e hd he hde => ?_, fun k l hk hl hkl => ?_, fun d k hd hk => ?_⟩
  · rw [Header.judge_data hd (data d hd).1 (data d hd).2, h.flipData_flipData]
  · rw [Header.judge_check hk (check k hk).1 (check k hk).2]
    simp only [flipBit_flipBit]
  · obtain ⟨s, p⟩ := (h.flipData d).flipData_checked he
    refine Header.judge_none ?_ (by rw [p, (data d hd).2]; rfl)
    rw [s, (data d hd).1, ne_eq, Nat.xor_eq_zero_iff]
    exact (hammingPosition_facts d hd).2.2.2.2 e he hde
  · obtain ⟨s, p⟩ := Header.flipCheck_checked { h with check := flipBit h.check k } hl
    refine Header.judge_none ?_ (p.trans (by rw [(check k hk).2]; rfl))
    rw [s, (check k hk).1, ne_eq, Nat.xor_eq_zero_iff]
    exact (checkBit_facts k hk).1 l hl hkl
  · obtain ⟨s, p⟩ := (h.flipData d).flipCheck_checked hk
    rw [h.flipData_check] at s p
    refine Header.judge_none ?_ (p.trans (by rw [(data d hd).2]; rfl))
    rw [s, (data d hd).1, ne_eq, Nat.xor_eq_zero_iff]
    exact (hammingPosition_facts d hd).2.2.2.1 k hk

/-! ## The header taken or abandoned -/

theorem Part.headerReceived_more {p : Part} {got new : List Byte} {last : Nat} {row : List (Option Byte)}
    (h : p.link.rx = .header got last) (hrow : nextBytes got.length row = some new) (hlen : (got ++ new).length ≠ 5) :
    p.headerReceived row = p.setRx (.header (got ++ new) p.mono) := by
  unfold Part.headerReceived
  rw [h]
  dsimp only
  rw [hrow, Option.map_some]
  split
  · simp at *
  · rename_i heq
    rw [Option.some.inj heq] at hlen
    simp at hlen
  · rename_i heq
    rw [Option.some.inj heq]

theorem Part.headerReceived_whole {p : Part} {got new : List Byte} {last : Nat} {row : List (Option Byte)} {x : Header}
    (h : p.link.rx = .header got last) (hrow : nextBytes got.length row = some new)
    (hx : got ++ new = [x.dest, x.origin, x.kind, x.len, x.check]) : p.headerReceived row = p.headerJudged x := by
  unfold Part.headerReceived
  rw [h]
  dsimp only
  rw [hrow, Option.map_some, hx]

theorem Part.headerJudged_none {p : Part} {h : Header} (hj : h.judge = none) : p.headerJudged h =
    p.huntAgain.linkCount (fun c => { c with headerUncorrectable := satUp c.headerUncorrectable }) := by
  unfold Part.headerJudged
  rw [hj]

section Judged
variable {p : Part} {h g : Header} {corrected : Bool} (hj : h.judge = some (g, corrected))
include hj

/-- The part that has counted a corrected header. -/
theorem Part.headerJudged_some : p.headerJudged h =
    let q := if corrected then p.linkCount (fun c => { c with headerCorrected := satUp c.headerCorrected }) else p
    if 240 < g.len.toNat then q.huntAgain.linkCount (fun c => { c with lengthError := satUp c.lengthError })
    else if g.len = 0#8 then q.setRx (.check g [] [] p.mono)
    else q.setRx (.payload g [] p.mono) := by
  unfold Part.headerJudged
  rw [hj]
  rfl

theorem Part.headerJudged_payload (low : 1 ≤ g.len.toNat) (high : g.len.toNat ≤ 240) : p.headerJudged h =
    (if corrected then p.linkCount (fun c => { c with headerCorrected := satUp c.headerCorrected }) else p).setRx
      (.payload g [] p.mono) := by
  have hlen : g.len ≠ 0#8 := fun h0 => by simp [h0] at low
  rw [Part.headerJudged_some hj]
  dsimp only
  rw [if_neg (by omega), if_neg hlen]

theorem Part.headerJudged_check (hlen : g.len = 0#8) : p.headerJudged h =
    (if corrected then p.linkCount (fun c => { c with headerCorrected := satUp c.headerCorrected }) else p).setRx
      (.check g [] [] p.mono) := by
  rw [Part.headerJudged_some hj]
  dsimp only
  rw [if_neg (by simp [hlen]), if_pos hlen]

theorem Part.headerJudged_long (hlen : 240 < g.len.toNat) : p.headerJudged h =
    (if corrected then p.linkCount (fun c => { c with headerCorrected := satUp c.headerCorrected }) else p).huntAgain.linkCount
      (fun c => { c with lengthError := satUp c.lengthError }) := by
  rw [Part.headerJudged_some hj]
  exact if_pos hlen

end Judged

/-- Settles O9: bytes that do not complete a header are kept; a complete one goes on or is abandoned as its check and its length
say. -/
theorem headerIsTakenOrAbandoned : Obligations.HeaderIsTakenOrAbandoned := by
  unfold Obligations.HeaderIsTakenOrAbandoned
  intro s got new last a b c d e hrx hnew
  dsimp only
  refine ⟨fun rest hrest hlen hrow => ?_, fun h hrow hall => ?_⟩
  · have bytes : nextBytes got.length [a, b, c, d, e] = some new := hrow ▸ nextBytes_of got.length rest new hnew
    exact State.becomes_of_eq (Part.headerReceived_more hrx bytes (by rw [List.length_append]; omega))
  · have bytes : nextBytes got.length [a, b, c, d, e] = some new := by
      simpa [hrow] using nextBytes_of got.length 0 new hnew
    have whole := Part.headerReceived_whole (x := h) hrx bytes hall
    refine ⟨fun hc => ?_, fun g hg => ?_, fun hj => ?_⟩
    · obtain ⟨hs, hp⟩ := h.built_checked hc
      have good := Header.judge_good hs hp
      exact ⟨fun low high => State.becomes_of_eq (whole.trans (Part.headerJudged_payload good low high)),
        fun hlen => State.becomes_of_eq (whole.trans (Part.headerJudged_check good hlen)),
        fun hlen => State.becomes_of_eq (whole.trans (Part.headerJudged_long good hlen))⟩
    · exact ⟨fun low high => State.becomes_of_eq (whole.trans (Part.headerJudged_payload hg low high)),
        fun hlen => State.becomes_of_eq (whole.trans (Part.headerJudged_check hg hlen)),
        fun hlen => State.becomes_of_eq (whole.trans (Part.headerJudged_long hg hlen))⟩
    · exact State.becomes_of_eq (whole.trans (Part.headerJudged_none hj))

end Sys2Proof.Machine
end

section
/-! PROOFS. The Alert Unit: what is raised, replaced and removed (R106 to R110), and the alert line (R118). -/

namespace Sys2Proof.Machine
open Sys2Proof

/-! ## Factor flags -/

theorem AlertKind.code_lt (k : AlertKind) : k.code < 16 := by cases k <;> decide

theorem setBit_getLsbD (w : BitVec 16) {i : Nat} (hi : i < 16) (j : Nat) :
    (setBit w i).getLsbD j = (w.getLsbD j || decide (j = i)) := by
  by_cases h : i = j
  · subst h
    unfold setBit
    rw [BitVec.getLsbD_or, ← BitVec.twoPow_eq, BitVec.getLsbD_twoPow]
    simp [hi]
  · rw [setBit_getLsbD_other w i j h]
    simp [Ne.symm h]

theorem Part.setFlag_flags (p : Part) {i : Nat} (hi : i < 16) (j : Nat) :
    (p.setFlag i).alt.flags.getLsbD j = (p.alt.flags.getLsbD j || decide (j = i)) := setBit_getLsbD _ hi j

/-! ## The youngest entry -/

theorem Alt.entryAt_youngest (a : Alt) (e : AlertEntry) : (a.youngest e).entryAt e.place = some e := by
  unfold Alt.entryAt Alt.youngest
  rw [List.find?_append, List.find?_eq_none.2 (by simp)]
  simp

theorem Alt.modify_youngest (a : Alt) (e : AlertEntry) (f : AlertEntry → AlertEntry) :
    (a.youngest e).modify e.place f = { a with entries := a.entries.filter (fun x => x.place != e.place) ++ [f e] } := by
  unfold Alt.youngest Alt.modify
  dsimp only
  rw [List.map_append, List.map_congr_left (g := id), List.map_id]
  · simp
  · intro x hx
    have : x.place ≠ e.place := by simpa using (List.mem_filter.1 hx).2
    simp [this]

theorem Alt.flags_youngest (a : Alt) (e : AlertEntry) : (a.youngest e).flags = a.flags := rfl

section Offer
variable (p : Part) (a : Alt) (e : AlertEntry) (f : AlertFlags) (hp : e.pending = none)
include hp

/-- Where a report may enter, the ALERT of the youngest entry does (R111). -/
theorem Part.offerAlert_youngest_room (room : p.essRoom = true) :
    ({ p with alt := a.youngest e } : Part).offerAlert e.place f
      = ({ p with alt := a.youngest e } : Part).enter ((a.youngest e).alertReport e f) := by
  unfold Part.offerAlert
  dsimp only
  rw [Alt.entryAt_youngest]
  dsimp only
  rw [hp]
  exact if_pos room

/-- Otherwise it is pending, and the place waits. -/
theorem Part.offerAlert_youngest_full (full : p.essRoom = false) :
    ({ p with alt := a.youngest e } : Part).offerAlert e.place f
      = ({ p with alt := (a.youngest e).modify e.place (fun e => { e with pending := some f }) } : Part).await
        (.alertPlace e.place) := by
  unfold Part.offerAlert
  dsimp only
  rw [Alt.entryAt_youngest]
  dsimp only
  rw [hp]
  exact if_neg (by rw [show Part.essRoom { p with alt := a.youngest e } = p.essRoom from rfl, full]; nofun)

/-- The entry stands at the youngest end, its ALERT entered or pending. -/
theorem Part.offerAlert_youngest_entries : ∃ g, (({ p with alt := a.youngest e } : Part).offerAlert e.place f).alt
    = { a with entries := a.entries.filter (fun x => x.place != e.place) ++ [{ e with pending := g }] } := by
  cases room : p.essRoom with
  | true =>
    rw [Part.offerAlert_youngest_room p a e f hp room]
    exact ⟨none, by rw [← hp]; rfl⟩
  | false =>
    rw [Part.offerAlert_youngest_full p a e f hp room]
    exact ⟨some f, Alt.modify_youngest a e _⟩

end Offer

/-- The ALERT of an entry: kind and subject stand first, of sixteen bytes. -/
theorem Alt.alertReport_body (a : Alt) (e : AlertEntry) (f : AlertFlags) : ∃ body,
    a.alertReport e f = ⟨.alert, 255, body⟩ ∧ body.length = 16 ∧ body.take 5 = BitVec.ofNat 8 e.kind.code :: e.subject.bytes
      ∧ body[14]? = some (BitVec.ofNat 8 f.byte) := by
  have subject : e.subject.bytes.length = 4 := by cases e.subject <;> simp [Subject.bytes]
  have detail : (detailBytes e.detail).length = 5 := by
    rcases e.detail with _ | d
    · simp [detailBytes]
    · cases d <;> simp [detailBytes]
  refine ⟨_, rfl, ?_, ?_, ?_⟩
  · simp [AlertEntry.head, subject, detail]
  · simp [AlertEntry.head, subject]
  · rw [List.append_assoc, List.append_assoc, List.getElem?_append_right (by simp [AlertEntry.head, subject, detail])]
    simp [AlertEntry.head, subject, detail]

/-! ## Raise -/

/-- The entry that a raise registers in place i (R106). -/
abbrev Part.newEntry (p : Part) (i : Nat) (k : AlertKind) (s : Subject) (d : Option Detail) : AlertEntry :=
  ⟨i, k, s, d, p.now, false, if p.interval = 0 then none else some (p.now + p.interval), none⟩

theorem Alt.freePlace_free {a : Alt} {i : Nat} (h : a.freePlace = some i) :
    (∀ e ∈ a.entries, e.place ≠ i) ∧ Table.look a.notices i = none := by
  have := List.find?_some h
  simpa [Alt.isFree] using this

theorem Alt.youngest_free {a : Alt} (e : AlertEntry) (h : ∀ x ∈ a.entries, x.place ≠ e.place) :
    a.youngest e = { a with entries := a.entries ++ [e] } := by
  unfold Alt.youngest
  rw [List.filter_eq_self.2 (by simpa using h)]

section Raise
variable (p : Part) (k : AlertKind) (s : Subject) (d : Option Detail)

theorem Part.raise_free {i : Nat} (hnone : p.alt.find k s = none) (hfree : p.alt.freePlace = some i) :
    p.raise k s d = (p.setFlag k.code).register i k s d := by
  have find : (p.setFlag k.code).alt.find k s = none := hnone
  have free : (p.setFlag k.code).alt.freePlace = some i := hfree
  unfold Part.raise
  dsimp only
  rw [find]
  dsimp only
  rw [free]

/-- The oldest ACKED entry whose place holds no notice gives way (R109). -/
theorem Part.raise_displaces {e : AlertEntry} (hnone : p.alt.find k s = none) (hfree : p.alt.freePlace = none)
    (he : p.alt.displaceable = some e) :
    p.raise k s d = (let q : Part := { p.setFlag k.code with alt := (p.setFlag k.code).alt.drop e.place }
      (if e.pending.isSome then q.giveUpAlert e.place else q.offerNotice e.place e.droppedReport).register e.place k s d) := by
  have find : (p.setFlag k.code).alt.find k s = none := hnone
  have free : (p.setFlag k.code).alt.freePlace = none := hfree
  have displaced : (p.setFlag k.code).alt.displaceable = some e := he
  unfold Part.raise
  dsimp only
  rw [find]
  dsimp only
  rw [free]
  dsimp only
  rw [displaced]

theorem Part.raise_full (hnone : p.alt.find k s = none) (hfree : p.alt.freePlace = none) (he : p.alt.displaceable = none) :
    p.raise k s d = (p.setFlag k.code).setFlag flagRegisterFull := by
  have find : (p.setFlag k.code).alt.find k s = none := hnone
  have free : (p.setFlag k.code).alt.freePlace = none := hfree
  have displaced : (p.setFlag k.code).alt.displaceable = none := he
  unfold Part.raise
  dsimp only
  rw [find]
  dsimp only
  rw [free]
  dsimp only
  rw [displaced]

/-- An UNACKED entry stays but for the detail (R107). -/
theorem Part.raise_unacked {e : AlertEntry} (he : p.alt.find k s = some e) (hack : e.acked = false) :
    p.raise k s d = { p.setFlag k.code with
      alt := (p.setFlag k.code).alt.modify e.place (fun _ => { e with detail := d.orElse (fun _ => e.detail) }) } := by
  have find : (p.setFlag k.code).alt.find k s = some e := he
  unfold Part.raise
  dsimp only
  rw [find]
  dsimp only
  rw [hack]
  rfl

/-- An ACKED entry is renewed (R107). -/
theorem Part.raise_acked {e : AlertEntry} (he : p.alt.find k s = some e) (hack : e.acked = true) :
    p.raise k s d = ({ p.setFlag k.code with alt := (p.setFlag k.code).alt.youngest { e with
      detail := d.orElse (fun _ => e.detail), acked := false, raised := p.now
      next := if p.interval = 0 then none else some (p.now + p.interval) } } : Part).offerAlert e.place ⟨false, true, false⟩ := by
  have find : (p.setFlag k.code).alt.find k s = some e := he
  unfold Part.raise
  dsimp only
  rw [find]
  dsimp only
  rw [hack]
  rfl

end Raise

theorem Part.register_room (p : Part) (i : Nat) (k : AlertKind) (s : Subject) (d : Option Detail) (room : p.essRoom = true) :
    p.register i k s d = ({ p with alt := p.alt.youngest (p.newEntry i k s d) } : Part).enter
      ((p.alt.youngest (p.newEntry i k s d)).alertReport (p.newEntry i k s d) ⟨false, false, false⟩) :=
  Part.offerAlert_youngest_room p p.alt (p.newEntry i k s d) ⟨false, false, false⟩ rfl room

theorem Part.register_alt (p : Part) (i : Nat) (k : AlertKind) (s : Subject) (d : Option Detail) : ∃ g,
    (p.register i k s d).alt = { p.alt with
      entries := p.alt.entries.filter (fun x => x.place != i) ++ [{ p.newEntry i k s d with pending := g }] } :=
  Part.offerAlert_youngest_entries p p.alt (p.newEntry i k s d) ⟨false, false, false⟩ rfl

/-- A registration adds at most an ALERT to the Report Queue. -/
theorem Part.register_reports (p : Part) (i : Nat) (k : AlertKind) (s : Subject) (d : Option Detail) (r : Report)
    (hr : r ∈ (p.register i k s d).link.reports) : r ∈ p.link.reports ∨ r.kind = .alert := by
  cases room : p.essRoom with
  | true =>
    rw [p.register_room i k s d room] at hr
    simp only [Part.enter, Link.enter, List.mem_append, List.mem_singleton] at hr
    exact hr.imp_right fun h => by rw [h]; rfl
  | false =>
    have := Part.offerAlert_youngest_full p p.alt (p.newEntry i k s d) ⟨false, false, false⟩ rfl room
    rw [show p.register i k s d = _ from this] at hr
    left
    simpa [Part.await, Link.await_fields] using hr

/-! ## The statements -/

/-- The entry that gives way is the first whose place may be taken. -/
theorem Alt.displaceable_eq {a : Alt} {pre post : List AlertEntry} {e : AlertEntry} (hsplit : a.entries = pre ++ e :: post)
    (before : ∀ x ∈ pre, ¬ (x.acked = true ∧ Table.look a.notices x.place = none))
    (gives : e.acked = true ∧ Table.look a.notices e.place = none) : a.displaceable = some e := by
  unfold Alt.displaceable
  rw [hsplit, List.find?_append, List.find?_eq_none.2 (by simpa using before)]
  simp [gives]

theorem Alt.displaceable_none {a : Alt} (h : ∀ x ∈ a.entries, ¬ (x.acked = true ∧ Table.look a.notices x.place = none)) :
    a.displaceable = none := List.find?_eq_none.2 (by simpa using h)

theorem Alt.filter_drop (a : Alt) (i : Nat) :
    (a.drop i).entries.filter (fun x => x.place != i) = a.entries.filter (fun x => x.place != i) := by
  simp [Alt.drop, List.filter_filter]

/-- The part whose entry of a place has given way to a raise (R109). -/
def Part.gaveWay (p : Part) (e : AlertEntry) : Part :=
  let q : Part := { p with alt := p.alt.drop e.place }
  if e.pending.isSome then q.giveUpAlert e.place else q.offerNotice e.place e.droppedReport

theorem Part.gaveWay_alt (p : Part) (e : AlertEntry) : (p.gaveWay e).alt.entries = (p.alt.drop e.place).entries
    ∧ (p.gaveWay e).alt.flags = p.alt.flags ∧ (p.gaveWay e).clock = p.clock ∧ (p.gaveWay e).interval = p.interval := by
  unfold Part.gaveWay
  dsimp only
  split
  · unfold Part.giveUpAlert
    split <;> exact ⟨rfl, rfl, rfl, rfl⟩
  · unfold Part.offerNotice
    split <;> exact ⟨rfl, rfl, rfl, rfl⟩

theorem Part.gaveWay_pending {p : Part} {e : AlertEntry} (h : e.pending ≠ none) :
    (p.gaveWay e).link.reports = p.link.reports := by
  unfold Part.gaveWay
  rw [if_pos (Option.isSome_iff_ne_none.2 h)]
  unfold Part.giveUpAlert
  split <;> rfl

theorem Part.gaveWay_room {p : Part} {e : AlertEntry} (h : e.pending = none) (room : p.essRoom = true) :
    (p.gaveWay e).link = p.link.enter e.droppedReport := by
  have enters : ({ p with alt := p.alt.drop e.place } : Part).essRoom = true := room
  unfold Part.gaveWay
  rw [h]
  unfold Part.offerNotice
  simp [enters, Part.enter]

theorem Part.essRoom_iff (p : Part) : p.essRoom = true ↔ p.link.reports.length < 64 ∧ p.link.waiters = [] := by
  unfold Part.essRoom Link.room
  rw [Bool.and_eq_true, decide_eq_true_iff, List.isEmpty_iff]
  rfl

theorem Part.replaceAlert_found {p : Part} {old k : AlertKind} {s : Subject} {e : AlertEntry} (he : p.alt.find old s = some e)
    (hnone : p.alt.find k s = none) (hp : e.pending = none) : p.replaceAlert old k s
      = ({ p.setFlag k.code with alt := (p.setFlag k.code).alt.youngest { e with
          kind := k, acked := false, raised := p.now
          next := if p.interval = 0 then none else some (p.now + p.interval) } } : Part).offerAlert e.place
        ⟨false, false, true⟩ := by
  unfold Part.replaceAlert
  rw [he, hnone]
  dsimp only
  rw [hp]
  rfl

/-- Settles O15, the register case by case: a free place, a kind that changes, an entry that gives way or none, an entry that
stands. -/
theorem raiseRegistersOrRenews : Obligations.RaiseRegistersOrRenews := by
  unfold Obligations.RaiseRegistersOrRenews
  refine ⟨?_, ?_, ?_, ?_⟩
  · intro p k sub d i hnone hfree room
    have empty := (Alt.freePlace_free hfree).1
    rw [p.raise_free k sub d hnone hfree, (p.setFlag k.code).register_room i k sub d room]
    have youngest := Alt.youngest_free (a := (p.setFlag k.code).alt) ((p.setFlag k.code).newEntry i k sub d) empty
    obtain ⟨body, hbody, hlen, hhead, -⟩ := Alt.alertReport_body
      ((p.setFlag k.code).alt.youngest ((p.setFlag k.code).newEntry i k sub d)) ((p.setFlag k.code).newEntry i k sub d)
      ⟨false, false, false⟩
    refine ⟨congrArg Alt.entries youngest, fun j => p.setFlag_flags k.code_lt j, body, ?_, hlen, hhead⟩
    rw [hbody]
    rfl
  · intro p old k sub
    refine ⟨fun hnone => by unfold Part.replaceAlert; rw [hnone], fun e he hnone hp room => ?_⟩
    rw [Part.replaceAlert_found he hnone hp]
    have offered := Part.offerAlert_youngest_room (p.setFlag k.code) (p.setFlag k.code).alt { e with
      kind := k, acked := false, raised := p.now, next := if p.interval = 0 then none else some (p.now + p.interval) }
      ⟨false, false, true⟩ hp room
    rw [show Part.offerAlert _ e.place ⟨false, false, true⟩ = _ from offered]
    obtain ⟨body, hbody, hlen, hhead, hflags⟩ := Alt.alertReport_body ((p.setFlag k.code).alt.youngest { e with
      kind := k, acked := false, raised := p.now, next := if p.interval = 0 then none else some (p.now + p.interval) }) { e with
      kind := k, acked := false, raised := p.now, next := if p.interval = 0 then none else some (p.now + p.interval) }
      ⟨false, false, true⟩
    have subject : e.subject = sub := (Alt.mem_of_find he).2.2
    refine ⟨rfl, fun j => p.setFlag_flags k.code_lt j, body, ?_, hlen, subject ▸ hhead, hflags⟩
    rw [hbody]
    rfl
  · intro p k sub d hnone hfree
    refine ⟨fun pre e post hsplit before gives => ?_, fun none => ?_⟩
    · have raised := p.raise_displaces k sub d hnone hfree (Alt.displaceable_eq hsplit before gives)
      obtain ⟨entries, flags, clock, interval⟩ := (p.setFlag k.code).gaveWay_alt e
      have now : ((p.setFlag k.code).gaveWay e).now = p.now := by unfold Part.now; rw [clock]; rfl
      have raised : p.raise k sub d = ((p.setFlag k.code).gaveWay e).register e.place k sub d := raised
      rw [raised]
      obtain ⟨g, halt⟩ := ((p.setFlag k.code).gaveWay e).register_alt e.place k sub d
      refine ⟨⟨g, ?_⟩, fun j => ?_, fun hp waiters reports => ?_, fun hp r hr => ?_⟩
      · rw [halt]
        dsimp only
        rw [entries, Alt.filter_drop, now, interval]
        rfl
      · rw [halt]
        dsimp only
        rw [flags]
        exact p.setFlag_flags k.code_lt j
      · have room : (p.setFlag k.code).essRoom = true := (p.essRoom_iff).2 ⟨by omega, waiters⟩
        have link := Part.gaveWay_room hp room
        have room' : ((p.setFlag k.code).gaveWay e).essRoom = true := by
          rw [Part.essRoom_iff, link]
          refine ⟨?_, waiters⟩
          simp only [Link.enter, List.length_append, List.length_singleton]
          exact Nat.add_lt_add_right reports 1
        rw [Part.register_room _ _ _ _ _ room']
        obtain ⟨body, hbody, -, hhead, -⟩ := Alt.alertReport_body
          (((p.setFlag k.code).gaveWay e).alt.youngest (((p.setFlag k.code).gaveWay e).newEntry e.place k sub d))
          (((p.setFlag k.code).gaveWay e).newEntry e.place k sub d) ⟨false, false, false⟩
        refine ⟨body, ?_, hhead⟩
        simp only [Part.enter, Link.enter, hbody, link, List.append_assoc]
        rfl
      · rcases Part.register_reports _ _ _ _ _ r hr with h | h
        · rw [Part.gaveWay_pending hp] at h
          exact .inl h
        · exact .inr h
    · rw [p.raise_full k sub d hnone hfree (Alt.displaceable_none none)]
      refine ⟨rfl, rfl, rfl, fun j => ?_⟩
      rw [Part.setFlag_flags _ (by decide), Part.setFlag_flags _ k.code_lt]
      rfl
  · intro p k sub d e he hp room
    refine ⟨fun j => ?_, fun hack => ?_, fun hack => ?_⟩
    · cases hack : e.acked with
      | false =>
        rw [p.raise_unacked k sub d he hack]
        exact p.setFlag_flags k.code_lt j
      | true =>
        rw [p.raise_acked k sub d he hack]
        obtain ⟨g, halt⟩ := Part.offerAlert_youngest_entries (p.setFlag k.code) (p.setFlag k.code).alt { e with
          detail := d.orElse (fun _ => e.detail), acked := false, raised := p.now
          next := if p.interval = 0 then none else some (p.now + p.interval) } ⟨false, true, false⟩ hp
        rw [show (Part.offerAlert _ e.place ⟨false, true, false⟩).alt = _ from halt]
        exact p.setFlag_flags k.code_lt j
    · rw [p.raise_unacked k sub d he hack]
      exact ⟨rfl, rfl⟩
    · rw [p.raise_acked k sub d he hack]
      have offered := Part.offerAlert_youngest_room (p.setFlag k.code) (p.setFlag k.code).alt { e with
        detail := d.orElse (fun _ => e.detail), acked := false, raised := p.now
        next := if p.interval = 0 then none else some (p.now + p.interval) } ⟨false, true, false⟩ hp room
      rw [show Part.offerAlert _ e.place ⟨false, true, false⟩ = _ from offered]
      exact ⟨by simp [Part.enter, Link.enter, Part.setFlag], rfl⟩

theorem Part.remove_found {p : Part} {k : AlertKind} {s : Subject} {e : AlertEntry} (he : p.alt.find k s = some e) :
    p.remove k s = (let q : Part := { p with alt := p.alt.drop e.place }
      if e.pending.isSome then q.giveUpAlert e.place else q.offerNotice e.place (e.withdrawn p.now)) := by
  unfold Part.remove
  rw [he]

theorem Part.remove_none {p : Part} {k : AlertKind} {s : Subject} (h : p.alt.find k s = none) : p.remove k s = p := by
  unfold Part.remove
  rw [h]

/-- With room for it, ALERT_WITHDRAWN enters (R110). -/
theorem Part.remove_room {p : Part} {k : AlertKind} {s : Subject} {e : AlertEntry} (he : p.alt.find k s = some e)
    (hp : e.pending = none) (room : p.essRoom = true) :
    p.remove k s = ({ p with alt := p.alt.drop e.place } : Part).enter (e.withdrawn p.now) := by
  have enters : ({ p with alt := p.alt.drop e.place } : Part).essRoom = true := room
  rw [Part.remove_found he]
  dsimp only
  rw [hp]
  unfold Part.offerNotice
  simp [enters]

/-- Settles O16. -/
theorem removeWithdrawsTheEntry : Obligations.RemoveWithdrawsTheEntry := by
  unfold Obligations.RemoveWithdrawsTheEntry
  intro p k sub e he
  have register : (p.remove k sub).alt.flags = p.alt.flags
      ∧ (p.remove k sub).alt.entries = p.alt.entries.filter (fun x => x.place != e.place) := by
    rw [Part.remove_found he]
    dsimp only
    split
    · unfold Part.giveUpAlert
      split <;> exact ⟨rfl, rfl⟩
    · unfold Part.offerNotice
      split <;> exact ⟨rfl, rfl⟩
  refine ⟨register.1, register.2, fun hp room => ?_, fun hp => ?_⟩
  · rw [Part.remove_room he hp room]
    rfl
  · rw [Part.remove_found he]
    dsimp only
    rw [if_pos (Option.isSome_iff_ne_none.2 hp)]
    unfold Part.giveUpAlert
    split <;> rfl

/-- Settles O17: of the flags masked by the enable set of the zone some bit is set. -/
theorem alertLineIsDrivenExactly : Obligations.AlertLineIsDrivenExactly := by
  unfold Obligations.AlertLineIsDrivenExactly
  intro p
  have masked (w v : BitVec 16) : (w &&& v) ≠ 0#16 ↔ ∃ i, w.getLsbD i = true ∧ v.getLsbD i = true := by
    constructor
    · intro h
      by_contra hno
      refine h (BitVec.eq_of_getLsbD_eq fun i _ => ?_)
      have := not_exists.1 hno i
      rw [BitVec.getLsbD_and]
      cases hw : w.getLsbD i <;> cases hv : v.getLsbD i <;> simp_all
    · rintro ⟨i, hw, hv⟩ h
      have := congrArg (fun x : BitVec 16 => x.getLsbD i) h
      simp [hw, hv] at this
  unfold Part.lineDriven
  rw [Bool.and_eq_true, bne_iff_ne, masked]
  unfold Part.enables
  cases p.zone <;> rfl

end Sys2Proof.Machine
end

section
/-! PROOFS. The Branch Link Port beyond the header: complete frames (R175, R176), the link watch (R181, R182), the Report Queue
(R172, R179) and the waiting owners (R180). -/

namespace Sys2Proof.Machine
open Sys2Proof

/-- A row that ends by recomputing the lamps of a part that agrees with p but for lamps leads to p, up to the lamps. -/
theorem State.becomes_of_unlit {s : State} {q p : Part} (h : q.unlit = p.unlit) :
    s.Becomes (.next { s with part := q.lampRun }) p := ⟨_, rfl, rfl, by rw [Part.lampRun_unlit, h]⟩

/-! ## Payloads and complete frames -/

theorem Part.payloadReceived_whole {p : Part} {h : Header} {got bs : List Byte} {last : Nat}
    (hrx : p.link.rx = .payload h got last) (hbs : bs ≠ []) (hlen : (got ++ bs).length = h.len.toNat) :
    p.payloadReceived bs = p.setRx (.check h (got ++ bs) [] p.mono) := by
  unfold Part.payloadReceived
  rw [hrx]
  dsimp only
  rw [if_neg (by simp only [hbs, false_or]; omega), if_pos hlen]

theorem Part.payloadReceived_more {p : Part} {h : Header} {got bs : List Byte} {last : Nat}
    (hrx : p.link.rx = .payload h got last) (hbs : bs ≠ []) (hlen : (got ++ bs).length < h.len.toNat) :
    p.payloadReceived bs = p.setRx (.payload h (got ++ bs) p.mono) := by
  unfold Part.payloadReceived
  rw [hrx]
  dsimp only
  rw [if_neg (by simp only [hbs, false_or]; omega), if_neg (by omega)]

theorem Part.frameReceived_first {p : Part} {h : Header} {bs : List Byte} {last : Nat} {hi : Byte}
    (hrx : p.link.rx = .check h bs [] last) : p.frameReceived [some hi, none] = p.setRx (.check h bs [hi] p.mono) := by
  have bytes : nextBytes 0 [some hi, none] = some [hi] := nextBytes_of 0 1 [hi] (by simp)
  unfold Part.frameReceived
  rw [hrx]
  dsimp only [List.length_nil]
  rw [bytes]
  rfl

theorem Part.frameReceived_whole {p : Part} {h : Header} {bs crc : List Byte} {last : Nat} {hi lo : Byte} {a : Option Byte}
    (hrx : p.link.rx = .check h bs crc last) (ha : (crc = [] ∧ a = some hi) ∨ (crc = [hi] ∧ a = none)) :
    p.frameReceived [a, some lo] = p.frameJudged h bs hi lo := by
  have bytes : (nextBytes crc.length [a, some lo]).map (crc ++ ·) = some [hi, lo] := by
    rcases ha with ⟨rfl, rfl⟩ | ⟨rfl, rfl⟩
    · rw [show nextBytes ([] : List Byte).length [some hi, some lo] = _ from nextBytes_of 0 0 [hi, lo] (by simp)]
      rfl
    · rw [show nextBytes [hi].length [none, some lo] = _ from nextBytes_of 1 0 [lo] (by simp)]
      rfl
  unfold Part.frameReceived
  rw [hrx]
  dsimp only
  rw [bytes]

/-- The destinations whose frames are taken (R175). -/
theorem destTaken_iff (d : Nat) : destTaken d = true ↔ d = 0 ∨ d = 255 ∨ (0x41 ≤ d ∧ d ≤ 0x5E) ∨ (0x81 ≤ d ∧ d ≤ 0x9E) := by
  simp [destTaken, or_assoc]

theorem Part.frameJudged_bad {p : Part} {h : Header} {bs : List Byte} {hi lo : Byte} (hc : frameCrc h bs ≠ hi ++ lo) :
    p.frameJudged h bs hi lo = p.huntAgain.linkCount (fun c => { c with crcError := satUp c.crcError }) := by
  unfold Part.frameJudged
  dsimp only
  rw [if_neg hc]

theorem Part.frameJudged_taken {p : Part} {h : Header} {bs : List Byte} {hi lo : Byte} (hc : frameCrc h bs = hi ++ lo)
    (ht : destTaken h.dest.toNat = true) : p.frameJudged h bs hi lo
      = p.huntAgain.watchFrame.offerFrame ⟨h.dest.toNat, h.origin.toNat, h.kind.toNat, bs⟩ := by
  unfold Part.frameJudged
  dsimp only
  rw [if_pos hc, if_pos ht]

theorem Part.frameJudged_dropped {p : Part} {h : Header} {bs : List Byte} {hi lo : Byte} (hc : frameCrc h bs = hi ++ lo)
    (ht : destTaken h.dest.toNat ≠ true) : p.frameJudged h bs hi lo = p.huntAgain.watchFrame := by
  unfold Part.frameJudged
  dsimp only
  rw [if_pos hc, if_neg ht]

theorem Part.offerFrame_room {p : Part} (f : Frame) (h : p.link.inbound.length < 16) :
    p.offerFrame f = p.onLink (fun l => { l with inbound := l.inbound ++ [f] }) := if_pos h

theorem Part.offerFrame_full {p : Part} (f : Frame) (h : 16 ≤ p.link.inbound.length) : p.offerFrame f
    = (p.onLink (fun l => { l with overrunBit := true })).linkCount (fun c => { c with overrun := satUp c.overrun }) :=
  if_neg (Nat.not_lt.2 h)

/-- A watch that is not SILENT is renewed, unless it is OFF (R181). -/
theorem Part.watchFrame_calm {p : Part} {e : Nat} (h : p.link.watch = .watching e ∨ p.link.watch = .off) :
    p.watchFrame = p.onLink (fun l => { l with
      watch := if l.watch = .off then .off else .watching (p.mono + 1000 * p.policy.linkWatch) }) := by
  unfold Part.watchFrame Part.onLink
  dsimp only
  rcases h with h | h
  · rw [h]
    dsimp only
    rw [if_neg (by nofun)]
  · rw [h]
    dsimp only
    rw [if_pos rfl, ← h]

/-- Settles O11. -/
theorem frameReceivedIsJudged : Obligations.FrameReceivedIsJudged := by
  unfold Obligations.FrameReceivedIsJudged
  refine ⟨fun s h last got bs hrx hbs => ⟨fun hlen => ?_, fun hlen => ?_⟩, fun s h bs last hi hrx => ?_, ?_⟩
  · exact State.becomes_of_eq (Part.payloadReceived_whole hrx hbs hlen)
  · exact State.becomes_of_eq (Part.payloadReceived_more hrx hbs hlen)
  · exact State.becomes_of_eq (Part.frameReceived_first hrx)
  · intro s h bs crc last e hi lo a hrx ha hwatch
    have whole := Part.frameReceived_whole (lo := lo) hrx ha
    have calm : s.part.huntAgain.watchFrame = _ := Part.watchFrame_calm (p := s.part.huntAgain) (e := e) hwatch
    have dest := destTaken_iff h.dest.toNat
    refine ⟨fun hc ht hroom => ?_, fun hc ht hfull => ?_, fun hc ht => ?_, fun hc => ?_⟩
    · rw [Part.frameJudged_taken hc (dest.2 ht), calm, Part.offerFrame_room _ (by exact hroom)] at whole
      exact State.becomes_of_eq whole
    · rw [Part.frameJudged_taken hc (dest.2 ht), calm, Part.offerFrame_full _ (by exact hfull)] at whole
      exact State.becomes_of_eq whole
    · rw [Part.frameJudged_dropped hc (fun hd => ht (dest.1 hd)), calm] at whole
      exact State.becomes_of_eq whole
    · exact State.becomes_of_eq (whole.trans (Part.frameJudged_bad hc))

/-! ## The Report Queue -/

theorem Part.offerOrd_room {p : Part} (r : Report) (h : p.link.reports.length < 48) : p.offerOrd r = p.enter r := if_pos h

theorem Part.offerOrd_episode {p : Part} (r : Report) (h : 48 ≤ p.link.reports.length) (he : p.link.lossEpisode = true) :
    p.offerOrd r = { p with link := { p.link with
      counters := { p.link.counters with reportsDropped := satUp p.link.counters.reportsDropped } } } :=
  (if_neg (Nat.not_lt.2 h)).trans ((if_pos he).trans (by dsimp only; rw [← he]))

theorem Part.offerOrd_first {p : Part} (r : Report) (h : 48 ≤ p.link.reports.length) (he : p.link.lossEpisode = false) :
    p.offerOrd r = ({ p with link := { p.link with
      counters := { p.link.counters with reportsDropped := satUp p.link.counters.reportsDropped }
      lossEpisode := true } } : Part).raise .queueLoss .none none :=
  (if_neg (Nat.not_lt.2 h)).trans (if_neg (Bool.not_eq_true _ |>.mpr he))

/-- The flag of a kind that is raised is set, whatever becomes of the entry. -/
theorem Part.raise_flag (p : Part) (k : AlertKind) (s : Subject) (d : Option Detail) :
    (p.raise k s d).alt.flags.getLsbD k.code = true := by
  have set : (p.setFlag k.code).alt.flags.getLsbD k.code = true := by
    rw [Part.setFlag_flags _ k.code_lt]
    simp
  cases find : p.alt.find k s with
  | some e =>
    cases hack : e.acked with
    | false =>
      rw [p.raise_unacked k s d find hack]
      exact set
    | true =>
      rw [p.raise_acked k s d find hack]
      have flags (x : Part) (i : Nat) (f : AlertFlags) : (x.offerAlert i f).alt.flags = x.alt.flags := by
        unfold Part.offerAlert
        (repeat' split) <;> rfl
      rw [flags]
      exact set
  | none =>
    cases free : p.alt.freePlace with
    | some i =>
      rw [p.raise_free k s d find free]
      obtain ⟨g, halt⟩ := (p.setFlag k.code).register_alt i k s d
      rw [halt]
      exact set
    | none =>
      cases displaced : p.alt.displaceable with
      | some e =>
        rw [show p.raise k s d = ((p.setFlag k.code).gaveWay e).register e.place k s d from
          p.raise_displaces k s d find free displaced]
        obtain ⟨g, halt⟩ := ((p.setFlag k.code).gaveWay e).register_alt e.place k s d
        rw [halt]
        dsimp only
        rw [((p.setFlag k.code).gaveWay_alt e).2.1]
        exact set
      | none =>
        rw [p.raise_full k s d find free displaced, Part.setFlag_flags _ (by decide), set]
        rfl

/-- A raise leaves counters and loss episode. -/
theorem Part.offerAlert_link (p : Part) (i : Nat) (f : AlertFlags) : (p.offerAlert i f).link.counters = p.link.counters
    ∧ (p.offerAlert i f).link.lossEpisode = p.link.lossEpisode ∧ (p.offerAlert i f).link.watch = p.link.watch
    ∧ (p.offerAlert i f).link.rx = p.link.rx := by
  unfold Part.offerAlert
  repeat' split
  all_goals simp [Part.enter, Link.enter, Part.await, Link.await_fields]

theorem Part.raise_link (p : Part) (k : AlertKind) (s : Subject) (d : Option Detail) :
    (p.raise k s d).link.counters = p.link.counters ∧ (p.raise k s d).link.lossEpisode = p.link.lossEpisode
    ∧ (p.raise k s d).link.watch = p.link.watch ∧ (p.raise k s d).link.rx = p.link.rx := by
  have gave (x : Part) (e : AlertEntry) : (x.gaveWay e).link.counters = x.link.counters
      ∧ (x.gaveWay e).link.lossEpisode = x.link.lossEpisode ∧ (x.gaveWay e).link.watch = x.link.watch
      ∧ (x.gaveWay e).link.rx = x.link.rx := by
    unfold Part.gaveWay Part.giveUpAlert Part.offerNotice
    dsimp only
    repeat' split
    all_goals simp [Part.enter, Link.enter, Part.await, Link.await_fields, Part.unwait, Link.unwait]
  cases find : p.alt.find k s with
  | some e =>
    cases hack : e.acked with
    | false =>
      rw [p.raise_unacked k s d find hack]
      exact ⟨rfl, rfl, rfl, rfl⟩
    | true =>
      rw [p.raise_acked k s d find hack]
      exact Part.offerAlert_link _ _ _
  | none =>
    cases free : p.alt.freePlace with
    | some i =>
      rw [p.raise_free k s d find free]
      exact Part.offerAlert_link _ _ _
    | none =>
      cases displaced : p.alt.displaceable with
      | some e =>
        rw [show p.raise k s d = ((p.setFlag k.code).gaveWay e).register e.place k s d from
          p.raise_displaces k s d find free displaced]
        obtain ⟨counters, episode, watch, rx⟩ := gave (p.setFlag k.code) e
        unfold Part.register
        refine ⟨(Part.offerAlert_link _ _ _).1.trans counters, (Part.offerAlert_link _ _ _).2.1.trans episode,
          (Part.offerAlert_link _ _ _).2.2.1.trans watch, (Part.offerAlert_link _ _ _).2.2.2.trans rx⟩
      | none =>
        rw [p.raise_full k s d find free displaced]
        exact ⟨rfl, rfl, rfl, rfl⟩

theorem Part.reportSent_head {p : Part} {bytes : List Byte} {r : Report} {rest : List Report} (htx : p.link.tx = some bytes)
    (hr : p.link.reports = r :: rest) : p.reportSent = { p with link := { p.link with
      tx := none, reports := rest, lossEpisode := if rest.length < 32 then false else p.link.lossEpisode } } := by
  have episode : (p.link.lossEpisode && decide (Config.episodeEnd ≤ rest.length))
      = if rest.length < 32 then false else p.link.lossEpisode := by
    by_cases h : rest.length < 32
    · rw [if_pos h, decide_eq_false (p := Config.episodeEnd ≤ rest.length) (Nat.not_le.2 h), Bool.and_false]
    · rw [if_neg h, decide_eq_true (p := Config.episodeEnd ≤ rest.length) (Nat.le_of_not_lt h), Bool.and_true]
  unfold Part.reportSent Part.onLink
  dsimp only
  rw [htx, hr]
  dsimp only
  rw [episode]

/-- What the transmitter becomes when the input is found at a level. -/
theorem Part.ctsFound_eq {p : Part} {asserted : Bool} {l : Link} (h : ({ p.link with cts := asserted } : Link).sendHead = l) :
    p.ctsFound asserted = { p with link := l } := congrArg (fun l => { p with link := l }) h

/-- Settles O13. -/
theorem reportQueueEnds : Obligations.ReportQueueEnds := by
  unfold Obligations.ReportQueueEnds
  refine ⟨fun s r rest hr => ⟨fun htx => ?_, fun bytes htx => ?_⟩, fun s => ⟨?_, fun h => ?_, fun hq hc htx hr hm => ?_⟩,
    fun p r => ⟨fun h => ?_, fun h he => ?_, fun h he => ?_⟩⟩
  · exact State.becomes_of_eq (Part.ctsFound_eq (Link.sendHead_idle _ r rest (by rfl) htx hr))
  · exact State.becomes_of_eq (Part.reportSent_head htx hr)
  · exact State.becomes_of_eq (Part.ctsFound_eq (Link.sendHead_not _ (.inl rfl)))
  · exact State.becomes_of_eq (Part.ctsFound_eq (Link.sendHead_not _ (.inr h)))
  · refine ⟨({ s.part with mono := s.part.mono + 1 } : Part).dueCommands, ?_, ?_⟩
    · rw [step_of_empty hq]
      simp [State.idle, hm]
    · have may : s.part.link.maySend = true := by
        unfold Link.maySend
        simp [hc, htx, hr]
      refine List.mem_append_right _ ?_
      unfold Part.dueQueues
      dsimp only
      rw [may]
      simp
  · exact Part.offerOrd_room r h
  · exact Part.offerOrd_episode r h he
  · rw [Part.offerOrd_first r h he]
    obtain ⟨counters, episode, -⟩ := Part.raise_link ({ p with link := { p.link with
      counters := { p.link.counters with reportsDropped := satUp p.link.counters.reportsDropped }
      lossEpisode := true } } : Part) .queueLoss .none none
    exact ⟨episode, Part.raise_flag _ .queueLoss _ _, congrArg LinkCounters.reportsDropped counters⟩

end Sys2Proof.Machine
end

section
/-! PROOFS. The link watch (R181, R182, R190), the waiting owners (R180) and the frames that the Traffic Filter drops (R183). -/

namespace Sys2Proof.Machine
open Sys2Proof

/-! ## What the lamps leave -/

/-- Of the commands that wait, the lamps of a step change those for lamps alone. -/
theorem Part.mem_queue_of_unlit {p q : Part} (h : q.unlit = p.unlit) (c : Chan) {b : BusCmd} (hb : b.isLampAny = false) :
    b ∈ (q.chan c).queue ↔ b ∈ (p.chan c).queue := by
  have same : (q.chan c).queue.filter (fun b => !b.isLampAny) = (p.chan c).queue.filter (fun b => !b.isLampAny) := by
    have := congrArg (fun x : Part => (x.chan c).queue) h
    cases c <;> exact this
  have kept (l : List BusCmd) : b ∈ l ↔ b ∈ l.filter (fun b => !b.isLampAny) := by simp [List.mem_filter, hb]
  rw [kept (q.chan c).queue, kept (p.chan c).queue, same]

/-! ## LINK_WATCH_EXPIRY (R181, R190) -/

/-- An ALERT that is offered leaves the entries but for what is pending. -/
theorem Part.offerAlert_mem {p : Part} {e : AlertEntry} (he : e ∈ p.alt.entries) (i : Nat) (f : AlertFlags) :
    ∃ g, { e with pending := g } ∈ (p.offerAlert i f).alt.entries := by
  have modified (h : AlertEntry → Option AlertFlags) :
      ∃ g, { e with pending := g } ∈ (p.alt.modify i (fun x => { x with pending := h x })).entries := by
    by_cases hi : e.place = i
    · exact ⟨h e, List.mem_map.2 ⟨e, he, if_pos hi⟩⟩
    · exact ⟨e.pending, List.mem_map.2 ⟨e, he, if_neg hi⟩⟩
  unfold Part.offerAlert
  repeat' split
  · exact ⟨e.pending, he⟩
  · rename_i g _
    exact modified (fun _ => some (g.join f))
  · exact ⟨e.pending, he⟩
  · exact modified (fun _ => some f)

/-- After a raise of an entry that stands, an UNACKED entry stands in its place (R107). -/
theorem Part.raise_stands {p : Part} {k : AlertKind} {s : Subject} {d : Option Detail} {x : AlertEntry}
    (hx : p.alt.find k s = some x) :
    ∃ y ∈ (p.raise k s d).alt.entries, y.kind = k ∧ y.subject = s ∧ y.place = x.place ∧ y.acked = false := by
  obtain ⟨hmem, hkind, hsub⟩ := Alt.mem_of_find hx
  cases hack : x.acked with
  | false =>
    rw [p.raise_unacked k s d hx hack]
    exact ⟨{ x with detail := d.orElse (fun _ => x.detail) }, List.mem_map.2 ⟨x, hmem, if_pos rfl⟩, hkind, hsub, rfl, hack⟩
  | true =>
    rw [p.raise_acked k s d hx hack]
    obtain ⟨g, hg⟩ := Part.offerAlert_mem (p := { p.setFlag k.code with alt := (p.setFlag k.code).alt.youngest { x with
      detail := d.orElse (fun _ => x.detail), acked := false, raised := p.now
      next := if p.interval = 0 then none else some (p.now + p.interval) } })
      (List.mem_append_right _ (List.mem_singleton.2 rfl)) x.place ⟨false, true, false⟩
    exact ⟨_, hg, hkind, hsub, rfl, rfl⟩

/-- What the silence ends: overrides and lamp test, Tracking entries with their frames and waiting responses, and the Hold
Sequence. -/
def Part.silenced (p : Part) (touched : List Nat) : Part :=
  let drop (ch : Channel) : Channel := ch.withdraw (fun b => match b with
    | .passed _ _ _ _ => true
    | _ => false)
  { p with
    holdSeq := .idle, chanA := drop p.chanA, chanB := drop p.chanB
    tfl := { p.tfl with tracking := [] }
    link := { p.link with waiters := p.link.waiters.filter (fun w => match w with
      | .tracking _ => false
      | _ => true) }
    lmp := { p.lmp with
      overrides := p.lmp.overrides.filter (fun e => !allModules.contains e.1), test := none, touched := touched } }

theorem Part.silenced_eq (q : Part) : ∃ touched,
    ({ ((q.clearOverrides allModules).testEnd).trackDropAll with holdSeq := .idle } : Part) = q.silenced touched := by
  cases test : q.lmp.test with
  | some x =>
    have runs : (q.clearOverrides allModules).lmp.test.isSome = true := congrArg Option.isSome test
    refine ⟨q.lmp.touched ++ allModules ++ allModules, ?_⟩
    unfold Part.testEnd
    rw [if_pos runs]
    unfold Part.trackDropAll Part.clearOverrides Part.touch Part.onChan Part.silenced
    rfl
  | none =>
    have ended : ¬ (q.clearOverrides allModules).lmp.test.isSome = true := by
      rw [show (q.clearOverrides allModules).lmp.test = none from test]
      nofun
    refine ⟨q.lmp.touched ++ allModules, ?_⟩
    unfold Part.testEnd
    rw [if_neg ended]
    unfold Part.trackDropAll Part.clearOverrides Part.touch Part.onChan Part.silenced
    rw [← test] <;> rfl

theorem Part.watchExpire_silenced {p : Part} {e : Nat} (hw : p.link.watch = .watching e) (he : e ≤ p.mono) : ∃ touched,
    p.watchExpire = ((p.onLink (fun l => { l with watch := .silent e })).raise .linkSilent .none none).silenced touched := by
  unfold Part.watchExpire
  rw [hw]
  dsimp only
  rw [if_neg (Nat.not_lt.2 he)]
  exact Part.silenced_eq _

section Silenced
variable (p : Part) (touched : List Nat)

theorem Part.silenced_overrides (h : ∀ o ∈ p.lmp.overrides, o.1 ∈ allModules) : (p.silenced touched).lmp.overrides = [] :=
  List.filter_eq_nil_iff.2 (fun o ho => by simpa using h o ho)

theorem Part.silenced_waiters (i : Nat) : Waiter.tracking i ∉ (p.silenced touched).link.waiters := by
  simp [Part.silenced]

theorem Part.silenced_queue (c : Chan) (a : Nat) (cls : ModClass) (d : List Byte) (i : Nat) :
    BusCmd.passed a cls d i ∉ ((p.silenced touched).chan c).queue := by
  cases c <;> simp [Part.silenced, Part.chan, Channel.withdraw]

end Silenced

/-! ## A valid frame while the watch is SILENT (R182) -/

/-- A valid frame removes LINK_SILENT, queues LINK_RESTORED and sets the watch again. -/
theorem Part.watchFrame_silent {p : Part} {e : Nat} (hw : p.link.watch = .silent e) :
    p.watchFrame = ((p.remove .linkSilent .none).offerOrd (linkRestored e p.mono)).onLink (fun l => { l with
      watch := .watching (p.mono + 1000 * p.policy.linkWatch) }) := by
  unfold Part.watchFrame
  rw [hw]

/-- The removal of an entry whose ALERT is not pending, or of none, with room for its notice. -/
theorem Part.remove_link {p : Part} {k : AlertKind} {s : Subject} (room : p.essRoom = true)
    (hp : ∀ x, p.alt.find k s = some x → x.pending = none) : (p.remove k s).link
      = { p.link with reports := p.link.reports ++ ((p.alt.find k s).map (fun x => x.withdrawn p.now)).toList } := by
  cases find : p.alt.find k s with
  | none =>
    rw [Part.remove_none find]
    simp
  | some x =>
    rw [Part.remove_room find (hp x find) room]
    rfl

/-- The alerts and the link after LINK_RESTORED, where the queue has room for it. -/
theorem Part.watchFrame_restores {p : Part} {e : Nat} (hw : p.link.watch = .silent e) (hlen : p.link.reports.length < 47)
    (hwait : p.link.waiters = []) (hp : ∀ x, p.alt.find .linkSilent .none = some x → x.pending = none) :
    p.watchFrame = { p with
      alt := (p.remove .linkSilent .none).alt
      link := { p.link with
        watch := .watching (p.mono + 1000 * p.policy.linkWatch)
        reports := p.link.reports ++ ((p.alt.find .linkSilent .none).map (fun x => x.withdrawn p.now)).toList
          ++ [linkRestored e p.mono] } } := by
  have room : p.essRoom = true := p.essRoom_iff.2 ⟨by omega, hwait⟩
  have link := Part.remove_link room hp
  have fits : (p.remove .linkSilent .none).link.reports.length < 48 := by
    rw [link]
    cases p.alt.find .linkSilent .none <;> simp <;> omega
  rw [Part.watchFrame_silent hw, Part.offerOrd_room _ fits]
  cases find : p.alt.find .linkSilent .none with
  | none =>
    rw [Part.remove_none find]
    simp [Part.enter, Link.enter, Part.onLink]
  | some x =>
    rw [Part.remove_room find (hp x find) room]
    simp [Part.enter, Link.enter, Part.onLink]

/-- A valid frame while the watch is SILENT, complete with its second CRC byte. -/
theorem Part.frameReceived_silent {p : Part} {h : Header} {bs : List Byte} {last : Nat} {hi lo : Byte}
    (hrx : p.link.rx = .check h bs [] last) (hcrc : frameCrc h bs = hi ++ lo) (q : Part) (hq : p.huntAgain.watchFrame = q) :
    p.frameReceived [some hi, some lo]
      = if destTaken h.dest.toNat = true then q.offerFrame ⟨h.dest.toNat, h.origin.toNat, h.kind.toNat, bs⟩ else q := by
  rw [Part.frameReceived_whole hrx (.inl ⟨rfl, rfl⟩), ← hq]
  split
  · rename_i ht
    exact Part.frameJudged_taken hcrc ht
  · rename_i ht
    exact Part.frameJudged_dropped hcrc ht

/-- A frame that is offered, or is not for the part, leaves of the part all but the Inbound Queue and its counters. -/
theorem Part.offerFrame_link (p : Part) (f : Frame) : ∃ inbound bit counters, p.offerFrame f = { p with
    link := { p.link with inbound := inbound, overrunBit := bit, counters := counters } }
    ∧ (p.link.inbound.length < 16 → inbound = p.link.inbound ++ [f] ∧ bit = p.link.overrunBit ∧ counters = p.link.counters)
    ∧ (16 ≤ p.link.inbound.length → inbound = p.link.inbound ∧ bit = true
      ∧ counters = { p.link.counters with overrun := satUp p.link.counters.overrun }) := by
  by_cases h : p.link.inbound.length < 16
  · exact ⟨_, _, _, Part.offerFrame_room f h, fun _ => ⟨rfl, rfl, rfl⟩, fun full => absurd h (Nat.not_lt.2 full)⟩
  · exact ⟨_, _, _, Part.offerFrame_full f (Nat.not_lt.1 h), fun room => absurd room h, fun _ => ⟨rfl, rfl, rfl⟩⟩

/-- Settles O12. -/
theorem linkWatchExpiresAndIsRestored : Obligations.LinkWatchExpiresAndIsRestored := by
  unfold Obligations.LinkWatchExpiresAndIsRestored
  refine ⟨fun s e hw he hmods => ?_, fun s h bs last e hi lo hrx hw hcrc hlen hwait hp => ?_⟩
  · obtain ⟨touched, expired⟩ := Part.watchExpire_silenced hw he
    obtain ⟨t, hexec, -, hunlit⟩ :=
      State.becomes_of_unlit (s := s) (q := s.part.watchExpire) (p := s.part.watchExpire) rfl
    rw [expired] at hunlit
    have raised := Part.raise_fields (s.part.onLink (fun l => { l with watch := .silent e })) .linkSilent .none none
    have raisedLink := Part.raise_link (s.part.onLink (fun l => { l with watch := .silent e })) .linkSilent .none none
    have flag := Part.raise_flag (s.part.onLink (fun l => { l with watch := .silent e })) .linkSilent .none none
    have free (i : Nat) (hnone : s.part.alt.find .linkSilent .none = none) (hfree : s.part.alt.freePlace = some i) :=
      Part.raise_free (s.part.onLink (fun l => { l with watch := .silent e })) .linkSilent .none none (i := i) hnone hfree
    have stands (x : AlertEntry) (hx : s.part.alt.find .linkSilent .none = some x) :=
      Part.raise_stands (p := s.part.onLink (fun l => { l with watch := .silent e })) (d := none) hx
    generalize (s.part.onLink (fun l => { l with watch := .silent e })).raise .linkSilent .none none = q at *
    obtain ⟨-, -, -, -, -, qrows, qkeys, -, -, -, qauths, qctxs, -, -, -, -, -, qclock, -, -, qrentals, -, -, -, -, qcen,
      qlmp, qpolicy⟩ := raised
    obtain ⟨-, -, link, tfl, rows, keys, -, -, holdSeq, auths, ctxs, -, -, -, -, -, clock, -, -, rentals, -, -, -, -, alt, cen,
      policy, -, -, images, overrides, blank, test, -⟩ := Part.fields_of_unlit hunlit
    refine ⟨t, hexec, by rw [link]; exact raisedLink.2.2.1, holdSeq, ?_, test, by rw [tfl]; rfl, fun i => ?_,
      fun c a cls d i => ?_, by rw [alt]; exact flag, fun i hnone hfree => ?_, fun x hx => ?_, keys.trans qkeys,
      rows.trans qrows, auths.trans qauths, ctxs.trans qctxs, rentals.trans qrentals, cen.trans qcen, policy.trans qpolicy,
      clock.trans qclock, images.trans (congrArg Lmp.images qlmp :), blank.trans (congrArg Lmp.blank qlmp :)⟩
    · rw [overrides]
      exact Part.silenced_overrides q touched (by rw [qlmp]; exact hmods)
    · rw [link]
      exact Part.silenced_waiters q touched i
    · rw [Part.mem_queue_of_unlit hunlit c rfl]
      exact Part.silenced_queue q touched c a cls d i
    · obtain ⟨g, registered⟩ := Part.register_alt
        ((s.part.onLink (fun l => { l with watch := .silent e })).setFlag AlertKind.linkSilent.code) i .linkSilent .none none
      have halt : t.part.alt = _ := (alt.trans (by rw [show (q.silenced touched).alt = q.alt from rfl, free i hnone hfree])).trans
        registered
      have places : ∀ x ∈ s.part.alt.entries, x.place ≠ i := (Alt.freePlace_free hfree).1
      rw [halt]
      dsimp only
      rw [List.filter_eq_self.2 (by simpa using places)]
      exact ⟨_, rfl, rfl, rfl, rfl, rfl, rfl, rfl⟩
    · rw [alt]
      exact stands x hx
  · have restored := Part.watchFrame_restores (p := s.part.huntAgain) hw hlen hwait hp
    have received := Part.frameReceived_silent hrx hcrc _ restored
    have entries (x : AlertEntry) (hx : s.part.alt.find .linkSilent .none = some x) :
        (s.part.huntAgain.remove .linkSilent .none).alt.entries = s.part.alt.entries.filter (fun y => y.place != x.place) :=
      (removeWithdrawsTheEntry s.part.huntAgain .linkSilent .none x hx).2.1
    generalize (s.part.huntAgain.remove .linkSilent .none).alt = alt at *
    have dest := destTaken_iff h.dest.toNat
    obtain ⟨t, hexec, -, hunlit⟩ := State.becomes_of_eq (s := s) received
    obtain ⟨-, -, tlink, ttfl, -, -, -, -, tholdSeq, -, -, -, -, -, -, -, -, -, -, -, -, -, -, -, talt, -,
      -, -, -, -, toverrides, -, ttest, -⟩ := Part.fields_of_unlit hunlit
    refine ⟨t, hexec, ?_⟩
    rw [tlink, ttfl, tholdSeq, talt, toverrides, ttest]
    by_cases ht : destTaken h.dest.toNat = true
    · rw [if_pos ht]
      obtain ⟨inbound, bit, counters, offered, room, full⟩ := Part.offerFrame_link _ _
      rw [offered]
      exact ⟨rfl, rfl, entries, rfl, rfl, rfl, rfl, fun _ h => room h, fun _ h => full h, fun hn => absurd (dest.1 ht) hn⟩
    · rw [if_neg ht]
      exact ⟨rfl, rfl, entries, rfl, rfl, rfl, rfl, fun h => absurd (dest.2 h) ht, fun h => absurd (dest.2 h) ht,
        fun _ => ⟨rfl, rfl, rfl⟩⟩

/-! ## The waiting owners (R180) -/

section Owners
variable {p : Part} {ws : List Waiter}

/-- The owner whose report enters leaves the waiting order. -/
theorem Part.popWaiter_enter {w : Waiter} (h : p.link.waiters = w :: ws) (r : Report) : p.popWaiter.enter r
    = { p with link := { p.link with waiters := ws, reports := p.link.reports ++ [r] } } := by
  unfold Part.popWaiter Part.enter Link.enter Part.onLink
  dsimp only
  rw [h]
  rfl

theorem Part.waitingEnters_first {w : Waiter} (h : p.link.waiters = w :: ws) (room : p.link.reports.length < 64) :
    p.waitingEnters = p.ownerEnters w := by
  unfold Part.waitingEnters
  rw [h]
  exact if_pos room

theorem Part.ownerEnters_tfl {r : Report} (h : p.tfl.held = some r) :
    p.ownerEnters .tfl = { p.popWaiter.enter r with tfl := { p.tfl with held := none } } := by
  unfold Part.ownerEnters
  dsimp only
  rw [h]

theorem Part.ownerEnters_rental {i : Nat} {r : Rental} {x : Snapshot} (h : Table.look p.rentals i = some r)
    (hx : r.snap = some x) : p.ownerEnters (.rental i) = (p.popWaiter.enter (p.returnReport i r x)).freeRental i := by
  unfold Part.ownerEnters
  dsimp only
  rw [h, Option.bind_some, hx]
  rfl

theorem Part.ownerEnters_context {i : Nat} {c : Ctx} {r : Report} (h : Table.look p.ctxs i = some c) (hr : c.held = some r) :
    p.ownerEnters (.context i) = (p.popWaiter.enter r).freeCtx i := by
  unfold Part.ownerEnters
  dsimp only
  rw [h, Option.bind_some, hr]

theorem Part.ownerEnters_waitEntry {id : Nat} {w : WaitEntry} {r : Report} (h : p.waitQ.find? (fun x => x.id == id) = some w)
    (hr : w.ended = some r) : p.ownerEnters (.waitEntry id)
      = { p.popWaiter.enter r with waitQ := p.waitQ.filter (fun x => x.id != id) } := by
  unfold Part.ownerEnters
  dsimp only
  rw [h, Option.bind_some, hr]

theorem Part.ownerEnters_tracking {i : Nat} {t : Track} {r : Report} (h : Table.look p.tfl.tracking i = some t)
    (hr : t.state = .answering r) : p.ownerEnters (.tracking i)
      = { p.popWaiter.enter r with tfl := { p.tfl with tracking := Table.del p.tfl.tracking i } } := by
  unfold Part.ownerEnters
  dsimp only
  rw [h, Option.map_some, hr]

/-- A notice goes before the ALERT that is pending behind it. -/
theorem Part.ownerEnters_notice_first {i : Nat} {n : Report} {e : AlertEntry} (hn : Table.look p.alt.notices i = some n)
    (he : p.alt.entryAt i = some e) (hp : e.pending ≠ none) : p.ownerEnters (.alertPlace i)
      = { p.enter n with alt := { p.alt with notices := Table.del p.alt.notices i } } := by
  obtain ⟨f, hf⟩ := Option.ne_none_iff_exists'.1 hp
  unfold Part.ownerEnters
  dsimp only
  rw [hn, he, Option.bind_some, hf]
  rfl

theorem Part.ownerEnters_notice {i : Nat} {n : Report} (hn : Table.look p.alt.notices i = some n)
    (hp : ¬ ∃ e, p.alt.entryAt i = some e ∧ e.pending ≠ none) : p.ownerEnters (.alertPlace i)
      = { p.popWaiter.enter n with alt := { p.alt with notices := Table.del p.alt.notices i } } := by
  have behind : ((p.alt.entryAt i).bind fun e => e.pending.map fun f => (e, f)) = none := by
    cases he : p.alt.entryAt i with
    | none => rfl
    | some e => rw [Option.bind_some, not_not.1 fun h => hp ⟨e, he, h⟩, Option.map_none]
  unfold Part.ownerEnters
  dsimp only
  rw [hn, behind]

theorem Part.ownerEnters_alert {i : Nat} {e : AlertEntry} {f : AlertFlags} (hn : Table.look p.alt.notices i = none)
    (he : p.alt.entryAt i = some e) (hf : e.pending = some f) : p.ownerEnters (.alertPlace i)
      = { p.popWaiter.enter (p.alt.alertReport e f) with alt := p.alt.modify i (fun e => { e with pending := none }) } := by
  unfold Part.ownerEnters
  dsimp only
  rw [hn, he, Option.bind_some, hf]
  rfl

end Owners

theorem AlertFlags.byte_eq (g : AlertFlags) :
    g.byte = (if g.again then 1 else 0) + (if g.renewed then 2 else 0) + (if g.replaced then 4 else 0) := by
  obtain ⟨again, renewed, replaced⟩ := g
  revert again renewed replaced
  decide

/-- With no request waiting, a context that is freed is taken by none. -/
theorem Part.takeQueue_none {p : Part} (h : ∀ w ∈ p.waitQ, w.ended ≠ none) (i : Nat) : p.takeQueue i = p := by
  have live : p.liveEntry = none := List.find?_eq_none.2 (by simpa [Option.isSome_iff_ne_none] using h)
  unfold Part.takeQueue takeQueueFrom
  split
  · rfl
  · rw [live]

/-- A context is freed: its slot's row loses it, and a LOCK_CLOSE of its own that waits is left (R49, R53). -/
theorem Part.freeCtx_unlit {p : Part} {i : Nat} {c : Ctx} (hc : Table.look p.ctxs i = some c)
    (h : ∀ w ∈ p.waitQ, w.ended ≠ none) : (p.freeCtx i).unlit = ({ p with
      chanA := p.chanA.leaveClose i, chanB := p.chanB.leaveClose i, ctxs := Table.del p.ctxs i
      rows := match c.slot with
        | some n => Table.modify p.rows n (fun y => if y.ctx = some i then { y with ctx := none } else y)
        | none => p.rows } : Part).unlit := by
  unfold Part.freeCtx
  rw [hc]
  dsimp only
  unfold Part.unbind
  cases c.slot with
  | none =>
    dsimp only
    rw [Part.takeQueue_none (by exact h)]
    rfl
  | some n =>
    dsimp only
    rw [Part.takeQueue_none (by exact h)]
    rfl

theorem Channel.leaveClose_eq (ch : Channel) (i : Nat) : ch.leaveClose i = { ch with queue := ch.queue.map (fun b => match b with
    | .lockClose a pos (.ctx j) => .lockClose a pos (if j = i then .left else .ctx j)
    | b => b) } := rfl

/-- WAITING_OWNER_REPORT_ENTERS leads to what the oldest owner's turn makes of the part. -/
theorem State.becomes_ownerEnters {s : State} {w : Waiter} {ws : List Waiter} {p : Part} (h : s.part.link.waiters = w :: ws)
    (room : s.part.link.reports.length < 64) (hp : (s.part.ownerEnters w).unlit = p.unlit) :
    s.Becomes (exec .waitingOwnerReportEnters s) p :=
  State.becomes_of_unlit (q := s.part.waitingEnters) (by rw [Part.waitingEnters_first h room, hp])

/-- Settles O14. -/
theorem waitingOwnersReportEnter : Obligations.WaitingOwnersReportEnters := by
  unfold Obligations.WaitingOwnersReportEnters
  intro s ws room
  refine ⟨fun r hw hr => ?_, fun i r x hw hr hx => ?_, fun i c r hw hc hr hq => ?_, fun id w r hw hfind hr => ?_,
    fun i t r hw ht hr => ?_, fun i hw => ⟨fun n hn => ⟨fun hp => ?_, fun hp => ?_⟩, fun e g hn he hg => ?_⟩⟩
  · refine State.becomes_ownerEnters hw room ?_
    rw [Part.ownerEnters_tfl hr, Part.popWaiter_enter hw]
  · refine State.becomes_ownerEnters hw room ?_
    rw [Part.ownerEnters_rental hr hx, Part.popWaiter_enter hw]
    rfl
  · refine State.becomes_ownerEnters hw room ?_
    rw [Part.ownerEnters_context hc hr, Part.popWaiter_enter hw, Part.freeCtx_unlit (by exact hc) (by exact hq)]
    rfl
  · refine State.becomes_ownerEnters hw room ?_
    rw [Part.ownerEnters_waitEntry hfind hr, Part.popWaiter_enter hw]
  · refine State.becomes_ownerEnters hw room ?_
    rw [Part.ownerEnters_tracking ht hr, Part.popWaiter_enter hw]
  · refine State.becomes_ownerEnters hw room ?_
    rw [Part.ownerEnters_notice hn hp, Part.popWaiter_enter hw]
  · obtain ⟨e, he, hpend⟩ := hp
    refine State.becomes_ownerEnters hw room ?_
    rw [Part.ownerEnters_notice_first hn he hpend, ← hw]
    rfl
  · refine State.becomes_ownerEnters hw room ?_
    rw [Part.ownerEnters_alert hn he hg, Part.popWaiter_enter hw, Alt.alertReport, AlertFlags.byte_eq]
    rfl

/-! ## Frames dropped by the Traffic Filter (R183) -/

/-- The taking of a frame that is no request, by a row of the TFL. -/
theorem State.becomes_taken {s : State} {row : Instr} {act : Part → Frame → Part} {f : Frame} {rest : List Frame} {p : Part}
    (hheld : s.part.tfl.held = none) (hin : s.part.link.inbound = f :: rest) (hrow : tflRow f = row)
    (hp : (act (s.part.onLink (fun l => { l with inbound := rest })) f).unlit = p.unlit) :
    s.Becomes (.next { s with part := (s.part.tflRun row act).lampRun }) p :=
  State.becomes_of_unlit (by rw [s.part.tflRun_takes row act f rest hheld hin hrow, hp])

theorem tflRow_stray {f : Frame} (h : f.origin = 0 ∨ 62 < f.origin) : tflRow f = .tflFrameDropped := if_pos (by omega)

theorem tflRow_broadcast {f : Frame} (h1 : 1 ≤ f.origin) (h62 : f.origin ≤ 62) (hd : f.dest = 255) (hk : f.kind ≠ 0x20) :
    tflRow f = .tflFrameDropped := by
  unfold tflRow
  rw [if_neg (by omega), if_neg (by omega), if_pos hd]
  exact if_neg hk

/-- Settles O18. -/
theorem strayFramesAreDropped : Obligations.StrayFramesAreDropped := by
  unfold Obligations.StrayFramesAreDropped
  refine fun s f rest hheld hin => ⟨fun h => ?_, fun h1 h62 hd hk => ?_⟩
  · exact State.becomes_taken (act := Part.dropFrame) hheld hin (tflRow_stray h)
      (congrArg Part.unlit (if_pos (by omega)))
  · exact State.becomes_taken (act := Part.dropFrame) hheld hin (tflRow_broadcast h1 h62 hd hk)
      (congrArg Part.unlit (if_neg (by omega)))

end Sys2Proof.Machine
end

section
/-! PROOFS. The Traffic Filter: the checks of a request (R185) and of a frame for a module (R186, R187). -/

namespace Sys2Proof.Machine
open Sys2Proof

/-! ## The table of roles and rights (R185, R203) -/

/-- The kinds of request with the roles that may send them and whether the terminal has the right they need. -/
def requestTable (load maint : Bool) : List (List Nat × List Role × Bool) :=
  [([0x01, 0x02, 0x06, 0x07, 0x08, 0x12, 0x15, 0x18, 0x29, 0x30, 0x31, 0x38, 0x40, 0x4C], [.office], true),
    ([0x03, 0x04, 0x05, 0x10, 0x11, 0x13, 0x21, 0x22, 0x23, 0x28, 0x32], [.counter, .office], true),
    ([0x14], [.kiosk], true), ([0x16, 0x4B], [.counter, .kiosk, .office], true),
    ([0x20], [.counter, .kiosk, .office], load), ([0x2A, 0x48, 0x49, 0x4A, 0x4D], [.office], load),
    ([0x39], [.counter, .kiosk, .office], maint)]

/-- Whether a kind is a request's does not turn on the payload. -/
theorem requestRow_isSome (k : Nat) (pl : List Byte) : (requestRow k pl).isSome = (requestRow k []).isSome := by
  unfold requestRow
  split <;> rfl

/-- What the model allows a listed kind is what the table says of it. -/
theorem requestTable_listed : ∀ load maint, ∀ x ∈ requestTable load maint, ∀ k ∈ x.1, (requestRow k []).isSome = true
    ∧ (∀ role ∈ [Role.none, .counter, .kiosk, .office], (rolesAllowed k).has role = decide (role ∈ x.2.1)
      ∧ rightsHeld k ⟨role, load, maint⟩ = x.2.2) := by
  decide +kernel

/-- A kind of no line of the table is no request's. -/
theorem requestTable_unlisted {load maint : Bool} {k : Nat} (h : ∀ x ∈ requestTable load maint, k ∉ x.1) (pl : List Byte) :
    requestRow k pl = none := by
  unfold requestRow
  split
  case h_36 => rfl
  all_goals exact absurd h (by simp [requestTable])

theorem requestRow_ne_unknown {k : Nat} {pl : List Byte} {row : Instr} (h : requestRow k pl = some row) :
    row ≠ .unknownRequest := by
  unfold requestRow at h
  split at h <;> cases h <;> (repeat' split) <;> nofun

/-- A frame for the controller is taken by its request's row (R183). -/
theorem tflRow_request {f : Frame} (h1 : 1 ≤ f.origin) (h62 : f.origin ≤ 62) (hd : f.dest = 0) :
    tflRow f = (requestRow f.kind f.payload).getD .unknownRequest := by
  unfold tflRow
  rw [if_neg (by omega), if_pos hd]

/-! ## The checks, in their order (R185) -/

section Checks
variable {p : Part} {f : Frame}

theorem Part.tflCheck_norole (h : (p.terminal f.origin).role = .none) : p.tflCheck f = some .refusedRole := if_pos h

theorem Part.tflCheck_unknown (h : (p.terminal f.origin).role ≠ .none) (hk : requestRow f.kind f.payload = none) :
    p.tflCheck f = some .unknownRequest := by
  unfold Part.tflCheck
  dsimp only
  rw [if_neg h, if_pos (by rw [hk]; rfl)]

/-- What is checked of a request of a terminal with a role: the role, then the right. -/
theorem Part.tflCheck_known (h : (p.terminal f.origin).role ≠ .none) (hk : (requestRow f.kind f.payload).isSome = true) :
    p.tflCheck f = if (rolesAllowed f.kind).has (p.terminal f.origin).role = false then some .refusedRole
      else if rightsHeld f.kind (p.terminal f.origin) = false then some .refusedRight else none := by
  unfold Part.tflCheck
  dsimp only
  rw [if_neg h, if_neg (by simpa [Option.isSome_iff_ne_none] using hk)]
  simp only [Bool.not_eq_true', ← Bool.not_eq_true]

end Checks

/-- A request that the TFL's checks refuse is answered so, and changes nothing but the Hold Sequence of its origin. -/
theorem Part.requestRun_refused {p : Part} {row : Instr} {f : Frame} {rest : List Frame} {r : Result}
    (owner : Part → Frame → Answer) (hheld : p.tfl.held = none) (hin : p.link.inbound = f :: rest) (hrow : tflRow f = row)
    (hcheck : p.tflCheck f = some r) (room : p.essRoom = true) :
    p.requestRun row owner = (p.asked f rest).queued (p.replyTo f r []) := by
  have taken : (p.onLink (fun l => { l with inbound := rest })).sequenceStep f = p.asked f rest := by
    unfold Part.sequenceStep Part.asked Part.sequenceReset Part.onLink
    cases p.holdSeq.ownedBy f.origin && !sequenceExempt f.kind <;> rfl
  unfold Part.requestRun
  rw [Part.tflRun_takes p row _ f rest hheld hin hrow]
  unfold Part.request
  dsimp only
  rw [Part.tflCheck_sequenceStep, Part.tflCheck_onLink, hcheck, taken]
  unfold Answer.send
  rw [Part.respond_room _ _ (by exact room)]
  simp [Part.refuse, Part.replyTo, responseReport, bit, Part.sequenceReset, Part.onLink]

/-- Each request's row, and UNKNOWN_REQUEST, is the taking of a request by an owner. -/
theorem exec_requestRun {k : Nat} {pl : List Byte} {row : Instr} (h : (requestRow k pl).getD .unknownRequest = row) :
    ∃ owner, ∀ s : State, exec row s = .next { s with part := (s.part.requestRun row owner).lampRun } := by
  cases hk : requestRow k pl with
  | none =>
    rw [hk] at h
    subst h
    exact ⟨_, fun _ => rfl⟩
  | some i =>
    rw [hk, Option.getD_some] at h
    subst h
    unfold requestRow at hk
    split at hk <;> cases hk <;> (repeat' split) <;> exact ⟨_, fun _ => rfl⟩

/-- Settles O19. -/
theorem requestsAreCheckedByTheFilter : Obligations.RequestsAreCheckedByTheFilter := by
  unfold Obligations.RequestsAreCheckedByTheFilter
  intro s f rest row hheld hin room h1 h62 hd hrow t refused table
  have known : (requestRow f.kind f.payload).getD .unknownRequest = row := (tflRow_request h1 h62 hd).symm.trans hrow
  have refuse (r : Result) (hcheck : s.part.tflCheck f = some r) : refused r := by
    obtain ⟨owner, runs⟩ := exec_requestRun known
    show State.Becomes s (exec row s) _
    rw [runs]
    exact State.becomes_of_eq (Part.requestRun_refused owner hheld hin hrow hcheck room)
  refine ⟨fun hnone => refuse _ (Part.tflCheck_norole hnone), fun hrole => ⟨fun x hx hk => ?_, fun hk => ?_⟩⟩
  · obtain ⟨some, allowed⟩ := requestTable_listed t.load t.maint x hx f.kind hk
    rw [← requestRow_isSome f.kind f.payload] at some
    obtain ⟨role, right⟩ := allowed t.role (by cases t.role <;> decide)
    have check := Part.tflCheck_known hrole some
    rw [role, right] at check
    refine ⟨?_, fun hr => refuse _ ?_, fun hr hx => refuse _ ?_, fun hr hx => ⟨hheld, hin, hrow, ?_⟩⟩
    · obtain ⟨i, hi⟩ := Option.isSome_iff_exists.1 some
      rw [hi] at known
      exact known ▸ requestRow_ne_unknown hi
    · rw [check, if_pos (decide_eq_false hr)]
    · rw [check, if_neg (by simp [hr]), if_pos hx]
    · rw [check, if_neg (by simp [hr]), if_neg (by simp [hx])]
  · have none := requestTable_unlisted hk f.payload
    refine ⟨?_, refuse _ (Part.tflCheck_unknown hrole none)⟩
    rw [← known, none]
    rfl

/-! ## Fields of a payload -/

theorem byteAt_eq (bs : List Byte) (i : Nat) : byteAt bs i = ((bs[i]?).getD 0#8).toNat := by
  unfold byteAt field
  by_cases hi : i < bs.length
  · rw [List.drop_eq_getElem_cons hi, List.getElem?_eq_getElem hi, List.take_succ_cons, List.take_zero]
    simp [beNat]
  · rw [List.drop_eq_nil_of_le (Nat.not_lt.1 hi), List.getElem?_eq_none (Nat.not_lt.1 hi)]
    rfl

theorem byte_byteAt (bs : List Byte) (i : Nat) : BitVec.ofNat 8 (byteAt bs i) = (bs[i]?).getD 0#8 := by
  rw [byteAt_eq, BitVec.ofNat_toNat, BitVec.setWidth_eq]

/-! ## The lowest free place -/

theorem Table.lowestFree_eq {α : Type} {t : Table α} {n i : Nat} (hi : i < n) (free : Table.look t i = none)
    (taken : ∀ j, j < i → (Table.look t j).isSome) : Table.lowestFree t n = some i := by
  unfold Table.lowestFree
  rw [List.find?_range_eq_some]
  refine ⟨by rw [free]; rfl, List.mem_range.2 hi, fun j hj => ?_⟩
  rw [Option.isNone_eq_false_iff.2 (taken j hj)]
  rfl

theorem Table.lowestFree_none {α : Type} {t : Table α} {n : Nat} (taken : ∀ j, j < n → (Table.look t j).isSome) :
    Table.lowestFree t n = none := by
  unfold Table.lowestFree
  refine List.find?_eq_none.2 fun j hj => ?_
  rw [Option.isNone_eq_false_iff.2 (taken j (List.mem_range.1 hj))]
  nofun

/-! ## The Pass Table's action (R186) -/

/-- An entry of the Pass Table is for a role and a class. -/
def PassEntry.Fits (e : PassEntry) (role : Role) (cls : ModClass) : Prop :=
  (e.role = some role ∨ e.role = none) ∧ (e.cls = some cls ∨ e.cls = none)

theorem PassEntry.fits_iff (e : PassEntry) (role : Role) (cls : ModClass) :
    (e.role.all (fun r => r == role) && e.cls.all (fun c => c == cls)) = true ↔ e.Fits role cls := by
  have all {α : Type} [DecidableEq α] (o : Option α) (a : α) : o.all (fun x => x == a) = true ↔ o = some a ∨ o = none := by
    cases o <;> simp
  rw [Bool.and_eq_true, all, all]
  rfl

theorem Part.passAction_first {p : Part} {role : Role} {cls : ModClass} {pre post : Table PassEntry} {i : Nat} {e : PassEntry}
    (hsplit : p.tfl.passTable = pre ++ (i, e) :: post) (fits : e.Fits role cls) (before : ∀ x ∈ pre, ¬ x.2.Fits role cls) :
    p.passAction role cls = e.action := by
  unfold Part.passAction
  rw [hsplit, List.find?_append, List.find?_eq_none.2 (fun x hx => mt (x.2.fits_iff role cls).1 (before x hx)),
    List.find?_cons_of_pos (by exact (e.fits_iff role cls).2 fits)]
  rfl

theorem Part.passAction_none {p : Part} {role : Role} {cls : ModClass} (h : ∀ x ∈ p.tfl.passTable, ¬ x.2.Fits role cls) :
    p.passAction role cls = .dropReport := by
  unfold Part.passAction
  rw [List.find?_eq_none.2 (fun x hx => mt (x.2.fits_iff role cls).1 (h x hx))]

/-! ## Frames for modules (R187) -/

theorem destModule_chan {d a : Nat} {c : Chan} (h1 : 1 ≤ a) (h30 : a ≤ 30) (hd : d = (match c with
    | .A => 0x40
    | .B => 0x80) + a) : destModule d = some (c, a) := by
  unfold destModule
  cases c <;> dsimp only at hd
  · rw [if_pos (by omega)]
    simp [hd]
  · rw [if_neg (by omega), if_pos (by omega)]
    simp [hd]

theorem tflRow_module {f : Frame} {c : Chan} {a : Nat} (h1 : 1 ≤ f.origin) (h62 : f.origin ≤ 62)
    (hd : destModule f.dest = some (c, a)) : tflRow f = .moduleFrame := by
  have range : (0x41 ≤ f.dest ∧ f.dest ≤ 0x5E) ∨ (0x81 ≤ f.dest ∧ f.dest ≤ 0x9E) := by
    unfold destModule at hd
    split_ifs at hd with hA hB
    · exact .inl hA
    · exact .inr hB
  unfold tflRow
  rw [if_neg (by omega), if_neg (by omega), if_neg (by omega), if_pos (by rw [hd]; rfl)]

/-- A module frame's refusal with room for it (R187, R204). -/
theorem Part.passRefuse_room {p : Part} (f : Frame) (reason : Nat) (room : p.essRoom = true) : p.passRefuse f reason
    = p.queued ⟨.response, f.origin, [(f.payload[1]?).getD 0#8, BitVec.ofNat 8 f.kind, 0x50#8, 0#8, BitVec.ofNat 8 reason]⟩ := by
  unfold Part.passRefuse
  rw [Part.respond_room _ _ room]
  unfold responseReport
  rw [beBytes_one, beBytes_one, beBytes_one, beBytes_one, beBytes_one, byte_byteAt]
  rfl

/-- The bytes that name a class, or LOCK_RAW. -/
theorem classByte_iff : ∀ b : Byte, ((parseClass b.toNat).isSome = true ∨ b.toNat = 0x44)
    ↔ b ∈ [0x40#8, 0x41#8, 0x42#8, 0x43#8, 0x44#8] := by
  decide +kernel

theorem parseClass_of_mem {code : Byte} {cls : ModClass}
    (h : (code, cls) ∈ [(0x40#8, ModClass.query), (0x41#8, .config), (0x42#8, .lampRaw), (0x43#8, .opaqueClass)]) :
    parseClass code.toNat = some cls := by
  simp only [List.mem_cons, Prod.mk.injEq, List.not_mem_nil, or_false] at h
  rcases h with ⟨rfl, rfl⟩ | ⟨rfl, rfl⟩ | ⟨rfl, rfl⟩ | ⟨rfl, rfl⟩ <;> rfl

section Judge
variable {p : Part} {f : Frame} {c : Chan} {a : Nat} (hd : destModule f.dest = some (c, a))
include hd

theorem Part.judgeModule_malformed (h : f.kind ≠ 0x60 ∨ f.payload.length < 2 ∨ 18 < f.payload.length
    ∨ ((parseClass (byteAt f.payload 0)).isNone ∧ byteAt f.payload 0 ≠ 0x44)) : p.judgeModule f = p.passRefuse f 1 := by
  unfold Part.judgeModule
  rw [hd]
  exact if_pos h

variable (hk : f.kind = 0x60) (h2 : 2 ≤ f.payload.length) (h18 : f.payload.length ≤ 18)
include hk h2 h18

theorem Part.judgeModule_formed (h : (parseClass (byteAt f.payload 0)).isSome = true ∨ byteAt f.payload 0 = 0x44) :
    p.judgeModule f = if (p.terminal f.origin).role = .none then p.passRefuse f 2
      else match parseClass (byteAt f.payload 0) with
        | none => p.passRefuse f 3
        | some cls => p.judgePass f c a cls := by
  have formed : ¬ (f.kind ≠ moduleFrameKind ∨ f.payload.length < 2 ∨ 18 < f.payload.length
      ∨ ((parseClass (byteAt f.payload 0)).isNone ∧ byteAt f.payload 0 ≠ lockRawCode)) := by
    rintro (kind | short | long | ⟨none, notRaw⟩)
    · exact kind hk
    · omega
    · omega
    · rcases h with some | raw
      · rw [Option.isNone_iff_eq_none.1 none] at some
        cases some
      · exact notRaw raw
  unfold Part.judgeModule
  rw [hd]
  exact if_neg formed

end Judge

/-- A frame that is passed sets the override of a LAMP_RAW frame, and enters the command queue (R143, R187). -/
theorem Part.passOn_unlit (p : Part) (f : Frame) (c : Chan) (a e : Nat) (cls : ModClass) : (p.passOn f c a e cls).unlit
    = ((({ p with
        tfl := { p.tfl with
          tracking := Table.put p.tfl.tracking e ⟨.queued, f.origin, byteAt f.payload 1, c, a, cls, p.mono + 400⟩ }
        lmp := if cls = ModClass.lampRaw then { p.lmp with
            overrides := Table.put p.lmp.overrides (lampKey c a) (rawStates (f.payload.drop 2)) }
          else p.lmp } : Part).onChan c
        (fun ch => { ch with queue := ch.queue ++ [BusCmd.passed a cls (f.payload.drop 2) e] })).unlit) := by
  unfold Part.passOn
  dsimp only
  by_cases h : cls = .lampRaw
  · rw [if_pos h, if_pos h]
    unfold Part.setOverride
    dsimp only
    rw [Part.touch_unlit, Part.onChan_unlit _ _ _ (fun ch => Channel.withdraw_lamp_unlit ch a), Part.clearBehind_unlit]
    cases c <;> rfl
  · rw [if_neg h, if_neg h]
    rfl

section Pass
variable {p : Part} {f : Frame} {c : Chan} {a : Nat} {cls : ModClass}

theorem Part.judgePass_drop (h : p.passAction (p.terminal f.origin).role cls = .drop) :
    p.judgePass f c a cls = p.passDropped := by
  unfold Part.judgePass
  rw [h]

theorem Part.judgePass_dropReport (h : p.passAction (p.terminal f.origin).role cls = .dropReport) :
    p.judgePass f c a cls = p.passDropped.passRefuse f 4 := by
  unfold Part.judgePass
  rw [h]

/-- Checks 5 to 9, where the action is PASS (R187). -/
theorem Part.judgePass_pass (h : p.passAction (p.terminal f.origin).role cls = .pass) : p.judgePass f c a cls
    = if !(p.terminal f.origin).maint then p.passRefuse f 5
      else if (p.chan c).state ≠ .running then p.passRefuse f 6
      else if (p.chan c).modState a ≠ .active then p.passRefuse f 7
      else match Table.lowestFree p.tfl.tracking 8 with
        | none => p.passRefuse f 8
        | some e => if !(p.chan c).otherRoom then p.passRefuse f 9 else p.passOn f c a e cls := by
  unfold Part.judgePass
  rw [h]
  rfl

end Pass

/-- Settles O20. -/
theorem moduleFramesAreJudged : Obligations.ModuleFramesAreJudged := by
  unfold Obligations.ModuleFramesAreJudged
  refine ⟨fun p role cls => ⟨fun pre i e post hsplit fits before => Part.passAction_first hsplit fits before,
    fun h => Part.passAction_none h⟩, ?_⟩
  intro s f rest c a hheld hin h1 h62 ha1 ha30 hdest t p counted refusedOn refused
  have hd := destModule_chan ha1 ha30 hdest
  have row := tflRow_module h1 h62 hd
  have becomes {q : Part} (hq : (p.judgeModule f).unlit = q.unlit) : s.Becomes (exec .moduleFrame s) q :=
    State.becomes_taken (act := Part.judgeModule) hheld hin row hq
  have refuses {q : Part} {reason : Nat} (hq : p.judgeModule f = q.passRefuse f reason) (hlink : q.essRoom = s.part.essRoom) :
      refusedOn q (BitVec.ofNat 8 reason) := fun room =>
    becomes (by rw [hq, Part.passRefuse_room f reason (hlink.trans room)])
  refine ⟨fun h => ?_, fun code tag data hk hpay hlen => ?_⟩
  · refine refuses (Part.judgeModule_malformed hd ?_) rfl
    refine h.imp_right (Or.imp_right (Or.imp_right fun other => ?_))
    rw [byteAt_eq]
    rw [List.head?_eq_getElem?] at other
    cases hb : f.payload[0]? with
    | none => decide
    | some b =>
      have notClass := mt (classByte_iff b).1 (fun hmem => other b hmem hb)
      rw [not_or] at notClass
      exact ⟨by simpa using notClass.1, notClass.2⟩
  · have h2 : 2 ≤ f.payload.length := by rw [hpay]; simp
    have h18 : f.payload.length ≤ 18 := by rw [hpay]; simp; omega
    have hcode : byteAt f.payload 0 = code.toNat := by rw [byteAt_eq, hpay]; rfl
    have htag : byteAt f.payload 1 = tag.toNat := by rw [byteAt_eq, hpay]; rfl
    have hdata : f.payload.drop 2 = data := by rw [hpay]; rfl
    have formed := Part.judgeModule_formed (p := p) hd hk h2 h18
    rw [hcode] at formed
    refine ⟨fun hnone hclass => ?_, fun hrole hraw => ?_, fun cls hcls hrole => ?_⟩
    · refine refuses ?_ rfl
      exact (formed ((classByte_iff code).2 hclass)).trans (if_pos hnone)
    · refine refuses ?_ rfl
      refine (formed (.inr (by rw [hraw]; rfl))).trans ((if_neg hrole).trans ?_)
      rw [hraw]
      rfl
    · have class' := parseClass_of_mem hcls
      have judged : p.judgeModule f = p.judgePass f c a cls := by
        refine (formed (.inl (by rw [class']; rfl))).trans ((if_neg hrole).trans ?_)
        rw [class']
      refine ⟨fun hdrop => ?_, fun hreport => ?_, fun hpass => ?_⟩
      · refine becomes ?_
        rw [judged, Part.judgePass_drop (by exact hdrop)]
        rfl
      · exact refuses (judged.trans (Part.judgePass_dropReport hreport)) rfl
      · have judgedPass := judged.trans (Part.judgePass_pass (p := p) hpass)
        refine ⟨fun hm => ?_, fun hm hc => ?_, fun hm hc ha => ?_, fun hm hc ha => ⟨fun hfull => ?_, fun e he hfree hleast =>
          ⟨fun hq => ?_, fun hq => ?_⟩⟩⟩
        · refine refuses (judgedPass.trans ?_) rfl
          rw [show (p.terminal f.origin).maint = false from hm]
          rfl
        · refine refuses (judgedPass.trans ?_) rfl
          rw [show (p.terminal f.origin).maint = true from hm]
          exact if_pos hc
        · refine refuses (judgedPass.trans ?_) rfl
          rw [show (p.terminal f.origin).maint = true from hm]
          exact (if_neg (not_not.2 hc)).trans (if_pos ha)
        · refine refuses (judgedPass.trans ?_) rfl
          rw [show (p.terminal f.origin).maint = true from hm, Table.lowestFree_none (t := p.tfl.tracking) hfull]
          exact (if_neg (not_not.2 hc)).trans (if_neg (not_not.2 ha))
        · refine refuses (judgedPass.trans ?_) rfl
          rw [show (p.terminal f.origin).maint = true from hm, Table.lowestFree_eq (t := p.tfl.tracking) he hfree hleast]
          refine (if_neg (not_not.2 hc)).trans ((if_neg (not_not.2 ha)).trans (if_pos ?_))
          rw [show (p.chan c).otherRoom = false from decide_eq_false (Nat.not_lt.2 hq)]
          rfl
        · refine becomes ?_
          have passed : p.judgeModule f = p.passOn f c a e cls := by
            rw [judgedPass, show (p.terminal f.origin).maint = true from hm,
              Table.lowestFree_eq (t := p.tfl.tracking) he hfree hleast]
            refine (if_neg (not_not.2 hc)).trans ((if_neg (not_not.2 ha)).trans (if_neg ?_))
            rw [show (p.chan c).otherRoom = true from decide_eq_true hq]
            nofun
          rw [passed, Part.passOn_unlit, htag, hdata]
          rfl

end Sys2Proof.Machine
end

section
/-! PROOFS. The Slot Bus: what the answer to a passed frame, its miss and its expiry leave (R147, R167, R189). -/

namespace Sys2Proof.Machine
open Sys2Proof

/-! ## Channels of parts alike but for the lamps -/

theorem Part.chan_of_unlit {p q : Part} (h : q.unlit = p.unlit) (c : Chan) : (q.chan c).unlit = (p.chan c).unlit := by
  cases c
  · exact congrArg Part.chanA h
  · exact congrArg Part.chanB h

theorem Part.chan_onChan (p : Part) (c : Chan) (f : Channel → Channel) : (p.onChan c f).chan c = f (p.chan c) := by
  cases c <;> rfl

theorem Part.chan_onChan_other (p : Part) {c d : Chan} (h : d ≠ c) (f : Channel → Channel) :
    (p.onChan c f).chan d = p.chan d := by
  cases c with
  | A => cases d with
    | A => exact absurd rfl h
    | B => rfl
  | B => cases d with
    | A => rfl
    | B => exact absurd rfl h

/-! ## Tracking entries (R189) -/

/-- The part with Tracking entry e FREE and its response in the Report Queue. -/
def Part.trackFreed (p : Part) (e : Nat) (r : Report) : Part := { p with
  tfl := { p.tfl with tracking := Table.del p.tfl.tracking e }
  link := { p.link with reports := p.link.reports ++ [r] } }

/-- With room for it the response of an entry enters, and the entry is FREE. -/
theorem Part.trackRespond_room {p : Part} {e : Nat} {t : Track} (ht : Table.look p.tfl.tracking e = some t)
    (hs : t.state = .sent ∨ t.state = .queued) (r : Result) (fields : List Byte) (room : p.essRoom = true) :
    p.trackRespond e r fields = p.trackFreed e
      ⟨.response, t.origin, [BitVec.ofNat 8 t.tag, 0x60#8, BitVec.ofNat 8 r.code, 0#8] ++ fields⟩ := by
  have answers : p.trackRespond e r fields
      = if p.essRoom then { p.enter (responseReport t.origin t.tag moduleFrameKind r 0 fields) with
          tfl := { p.tfl with tracking := Table.del p.tfl.tracking e } }
        else ({ p with tfl := { p.tfl with tracking := Table.put p.tfl.tracking e { t with
          state := .answering (responseReport t.origin t.tag moduleFrameKind r 0 fields) } } } : Part).await (.tracking e) := by
    unfold Part.trackRespond
    rw [ht]
    dsimp only
    rcases hs with hs | hs <;> rw [hs]
  rw [answers, if_pos room]
  unfold responseReport Part.trackFreed
  rw [beBytes_one, beBytes_one, beBytes_one, beBytes_one]
  rfl

theorem Part.trackAnswer_sent {p : Part} {e : Nat} {t : Track} (ht : Table.look p.tfl.tracking e = some t)
    (hs : t.state = .sent) (status : Byte) (data : List Byte) :
    p.trackAnswer e t.chan t.addr status data = p.trackRespond e .passReply (status :: data) := by
  unfold Part.trackAnswer
  rw [ht]
  exact if_pos ⟨hs, rfl, rfl⟩

theorem Part.trackMiss_sent {p : Part} {e : Nat} {t : Track} (ht : Table.look p.tfl.tracking e = some t)
    (hs : t.state = .sent) : p.trackMiss e t.chan t.addr .sent = p.trackRespond e .passTimeout [1#8] := by
  unfold Part.trackMiss
  rw [ht, beBytes_one]
  exact if_pos ⟨hs, rfl, rfl⟩

theorem Part.trackExpire_due {p : Part} {e : Nat} {t : Track} (ht : Table.look p.tfl.tracking e = some t)
    (he : t.expiry ≤ p.mono) :
    (t.state = .sent → p.trackExpire e = p.trackRespond e .passTimeout [2#8])
    ∧ (t.state = .queued → ∃ ks, p.trackExpire e
      = ((p.onChan t.chan (·.withdraw (BusCmd.isPassed e))).touch ks).trackRespond e .passTimeout [2#8]) := by
  unfold Part.trackExpire
  rw [ht]
  dsimp only
  rw [if_neg (Nat.not_lt.2 he), beBytes_one]
  refine ⟨fun hs => by rw [hs], fun hs => ?_⟩
  rw [hs]
  dsimp only
  split
  · exact ⟨_, rfl⟩
  · exact ⟨[], by unfold Part.touch; rw [List.append_nil]⟩

/-! ## Good answers and misses (R147, R156) -/

/-- A good answer of an ACTIVE or SILENT module writes its Module Table entry, and nothing else but lamps. -/
theorem Part.goodAnswer_served {p : Part} {c : Chan} {a : Nat}
    (h : (p.chan c).modState a = .active ∨ (p.chan c).modState a = .silent) (poll : Bool) :
    ∃ f ks, p.goodAnswer c a poll = (p.onModule c a f).touch ks := by
  unfold Part.goodAnswer
  rcases h with h | h <;> rw [h] <;> dsimp only
  · exact ⟨_, [], by unfold Part.touch; rw [List.append_nil]⟩
  · split
    · exact ⟨_, _, rfl⟩
    · exact ⟨_, [], by unfold Part.touch; rw [List.append_nil]⟩

theorem Channel.look_of_modState {ch : Channel} {a : Nat} {st : ModState} (h : ch.modState a = st) (hst : st ≠ .absent) :
    ∃ m, Table.look ch.modules a = some m ∧ m.state = st := by
  unfold Channel.modState at h
  cases hm : Table.look ch.modules a with
  | none => exact absurd (by rw [← h, hm]; rfl) hst
  | some m => exact ⟨m, rfl, by rw [← h, hm]; rfl⟩

/-- The first miss of an ACTIVE module leaves it SILENT (R156). -/
theorem Part.chargeMiss_active {p : Part} {c : Chan} {a : Nat} (h : (p.chan c).modState a = .active) :
    p.chargeMiss c a = p.onChan c (fun ch => { ch with
      misses := satUp ch.misses
      modules := Table.modify ch.modules a (fun m => { m with misses := 1, state := .silent }) }) := by
  obtain ⟨m, hm, hst⟩ := Channel.look_of_modState h (by nofun)
  have look : Table.look ((p.countMiss c).chan c).modules a = some m := by
    unfold Part.countMiss
    rw [Part.chan_onChan]
    exact hm
  unfold Part.chargeMiss
  dsimp only
  rw [look]
  dsimp only
  rw [hst]
  cases c <;> rfl

theorem Channel.modState_silent {ch : Channel} {a : Nat} (h : ch.modState a = .active) (f : ModEntry → ModEntry)
    (hf : ∀ m, (f m).state = .silent) (g : Channel) (hg : g.modules = Table.modify ch.modules a f) :
    g.modState a = .silent := by
  obtain ⟨m, hm, hst⟩ := Channel.look_of_modState h (by nofun)
  unfold Channel.modState
  rw [hg, Table.look_modify_same, hm]
  exact hf m

/-- COMMAND_MISS of a command from the queue, while no other holds the line. -/
theorem Part.commandMiss_queued {p : Part} {c : Chan} {b : BusCmd} (hheld : (p.chan c).held = false)
    (hline : (p.chan c).onLine = some (.queued b)) :
    p.commandMiss c = ((p.lineFree c).chargeMiss c b.addr).tellMiss c b := by
  unfold Part.commandMiss
  rw [hheld, if_neg (by nofun), hline]

theorem Part.tellMiss_passed (p : Part) (c : Chan) (a : Nat) (cls : ModClass) (d : List Byte) (e : Nat) : ∃ l,
    p.tellMiss c (.passed a cls d e) = ({ p with lmp := l } : Part).trackMiss e c a .sent := by
  unfold Part.tellMiss
  dsimp only
  split
  · exact ⟨_, rfl⟩
  · exact ⟨p.lmp, rfl⟩

theorem Part.passAnswer_good {p : Part} {c : Chan} {a e : Nat} {cls : ModClass} {d : List Byte} {r : Reply}
    (hline : (p.chan c).onLine = some (.queued (.passed a cls d e))) (h : GoodReply r a) :
    p.passAnswer c r = ((p.lineFree c).goodAnswer c a false).trackAnswer e c a r.status r.data := by
  unfold Part.passAnswer
  rw [hline]
  exact Part.judged_good p c a r _ h

theorem Part.passAnswer_bad {p : Part} {c : Chan} {a e : Nat} {cls : ModClass} {d : List Byte} {r : Reply}
    (hline : (p.chan c).onLine = some (.queued (.passed a cls d e))) (h : ¬ GoodReply r a) :
    p.passAnswer c r = p.commandMiss c := by
  unfold Part.passAnswer
  rw [hline]
  exact Part.judged_bad p c a r _ h

/-- Settles O21. -/
theorem passThroughIsAnswered : Obligations.PassThroughIsAnswered := by
  unfold Obligations.PassThroughIsAnswered
  intro s e t ht room reply
  refine ⟨fun ends data cls d hsent hline => ⟨fun hgood hserved => ?_, fun hbad => ?_, fun hheld hactive => ?_⟩,
    fun hexp hsent => ?_, fun hexp hqueued => ?_⟩
  · have line := Part.passAnswer_good (p := s.part) hline hgood
    have free : ((s.part.lineFree t.chan).chan t.chan).modState t.addr = (s.part.chan t.chan).modState t.addr := by
      unfold Part.lineFree
      rw [Part.chan_onChan]
      rfl
    obtain ⟨f, ks, answered⟩ := Part.goodAnswer_served (p := s.part.lineFree t.chan) (by rw [free]; exact hserved) false
    rw [answered] at line
    generalize hq : ((s.part.lineFree t.chan).onModule t.chan t.addr f).touch ks = q at line
    have same : q.tfl = s.part.tfl ∧ q.link = s.part.link ∧ q.keys = s.part.keys ∧ q.rows = s.part.rows ∧ q.alt = s.part.alt
        ∧ (q.chan t.chan).onLine = none := by
      rw [← hq]
      cases t.chan <;> exact ⟨rfl, rfl, rfl, rfl, rfl, rfl⟩
    obtain ⟨qtfl, qlink, qkeys, qrows, qalt, qline⟩ := same
    rw [Part.trackAnswer_sent (by rw [qtfl]; exact ht) hsent,
      Part.trackRespond_room (by rw [qtfl]; exact ht) (.inl hsent) _ _ (by unfold Part.essRoom; rw [qlink]; exact room)] at line
    obtain ⟨u, hexec, -, hunlit⟩ := State.becomes_of_eq (s := s) line
    obtain ⟨-, -, link, tfl, rows, keys, -, -, -, -, -, -, -, -, -, -, -, -, -, -, -, -, -, -, alt, -⟩ :=
      Part.fields_of_unlit hunlit
    refine ⟨u, hexec, ?_, ?_, ?_, keys.trans qkeys, rows.trans qrows, alt.trans qalt⟩
    · rw [tfl, ← qtfl]
      rfl
    · exact (congrArg Channel.onLine (Part.chan_of_unlit hunlit t.chan) :).trans qline
    · rw [link, ← qlink]
      rfl
  · exact congrArg (fun p : Part => Host.Outcome.next { s with part := p.lampRun }) (Part.passAnswer_bad hline hbad)
  · have miss := Part.commandMiss_queued hheld hline
    have free : ((s.part.lineFree t.chan).chan t.chan).modState t.addr = (s.part.chan t.chan).modState t.addr := by
      unfold Part.lineFree
      rw [Part.chan_onChan]
      rfl
    obtain ⟨l, told⟩ := Part.tellMiss_passed ((s.part.lineFree t.chan).chargeMiss t.chan t.addr) t.chan t.addr cls d e
    rw [show (BusCmd.passed t.addr cls d e).addr = t.addr from rfl, told,
      Part.chargeMiss_active (by rw [free]; exact hactive)] at miss
    generalize hq : ({ (s.part.lineFree t.chan).onChan t.chan (fun ch => { ch with
      misses := satUp ch.misses
      modules := Table.modify ch.modules t.addr (fun m => { m with misses := 1, state := .silent }) }) with
      lmp := l } : Part) = q at miss
    have same : q.tfl = s.part.tfl ∧ q.link = s.part.link ∧ q.keys = s.part.keys ∧ q.rows = s.part.rows ∧ q.alt = s.part.alt
        ∧ (q.chan t.chan).onLine = none ∧ (q.chan t.chan).misses = satUp (s.part.chan t.chan).misses
        ∧ (q.chan t.chan).modules = Table.modify (s.part.chan t.chan).modules t.addr
          (fun m => { m with misses := 1, state := .silent }) := by
      rw [← hq]
      cases t.chan <;> exact ⟨rfl, rfl, rfl, rfl, rfl, rfl, rfl, rfl⟩
    obtain ⟨qtfl, qlink, qkeys, qrows, qalt, qline, qmisses, qmodules⟩ := same
    rw [Part.trackMiss_sent (by rw [qtfl]; exact ht) hsent,
      Part.trackRespond_room (by rw [qtfl]; exact ht) (.inl hsent) _ _ (by unfold Part.essRoom; rw [qlink]; exact room)] at miss
    obtain ⟨u, hexec, -, hunlit⟩ := State.becomes_of_eq (s := s) miss
    obtain ⟨-, -, link, tfl, rows, keys, -, -, -, -, -, -, -, -, -, -, -, -, -, -, -, -, -, -, alt, -⟩ :=
      Part.fields_of_unlit hunlit
    have chan := Part.chan_of_unlit hunlit t.chan
    refine ⟨u, hexec, ?_, (congrArg Channel.onLine chan :).trans qline, (congrArg Channel.misses chan :).trans qmisses, ?_, ?_,
      keys.trans qkeys, rows.trans qrows, alt.trans qalt⟩
    · rw [tfl, ← qtfl]
      rfl
    · exact Channel.modState_silent hactive _ (fun _ => rfl) _ ((congrArg Channel.modules chan :).trans qmodules)
    · rw [link, ← qlink]
      rfl
  · have expired := (Part.trackExpire_due ht hexp).1 hsent
    rw [Part.trackRespond_room ht (.inl hsent) _ _ room] at expired
    exact State.becomes_of_eq expired
  · obtain ⟨ks, expired⟩ := (Part.trackExpire_due ht hexp).2 hqueued
    generalize hq : (s.part.onChan t.chan (·.withdraw (BusCmd.isPassed e))).touch ks = q at expired
    have same : q.tfl = s.part.tfl ∧ q.link = s.part.link
        ∧ (q.chan t.chan).queue = ((s.part.chan t.chan).withdraw (BusCmd.isPassed e)).queue := by
      rw [← hq]
      cases t.chan <;> exact ⟨rfl, rfl, rfl⟩
    obtain ⟨qtfl, qlink, qqueue⟩ := same
    rw [Part.trackRespond_room (by rw [qtfl]; exact ht) (.inr hqueued) _ _
      (by unfold Part.essRoom; rw [qlink]; exact room)] at expired
    obtain ⟨u, hexec, -, hunlit⟩ := State.becomes_of_eq (s := s) expired
    obtain ⟨-, -, link, tfl, -⟩ := Part.fields_of_unlit hunlit
    refine ⟨u, hexec, ?_, fun a cls d => ?_, ?_⟩
    · rw [tfl, ← qtfl]
      rfl
    · rw [Part.mem_queue_of_unlit hunlit t.chan rfl]
      intro hmem
      have waits : BusCmd.passed a cls d e ∈ (q.chan t.chan).queue := hmem
      rw [qqueue] at waits
      simp [Channel.withdraw, BusCmd.isPassed] at waits
    · rw [link, ← qlink]
      rfl

end Sys2Proof.Machine
end

section
/-! PROOFS. The requests of chapter 1: how an answer enters, fields read back from a payload, KEY_ADD (R15, R16), KEY_DELETE
(R17), KEY_HOLD (R19), GUIDE (R25) and HOLD_APPLY (R23, R24). -/

namespace Sys2Proof.Machine
open Sys2Proof

/-! ## Answers, up to the lamps -/

/-- A request whose owner's answer is that of part p but for the lamps, with room for the response. -/
theorem State.replies {s : State} {row : Instr} {f : Frame} {rest : List Frame} (owner : Part → Frame → Answer) {q p : Part}
    {r : Result} {fields : List Byte} (h : s.Asks row f rest) (ho : owner (s.part.asked f rest) f = q.answer r fields)
    (hq : q.unlit = p.unlit) (room : p.essRoom = true) :
    s.Becomes (.next { s with part := (s.part.requestRun row owner).lampRun }) (p.queued (s.part.replyTo f r fields)) := by
  have same : q.link = p.link := (congrArg Part.link hq :)
  have qroom : q.essRoom = true := by
    unfold Part.essRoom
    rw [same]
    exact room
  obtain ⟨t, ht, hpend, hunlit⟩ := s.becomes_reply row f rest owner q r fields h ho qroom
  refine ⟨t, ht, hpend, hunlit.trans ?_⟩
  have queued (x : Part) (m : Report) : (x.queued m).unlit = x.unlit.queued m := rfl
  rw [queued, queued, hq]

/-- A request that its owner refuses leaves the part as its taking left it. -/
theorem State.refuses {s : State} {row : Instr} {f : Frame} {rest : List Frame} (owner : Part → Frame → Answer) {r : Result}
    (h : s.Asks row f rest) (room : s.part.essRoom = true)
    (ho : owner (s.part.asked f rest) f = (s.part.asked f rest).refuse r) :
    s.Becomes (.next { s with part := (s.part.requestRun row owner).lampRun })
      ((s.part.asked f rest).queued (s.part.replyTo f r [])) :=
  State.replies owner h ho rfl room

/-- A response that is offered writes the link and the TFL's held report, and nothing else. -/
theorem Part.respond_leaves (p : Part) (r : Report) : ∃ tfl link, p.respond r = { p with tfl := tfl, link := link } := by
  unfold Part.respond
  split
  · exact ⟨_, _, rfl⟩
  · exact ⟨_, _, rfl⟩

/-- A request whose owner answers, whether its response has room or waits. -/
theorem State.answers {s : State} {row : Instr} {f : Frame} {rest : List Frame} (owner : Part → Frame → Answer) {q : Part}
    {r : Result} {fields : List Byte} (h : s.Asks row f rest) (ho : owner (s.part.asked f rest) f = q.answer r fields) :
    ∃ tfl link, s.Becomes (.next { s with part := (s.part.requestRun row owner).lampRun })
      { q with tfl := tfl, link := link } := by
  obtain ⟨tfl, link, sent⟩ := Part.respond_leaves q (responseReport f.origin (reqTag f.payload) f.kind r
    (bit (s.part.sequenceReset f) + 2 * bit false) fields)
  refine ⟨tfl, link, State.becomes_of_eq ?_⟩
  rw [Part.requestRun_asks s row f rest owner h, ho]
  exact sent

/-! ## Fields read back -/

/-- A number laid out after some bytes is read back at their length. -/
theorem field_after {bs : List Byte} (pre rest : List Byte) {o w n : Nat} (ho : pre.length = o) (hn : n < 256 ^ w)
    (hbs : bs = pre ++ (beBytes w n ++ rest)) : field bs o w = n := by
  rw [hbs, ← ho]
  exact field_at pre rest w n hn

/-! ## Key records -/

theorem Part.touch_touch (p : Part) (ks ls : List Nat) : (p.touch ks).touch ls = p.touch (ks ++ ls) := by
  unfold Part.touch
  rw [List.append_assoc]

theorem Part.touchSlotO_touch (p : Part) (o : Option Nat) : ∃ ks, p.touchSlotO o = p.touch ks := by
  cases o with
  | none => exact ⟨[], by unfold Part.touchSlotO Part.touch; rw [List.append_nil]⟩
  | some n => exact ⟨_, rfl⟩

/-- A key record is written, and lamps are marked. -/
theorem Part.setKey_touch (p : Part) (h : Nat) (k : KeyRec) : ∃ ks,
    p.setKey h k = ({ p with keys := Table.put p.keys h k } : Part).touch ks := by
  unfold Part.setKey
  dsimp only
  obtain ⟨ks, hks⟩ := Part.touchSlotO_touch { p with keys := Table.put p.keys h k } ((Table.look p.keys h).bind (·.loc))
  rw [hks]
  obtain ⟨ls, hls⟩ := Part.touchSlotO_touch (({ p with keys := Table.put p.keys h k } : Part).touch ks) k.loc
  rw [hls]
  obtain ⟨ms, hms⟩ := Part.touchSlotO_touch ((({ p with keys := Table.put p.keys h k } : Part).touch ks).touch ls) k.home
  rw [hms, Part.touch_touch, Part.touch_touch]
  exact ⟨_, rfl⟩

theorem Part.setKey_unlit (p : Part) (h : Nat) (k : KeyRec) :
    (p.setKey h k).unlit = ({ p with keys := Table.put p.keys h k } : Part).unlit := by
  obtain ⟨ks, hks⟩ := p.setKey_touch h k
  rw [hks, Part.touch_unlit]

/-- A removal reads nothing of the lamps marked. -/
theorem Part.remove_touch (p : Part) (ks : List Nat) (k : AlertKind) (s : Subject) :
    (p.touch ks).remove k s = (p.remove k s).touch ks := by
  have giveUp (q : Part) (i : Nat) : (q.touch ks).giveUpAlert i = (q.giveUpAlert i).touch ks := by
    unfold Part.giveUpAlert
    rw [apply_ite (Part.touch · ks)]
    rfl
  have notice (q : Part) (i : Nat) (r : Report) : (q.touch ks).offerNotice i r = (q.offerNotice i r).touch ks := by
    unfold Part.offerNotice
    rw [apply_ite (Part.touch · ks)]
    rfl
  cases find : p.alt.find k s with
  | none => rw [Part.remove_none find, Part.remove_none (by exact find)]
  | some e =>
    rw [Part.remove_found find, Part.remove_found (p := p.touch ks) find]
    cases e.pending.isSome
    · exact notice { p with alt := p.alt.drop e.place } _ _
    · exact giveUp { p with alt := p.alt.drop e.place } _

/-! ## KEY_ADD (R15, R16) -/

theorem parseKeyAdd_payload {bs : List Byte} {tag : Byte} {t v c home : Nat}
    (hbs : bs = tag :: (beBytes 4 t ++ (beBytes 3 v ++ (beBytes 1 c ++ beBytes 2 home))))
    (ht : t < 4294967296) (hv : v ≤ 16777215) (hc : c < 256) (hh : home < 65536) :
    parseKeyAdd bs = some (t, v, c, if home = 0 then none else some home) := by
  have hlen : bs.length = 11 := by rw [hbs]; simp
  have tagField : field bs 1 4 = t := field_after [tag] (beBytes 3 v ++ (beBytes 1 c ++ beBytes 2 home)) rfl ht hbs
  have vehicle : field bs 5 3 = v :=
    field_after (tag :: beBytes 4 t) (beBytes 1 c ++ beBytes 2 home) (by simp) (by omega) (by rw [hbs]; simp)
  have cls : field bs 8 1 = c :=
    field_after (tag :: (beBytes 4 t ++ beBytes 3 v)) (beBytes 2 home) (by simp) hc (by rw [hbs]; simp)
  have homeField : field bs 9 2 = home :=
    field_after (tag :: (beBytes 4 t ++ (beBytes 3 v ++ beBytes 1 c))) [] (by simp) hh (by rw [hbs]; simp)
  unfold parseKeyAdd
  rw [if_pos hlen, tagField, vehicle, cls, homeField]

section KeyAdd
variable {p : Part} {t c : Nat} {home : Option Nat}

/-- The form that KEY_ADD must have: a tag, a class, and a STANDARD home slot where one is given (R15). -/
def Part.KeyAddGood (p : Part) (t c : Nat) (home : Option Nat) : Prop :=
  t ≠ 0 ∧ c ≤ 15 ∧ ∀ h, home = some h → 1 ≤ h ∧ h ≤ 480 ∧ (p.slotEntry h).kind = .standard

theorem Part.badHome_iff : (home.any (fun h => (slotArg h).isNone || (p.slotEntry h).kind != .standard)) = true
    ↔ ¬ ∀ h, home = some h → 1 ≤ h ∧ h ≤ 480 ∧ (p.slotEntry h).kind = .standard := by
  cases home with
  | none => simp
  | some h =>
    have none_iff : (slotArg h).isNone = true ↔ ¬ (1 ≤ h ∧ h ≤ 480) := by
      unfold slotArg
      split
      · rename_i hr
        exact iff_of_false nofun (not_not.2 hr)
      · rename_i hr
        exact iff_of_true rfl hr
    rw [Option.any_some, Bool.or_eq_true, none_iff, bne_iff_ne]
    constructor
    · rintro bad all
      obtain ⟨h1, h2, h3⟩ := all h rfl
      exact bad.elim (fun b => b ⟨h1, h2⟩) (fun b => b h3)
    · intro bad
      by_contra good
      rw [not_or, not_not, not_not] at good
      obtain ⟨⟨h1, h2⟩, h3⟩ := good
      exact bad fun x hx => by cases hx; exact ⟨h1, h2, h3⟩

theorem Part.keyAddCheck_bad (h : ¬ p.KeyAddGood t c home) : p.keyAddCheck t c home = some .badArgument := by
  unfold Part.keyAddCheck
  by_cases h1 : t = 0 ∨ 15 < c
  · exact if_pos h1
  · rw [if_neg h1]
    refine if_pos (Part.badHome_iff.2 fun all => h ⟨fun h0 => h1 (.inl h0), Nat.not_lt.1 fun hc => h1 (.inr hc), all⟩)

/-- The checks of KEY_ADD after its form. -/
theorem Part.keyAddCheck_good (h : p.KeyAddGood t c home) : p.keyAddCheck t c home
    = if (p.keyByTag t).isSome then some .duplicate
      else if home.isSome && p.keys.any (fun e => e.2.home == home) then some .homeTaken
      else if (Table.lowestFree p.keys 1024).isNone then some .tableFull
      else none := by
  obtain ⟨h0, hc, hhome⟩ := h
  unfold Part.keyAddCheck
  rw [if_neg (by omega), if_neg (fun bad => Part.badHome_iff.1 bad hhome)]
  rfl

theorem Part.doKeyAdd_refused {f : Frame} {v : Nat} {r : Result} (hparse : parseKeyAdd f.payload = some (t, v, c, home))
    (hcheck : p.keyAddCheck t c home = some r) : p.doKeyAdd f = p.refuse r := by
  unfold Part.doKeyAdd
  rw [hparse]
  dsimp only
  rw [hcheck]

theorem Part.doKeyAdd_enters {f : Frame} {v i : Nat} (hparse : parseKeyAdd f.payload = some (t, v, c, home))
    (hcheck : p.keyAddCheck t c home = none) (hfree : Table.lowestFree p.keys 1024 = some i) :
    p.doKeyAdd f = (p.keyEnter i t v c home).answer .ok (beBytes 2 i ++ beBytes 1 (p.keyEnterState t home).code) := by
  have free : Table.lowestFree p.keys Config.handles = some i := hfree
  unfold Part.doKeyAdd
  rw [hparse]
  dsimp only
  rw [hcheck, free]
  rfl

theorem Part.slotHolding_none (h : ∀ e ∈ p.rows, e.2.occ ≠ some (.tag t)) : p.slotHolding t = none := by
  unfold Part.slotHolding
  rw [List.find?_eq_none.2 (by simpa using h)]
  rfl

theorem Part.slotHolding_some {n : Nat} {r : SlotRow} {pre post : Table SlotRow} (hrows : p.rows = pre ++ (n, r) :: post)
    (hr : r.occ = some (.tag t)) (before : ∀ e ∈ pre, e.2.occ ≠ some (.tag t)) : p.slotHolding t = some n := by
  unfold Part.slotHolding
  rw [hrows, List.find?_append, List.find?_eq_none.2 (by simpa using before), Option.none_or,
    List.find?_cons_of_pos (by simp [hr])]
  rfl

end KeyAdd

/-- Settles O22. -/
theorem keyAddEntersTheKey : Obligations.KeyAddEntersTheKey := by
  unfold Obligations.KeyAddEntersTheKey
  refine ⟨?_, ?_⟩
  · intro s f rest tag t v c home hasks hpay ht hv hc hh room refused good homeTaken
    have hparse := parseKeyAdd_payload hpay ht hv hc hh
    have good_iff : good ↔ (s.part.asked f rest).KeyAddGood t c (if home = 0 then none else some home) := by
      refine and_congr_right fun _ => and_congr_right fun _ => ?_
      by_cases h0 : home = 0
      · exact iff_of_true (.inl h0) (by rw [if_pos h0]; nofun)
      · rw [if_neg h0]
        constructor
        · rintro (h | ⟨h480, std⟩) x hx
          · exact absurd h h0
          · cases hx
            exact ⟨by omega, h480, std⟩
        · intro all
          obtain ⟨-, h480, std⟩ := all home rfl
          exact .inr ⟨h480, std⟩
    have taken_iff : homeTaken ↔ ((if home = 0 then none else some home : Option Nat).isSome
        && s.part.keys.any (fun e => e.2.home == if home = 0 then none else some home)) = true := by
      by_cases h0 : home = 0
      · simp [homeTaken, h0]
      · simp [homeTaken, h0]
    have refuse (r : Result) (hcheck : (s.part.asked f rest).keyAddCheck t c (if home = 0 then none else some home) = some r) :
        refused r := State.refuses Part.doKeyAdd hasks room (Part.doKeyAdd_refused hparse hcheck)
    have checks (hgood : good) := Part.keyAddCheck_good (good_iff.1 hgood)
    refine ⟨fun hbad => refuse _ (Part.keyAddCheck_bad (mt good_iff.2 hbad)), fun hgood hdup => refuse _ ?_,
      fun hgood hnew htaken => refuse _ ?_, fun hgood hnew hfree hfull => refuse _ ?_⟩
    · exact (checks hgood).trans (if_pos (Option.isSome_iff_ne_none.2 hdup))
    · refine (checks hgood).trans ((if_neg ?_).trans (if_pos (taken_iff.1 htaken)))
      exact fun some => Option.isSome_iff_ne_none.1 some hnew
    · refine (checks hgood).trans ((if_neg ?_).trans ((if_neg (mt taken_iff.2 hfree)).trans (if_pos ?_)))
      · exact fun some => Option.isSome_iff_ne_none.1 some hnew
      · exact Option.isNone_iff_eq_none.2 (Table.lowestFree_none hfull)
  · intro s f rest tag t v c i home hasks hpay hok hv hc hhome hnew hfree hi hnone hleast p
    obtain ⟨t0, tlt⟩ : 0 < t ∧ t < 4294967296 := by simpa [tagOk] using hok
    have hparse : parseKeyAdd f.payload = some (t, v, c, home) := by
      have range : home.getD 0 < 65536 := by
        cases home with
        | none => decide
        | some h => have := hhome h rfl; simp only [Option.getD_some]; omega
      rw [parseKeyAdd_payload hpay tlt hv (by omega) range]
      cases home with
      | none => rfl
      | some h => rw [Option.getD_some, if_neg (by have := hhome h rfl; omega)]
    have hgood : p.KeyAddGood t c home := ⟨by omega, hc, hhome⟩
    have lowest : Table.lowestFree p.keys 1024 = some i := Table.lowestFree_eq hi hnone hleast
    have hcheck : p.keyAddCheck t c home = none := by
      rw [Part.keyAddCheck_good hgood, show p.keyByTag t = none from hnew, lowest]
      refine (if_neg nofun).trans ((if_neg ?_).trans (if_neg nofun))
      rw [show p.keys = s.part.keys from rfl]
      cases home with
      | none => nofun
      | some h => simpa using fun a b hab => hfree h rfl (a, b) hab
    have enters := Part.doKeyAdd_enters hparse hcheck lowest
    refine ⟨fun hrows room => ?_, ?_⟩
    · have holding : p.slotHolding t = none := Part.slotHolding_none hrows
      rw [show p.keyEnterState t home = .away by unfold Part.keyEnterState; rw [holding],
        show p.keyEnter i t v c home = p.setKey i ⟨t, v, c, home, .away, none, none, none, none, some .new⟩ by
          unfold Part.keyEnter; rw [holding], beBytes_one] at enters
      exact State.replies Part.doKeyAdd hasks enters (Part.setKey_unlit _ _ _) room
    · intro n r pre post hrows hocc hbefore st q room
      have holding : p.slotHolding t = some n := Part.slotHolding_some hrows hocc hbefore
      have state : p.keyEnterState t home = st := by
        unfold Part.keyEnterState
        rw [holding]
        simp [st]
      have entered : ∃ ks, p.keyEnter i t v c home = q.touch ks := by
        obtain ⟨ks, hks⟩ := p.setKey_touch i
          ((⟨t, v, c, home, .away, none, none, none, none, some .new⟩ : KeyRec).placed n p.now)
        refine ⟨ks, ?_⟩
        unfold Part.keyEnter
        rw [holding]
        dsimp only
        rw [hks, Part.remove_touch]
        simp [q, st, KeyRec.placed, KeyRec.placedAs, KeyRec.stateAt]
      obtain ⟨ks, hks⟩ := entered
      rw [state, hks, beBytes_one] at enters
      exact State.replies Part.doKeyAdd hasks enters (Part.touch_unlit _ _) room

end Sys2Proof.Machine
end

section
/-! PROOFS. KEY_DELETE (R17), KEY_HOLD (R19), GUIDE (R25), HOLD_APPLY (R23) and the reset of a Hold Sequence (R24). -/

namespace Sys2Proof.Machine
open Sys2Proof

/-! ## Removals -/

theorem Part.remove_flags (p : Part) (k : AlertKind) (s : Subject) : (p.remove k s).alt.flags = p.alt.flags := by
  cases find : p.alt.find k s with
  | none => rw [Part.remove_none find]
  | some e => exact (removeWithdrawsTheEntry p k s e find).1

theorem Part.removes_flags {α : Type} (k : α → AlertKind) (s : α → Subject) (l : List α) (p : Part) :
    (l.foldl (fun q x => q.remove (k x) (s x)) p).alt.flags = p.alt.flags := by
  induction l generalizing p with
  | nil => rfl
  | cons x r ih => rw [List.foldl_cons, ih, Part.remove_flags]

theorem Part.removeSubject_flags (p : Part) (s : Subject) : (p.removeSubject s).alt.flags = p.alt.flags := by
  unfold Part.removeSubject
  exact Part.removes_flags (fun k => k) (fun _ => s) alertKinds p

theorem Part.removes_restA {α : Type} (k : α → AlertKind) (s : α → Subject) (l : List α) (p : Part) :
    (l.foldl (fun q x => q.remove (k x) (s x)) p).restA = p.restA := by
  induction l generalizing p with
  | nil => rfl
  | cons x r ih => rw [List.foldl_cons, ih, Part.remove_restA]

theorem Part.removes_none {s : Subject} {l : List AlertKind} {p : Part} (h : ∀ k ∈ l, p.alt.find k s = none) :
    l.foldl (fun q k => q.remove k s) p = p := by
  induction l with
  | nil => rfl
  | cons k r ih =>
    rw [List.foldl_cons, Part.remove_none (h k (List.mem_cons_self ..)), ih fun k hk => h k (List.mem_cons_of_mem _ hk)]

/-- A removal brings in no entry. -/
theorem Part.remove_find_none {p : Part} {k : AlertKind} {s : Subject} (old : AlertKind) (t : Subject)
    (h : p.alt.find k s = none) : (p.remove old t).alt.find k s = none := by
  cases find : p.alt.find old t with
  | none => rw [Part.remove_none find, h]
  | some e =>
    have entries := (removeWithdrawsTheEntry p old t e find).2.1
    unfold Alt.find at h ⊢
    rw [entries]
    exact List.find?_eq_none.2 fun x hx => List.find?_eq_none.1 h x (List.mem_of_mem_filter hx)

/-- Where a key's entries are of TAKEN alone, the removal of all that concern it is that of TAKEN. -/
theorem Part.removeSubject_taken {p : Part} {h : Nat} (only : ∀ x ∈ p.alt.entries, x.subject = .key h → x.kind = .taken) :
    p.removeSubject (.key h) = p.remove .taken (.key h) := by
  have none (k : AlertKind) (hk : k ≠ .taken) : p.alt.find k (.key h) = none := by
    refine List.find?_eq_none.2 fun x hx is => ?_
    rw [Bool.and_eq_true, beq_iff_eq, beq_iff_eq] at is
    exact hk (is.1.symm.trans (only x hx is.2))
  have kinds : alertKinds = [.overdue, .escalated] ++ .taken :: [.foreign, .lockout, .lockJam, .moduleDown, .stranger,
    .channelFault, .dropFull, .censusMismatch, .linkSilent, .queueLoss] := rfl
  have first : [AlertKind.overdue, .escalated].foldl (fun q k => q.remove k (.key h)) p = p :=
    Part.removes_none fun k hk => none k (by rintro rfl; exact absurd hk (by decide))
  unfold Part.removeSubject
  rw [kinds, List.foldl_append, List.foldl_cons, first]
  exact Part.removes_none fun k hk => Part.remove_find_none _ _ (none k (by rintro rfl; exact absurd hk (by decide)))

/-! ## KEY_DELETE (R17) -/

section KeyDelete
variable {p : Part} {f : Frame} {t : Nat} (hparse : parseNum 4 f.payload = some t)
include hparse

theorem Part.doKeyDelete_unknown (hnone : p.keyByTag t = none) : p.doKeyDelete f = p.refuse .notFound := by
  unfold Part.doKeyDelete
  rw [hparse]
  dsimp only
  rw [hnone]

variable {h : Nat} {k : KeyRec} (hkey : p.keyByTag t = some (h, k))
include hkey

theorem Part.doKeyDelete_located (hloc : k.state.located = true) : p.doKeyDelete f = p.refuse .inCabinet := by
  unfold Part.doKeyDelete
  rw [hparse]
  dsimp only
  rw [hkey]
  exact if_pos hloc

theorem Part.doKeyDelete_out (hout : k.state = .out) : p.doKeyDelete f = p.refuse .inUse := by
  unfold Part.doKeyDelete
  rw [hparse]
  dsimp only
  rw [hkey]
  dsimp only
  rw [hout]
  exact (if_neg nofun).trans (if_pos (.inl rfl))

theorem Part.doKeyDelete_free (hloc : k.state.located = false) (hout : k.state ≠ .out)
    (hrentals : ∀ e ∈ p.rentals, e.2.snap.isSome → e.2.key ≠ h) :
    p.doKeyDelete f = (p.keyFree h k).answer .ok (beBytes 2 h) := by
  have unused : ¬ p.rentals.any (fun e => e.2.snap.isSome && e.2.key == h) = true := by
    rw [List.any_eq_true]
    rintro ⟨e, he, used⟩
    rw [Bool.and_eq_true, beq_iff_eq] at used
    exact hrentals e he used.1 used.2
  unfold Part.doKeyDelete
  rw [hparse]
  dsimp only
  rw [hkey]
  dsimp only
  rw [hloc]
  exact (if_neg nofun).trans (if_neg (not_or.2 ⟨hout, unused⟩))

end KeyDelete

/-- The handle of a key that is not DROPPED is freed (R17, R105). -/
theorem Part.keyFree_unlit {p : Part} {h : Nat} {k : KeyRec} (hk : k.state ≠ .dropped) :
    (p.keyFree h k).unlit = ({ p.removeSubject (.key h) with keys := Table.del (p.removeSubject (.key h)).keys h } : Part).unlit := by
  unfold Part.keyFree
  dsimp only
  rw [if_neg hk]
  obtain ⟨ks, hks⟩ := Part.touchSlotO_touch
    { p.removeSubject (.key h) with keys := Table.del (p.removeSubject (.key h)).keys h } k.home
  rw [hks, Part.touch_unlit]

/-- The handle of a DROPPED key is freed: it leaves the Drop Bin list, and of the alerts only the entries change. -/
theorem Part.keyFree_dropped {p : Part} {h : Nat} {k : KeyRec} (hk : k.state = .dropped) :
    (p.keyFree h k).keys = Table.del p.keys h ∧ (p.keyFree h k).dropBin = p.dropBin.filter (fun e => e.key != h)
      ∧ (p.keyFree h k).rentals = p.rentals ∧ (p.keyFree h k).auths = p.auths ∧ (p.keyFree h k).rows = p.rows
      ∧ (p.keyFree h k).alt.flags = p.alt.flags := by
  have out : (p.dropOut h).keys = p.keys ∧ (p.dropOut h).dropBin = p.dropBin.filter (fun e => e.key != h)
      ∧ (p.dropOut h).rentals = p.rentals ∧ (p.dropOut h).auths = p.auths ∧ (p.dropOut h).rows = p.rows
      ∧ (p.dropOut h).alt.flags = p.alt.flags := by
    unfold Part.dropOut Part.dropRoom
    split
    · generalize hq : ({ p with dropBin := p.dropBin.filter (fun e => e.key != h) } : Part) = q
      have rest := Part.removes_restA (fun _ : Nat => AlertKind.dropFull) Subject.slot q.dropSlots q
      have flags := Part.removes_flags (fun _ : Nat => AlertKind.dropFull) Subject.slot q.dropSlots q
      obtain ⟨-, -, -, -, -, rows, keys, -, -, -, auths, -, -, -, bin, -, -, -, -, -, rentals, -⟩ := Part.fields_of_restA rest
      subst hq
      exact ⟨keys, bin, rentals, auths, rows, flags⟩
    · exact ⟨rfl, rfl, rfl, rfl, rfl, rfl⟩
  have kept := Part.removeSubject_flags (p.dropOut h) (.key h)
  have fields := Part.removeSubject_fields (p.dropOut h) (.key h)
  unfold Part.keyFree
  dsimp only
  rw [if_pos hk]
  generalize p.dropOut h = d at *
  generalize d.removeSubject (.key h) = q at *
  obtain ⟨keys, bin, rentals, auths, rows, flags⟩ := out
  obtain ⟨-, -, -, -, -, qrows, qkeys, -, -, -, qauths, -, -, -, qbin, -, -, -, -, -, qrentals, -⟩ := fields
  obtain ⟨ks, hks⟩ := Part.touchSlotO_touch { q with keys := Table.del q.keys h } k.home
  rw [hks]
  exact ⟨congrArg (Table.del · h) (qkeys.trans keys), qbin.trans bin, qrentals.trans rentals, qauths.trans auths,
    qrows.trans rows, kept.trans flags⟩

/-- Settles O23. -/
theorem keyDeleteFreesTheHandle : Obligations.KeyDeleteFreesTheHandle := by
  unfold Obligations.KeyDeleteFreesTheHandle
  refine ⟨fun s f rest tag t h k hasks hpay ht hkey hrentals => ⟨?_, fun hk => ?_⟩,
    fun s f rest tag t hasks hpay ht room => ?_⟩
  · intro hk honly q room
    have hparse : parseNum 4 f.payload = some t := hpay ▸ parseNum_payload tag 4 t ht
    have notLocated : k.state.located = false := by rcases hk with hk | hk <;> rw [hk] <;> rfl
    have notOut : k.state ≠ .out := by rcases hk with hk | hk <;> rw [hk] <;> nofun
    have notDropped : k.state ≠ .dropped := by rcases hk with hk | hk <;> rw [hk] <;> nofun
    have frees := Part.doKeyDelete_free (p := s.part.asked f rest) hparse hkey notLocated notOut hrentals
    refine State.replies Part.doKeyDelete hasks frees ?_ room
    rw [Part.keyFree_unlit notDropped, Part.removeSubject_taken (p := s.part.asked f rest) honly]
  · have hparse : parseNum 4 f.payload = some t := hpay ▸ parseNum_payload tag 4 t ht
    have frees := Part.doKeyDelete_free (p := s.part.asked f rest) hparse hkey (by rw [hk]; rfl) (by rw [hk]; nofun) hrentals
    obtain ⟨tfl, link, u, hexec, -, hunlit⟩ := State.answers Part.doKeyDelete hasks frees
    obtain ⟨keys, bin, rentals, auths, rows, flags⟩ := Part.keyFree_dropped (p := s.part.asked f rest) (h := h) hk
    exact ⟨u, hexec, (congrArg Part.keys hunlit :).trans keys, (congrArg Part.dropBin hunlit :).trans bin,
      (congrArg Part.rentals hunlit :).trans rentals, (congrArg Part.auths hunlit :).trans auths,
      (congrArg Part.rows hunlit :).trans rows, (congrArg (fun x : Part => x.alt.flags) hunlit :).trans flags⟩
  · have hparse : parseNum 4 f.payload = some t := hpay ▸ parseNum_payload tag 4 t ht
    refine ⟨fun hnone => ?_, fun h k hkey => ⟨fun hk => ?_, fun hk => ?_⟩⟩
    · exact State.refuses Part.doKeyDelete hasks room (Part.doKeyDelete_unknown hparse hnone)
    · have located : k.state.located = true := by rcases hk with hk | hk | hk | hk <;> rw [hk] <;> rfl
      exact State.refuses Part.doKeyDelete hasks room (Part.doKeyDelete_located hparse hkey located)
    · exact State.refuses Part.doKeyDelete hasks room (Part.doKeyDelete_out hparse hkey hk)

/-! ## KEY_HOLD and GUIDE (R19, R25) -/

/-- A hold, or CLEAR, as a byte. -/
def holdByte (o : Option HoldReason) (clear : Byte) : Byte :=
  match o with
  | some .damage => 0#8
  | some .service => 1#8
  | some .office => 2#8
  | none => clear

theorem parseKeyHold_payload {bs : List Byte} {tag : Byte} {t : Nat} {reason : Option HoldReason}
    (hbs : bs = tag :: (beBytes 4 t ++ [holdByte reason 3#8])) (ht : t < 4294967296) :
    parseKeyHold bs = some (t, reason) := by
  have hlen : bs.length = 6 := by rw [hbs]; simp
  have tagField : field bs 1 4 = t := field_after [tag] [holdByte reason 3#8] rfl ht hbs
  have byte : byteAt bs 5 = (holdByte reason 3#8).toNat := by rw [byteAt_eq, hbs]; rfl
  unfold parseKeyHold
  rw [if_pos hlen, tagField, byte]
  cases reason with
  | none => rfl
  | some r => cases r <;> rfl

theorem Part.doKeyHold_found {p : Part} {f : Frame} {t h : Nat} {k : KeyRec} {reason : Option HoldReason}
    (hparse : parseKeyHold f.payload = some (t, reason)) (hkey : p.keyByTag t = some (h, k)) :
    p.doKeyHold f = (p.setKey h { k with hold := reason }).answer .ok [holdByte k.hold 255#8] := by
  have byte : beName (k.hold.map HoldReason.code) = [holdByte k.hold 255#8] := by
    cases k.hold with
    | none => rfl
    | some r => cases r <;> rfl
  unfold Part.doKeyHold
  rw [hparse]
  dsimp only
  rw [hkey, ← byte]

section Guide
variable {p : Part} {f : Frame} {t h : Nat} {k : KeyRec} (hparse : parseNum 4 f.payload = some t)
  (hkey : p.keyByTag t = some (h, k))
include hparse hkey

theorem Part.doGuide_noHome (hhome : k.home = none) : p.doGuide f = p.refuse .noHome := by
  unfold Part.doGuide
  rw [hparse]
  dsimp only
  rw [hkey]
  dsimp only
  rw [hhome]

theorem Part.doGuide_home {n : Nat} (hhome : k.home = some n) : p.doGuide f
    = if (p.slotEntry n).kind ≠ .standard then p.refuse .noHome
      else ((p.onRow n (fun r => { r with guide := some (p.mono + 60000) })).touchSlot n).answer .ok (beBytes 2 n) := by
  unfold Part.doGuide
  rw [hparse]
  dsimp only
  rw [hkey]
  dsimp only
  rw [hhome]
  rfl

end Guide

/-- Settles O24. -/
theorem keysAreHeldAndGuided : Obligations.KeysAreHeldAndGuided := by
  unfold Obligations.KeysAreHeldAndGuided
  refine ⟨fun s f rest tag t h k reason hasks hpay ht hkey room => ?_,
    fun s f rest tag t h n k hasks hpay ht hkey room => ⟨fun hhome hstd => ?_, fun hhome => ?_⟩, fun s n r e hrow hg he => ?_⟩
  · have held := Part.doKeyHold_found (p := s.part.asked f rest) (parseKeyHold_payload hpay ht) hkey
    exact State.replies Part.doKeyHold hasks held (Part.setKey_unlit _ _ _) room
  · have hparse : parseNum 4 f.payload = some t := hpay ▸ parseNum_payload tag 4 t ht
    have guides := (Part.doGuide_home (p := s.part.asked f rest) hparse hkey hhome).trans (if_neg (not_not.2 hstd))
    exact State.replies Part.doGuide hasks guides (Part.touch_unlit _ _) room
  · have hparse : parseNum 4 f.payload = some t := hpay ▸ parseNum_payload tag 4 t ht
    refine State.refuses Part.doGuide hasks room ?_
    rcases hhome with hhome | ⟨hhome, hstd⟩
    · exact Part.doGuide_noHome (p := s.part.asked f rest) hparse hkey hhome
    · exact (Part.doGuide_home (p := s.part.asked f rest) hparse hkey hhome).trans (if_pos hstd)
  · refine State.becomes_of_unlit (q := s.part.guideExpire n) ?_
    have row : (s.part.row n).bind (·.guide) = some e := by rw [show s.part.row n = some r from hrow]; exact hg
    unfold Part.guideExpire
    rw [row, if_pos (by simpa using he)]
    rfl

end Sys2Proof.Machine
end

section
/-! PROOFS. HOLD_APPLY (R23) and the reset of a Hold Sequence by another request (R24). -/

namespace Sys2Proof.Machine
open Sys2Proof

/-! ## Records written over one another -/

/-- In a rising table a record is written over the one of its index. -/
theorem Table.put_append {α : Type} {pre post : Table α} {i : Nat} {w : α} (h : Table.rising (pre ++ (i, w) :: post)) (v : α) :
    Table.put (pre ++ (i, w) :: post) i v = pre ++ (i, v) :: post := by
  rw [Table.rising_iff] at h
  induction pre with
  | nil => simp [Table.put]
  | cons e r ih =>
    obtain ⟨k, x⟩ := e
    rw [List.cons_append, List.pairwise_cons] at h
    have hlt : k < i := h.1 (i, w) (by simp)
    rw [List.cons_append, List.cons_append]
    simp only [Table.put]
    rw [if_neg (by omega), if_neg (by omega), ih h.2]

/-- Records of a rising table written over where they stand, one after the other, are written all at once. -/
theorem Table.foldl_put_filter {α : Type} (c : Nat × α → Bool) (g : α → α) (l pre : Table α) (h : Table.rising (pre ++ l)) :
    (l.filter c).foldl (fun t e => Table.put t e.1 (g e.2)) (pre ++ l)
      = pre ++ l.map (fun e => (e.1, if c e then g e.2 else e.2)) := by
  induction l generalizing pre with
  | nil => rfl
  | cons e r ih =>
    obtain ⟨i, w⟩ := e
    have rest (v : α) : Table.rising ((pre ++ [(i, v)]) ++ r) := Table.rising_of_fst (by simp) h
    cases hc : c (i, w) with
    | true =>
      rw [List.filter_cons_of_pos hc, List.foldl_cons, Table.put_append h, List.map_cons, if_pos hc]
      rw [List.append_cons, ih _ (rest (g w)), List.append_assoc]
      rfl
    | false =>
      rw [List.filter_cons_of_neg (by rw [hc]; nofun), List.map_cons, if_neg (by rw [hc]; nofun)]
      rw [List.append_cons, ih _ (rest w), List.append_assoc]
      rfl

theorem Part.setKeys_touch {α : Type} (i : α → Nat) (k : α → KeyRec) (l : List α) (p : Part) : ∃ ks,
    l.foldl (fun q x => q.setKey (i x) (k x)) p
      = ({ p with keys := l.foldl (fun t x => Table.put t (i x) (k x)) p.keys } : Part).touch ks := by
  induction l generalizing p with
  | nil => exact ⟨[], by unfold Part.touch; rw [List.append_nil]; rfl⟩
  | cons x r ih =>
    obtain ⟨ks, hks⟩ := p.setKey_touch (i x) (k x)
    obtain ⟨ls, hls⟩ := ih (({ p with keys := Table.put p.keys (i x) (k x) } : Part).touch ks)
    refine ⟨ks ++ ls, ?_⟩
    rw [List.foldl_cons, hks, hls]
    exact Part.touch_touch { p with keys := r.foldl (fun t x => Table.put t (i x) (k x)) (Table.put p.keys (i x) (k x)) } ks ls

/-- The key records after a hold of a range (R23). -/
theorem Part.holdRange_unlit {p : Part} (h : Table.rising p.keys) (a b : Nat) (r : HoldReason) : (p.holdRange a b r).unlit
    = ({ p with keys := p.keys.map (fun e => (e.1,
        if e.2.homeIn a b && e.2.state != .releasing then { e.2 with hold := some r } else e.2)) } : Part).unlit := by
  obtain ⟨ks, hks⟩ := Part.setKeys_touch (fun e : Nat × KeyRec => e.1) (fun e => { e.2 with hold := some r })
    (p.keys.filter (fun e => e.2.homeIn a b && e.2.state != .releasing)) p
  have keys := Table.foldl_put_filter (fun e => e.2.homeIn a b && e.2.state != .releasing)
    (fun k : KeyRec => { k with hold := some r }) p.keys [] h
  rw [List.nil_append, List.nil_append] at keys
  unfold Part.holdRange
  rw [hks, Part.touch_unlit, keys]

/-! ## HOLD_APPLY (R23) -/

section HoldApply
variable {p : Part} {f : Frame} (hlen : f.payload.length = 1)
include hlen

theorem Part.doHoldApply_other (hown : p.holdSeq.ownedBy f.origin = false) : p.doHoldApply f = p.refuse .sequenceError := by
  unfold Part.doHoldApply
  rw [if_neg (not_not.2 hlen)]
  cases hseq : p.holdSeq with
  | idle => rfl
  | started o a r =>
    rw [hseq] at hown
    exact if_pos (by simpa [HoldSeq.ownedBy] using hown)
  | ended o a b r =>
    rw [hseq] at hown
    exact if_pos (by simpa [HoldSeq.ownedBy] using hown)

theorem Part.doHoldApply_started {a : Nat} {r : HoldReason} (hseq : p.holdSeq = .started f.origin a r) :
    p.doHoldApply f = p.holdReset.refuse .sequenceError := by
  unfold Part.doHoldApply
  rw [if_neg (not_not.2 hlen), hseq]
  exact if_neg (not_not.2 rfl)

theorem Part.doHoldApply_ended {a b : Nat} {r : HoldReason} (hseq : p.holdSeq = .ended f.origin a b r) : p.doHoldApply f
    = ((p.holdRange a b r).holdReset).answer .ok
      (beBytes 2 ((p.keys.filter (fun e => e.2.homeIn a b)).filter (fun e => e.2.state != .releasing)).length
        ++ beBytes 1 ((p.keys.filter (fun e => e.2.homeIn a b)).length
          - ((p.keys.filter (fun e => e.2.homeIn a b)).filter (fun e => e.2.state != .releasing)).length)) := by
  unfold Part.doHoldApply
  rw [if_neg (not_not.2 hlen), hseq]
  exact if_neg (not_not.2 rfl)

end HoldApply

/-- Of a list, those that are not of a kind and those that are. -/
theorem length_filter_bne {α : Type} (l : List α) (f : α → KeyState) (x : KeyState) :
    (l.filter (fun e => f e != x)).length + (l.filter (fun e => f e == x)).length = l.length := by
  induction l with
  | nil => rfl
  | cons e r ih =>
    by_cases h : f e = x
    · simp [h] at ih ⊢
      omega
    · simp [h] at ih ⊢
      omega

theorem HoldSeq.ownedBy_started (t a : Nat) (r : HoldReason) : (HoldSeq.started t a r).ownedBy t = true := by
  simp [HoldSeq.ownedBy]

/-! ## Another request of the owner (R24) -/

theorem parseForm_number {bs : List Byte} {tag : Byte} {n : Nat} (hbs : bs = tag :: 0#8 :: beBytes 4 n) (hn : n < 4294967296) :
    parseForm bs = some (false, n) := by
  have hlen : bs.length = 6 := by rw [hbs]; simp
  have form : byteAt bs 1 = 0 := by rw [byteAt_eq, hbs]; rfl
  have number : field bs 2 4 = n := field_after [tag, 0#8] [] rfl hn (by rw [hbs]; simp)
  unfold parseForm
  rw [hlen, form, number]
  rfl

theorem Part.doRentalQuery_unknown {p : Part} {f : Frame} {n : Nat} (hparse : parseForm f.payload = some (false, n))
    (hnone : p.rentalByNumber n = none) : p.doRentalQuery f = p.refuse .notFound := by
  unfold Part.doRentalQuery
  rw [hparse]
  dsimp only
  rw [if_neg nofun, hnone]
  rfl

theorem rentalQuery_kind {f : Frame} (h : tflRow f = .rentalQuery) : f.kind = 0x22 := by
  have row := requestRow_of_tflRow h nofun nofun nofun nofun
  unfold requestRow at row
  split at row
  case h_19 => assumption
  all_goals (repeat' split at row) <;> cases row

/-- Settles O27. -/
theorem holdApplyOrReset : Obligations.HoldApplyOrReset := by
  unfold Obligations.HoldApplyOrReset
  have exempt {s : State} {f : Frame} {rest : List Frame} (hasks : s.Asks .holdApply f rest) :
      (s.part.asked f rest).holdSeq = s.part.holdSeq :=
    s.part.asked_holdSeq_of_exempt f rest ((sequenceExempt_iff_row
      (requestRow_of_tflRow hasks.2.2.1 nofun nofun nofun nofun)).2 (by simp))
  refine ⟨?_, fun s f rest tag hasks hpay room => ?_, fun s f rest tag n hasks hpay hn hnone room => ?_⟩
  · intro s f rest tag a b r hasks hpay hseq room rises p inRange skipped
    have hlen : f.payload.length = 1 := by rw [hpay]; rfl
    have applied := Part.doHoldApply_ended (p := p) hlen ((exempt hasks).trans hseq)
    have split : (inRange.filter (fun e => e.2.state != .releasing)).length + skipped.length = inRange.length :=
      length_filter_bne inRange (fun e => e.2.state) .releasing
    have held : (inRange.filter (fun e => e.2.state != .releasing)).length = inRange.length - skipped.length := by omega
    have left : inRange.length - (inRange.filter (fun e => e.2.state != .releasing)).length = skipped.length := by omega
    rw [show (p.keys.filter (fun e => e.2.homeIn a b)) = inRange from rfl, left, held] at applied
    refine State.replies Part.doHoldApply hasks applied ?_ room
    have range := Part.holdRange_unlit (p := p) rises a b r
    exact congrArg (fun x : Part => ({ x with holdSeq := .idle } : Part)) range
  · have hlen : f.payload.length = 1 := by rw [hpay]; rfl
    refine ⟨fun hown => ?_, fun a r hseq => ?_⟩
    · exact State.refuses Part.doHoldApply hasks room
        (Part.doHoldApply_other (p := s.part.asked f rest) hlen ((exempt hasks).symm ▸ hown))
    · exact State.replies Part.doHoldApply hasks
        (Part.doHoldApply_started (p := s.part.asked f rest) hlen ((exempt hasks).trans hseq)) rfl room
  · have refused := State.refuses Part.doRentalQuery hasks room
      (Part.doRentalQuery_unknown (p := s.part.asked f rest) (parseForm_number hpay hn) hnone)
    have kind := rentalQuery_kind hasks.2.2.1
    have resets : s.part.sequenceReset f = s.part.holdSeq.ownedBy f.origin := by
      unfold Part.sequenceReset
      rw [kind]
      exact Bool.and_true _
    have reply : s.part.replyTo f .notFound []
        = ⟨.response, f.origin, [tag, 0x22#8, 0x20#8, BitVec.ofNat 8 (bit (s.part.holdSeq.ownedBy f.origin))]⟩ := by
      unfold Part.replyTo reqTag
      rw [resets, kind, byte_byteAt, hpay]
      rfl
    have asked : s.part.asked f rest = { s.part with
        link := { s.part.link with inbound := rest }
        holdSeq := if s.part.holdSeq.ownedBy f.origin then .idle else s.part.holdSeq } := by
      unfold Part.asked
      rw [resets]
    rw [asked, reply] at refused
    refine ⟨fun hown => ?_, fun hown => ?_⟩
    · rw [hown] at refused
      exact refused
    · rw [hown] at refused
      exact refused

end Sys2Proof.Machine
end

section
/-! PROOFS. AUTH_ADD (R28, R29): the authorization read back from its payload, and what the Release Engine answers. -/

namespace Sys2Proof.Machine
open Sys2Proof

/-! ## The payload of AUTH_ADD (R205) -/

theorem flatMap_beBytes_one (ds : List Nat) : ds.flatMap (beBytes 1) = ds.map (BitVec.ofNat 8) := by
  induction ds with
  | nil => rfl
  | cons d r ih => rw [List.flatMap_cons, ih, beBytes_one, List.map_cons, List.singleton_append]

/-- Digits are read back from their bytes. -/
theorem parseDigits_digits {ds : List Nat} (h : ∀ x ∈ ds, x ≤ 9) : parseDigits (ds.flatMap (beBytes 1)) = some ds := by
  have nats : (ds.map (BitVec.ofNat 8)).map (fun b => b.toNat) = ds := by
    rw [List.map_map]
    conv => rhs; rw [← List.map_id ds]
    refine List.map_congr_left fun x hx => ?_
    have := h x hx
    simp only [Function.comp_apply, BitVec.toNat_ofNat, id_eq]
    omega
  unfold parseDigits
  rw [flatMap_beBytes_one, if_pos, nats]
  rw [List.all_eq_true]
  intro b hb
  obtain ⟨x, hx, rfl⟩ := List.mem_map.1 hb
  have := h x hx
  rw [decide_eq_true_iff, BitVec.toNat_ofNat]
  omega

theorem parseDigits_none {ds : List Nat} (h256 : ∀ x ∈ ds, x < 256) (h : ¬ ∀ x ∈ ds, x ≤ 9) :
    parseDigits (ds.flatMap (beBytes 1)) = none := by
  unfold parseDigits
  rw [flatMap_beBytes_one]
  refine if_neg fun all => h fun x hx => ?_
  have digit := List.all_eq_true.1 all _ (List.mem_map_of_mem hx)
  have := h256 x hx
  rw [decide_eq_true_iff, BitVec.toNat_ofNat] at digit
  omega

/-- What AUTH_ADD must be (R28, check 1). -/
def AuthGood (n form tgt pres g start stop : Nat) (ds : List Nat) : Prop :=
  n ≠ 0 ∧ (form = 0 ∧ tgt ≤ 1023 ∨ form = 1 ∧ tgt ≤ 15) ∧ (pres % 2 = 1 → g ≤ 120)
    ∧ (2 ≤ pres → start ≤ stop) ∧ (ds.length = 0 ∨ 4 ≤ ds.length ∧ ds.length ≤ 8) ∧ ∀ x ∈ ds, x ≤ 9

/-- The authorization that AUTH_ADD names. -/
def authNamed (n form tgt due pres g start stop : Nat) (ds : List Nat) : Auth :=
  ⟨n, if form = 0 then .key tgt else .cls tgt, due, if pres.testBit 0 then some g else none,
    if ds.length = 0 then none else some ds, 0, start, if pres.testBit 1 then some stop else none, .waiting, 0⟩

section Payload
variable {bs : List Byte} {tag : Byte} {n form tgt due pres g start stop : Nat} {ds : List Nat}
  (hbs : bs = tag :: (beBytes 4 n ++ (beBytes 1 form ++ (beBytes 2 tgt ++ (beBytes 3 due ++ (beBytes 1 pres ++ (beBytes 1 g
    ++ (beBytes 3 start ++ (beBytes 3 stop ++ (beBytes 1 ds.length ++ ds.flatMap (beBytes 1)))))))))))
  (hn : n < 4294967296) (hform : form < 256) (htgt : tgt < 65536) (hdue : due ≤ 16777215) (hpres : pres < 4) (hg : g < 256)
  (hstart : start ≤ 16777215) (hstop : stop ≤ 16777215) (hlen : ds.length < 256)
include hbs hn hform htgt hdue hpres hg hstart hstop hlen

/-- The fields of AUTH_ADD, each where it stands. -/
theorem authAdd_fields : bs.length = 20 + ds.length ∧ field bs 1 4 = n ∧ byteAt bs 5 = form ∧ field bs 6 2 = tgt
    ∧ field bs 8 3 = due ∧ byteAt bs 11 = pres ∧ byteAt bs 12 = g ∧ field bs 13 3 = start ∧ field bs 16 3 = stop
    ∧ byteAt bs 19 = ds.length ∧ bs.drop 20 = ds.flatMap (beBytes 1) := by
  have digits : (ds.flatMap (beBytes 1)).length = ds.length := by rw [flatMap_beBytes_one, List.length_map]
  refine ⟨?_, ?_, ?_, ?_, ?_, ?_, ?_, ?_, ?_, ?_, ?_⟩
  · rw [hbs]
    simp only [List.length_cons, List.length_append, beBytes_length, digits]
    omega
  · exact field_after [tag] _ rfl hn hbs
  · exact field_after (tag :: beBytes 4 n) _ (by simp) hform (by rw [hbs]; rfl)
  · exact field_after (tag :: (beBytes 4 n ++ beBytes 1 form)) _ (by simp) htgt (by rw [hbs]; rfl)
  · exact field_after (tag :: (beBytes 4 n ++ beBytes 1 form ++ beBytes 2 tgt)) _ (by simp) (by omega) (by rw [hbs]; rfl)
  · exact field_after (tag :: (beBytes 4 n ++ beBytes 1 form ++ beBytes 2 tgt ++ beBytes 3 due)) _ (by simp) (by omega)
      (by rw [hbs]; rfl)
  · exact field_after (tag :: (beBytes 4 n ++ beBytes 1 form ++ beBytes 2 tgt ++ beBytes 3 due ++ beBytes 1 pres)) _ (by simp)
      (by omega) (by rw [hbs]; rfl)
  · exact field_after (tag :: (beBytes 4 n ++ beBytes 1 form ++ beBytes 2 tgt ++ beBytes 3 due ++ beBytes 1 pres
      ++ beBytes 1 g)) _ (by simp) (by omega) (by rw [hbs]; rfl)
  · exact field_after (tag :: (beBytes 4 n ++ beBytes 1 form ++ beBytes 2 tgt ++ beBytes 3 due ++ beBytes 1 pres
      ++ beBytes 1 g ++ beBytes 3 start)) _ (by simp) (by omega) (by rw [hbs]; rfl)
  · exact field_after (tag :: (beBytes 4 n ++ beBytes 1 form ++ beBytes 2 tgt ++ beBytes 3 due ++ beBytes 1 pres
      ++ beBytes 1 g ++ beBytes 3 start ++ beBytes 3 stop)) _ (by simp) (by omega) (by rw [hbs]; rfl)
  · rw [hbs]
    rfl

theorem parseAuthAdd_good (good : AuthGood n form tgt pres g start stop ds) :
    parseAuthAdd bs = some (authNamed n form tgt due pres g start stop ds) := by
  obtain ⟨blen, number, formByte, target, dueField, presence, grace, from', until', count, rest⟩ :=
    authAdd_fields hbs hn hform htgt hdue hpres hg hstart hstop hlen
  obtain ⟨n0, htarget, hgrace, huntil, hcount, hdigits⟩ := good
  have bits : (pres.testBit 0 = true ↔ pres % 2 = 1) ∧ (pres.testBit 1 = true ↔ 2 ≤ pres) := by
    revert hpres
    clear * -
    intro hpres
    interval_cases pres <;> decide
  unfold parseAuthAdd
  dsimp only
  rw [number, formByte, target, dueField, presence, grace, from', until', count, rest, blen, Nat.add_sub_cancel_left,
    parseDigits_digits hdigits, if_neg (by omega)]
  dsimp only
  rw [if_neg]
  · rfl
  · rintro (h | h | h | h | h | h)
    · exact n0 h
    · omega
    · omega
    · omega
    · split at h
      · have := bits.1.1 (by assumption)
        simp at h
        omega
      · cases h
    · split at h
      · have := bits.2.1 (by assumption)
        simp at h
        omega
      · cases h

theorem parseAuthAdd_bad (h256 : ∀ x ∈ ds, x < 256) (bad : ¬ AuthGood n form tgt pres g start stop ds) :
    parseAuthAdd bs = none := by
  obtain ⟨blen, number, formByte, target, dueField, presence, grace, from', until', count, rest⟩ :=
    authAdd_fields hbs hn hform htgt hdue hpres hg hstart hstop hlen
  have bits : (pres.testBit 0 = true ↔ pres % 2 = 1) ∧ (pres.testBit 1 = true ↔ 2 ≤ pres) := by
    revert hpres
    clear * -
    intro hpres
    interval_cases pres <;> decide
  unfold parseAuthAdd
  dsimp only
  rw [number, formByte, target, dueField, presence, grace, from', until', count, rest, blen, Nat.add_sub_cancel_left]
  by_cases hcount : ds.length = 0 ∨ 4 ≤ ds.length ∧ ds.length ≤ 8
  · rw [if_neg (by omega)]
    by_cases hdigits : ∀ x ∈ ds, x ≤ 9
    · rw [parseDigits_digits hdigits]
      dsimp only
      refine if_pos ?_
      by_contra none
      rw [not_or, not_or, not_or, not_or, not_or] at none
      obtain ⟨h0, h1, h2, h3, h4, h5⟩ := none
      refine bad ⟨h0, by omega, fun odd => ?_, fun two => ?_, hcount, hdigits⟩
      · rw [if_pos (bits.1.2 odd)] at h4
        simpa using h4
      · rw [if_pos (bits.2.2 two)] at h5
        simpa using h5
    · rw [parseDigits_none h256 hdigits]
  · exact if_pos (.inr (.inr hcount))

end Payload

/-! ## The checks (R28) and the entry (R29) -/

section Checks
variable {p : Part} {a : Auth}

theorem Part.authAddCheck_duplicate (h : p.auth a.rental ≠ none ∨ p.rentalByNumber a.rental ≠ none) :
    p.authAddCheck a = some .duplicate := by
  unfold Part.authAddCheck
  refine if_pos ?_
  rw [Bool.or_eq_true, Option.isSome_iff_ne_none, Option.isSome_iff_ne_none]
  exact h

variable (hauth : p.auth a.rental = none) (hrental : p.rentalByNumber a.rental = none)
include hauth hrental

/-- The checks of a number that is new: the list's capacity, then the key named. -/
theorem Part.authAddCheck_new : p.authAddCheck a = if 192 ≤ p.auths.length then some .tableFull
    else match a.target with
      | .cls _ => none
      | .key h =>
        match Table.look p.keys h with
        | none => some .notFound
        | some k =>
          if k.state ≠ .inn ∧ k.state ≠ .misplaced then some .notAvailable
          else if k.hold.isSome then some .held
          else none := by
  unfold Part.authAddCheck
  rw [hauth, hrental]
  exact if_neg nofun

theorem Part.authAddCheck_full (full : 192 ≤ p.auths.length) : p.authAddCheck a = some .tableFull := by
  rw [Part.authAddCheck_new hauth hrental, if_pos full]

variable (room : p.auths.length < 192)
include room

theorem Part.authAddCheck_cls {c : Nat} (ht : a.target = .cls c) : p.authAddCheck a = none := by
  rw [Part.authAddCheck_new hauth hrental, if_neg (Nat.not_le.2 room), ht]

theorem Part.authAddCheck_noKey {h : Nat} (ht : a.target = .key h) (hkey : Table.look p.keys h = none) :
    p.authAddCheck a = some .notFound := by
  rw [Part.authAddCheck_new hauth hrental, if_neg (Nat.not_le.2 room), ht]
  dsimp only
  rw [hkey]

theorem Part.authAddCheck_key {h : Nat} {k : KeyRec} (ht : a.target = .key h) (hkey : Table.look p.keys h = some k) :
    p.authAddCheck a = if k.state ≠ .inn ∧ k.state ≠ .misplaced then some .notAvailable
      else if k.hold.isSome then some .held else none := by
  rw [Part.authAddCheck_new hauth hrental, if_neg (Nat.not_le.2 room), ht]
  dsimp only
  rw [hkey]

end Checks

section Answers
variable {p : Part} {f : Frame}

theorem Part.doAuthAdd_bad (hparse : parseAuthAdd f.payload = none) : p.doAuthAdd f = p.refuse .badArgument := by
  unfold Part.doAuthAdd
  rw [hparse]

variable {a : Auth} (hparse : parseAuthAdd f.payload = some a)
include hparse

theorem Part.doAuthAdd_refused {r : Result} (hcheck : p.authAddCheck a = some r) : p.doAuthAdd f = p.refuse r := by
  unfold Part.doAuthAdd
  rw [hparse]
  dsimp only
  rw [hcheck]

theorem Part.doAuthAdd_enters (hcheck : p.authAddCheck a = none) :
    p.doAuthAdd f = (p.authEnter a f.origin).answer .ok (beBytes 1 (p.auths.length + 1)) := by
  unfold Part.doAuthAdd
  rw [hparse]
  dsimp only
  rw [hcheck]

end Answers

/-- The byte of AUTH_ADD that says which of grace and valid until it carries. -/
def Auth.presence (a : Auth) : Nat := (if a.grace.isSome then 1 else 0) + (if a.validUntil.isSome then 2 else 0)

theorem Auth.presence_bits (a : Auth) : a.presence < 4 ∧ a.presence.testBit 0 = a.grace.isSome
    ∧ a.presence.testBit 1 = a.validUntil.isSome := by
  unfold Auth.presence
  cases a.grace.isSome <;> cases a.validUntil.isSome <;> decide

section Named
variable {a : Auth} (hnum : 0 < a.rental) (hgrace : ∀ g, a.grace = some g → g ≤ 120)
  (huntil : ∀ v, a.validUntil = some v → a.validFrom ≤ v ∧ v ≤ 16777215)
  (hcode : ∀ ds, a.code = some ds → 4 ≤ ds.length ∧ ds.length ≤ 8 ∧ ∀ x ∈ ds, x ≤ 9)
include hcode

/-- An authorization is read back from its fields, but for attempts and origin. -/
theorem authNamed_self (form tgt : Nat) (ht : (if form = 0 then .key tgt else .cls tgt) = a.target) (hst : a.state = .waiting) :
    authNamed a.rental form tgt a.due a.presence (a.grace.getD 0) a.validFrom (a.validUntil.getD 0) (a.code.getD [])
      = { a with attempts := 0, origin := 0 } := by
  obtain ⟨-, first, second⟩ := a.presence_bits
  have grace : (if a.presence.testBit 0 then some (a.grace.getD 0) else none) = a.grace := by
    rw [first]
    cases a.grace <;> rfl
  have validUntil : (if a.presence.testBit 1 then some (a.validUntil.getD 0) else none) = a.validUntil := by
    rw [second]
    cases a.validUntil <;> rfl
  have code : (if (a.code.getD []).length = 0 then none else some (a.code.getD [])) = a.code := by
    cases hc : a.code with
    | none => rfl
    | some ds => exact if_neg (by have := (hcode ds hc).1; simp only [Option.getD_some]; omega)
  unfold authNamed
  rw [ht, grace, validUntil, code, ← hst]

include hnum hgrace huntil

theorem authGood_self (form tgt : Nat) (htgt : form = 0 ∧ tgt ≤ 1023 ∨ form = 1 ∧ tgt ≤ 15) :
    AuthGood a.rental form tgt a.presence (a.grace.getD 0) a.validFrom (a.validUntil.getD 0) (a.code.getD []) := by
  refine ⟨by omega, htgt, fun odd => ?_, fun two => ?_, ?_, ?_⟩
  · cases hg : a.grace with
    | none => exact Nat.zero_le _
    | some g => exact hgrace g hg
  · cases hv : a.validUntil with
    | none =>
      unfold Auth.presence at two
      rw [hv] at two
      split at two <;> simp at two
    | some v => exact (huntil v hv).1
  · cases hc : a.code with
    | none => exact .inl rfl
    | some ds => exact .inr ⟨(hcode ds hc).1, (hcode ds hc).2.1⟩
  · cases hc : a.code with
    | none => exact fun x hx => absurd hx (List.not_mem_nil)
    | some ds => exact (hcode ds hc).2.2

end Named

/-- Settles O28. -/
theorem authAddEntersTheAuthorization : Obligations.AuthAddEntersTheAuthorization := by
  unfold Obligations.AuthAddEntersTheAuthorization
  refine ⟨?_, ?_⟩
  · intro s f rest tag n form tgt due pres g start stop ds hasks hpay hn hform htgt hdue hpres hg hstart hstop hlen h256 room
      refused good
    have parsed (hgood : good) := parseAuthAdd_good hpay hn hform htgt hdue hpres hg hstart hstop hlen hgood
    have refuse {r : Result} (hgood : good) (hcheck : (s.part.asked f rest).authAddCheck
        (authNamed n form tgt due pres g start stop ds) = some r) : refused r :=
      State.refuses Part.doAuthAdd hasks room (Part.doAuthAdd_refused (parsed hgood) hcheck)
    refine ⟨fun hbad => ?_, fun hgood hdup => refuse hgood (Part.authAddCheck_duplicate hdup), fun hgood hauth hrental =>
      ⟨fun hfull => refuse hgood (Part.authAddCheck_full hauth hrental hfull), fun hroom hkeyForm => ⟨fun hnone => ?_,
        fun k hkey => ⟨fun hin hmis => ?_, fun hst hheld => ?_⟩⟩⟩⟩
    · exact State.refuses Part.doAuthAdd hasks room (Part.doAuthAdd_bad
        (parseAuthAdd_bad hpay hn hform htgt hdue hpres hg hstart hstop hlen h256 hbad))
    · exact refuse hgood (Part.authAddCheck_noKey hauth hrental hroom (if_pos hkeyForm) hnone)
    · exact refuse hgood ((Part.authAddCheck_key hauth hrental hroom (if_pos hkeyForm) hkey).trans (if_pos ⟨hin, hmis⟩))
    · refine refuse hgood ((Part.authAddCheck_key hauth hrental hroom (if_pos hkeyForm) hkey).trans
        ((if_neg ?_).trans (if_pos (Option.isSome_iff_ne_none.2 hheld))))
      rintro ⟨hin, hmis⟩
      exact hst.elim hin hmis
  · intro s f rest tag a hasks hpay hnum hn hdue hfrom hgrace huntil hcode hst horigin hattempts hauth hrental hfull room p
    have parsed (form tgt : Nat) (ht : (if form = 0 then .key tgt else .cls tgt) = a.target)
        (htgt : form = 0 ∧ tgt ≤ 1023 ∨ form = 1 ∧ tgt ≤ 15)
        (hpay : f.payload = tag :: (beBytes 4 a.rental ++ (beBytes 1 form ++ (beBytes 2 tgt ++ (beBytes 3 a.due
          ++ (beBytes 1 a.presence ++ (beBytes 1 (a.grace.getD 0) ++ (beBytes 3 a.validFrom ++ (beBytes 3 (a.validUntil.getD 0)
          ++ (beBytes 1 (a.code.getD []).length ++ (a.code.getD []).flatMap (beBytes 1))))))))))) :
        parseAuthAdd f.payload = some { a with attempts := 0, origin := 0 } := by
      have good := authGood_self hnum hgrace huntil hcode form tgt htgt
      have graceByte : a.grace.getD 0 < 256 := by
        cases hg : a.grace with
        | none => decide
        | some g => have := hgrace g hg; simp only [Option.getD_some]; omega
      have untilField : a.validUntil.getD 0 ≤ 16777215 := by
        cases hv : a.validUntil with
        | none => decide
        | some v => exact (huntil v hv).2
      obtain ⟨-, -, -, -, digits, -⟩ := id good
      rw [parseAuthAdd_good hpay hn (by omega) (by omega) hdue a.presence_bits.1 graceByte hfrom untilField (by omega) good,
        authNamed_self hcode form tgt ht hst]
    have entered : ({ ({ a with attempts := 0, origin := 0 } : Auth) with attempts := p.policy.attempts, origin := f.origin }
        : Auth) = a := by
      rw [show p.policy.attempts = a.attempts from hattempts.symm, ← horigin]
    refine ⟨fun c ht hc => ?_, fun h k ht hh hkey hhold hkst => ?_⟩
    · have answer := Part.doAuthAdd_enters (p := p) (parsed 1 c ht.symm (.inr ⟨rfl, hc⟩) (hpay.trans (by rw [ht]; rfl)))
        (Part.authAddCheck_cls hauth hrental hfull ht)
      have enters : p.authEnter { a with attempts := 0, origin := 0 } f.origin = { p with auths := p.auths ++ [a] } := by
        unfold Part.authEnter
        rw [entered]
        unfold Part.assignKey
        dsimp only
        rw [ht]
      rw [enters] at answer
      exact State.replies Part.doAuthAdd hasks answer rfl room
    · have check := Part.authAddCheck_key (p := p) (a := { a with attempts := 0, origin := 0 }) hauth hrental hfull ht hkey
      rw [if_neg (by rintro ⟨hin, hmis⟩; exact hkst.elim hin hmis), hhold, if_neg nofun] at check
      have answer := Part.doAuthAdd_enters (p := p) (parsed 0 h ht.symm (.inl ⟨rfl, hh⟩) (hpay.trans (by rw [ht]; rfl))) check
      have enters : p.authEnter { a with attempts := 0, origin := 0 } f.origin
          = ({ p with auths := p.auths ++ [a] } : Part).setKey h { k with state := .assigned } := by
        unfold Part.authEnter
        rw [entered]
        unfold Part.assignKey
        dsimp only
        rw [ht]
        dsimp only
        rw [show Table.look p.keys h = some k from hkey]
      rw [enters] at answer
      exact State.replies Part.doAuthAdd hasks answer (Part.setKey_unlit _ _ _) room

end Sys2Proof.Machine
end

section
/-! PROOFS. How authorizations go: AUTH_EXPIRY (R32) and AUTH_DELETE (R30). -/

namespace Sys2Proof.Machine
open Sys2Proof

/-! ## Lists of distinct records -/

/-- Of distinct records, the others than one. -/
theorem filter_others {α : Type} (f : α → Nat) {pre post : List α} {a : α} (h : ((pre ++ a :: post).map f).Nodup) :
    (pre ++ a :: post).filter (fun x => f x != f a) = pre ++ post := by
  rw [List.map_append, List.map_cons, List.nodup_append, List.nodup_cons] at h
  obtain ⟨-, ⟨hpost, -⟩, hpre⟩ := h
  have others {l : List α} (hl : ∀ x ∈ l, f x ≠ f a) : l.filter (fun x => f x != f a) = l :=
    List.filter_eq_self.2 fun x hx => by simpa using hl x hx
  rw [List.filter_append, List.filter_cons_of_neg (by simp), others, others]
  · exact fun x hx e => hpost (e ▸ List.mem_map_of_mem hx)
  · exact fun x hx e => hpre _ (List.mem_map_of_mem hx) _ (List.mem_cons_self ..) e

/-! ## What goes with an authorization -/

/-- A named key in ASSIGNED is restored: at most its record is written. -/
theorem Part.restoreTarget_touch (p : Part) (t : Target) : ∃ keys ks,
    p.restoreTarget t = ({ p with keys := keys } : Part).touch ks := by
  have same : p = ({ p with keys := p.keys } : Part).touch [] := by unfold Part.touch; rw [List.append_nil]
  unfold Part.restoreTarget
  cases t with
  | cls c => exact ⟨_, _, same⟩
  | key h =>
    dsimp only
    split
    · split
      · rename_i k _ _
        obtain ⟨ks, hks⟩ := p.setKey_touch h k.restored
        exact ⟨_, ks, hks⟩
      · exact ⟨_, _, same⟩
    · exact ⟨_, _, same⟩

theorem Part.restoreTarget_assigned {p : Part} {h loc : Nat} {k : KeyRec} (hk : Table.look p.keys h = some k)
    (hst : k.state = .assigned) (hloc : k.loc = some loc) : ∃ ks, p.restoreTarget (.key h)
      = ({ p with keys := Table.put p.keys h { k with
          state := if k.home = none ∨ k.home = some loc then .inn else .misplaced } } : Part).touch ks := by
  have restored : k.restored = { k with state := if k.home = none ∨ k.home = some loc then .inn else .misplaced } := by
    unfold KeyRec.restored KeyRec.stateAt
    rw [hloc]
    simp
  obtain ⟨ks, hks⟩ := p.setKey_touch h k.restored
  refine ⟨ks, ?_⟩
  unfold Part.restoreTarget
  dsimp only
  rw [hk]
  dsimp only
  rw [if_pos hst, hks, restored]

/-- A request that waits for the number ends, with its report or its mark; nothing else changes. -/
theorem Part.endQueued_leaves (p : Part) (n : Nat) (r : Result) : ∃ waitQ link,
    p.endQueued n r = { p with waitQ := waitQ, link := link } := by
  unfold Part.endQueued
  split
  · unfold Part.endEntry
    dsimp only
    split
    · exact ⟨_, _, rfl⟩
    · exact ⟨_, _, rfl⟩
  · exact ⟨_, _, rfl⟩

theorem Part.endQueued_none {p : Part} {n : Nat} (h : ∀ w ∈ p.waitQ, w.ended = none → w.req.subject ≠ .rental n) (r : Result) :
    p.endQueued n r = p := by
  have live : p.liveFor n = none := List.find?_eq_none.2 fun w hw is => by
    rw [Bool.and_eq_true, beq_iff_eq, Option.isNone_iff_eq_none] at is
    exact h w hw is.1 is.2
  unfold Part.endQueued
  rw [live]

/-- The oldest live request for the number leaves the queue with its report, where there is room (R39). -/
theorem Part.endQueued_found {p : Part} {n : Nat} {ahead behind : List WaitEntry} {w : WaitEntry}
    (hq : p.waitQ = ahead ++ w :: behind) (ids : (p.waitQ.map (·.id)).Nodup) (hlive : w.ended = none)
    (hsub : w.req.subject = .rental n) (first : ∀ x ∈ ahead, x.ended = none → x.req.subject ≠ .rental n)
    (room : p.essRoom = true) (r : Result) :
    p.endQueued n r = { p.queued (failedReport w.req none none r) with waitQ := ahead ++ behind } := by
  have live : p.liveFor n = some w := by
    unfold Part.liveFor
    rw [hq, List.find?_append, List.find?_eq_none.2, Option.none_or, List.find?_cons_of_pos (by simp [hlive, hsub])]
    intro x hx is
    rw [Bool.and_eq_true, beq_iff_eq, Option.isNone_iff_eq_none] at is
    exact first x hx is.1 is.2
  have others := filter_others (fun x : WaitEntry => x.id) (hq ▸ ids)
  unfold Part.endQueued
  rw [live]
  unfold Part.endEntry
  dsimp only
  rw [if_pos room, hq, others]
  rfl

/-- RELEASE_FAILED of a request for a rental that never started (R205). -/
theorem failedReport_rental {q : RelReq} {n : Nat} (h : q.subject = .rental n) (r : Result) : failedReport q none none r
    = ⟨.releaseFailed, q.origin, [BitVec.ofNat 8 q.tag, BitVec.ofNat 8 q.kind.code] ++ beBytes 4 n
      ++ [0xFF#8, 0xFF#8] ++ beBytes 2 0 ++ beBytes 4 0 ++ [BitVec.ofNat 8 r.code]⟩ := by
  unfold failedReport
  rw [h, beBytes_one, beBytes_one, beBytes_one]
  rfl

/-! ## AUTH_EXPIRY (R32) -/

/-- An authorization stays at a tick that carries minute m. -/
def Auth.stays (m : Nat) (a : Auth) : Bool := a.state == .active || !a.validUntil.any (fun v => decide (v < m))

theorem Auth.stays_iff (m : Nat) (a : Auth) :
    a.stays m = true ↔ a.state = .active ∨ ∀ v, a.validUntil = some v → m ≤ v := by
  unfold Auth.stays
  cases a.validUntil <;> simp

theorem Part.auth_unique {p : Part} (ids : (p.auths.map (·.rental)).Nodup) {a : Auth} (ha : a ∈ p.auths) :
    p.auth a.rental = some a := by
  cases find : p.auth a.rental with
  | none => exact absurd (beq_self_eq_true a.rental) (List.find?_eq_none.1 find a ha)
  | some x =>
    have same : x.rental = a.rental := by simpa using List.find?_some find
    rw [List.inj_on_of_nodup_map ids (List.mem_of_find?_eq_some find) ha same]

theorem Part.authExpire_stays {p : Part} {m n : Nat} (h : ∀ a, p.auth n = some a → a.stays m = true) :
    p.authExpire m n = p := by
  unfold Part.authExpire
  split
  · rfl
  · rename_i a ha
    refine if_pos ?_
    have stays := h a ha
    unfold Auth.stays at stays
    unfold Auth.expired
    rw [Bool.or_eq_true, beq_iff_eq, Bool.not_eq_true'] at stays
    exact stays.imp_right fun no => by rw [no]; nofun

theorem Part.authExpire_expires {p : Part} {m n : Nat} {a : Auth} (ha : p.auth n = some a) (h : a.stays m = false) :
    p.authExpire m n = ((((p.delAuth n).restoreTarget a.target).remove .lockout (.rental n)).endQueued n .expired).offerOrd
      a.expiredReport := by
  unfold Part.authExpire
  rw [ha]
  refine if_neg fun stays => ?_
  unfold Auth.stays at h
  unfold Auth.expired at stays
  rw [Bool.or_eq_false_iff, Bool.not_eq_false', beq_eq_false_iff_ne] at h
  exact stays.elim h.1 fun no => no h.2

/-- Of the authorizations one that does not stay goes; of the rest of the part some things stand. -/
theorem Part.authExpire_leaves {p : Part} (ids : (p.auths.map (·.rental)).Nodup) (m n : Nat) :
    (p.authExpire m n).auths = p.auths.filter (fun a => a.rental != n || a.stays m)
      ∧ (p.authExpire m n).tickRel = p.tickRel ∧ (p.authExpire m n).rentals = p.rentals
      ∧ (p.authExpire m n).ctxs = p.ctxs ∧ (p.authExpire m n).clock = p.clock := by
  cases ha : p.auth n with
  | none =>
    rw [Part.authExpire_stays (by rw [ha]; nofun)]
    refine ⟨(List.filter_eq_self.2 fun a hmem => ?_).symm, rfl, rfl, rfl, rfl⟩
    have : a.rental ≠ n := fun e => List.find?_eq_none.1 ha a hmem (by simpa using e)
    simp [this]
  | some a =>
    have number : a.rental = n := by simpa using List.find?_some ha
    cases hst : a.stays m with
    | true =>
      rw [Part.authExpire_stays (by rw [ha]; rintro x hx; cases hx; exact hst)]
      refine ⟨(List.filter_eq_self.2 fun x hmem => ?_).symm, rfl, rfl, rfl, rfl⟩
      by_cases hx : x.rental = n
      · have := Part.auth_unique ids hmem
        rw [hx, ha] at this
        cases this
        simp [hst]
      · simp [hx]
    | false =>
      rw [Part.authExpire_expires ha hst]
      have kept : p.auths.filter (fun x => x.rental != n) = p.auths.filter (fun x => x.rental != n || x.stays m) := by
        refine List.filter_congr fun x hmem => ?_
        by_cases hx : x.rental = n
        · have := Part.auth_unique ids hmem
          rw [hx, ha] at this
          cases this
          simp [hst]
        · simp [hx]
      obtain ⟨keys, ks, restored⟩ := (p.delAuth n).restoreTarget_touch a.target
      rw [restored]
      have removed := Part.remove_fields (({ p.delAuth n with keys := keys } : Part).touch ks) .lockout (.rental n)
      generalize (({ p.delAuth n with keys := keys } : Part).touch ks).remove .lockout (.rental n) = q at *
      obtain ⟨waitQ, link, ended⟩ := q.endQueued_leaves n .expired
      rw [ended]
      have offered := Part.offerOrd_fields { q with waitQ := waitQ, link := link } a.expiredReport
      generalize ({ q with waitQ := waitQ, link := link } : Part).offerOrd a.expiredReport = t at *
      obtain ⟨-, -, -, -, -, -, -, -, -, -, auths, ctxs, -, -, -, -, -, clock, -, -, rentals, -, tickRel, -⟩ := offered
      obtain ⟨-, -, -, -, -, -, -, -, -, -, qauths, qctxs, -, -, -, -, -, qclock, -, -, qrentals, -, qtickRel, -⟩ := removed
      exact ⟨(auths.trans qauths).trans kept, tickRel.trans qtickRel, rentals.trans qrentals, ctxs.trans qctxs,
        clock.trans qclock⟩

theorem Part.authExpires_leave (m : Nat) (ns : List Nat) {p : Part} (ids : (p.auths.map (·.rental)).Nodup) :
    (ns.foldl (Part.authExpire m) p).auths = p.auths.filter (fun a => !ns.contains a.rental || a.stays m)
      ∧ (ns.foldl (Part.authExpire m) p).tickRel = p.tickRel ∧ (ns.foldl (Part.authExpire m) p).rentals = p.rentals
      ∧ (ns.foldl (Part.authExpire m) p).ctxs = p.ctxs ∧ (ns.foldl (Part.authExpire m) p).clock = p.clock := by
  induction ns generalizing p with
  | nil => exact ⟨(List.filter_eq_self.2 (by simp)).symm, rfl, rfl, rfl, rfl⟩
  | cons n r ih =>
    obtain ⟨auths, tickRel, rentals, ctxs, clock⟩ := Part.authExpire_leaves ids m n
    have rest := ih (p := p.authExpire m n) (by
      rw [auths]
      exact ids.sublist (List.filter_sublist.map _))
    rw [List.foldl_cons]
    obtain ⟨auths', tickRel', rentals', ctxs', clock'⟩ := rest
    refine ⟨?_, tickRel'.trans tickRel, rentals'.trans rentals, ctxs'.trans ctxs, clock'.trans clock⟩
    rw [auths', auths, List.filter_filter]
    refine List.filter_congr fun a _ => ?_
    by_cases hn : a.rental = n <;> cases a.stays m <;> simp [hn]

/-- At a tick at which every authorization stays nothing happens. -/
theorem Part.authExpires_stay {m : Nat} {p : Part} (ns : List Nat)
    (h : ∀ n ∈ ns, ∀ a ∈ p.auths, a.rental = n → a.stays m = true) : ns.foldl (Part.authExpire m) p = p := by
  induction ns with
  | nil => rfl
  | cons n r ih =>
    rw [List.foldl_cons, Part.authExpire_stays, ih fun x hx => h x (List.mem_cons_of_mem _ hx)]
    exact fun a ha => h n (List.mem_cons_self ..) a (List.mem_of_find?_eq_some ha) (by simpa using List.find?_some ha)

/-- A tick at which one authorization alone does not stay. -/
theorem Part.authExpireAll_one {m : Nat} {p : Part} {pre post : List Auth} {a : Auth} (hp : p.auths = pre ++ a :: post)
    (ids : (p.auths.map (·.rental)).Nodup) (ha : a.stays m = false) (others : ∀ x ∈ pre ++ post, x.stays m = true) :
    p.authExpireAll m = p.authExpire m a.rental := by
  have gone := (Part.authExpire_leaves ids m a.rental).1
  have distinct := ids
  rw [hp, List.map_append, List.map_cons, List.nodup_append, List.nodup_cons] at distinct
  obtain ⟨-, -, hpre⟩ := distinct
  unfold Part.authExpireAll
  rw [hp, List.map_append, List.map_cons, List.foldl_append, List.foldl_cons, Part.authExpires_stay (pre.map (·.rental)),
    Part.authExpires_stay (post.map (·.rental))]
  · intro n _ x hx _
    rw [gone, List.mem_filter, hp] at hx
    obtain ⟨hmem, hkeep⟩ := hx
    rw [Bool.or_eq_true] at hkeep
    refine hkeep.elim (fun ne => others x ?_) id
    rcases List.mem_append.1 hmem with hx | hx
    · exact List.mem_append_left _ hx
    · rcases List.mem_cons.1 hx with rfl | hx
      · simp at ne
      · exact List.mem_append_right _ hx
  · intro n hn x hx e
    rw [hp] at hx
    refine others x ?_
    rcases List.mem_append.1 hx with hx | hx
    · exact List.mem_append_left _ hx
    · rcases List.mem_cons.1 hx with rfl | hx
      · exact absurd e.symm (hpre n hn _ (List.mem_cons_self ..))
      · exact List.mem_append_right _ hx

/-- What is left of the part once the authorization is gone, its key restored and its LOCKOUT entry removed. -/
theorem Part.authGone {p : Part} {n : Nat} {t : Target} {auths : List Auth} {keys : Table KeyRec} {ks : List Nat}
    (hauths : (p.delAuth n).auths = auths)
    (hrestored : (p.delAuth n).restoreTarget t = ({ p.delAuth n with keys := keys } : Part).touch ks) :
    ((p.delAuth n).restoreTarget t).remove .lockout (.rental n)
      = (({ p with auths := auths, keys := keys } : Part).remove .lockout (.rental n)).touch ks := by
  rw [hrestored, Part.remove_touch, ← hauths]
  rfl

/-- The target of AUTH_EXPIRED, as in AUTH_ADD (R32). -/
def Target.bytes : Target → List Byte
  | .key h => 0#8 :: beBytes 2 h
  | .cls c => 1#8 :: beBytes 2 c

theorem Auth.expiredReport_eq (a : Auth) :
    a.expiredReport = ⟨.authExpired, a.origin, beBytes 4 a.rental ++ a.target.bytes⟩ := by
  unfold Auth.expiredReport
  cases a.target <;> rfl

section Ends
variable {q x : Part} {ks : List Nat} {n : Nat} (hx : x = q.touch ks)
include hx

/-- With no request waiting for the number, AUTH_EXPIRED enters. -/
theorem Part.endsNone_unlit (hnone : ∀ w ∈ q.waitQ, w.ended = none → w.req.subject ≠ .rental n) (r : Result) (m : Report)
    (room : q.link.reports.length < 48) : ((x.endQueued n r).offerOrd m).unlit = (q.queued m).unlit := by
  rw [hx, Part.endQueued_none (by exact hnone), Part.offerOrd_room _ (by exact room)]
  rfl

variable {ahead behind : List WaitEntry} {w : WaitEntry} (hq : q.waitQ = ahead ++ w :: behind)
  (ids : (q.waitQ.map (·.id)).Nodup) (hlive : w.ended = none) (hsub : w.req.subject = .rental n)
  (first : ∀ x ∈ ahead, x.ended = none → x.req.subject ≠ .rental n) (room : q.essRoom = true)
include hq ids hlive hsub first room

/-- A request that waits for the number ends first. -/
theorem Part.endsFound_unlit (r : Result) : (x.endQueued n r).unlit
    = (({ q with waitQ := ahead ++ behind } : Part).queued (failedReport w.req none none r)).unlit := by
  rw [hx, Part.endQueued_found (by exact hq) (by exact ids) hlive hsub first (by exact room)]
  rfl

theorem Part.endsFound_offered (r : Result) (m : Report) (h47 : q.link.reports.length < 47) :
    ((x.endQueued n r).offerOrd m).unlit
      = ((({ q with waitQ := ahead ++ behind } : Part).queued (failedReport w.req none none r)).queued m).unlit := by
  rw [hx, Part.endQueued_found (by exact hq) (by exact ids) hlive hsub first (by exact room), Part.offerOrd_room]
  · rfl
  · show (q.link.reports ++ [_]).length < 48
    rw [List.length_append, List.length_singleton]
    omega

end Ends

/-! ## AUTH_DELETE (R30) -/

section AuthDelete
variable {p : Part} {f : Frame} {n : Nat} {a : Auth} (hparse : parseNum 4 f.payload = some n) (ha : p.auth n = some a)
include hparse ha

theorem Part.doAuthDelete_active (hst : a.state = .active) : p.doAuthDelete f = p.refuse .activeRelease := by
  unfold Part.doAuthDelete
  rw [hparse]
  dsimp only
  rw [ha]
  exact if_pos hst

theorem Part.doAuthDelete_deletes (hst : a.state ≠ .active) : p.doAuthDelete f
    = ((((p.delAuth n).restoreTarget a.target).remove .lockout (.rental n)).endQueued n .notFound).answer .ok [] := by
  unfold Part.doAuthDelete
  rw [hparse]
  dsimp only
  rw [ha]
  exact if_neg hst

end AuthDelete

theorem Part.remove_waitQ (p : Part) (k : AlertKind) (s : Subject) : (p.remove k s).waitQ = p.waitQ :=
  (congrArg Part.waitQ (Part.remove_restA p k s) :)

/-- Settles O29. -/
theorem authorizationsAreRemoved : Obligations.AuthorizationsAreRemoved := by
  unfold Obligations.AuthorizationsAreRemoved
  intro failed
  have failed_eq (w : WaitEntry) (n : Nat) (hsub : w.req.subject = .rental n) (r : Result) :
      failedReport w.req none none r = failed w n (BitVec.ofNat 8 r.code) := failedReport_rental hsub r
  refine ⟨fun s m ms hticks ids => ?_, ?_, ?_⟩
  · have tick : s.part.relTick = ({ s.part with tickRel := ms } : Part).authExpireAll m := by
      unfold Part.relTick
      rw [hticks]
    obtain ⟨u, hexec, -, hunlit⟩ := State.becomes_of_eq (s := s) tick
    obtain ⟨auths, tickRel, rentals, ctxs, clock⟩ :=
      Part.authExpires_leave m (s.part.auths.map (·.rental)) (p := { s.part with tickRel := ms }) ids
    refine ⟨u, hexec, (congrArg Part.tickRel hunlit :).trans tickRel, (congrArg Part.auths hunlit :).trans (auths.trans ?_),
      (congrArg Part.rentals hunlit :).trans rentals, (congrArg Part.ctxs hunlit :).trans ctxs,
      (congrArg Part.clock hunlit :).trans clock⟩
    refine List.filter_congr fun a ha => ?_
    have listed : (s.part.auths.map (·.rental)).contains a.rental = true :=
      List.contains_iff_mem.2 (List.mem_map_of_mem ha)
    rw [listed]
    rfl
  · intro s m v ms pre post a hticks hauths ids hst hv hvm hothers gone expires
    have goes : a.stays m = false := by
      rw [← Bool.not_eq_true, Auth.stays_iff]
      rintro (h | h)
      · exact hst h
      · have := h v hv
        omega
    have member : a ∈ s.part.auths := by rw [hauths]; simp
    have tick : s.part.relTick = (((({ s.part with tickRel := ms } : Part).delAuth a.rental).restoreTarget a.target).remove
        .lockout (.rental a.rental) |>.endQueued a.rental .expired).offerOrd a.expiredReport := by
      unfold Part.relTick
      rw [hticks]
      exact (Part.authExpireAll_one (p := { s.part with tickRel := ms }) hauths ids goes
        fun x hx => (Auth.stays_iff m x).2 (hothers x hx)).trans
        (Part.authExpire_expires (Part.auth_unique (p := { s.part with tickRel := ms }) ids member) goes)
    have left : (({ s.part with tickRel := ms } : Part).delAuth a.rental).auths = pre ++ post := by
      show s.part.auths.filter (fun x => x.rental != a.rental) = pre ++ post
      rw [hauths]
      exact filter_others (fun x : Auth => x.rental) (hauths ▸ ids)
    have ends (keys : Table KeyRec) (ks : List Nat)
        (hrestored : (({ s.part with tickRel := ms } : Part).delAuth a.rental).restoreTarget a.target
          = ({ ({ s.part with tickRel := ms } : Part).delAuth a.rental with keys := keys } : Part).touch ks) :
        expires (gone keys) a.target.bytes := by
      have left' := Part.authGone left hrestored
      have queue : (gone keys).waitQ = s.part.waitQ := Part.remove_waitQ _ _ _
      rw [left', Auth.expiredReport_eq] at tick
      refine ⟨fun hnone h48 => ?_, fun ahead w behind hq hids hlive hsub hfirst hroom h47 => ?_⟩
      · refine State.becomes_of_unlit (q := s.part.relTick) ?_
        rw [tick]
        exact Part.endsNone_unlit (q := gone keys) rfl (by rw [queue]; exact hnone) _ _ h48
      · refine State.becomes_of_unlit (q := s.part.relTick) ?_
        rw [tick]
        have offered := Part.endsFound_offered (q := gone keys) (ks := ks) rfl (queue.trans hq) (by rw [queue]; exact hids)
          hlive hsub hfirst hroom .expired ⟨.authExpired, a.origin, beBytes 4 a.rental ++ a.target.bytes⟩ h47
        rw [failed_eq w _ hsub] at offered
        exact offered
    refine ⟨fun c ht => ?_, fun h k loc ht hkey hkst hloc => ?_⟩
    · have := ends s.part.keys [] (by
        rw [ht]
        unfold Part.touch
        rw [List.append_nil]
        rfl)
      rw [ht] at this
      exact this
    · obtain ⟨ks, hks⟩ := Part.restoreTarget_assigned (p := ({ s.part with tickRel := ms } : Part).delAuth a.rental) hkey hkst hloc
      have := ends _ ks (by rw [ht]; exact hks)
      rw [ht] at this
      exact this
  · intro s f rest tag n a hasks hpay hn ha room
    have hparse : parseNum 4 f.payload = some n := hpay ▸ parseNum_payload tag 4 n hn
    refine ⟨fun hst => ?_, ?_⟩
    · exact State.refuses Part.doAuthDelete hasks room (Part.doAuthDelete_active (p := s.part.asked f rest) hparse ha hst)
    · intro hst gone deleted
      have deletes := Part.doAuthDelete_deletes (p := s.part.asked f rest) hparse ha hst
      have ends (keys : Table KeyRec) (ks : List Nat)
          (hrestored : ((s.part.asked f rest).delAuth n).restoreTarget a.target
            = ({ (s.part.asked f rest).delAuth n with keys := keys } : Part).touch ks) : deleted (gone keys) := by
        have left := Part.authGone (p := s.part.asked f rest) rfl hrestored
        have queue : (gone keys).waitQ = s.part.waitQ := Part.remove_waitQ _ _ _
        rw [left] at deletes
        refine ⟨fun hnone hroom => ?_, fun ahead w behind hq hids hlive hsub hfirst hroom h63 => ?_⟩
        · refine State.replies Part.doAuthDelete hasks deletes ?_ hroom
          rw [Part.endQueued_none (p := Part.touch _ ks) (by
            show ∀ w ∈ (gone keys).waitQ, w.ended = none → w.req.subject ≠ .rental n
            rw [queue]
            exact fun w hw _ => hnone w hw)]
          rfl
        · refine State.replies Part.doAuthDelete hasks deletes ?_ ?_
          · have found := Part.endsFound_unlit (q := gone keys) (ks := ks) rfl (queue.trans hq) (by rw [queue]; exact hids)
              hlive hsub hfirst hroom .notFound
            rw [failed_eq w _ hsub] at found
            exact found
          · obtain ⟨-, hwait⟩ := ((gone keys).essRoom_iff).1 hroom
            refine (Part.essRoom_iff _).2 ⟨?_, hwait⟩
            show ((gone keys).link.reports ++ [_]).length < 64
            rw [List.length_append, List.length_singleton]
            omega
      refine ⟨fun c ht => ends s.part.keys [] ?_, fun h k loc ht hkey hkst hloc => ?_⟩
      · rw [ht]
        unfold Part.touch
        rw [List.append_nil]
        rfl
      · obtain ⟨ks, hks⟩ := Part.restoreTarget_assigned (p := (s.part.asked f rest).delAuth n) hkey hkst hloc
        exact ends _ ks (by rw [ht]; exact hks)

end Sys2Proof.Machine
end

section
/-! PROOFS. The key choice (R35, R36). -/

namespace Sys2Proof.Machine
open Sys2Proof

/-! ## The earliest of a list of keys (R36) -/

theorem keyBefore_iff (a b : Nat × KeyRec) : keyBefore a b = true ↔ a.2.inSince.getD 0 < b.2.inSince.getD 0
    ∨ a.2.inSince.getD 0 = b.2.inSince.getD 0 ∧ a.2.loc.getD 0 < b.2.loc.getD 0 := by
  simp [keyBefore]

/-- The better of the best so far and one more key. -/
def betterKey (b : Option (Nat × KeyRec)) (k : Nat × KeyRec) : Option (Nat × KeyRec) :=
  match b with
  | none => some k
  | some x => if keyBefore k x then some k else some x

theorem bestKey_eq (ks : List (Nat × KeyRec)) : bestKey ks = ks.foldl betterKey none := rfl

/-- The best of a key and a list is one of them, and none of them comes before it. -/
theorem foldl_betterKey (ks : List (Nat × KeyRec)) (x : Nat × KeyRec) : ∃ b, ks.foldl betterKey (some x) = some b
    ∧ b ∈ x :: ks ∧ ∀ e ∈ x :: ks, ¬ keyBefore e b = true := by
  induction ks generalizing x with
  | nil => exact ⟨x, rfl, List.mem_singleton.2 rfl, fun e he => by
      rw [List.mem_singleton.1 he, keyBefore_iff]
      omega⟩
  | cons k r ih =>
    rw [List.foldl_cons]
    by_cases hk : keyBefore k x = true
    · obtain ⟨b, hb, hmem, hleast⟩ := ih k
      refine ⟨b, by rw [show betterKey (some x) k = some k from if_pos hk, hb], List.mem_cons_of_mem _ hmem, fun e he => ?_⟩
      rcases List.mem_cons.1 he with rfl | he
      · have := hleast k (List.mem_cons_self ..)
        rw [keyBefore_iff] at this hk ⊢
        omega
      · exact hleast e he
    · obtain ⟨b, hb, hmem, hleast⟩ := ih x
      refine ⟨b, by rw [show betterKey (some x) k = some x from if_neg hk, hb], ?_, fun e he => ?_⟩
      · rcases List.mem_cons.1 hmem with rfl | hmem
        · exact List.mem_cons_self ..
        · exact List.mem_cons_of_mem _ (List.mem_cons_of_mem _ hmem)
      · rcases List.mem_cons.1 he with rfl | he
        · exact hleast _ (List.mem_cons_self ..)
        · rcases List.mem_cons.1 he with rfl | he
          · have := hleast x (List.mem_cons_self ..)
            rw [keyBefore_iff] at this hk ⊢
            omega
          · exact hleast e (List.mem_cons_of_mem _ he)

theorem bestKey_some {ks : List (Nat × KeyRec)} {b : Nat × KeyRec} (h : bestKey ks = some b) :
    b ∈ ks ∧ ∀ e ∈ ks, ¬ keyBefore e b = true := by
  cases ks with
  | nil => cases h
  | cons x r =>
    obtain ⟨y, hy, hmem, hleast⟩ := foldl_betterKey r x
    cases hy.symm.trans h
    exact ⟨hmem, hleast⟩

theorem bestKey_exists {ks : List (Nat × KeyRec)} {e : Nat × KeyRec} (he : e ∈ ks) : ∃ b, bestKey ks = some b := by
  cases ks with
  | nil => cases he
  | cons x r =>
    obtain ⟨y, hy, -⟩ := foldl_betterKey r x
    exact ⟨y, hy⟩

/-! ## The conditions on a key (R35) -/

section Conditions
variable (p : Part) (k : KeyRec)

/-- The slot of a key has no release and nothing settling. -/
def Part.SlotQuiet : Prop := ∀ r, Table.look p.rows (k.loc.getD 0) = some r → r.ctx = none ∧ r.settle = none

/-- The module of a key's slot is served. -/
def Part.SlotServed : Prop :=
  p.moduleActive (p.slotEntry (k.loc.getD 0)).chan (p.slotEntry (k.loc.getD 0)).addr = true

/-- The group of a key's slot permits the role. -/
def Part.SlotPermits (role : Role) : Prop := (p.group (p.slotEntry (k.loc.getD 0)).group).permits p.zone role = true

theorem Part.slotBusy_iff : ((((p.row (k.loc.getD 0)).getD SlotRow.fresh).ctx.isSome
    || ((p.row (k.loc.getD 0)).getD SlotRow.fresh).settle.isSome) = true) ↔ ¬ p.SlotQuiet k := by
  have quiet : p.SlotQuiet k ↔ ((p.row (k.loc.getD 0)).getD SlotRow.fresh).ctx = none
      ∧ ((p.row (k.loc.getD 0)).getD SlotRow.fresh).settle = none := by
    unfold Part.SlotQuiet
    show (∀ r, p.row (k.loc.getD 0) = some r → _) ↔ _
    cases p.row (k.loc.getD 0) with
    | none => exact iff_of_true nofun ⟨rfl, rfl⟩
    | some r => exact ⟨fun h => h r rfl, fun h x hx => by cases hx; exact h⟩
  rw [quiet, Bool.or_eq_true, Option.isSome_iff_ne_none, Option.isSome_iff_ne_none, not_and_or]

variable {p k} {role : Role}

theorem Part.keyFails_held (h : k.hold ≠ none) : p.keyFails k role = some .held := by
  unfold Part.keyFails
  exact if_pos (Option.isSome_iff_ne_none.2 h)

variable (hhold : k.hold = none)
include hhold

theorem Part.keyFails_busy (h : ¬ p.SlotQuiet k) : p.keyFails k role = some .slotBusy := by
  unfold Part.keyFails
  dsimp only
  rw [if_neg (by rw [hhold]; nofun), if_pos ((p.slotBusy_iff k).2 h)]

variable (hquiet : p.SlotQuiet k)
include hquiet

theorem Part.keyFails_down (h : ¬ p.SlotServed k) : p.keyFails k role = some .moduleDown := by
  unfold Part.keyFails
  dsimp only
  rw [if_neg (by rw [hhold]; nofun), if_neg (fun busy => (p.slotBusy_iff k).1 busy hquiet),
    if_pos (by rw [Bool.not_eq_true', ← Bool.not_eq_true]; exact h)]

variable (hserved : p.SlotServed k)
include hserved

theorem Part.keyFails_last : p.keyFails k role
    = if (p.group (p.slotEntry (k.loc.getD 0)).group).permits p.zone role = true then none else some .roleZone := by
  unfold Part.keyFails
  dsimp only
  rw [if_neg (by rw [hhold]; nofun), if_neg (fun busy => (p.slotBusy_iff k).1 busy hquiet),
    if_neg (by rw [Bool.not_eq_true', ← Bool.not_eq_true]; exact fun h => h hserved)]
  cases (p.group (p.slotEntry (k.loc.getD 0)).group).permits p.zone role <;> rfl

theorem Part.keyFails_zone (h : ¬ p.SlotPermits k role) : p.keyFails k role = some .roleZone :=
  (Part.keyFails_last hhold hquiet hserved).trans (if_neg h)

theorem Part.keyFails_none (h : p.SlotPermits k role) : p.keyFails k role = none :=
  (Part.keyFails_last hhold hquiet hserved).trans (if_pos h)

end Conditions

/-- A key meets the first three conditions. -/
def Part.Unbarred (p : Part) (k : KeyRec) : Prop := k.hold = none ∧ p.SlotQuiet k ∧ p.SlotServed k

theorem Part.keyFails_iff (p : Part) (k : KeyRec) (role : Role) :
    (p.keyFails k role = none ↔ p.Unbarred k ∧ p.SlotPermits k role)
      ∧ (p.keyFails k role = some .roleZone ↔ p.Unbarred k ∧ ¬ p.SlotPermits k role) := by
  by_cases hhold : k.hold = none
  · by_cases hquiet : p.SlotQuiet k
    · by_cases hserved : p.SlotServed k
      · by_cases hpermits : p.SlotPermits k role
        · rw [Part.keyFails_none hhold hquiet hserved hpermits]
          exact ⟨iff_of_true rfl ⟨⟨hhold, hquiet, hserved⟩, hpermits⟩, iff_of_false nofun fun h => h.2 hpermits⟩
        · rw [Part.keyFails_zone hhold hquiet hserved hpermits]
          exact ⟨iff_of_false nofun fun h => hpermits h.2, iff_of_true rfl ⟨⟨hhold, hquiet, hserved⟩, hpermits⟩⟩
      · rw [Part.keyFails_down hhold hquiet hserved]
        exact ⟨iff_of_false nofun fun h => hserved h.1.2.2, iff_of_false nofun fun h => hserved h.1.2.2⟩
    · rw [Part.keyFails_busy hhold hquiet]
      exact ⟨iff_of_false nofun fun h => hquiet h.1.2.1, iff_of_false nofun fun h => hquiet h.1.2.1⟩
  · rw [Part.keyFails_held hhold]
    exact ⟨iff_of_false nofun fun h => hhold h.1.1, iff_of_false nofun fun h => hhold h.1.1⟩

/-! ## The choice -/

/-- The keys of a class in IN or MISPLACED. -/
def Part.classKeys (p : Part) (c : Nat) : List (Nat × KeyRec) :=
  p.keys.filter (fun e => e.2.cls == c && (e.2.state == .inn || e.2.state == .misplaced))

theorem Part.mem_classKeys (p : Part) (c : Nat) (e : Nat × KeyRec) :
    e ∈ p.classKeys c ↔ e ∈ p.keys ∧ e.2.cls = c ∧ (e.2.state = .inn ∨ e.2.state = .misplaced) := by
  simp [Part.classKeys, List.mem_filter]

theorem Part.chooseKey_cls (p : Part) (c : Nat) (role : Role) : p.chooseKey (.cls c) role
    = match bestKey ((p.classKeys c).filter (fun e => (p.keyFails e.2 role).isNone)) with
      | some e => .ok e
      | none => if (p.classKeys c).any (fun e => p.keyFails e.2 role == some .roleZone) then .error .roleZone
        else .error .noKey := rfl

theorem Part.mem_meeting (p : Part) (c : Nat) (role : Role) (e : Nat × KeyRec) :
    e ∈ (p.classKeys c).filter (fun e => (p.keyFails e.2 role).isNone)
      ↔ e ∈ p.classKeys c ∧ p.Unbarred e.2 ∧ p.SlotPermits e.2 role := by
  rw [List.mem_filter, Option.isNone_iff_eq_none, (p.keyFails_iff e.2 role).1]

section Class
variable {p : Part} {c : Nat} {role : Role}

theorem Part.chooseKey_ok {b : Nat × KeyRec} (h : p.chooseKey (.cls c) role = .ok b) :
    (b ∈ p.classKeys c ∧ p.Unbarred b.2 ∧ p.SlotPermits b.2 role)
      ∧ ∀ e ∈ p.classKeys c, p.Unbarred e.2 → p.SlotPermits e.2 role → ¬ keyBefore e b = true := by
  rw [Part.chooseKey_cls] at h
  cases best : bestKey ((p.classKeys c).filter (fun e => (p.keyFails e.2 role).isNone)) with
  | none =>
    rw [best] at h
    dsimp only at h
    split at h <;> cases h
  | some x =>
    rw [best] at h
    cases h
    obtain ⟨hmem, hleast⟩ := bestKey_some best
    exact ⟨(p.mem_meeting c role b).1 hmem, fun e he hu hp => hleast e ((p.mem_meeting c role e).2 ⟨he, hu, hp⟩)⟩

theorem Part.chooseKey_chooses {e : Nat × KeyRec} (he : e ∈ p.classKeys c) (hu : p.Unbarred e.2)
    (hp : p.SlotPermits e.2 role) : ∃ b, p.chooseKey (.cls c) role = .ok b := by
  obtain ⟨b, hb⟩ := bestKey_exists ((p.mem_meeting c role e).2 ⟨he, hu, hp⟩)
  exact ⟨b, by rw [Part.chooseKey_cls, hb]⟩

/-- With no key that meets the conditions the reason is that of the last one failing alone, or NO_KEY. -/
theorem Part.chooseKey_error (h : ∀ e ∈ p.classKeys c, p.Unbarred e.2 → ¬ p.SlotPermits e.2 role) :
    ((∃ e ∈ p.classKeys c, p.Unbarred e.2) → p.chooseKey (.cls c) role = .error .roleZone)
      ∧ ((∀ e ∈ p.classKeys c, ¬ p.Unbarred e.2) → p.chooseKey (.cls c) role = .error .noKey) := by
  have none : bestKey ((p.classKeys c).filter (fun e => (p.keyFails e.2 role).isNone)) = none := by
    cases best : bestKey ((p.classKeys c).filter (fun e => (p.keyFails e.2 role).isNone)) with
    | none => rfl
    | some x =>
      obtain ⟨hx, hu, hp⟩ := (p.mem_meeting c role x).1 (bestKey_some best).1
      exact absurd hp (h x hx hu)
  rw [Part.chooseKey_cls, none]
  refine ⟨fun ⟨e, he, hu⟩ => if_pos ?_, fun hbarred => if_neg ?_⟩
  · rw [List.any_eq_true]
    exact ⟨e, he, beq_iff_eq.2 ((p.keyFails_iff e.2 role).2.2 ⟨hu, h e he hu⟩)⟩
  · rw [List.any_eq_true]
    rintro ⟨e, he, hz⟩
    exact hbarred e he ((p.keyFails_iff e.2 role).2.1 (beq_iff_eq.1 hz)).1

end Class

theorem Part.chooseKey_key {p : Part} {h : Nat} {k : KeyRec} (hk : Table.look p.keys h = some k) (role : Role) :
    (∀ r, p.keyFails k role = some r → p.chooseKey (.key h) role = .error r)
      ∧ (p.keyFails k role = none → p.chooseKey (.key h) role = .ok (h, k)) := by
  unfold Part.chooseKey
  dsimp only
  rw [hk]
  exact ⟨fun r hr => by dsimp only; rw [hr], fun hr => by dsimp only; rw [hr]⟩

/-- Settles O31. -/
theorem keyChoiceTakesTheEarliest : Obligations.KeyChoiceTakesTheEarliest := by
  unfold Obligations.KeyChoiceTakesTheEarliest
  intro p role entry quiet served permitted
  have key {c : Nat} (e : Nat × KeyRec) (h : e ∈ p.classKeys c) := (p.mem_classKeys c e).1 h
  refine ⟨?_, ?_, ?_⟩
  · intro c h k hok candidate
    obtain ⟨⟨hmem, ⟨hhold, hquiet, hserved⟩, hpermits⟩, hleast⟩ := Part.chooseKey_ok hok
    obtain ⟨hkeys, hcls, hst⟩ := key _ hmem
    refine ⟨⟨hkeys, hcls, hst, hhold, hquiet, hserved, hpermits⟩, ?_⟩
    rintro e ⟨ekeys, ecls, est, ehold, equiet, eserved, epermits⟩
    have least := hleast e ((p.mem_classKeys c e).2 ⟨ekeys, ecls, est⟩) ⟨ehold, equiet, eserved⟩ epermits
    rw [keyBefore_iff] at least
    dsimp only at least
    omega
  · intro c unbarred
    have split (e : Nat × KeyRec) : unbarred e ↔ e ∈ p.classKeys c ∧ p.Unbarred e.2 := by
      rw [p.mem_classKeys]
      exact ⟨fun ⟨h1, h2, h3, h4, h5, h6⟩ => ⟨⟨h1, h2, h3⟩, h4, h5, h6⟩, fun ⟨⟨h1, h2, h3⟩, h4, h5, h6⟩ => ⟨h1, h2, h3, h4, h5, h6⟩⟩
    refine ⟨fun ⟨e, he, hp⟩ => ?_, fun ⟨e, he⟩ hnone => ?_, fun hnone => ?_⟩
    · obtain ⟨hmem, hu⟩ := (split e).1 he
      obtain ⟨⟨h, k⟩, hb⟩ := Part.chooseKey_chooses hmem hu hp
      exact ⟨h, k, hb⟩
    · obtain ⟨hmem, hu⟩ := (split e).1 he
      exact (Part.chooseKey_error fun x hx hxu => hnone x ((split x).2 ⟨hx, hxu⟩)).1 ⟨e, hmem, hu⟩
    · exact (Part.chooseKey_error fun x hx hxu => absurd ((split x).2 ⟨hx, hxu⟩) (hnone x)).2
        fun x hx hxu => hnone x ((split x).2 ⟨hx, hxu⟩)
  · intro h k hk
    obtain ⟨fails, chosen⟩ := Part.chooseKey_key hk role
    exact ⟨fun hhold => fails _ (Part.keyFails_held hhold), fun hhold hquiet => fails _ (Part.keyFails_busy hhold hquiet),
      fun hhold hquiet hserved => fails _ (Part.keyFails_down hhold hquiet hserved),
      fun hhold hquiet hserved hp => fails _ (Part.keyFails_zone hhold hquiet hserved hp),
      fun hhold hquiet hserved hp => chosen (Part.keyFails_none hhold hquiet hserved hp)⟩

end Sys2Proof.Machine
end

section
/-! PROOFS. RELEASE and PICKUP: the checks in their order (R34, R37, R38), the start of a context (R43), the Release Wait Queue
(R39) and the wrong code (R34). -/

namespace Sys2Proof.Machine
open Sys2Proof

/-! ## The two requests as one -/

/-- The owner's answer to RELEASE or PICKUP. -/
def relOwner (kind : RelKind) : Part → Frame → Answer := if kind = .pickup then Part.doPickup else Part.doRelease

/-- The row of RELEASE or PICKUP. -/
def relRow (kind : RelKind) : Instr := if kind = .pickup then .pickup else .release

theorem exec_relRow (kind : RelKind) (s : State) :
    exec (relRow kind) s = .next { s with part := (s.part.requestRun (relRow kind) (relOwner kind)).lampRun } := by
  unfold relRow relOwner
  split <;> rfl

/-- A payload that is a RELEASE of rental number n, or a PICKUP of it with code ds. -/
def Reads (kind : RelKind) (bs : List Byte) (n : Nat) (ds : List Nat) : Prop :=
  kind = .release ∧ parseNum 4 bs = some n ∨ kind = .pickup ∧ parsePickup bs = some (n, ds)

theorem parsePickup_payload {bs : List Byte} {tag : Byte} {n : Nat} {ds : List Nat}
    (hbs : bs = tag :: (beBytes 4 n ++ (beBytes 1 ds.length ++ ds.flatMap (beBytes 1)))) (hn : n < 4294967296)
    (h1 : 1 ≤ ds.length) (h8 : ds.length ≤ 8) (hds : ∀ x ∈ ds, x ≤ 9) : parsePickup bs = some (n, ds) := by
  have digits : (ds.flatMap (beBytes 1)).length = ds.length := by rw [flatMap_beBytes_one, List.length_map]
  have hlen : bs.length = 6 + ds.length := by
    rw [hbs]
    simp only [List.length_cons, List.length_append, beBytes_length, digits]
    omega
  have number : field bs 1 4 = n := field_after [tag] _ rfl hn hbs
  have count : byteAt bs 5 = ds.length := field_after (tag :: beBytes 4 n) _ (by simp) (by omega) (by rw [hbs]; rfl)
  have rest : bs.drop 6 = ds.flatMap (beBytes 1) := by rw [hbs]; rfl
  unfold parsePickup
  dsimp only
  rw [number, count, rest, hlen, if_neg (by omega), parseDigits_digits hds]
  rfl

/-! ## What the checks read of the part as it was taken -/

theorem Part.asked_chooseKey (p : Part) (f : Frame) (rest : List Frame) (t : Target) (r : Role) :
    (p.asked f rest).chooseKey t r = p.chooseKey t r := rfl

theorem Part.inQueue_iff (p : Part) (s : RelSubject) : p.inQueue s = true ↔ ∃ w ∈ p.waitQ, w.req.subject = s := by
  simp [Part.inQueue]

/-! ## The checks (R37) -/

section Checks
variable {p : Part} {n : Nat}

theorem Part.relAuth_none (h : p.auth n = none) : p.relAuth n true = .error .notFound := by
  unfold Part.relAuth
  rw [h]

variable {a : Auth} (ha : p.auth n = some a)
include ha

theorem Part.relAuth_active (h : a.state = .active) : p.relAuth n true = .error .alreadyActive := by
  unfold Part.relAuth
  rw [ha]
  dsimp only
  rw [h]

theorem Part.relAuth_lockedOut (h : a.state = .lockedOut) : p.relAuth n true = .error .lockedOut := by
  unfold Part.relAuth
  rw [ha]
  dsimp only
  rw [h]

theorem Part.relAuth_queued (h : a.state = .waiting) (hq : ∃ w ∈ p.waitQ, w.req.subject = .rental n) :
    p.relAuth n true = .error .alreadyActive := by
  unfold Part.relAuth
  rw [ha]
  dsimp only
  rw [h]
  exact if_pos ((p.inQueue_iff _).2 hq)

theorem Part.relAuth_ok (h : a.state = .waiting) (hq : ∀ w ∈ p.waitQ, w.req.subject ≠ .rental n) :
    p.relAuth n true = .ok a := by
  unfold Part.relAuth
  rw [ha]
  dsimp only
  rw [h]
  exact if_neg fun queued => by
    obtain ⟨w, hw, hs⟩ := (p.inQueue_iff _).1 queued
    exact hq w hw hs

end Checks

section Grant
variable {p : Part} {a : Auth} {role : Role}

theorem Part.relGrant_early (h : p.now < a.validFrom) : p.relGrant a role = .error .notYetValid := if_pos h

variable (hfrom : a.validFrom ≤ p.now)
include hfrom

theorem Part.relGrant_noSpace (h : p.freeRentalPlace = none) : p.relGrant a role = .error .noRecordSpace := by
  unfold Part.relGrant
  rw [if_neg (Nat.not_lt.2 hfrom), h]

variable {place : Nat} (hplace : p.freeRentalPlace = some place)
include hplace

theorem Part.relGrant_error {r : Result} (h : p.chooseKey a.target role = .error r) : p.relGrant a role = .error r := by
  unfold Part.relGrant
  rw [if_neg (Nat.not_lt.2 hfrom), hplace]
  dsimp only
  rw [h]

theorem Part.relGrant_ok {h : Nat} {k : KeyRec} (hkey : p.chooseKey a.target role = .ok (h, k)) :
    p.relGrant a role = .ok (k.loc.getD 0, some h, some place) := by
  unfold Part.relGrant
  rw [if_neg (Nat.not_lt.2 hfrom), hplace]
  dsimp only
  rw [hkey]

end Grant

theorem Part.mem_reserved (p : Part) (i : Nat) : p.reserved.contains i = true ↔ ∃ e ∈ p.ctxs, e.2.reservation = some i := by
  rw [List.contains_iff_mem]
  unfold Part.reserved
  rw [List.mem_filterMap]

theorem Part.freeRentalPlace_none {p : Part}
    (h : ∀ i, i < 1024 → (Table.look p.rentals i).isSome ∨ ∃ e ∈ p.ctxs, e.2.reservation = some i) :
    p.freeRentalPlace = none := by
  refine List.find?_eq_none.2 fun i hi free => ?_
  rw [Bool.and_eq_true, Bool.not_eq_true', ← Bool.not_eq_true, p.mem_reserved] at free
  rcases h i (List.mem_range.1 hi) with hrental | hres
  · rw [Option.isNone_iff_eq_none.1 free.1] at hrental
    cases hrental
  · exact free.2 hres

theorem Part.freeRentalPlace_exists {p : Part} {i : Nat} (hi : i < 1024) (hrental : Table.look p.rentals i = none)
    (hres : ∀ e ∈ p.ctxs, e.2.reservation ≠ some i) : ∃ place, p.freeRentalPlace = some place := by
  refine Option.isSome_iff_exists.1 (List.find?_isSome.2 ⟨i, List.mem_range.2 hi, ?_⟩)
  rw [hrental, Bool.and_eq_true, Bool.not_eq_true', ← Bool.not_eq_true, p.mem_reserved]
  exact ⟨rfl, fun ⟨e, he, hr⟩ => hres e he hr⟩

/-! ## The answers -/

/-- RELEASE with the clock set (R37). -/
theorem Part.doRelease_set {p : Part} {f : Frame} {n : Nat} (hparse : parseNum 4 f.payload = some n)
    (hclock : p.clock.set = true) : p.doRelease f = match p.relAuth n true with
      | .error r => p.refuse r
      | .ok a => match p.relGrant a (p.terminal f.origin).role with
        | .error r => p.refuse r
        | .ok g => p.startRelease (p.relReq f .release (.rental n)) g := by
  unfold Part.doRelease
  rw [hparse]
  exact if_neg (by rw [hclock]; nofun)

/-- PICKUP with the clock set (R34, R38). -/
theorem Part.doPickup_set {p : Part} {f : Frame} {n : Nat} {ds : List Nat} (hparse : parsePickup f.payload = some (n, ds))
    (hclock : p.clock.set = true) : p.doPickup f = match p.relAuth n true with
      | .error r => p.refuse r
      | .ok a => match a.code with
        | none => p.refuse .codeNotSet
        | some want => if want ≠ ds then p.wrongCode a else match p.relGrant a (p.terminal f.origin).role with
          | .error r => p.refuse r
          | .ok g => p.startRelease (p.relReq f .pickup (.rental n)) g := by
  unfold Part.doPickup
  rw [hparse]
  exact if_neg (by rw [hclock]; nofun)

section Answers
variable {p : Part} {f : Frame} {kind : RelKind} {n : Nat} {ds : List Nat} (hreads : Reads kind f.payload n ds)
include hreads

theorem Part.relOwner_noTime (hclock : p.clock.set = false) : relOwner kind p f = p.refuse .noTime := by
  rcases hreads with ⟨rfl, hparse⟩ | ⟨rfl, hparse⟩
  · show p.doRelease f = _
    unfold Part.doRelease
    rw [hparse, hclock]
    rfl
  · show p.doPickup f = _
    unfold Part.doPickup
    rw [hparse, hclock]
    rfl

variable (hclock : p.clock.set = true)
include hclock

theorem Part.relOwner_refused {r : Result} (hauth : p.relAuth n true = .error r) : relOwner kind p f = p.refuse r := by
  rcases hreads with ⟨rfl, hparse⟩ | ⟨rfl, hparse⟩
  · show p.doRelease f = _
    rw [Part.doRelease_set hparse hclock, hauth]
  · show p.doPickup f = _
    rw [Part.doPickup_set hparse hclock, hauth]

variable {a : Auth} (hauth : p.relAuth n true = .ok a)
include hauth

theorem Part.relOwner_codeNotSet (hkind : kind = .pickup) (hcode : a.code = none) :
    relOwner kind p f = p.refuse .codeNotSet := by
  rcases hreads with ⟨rfl, hparse⟩ | ⟨rfl, hparse⟩
  · cases hkind
  · show p.doPickup f = _
    rw [Part.doPickup_set hparse hclock, hauth]
    dsimp only
    rw [hcode]

theorem Part.relOwner_wrongCode {want : List Nat} (hkind : kind = .pickup) (hcode : a.code = some want) (hne : want ≠ ds) :
    relOwner kind p f = p.wrongCode a := by
  rcases hreads with ⟨rfl, hparse⟩ | ⟨rfl, hparse⟩
  · cases hkind
  · show p.doPickup f = _
    rw [Part.doPickup_set hparse hclock, hauth]
    dsimp only
    rw [hcode]
    exact if_pos hne

variable (hright : kind = .release ∨ a.code = some ds)
include hright

/-- A release whose code, if any, is right goes on to its grant. -/
theorem Part.relOwner_right : relOwner kind p f = match p.relGrant a (p.terminal f.origin).role with
    | .error r => p.refuse r
    | .ok g => p.startRelease (p.relReq f kind (.rental n)) g := by
  rcases hreads with ⟨rfl, hparse⟩ | ⟨rfl, hparse⟩
  · show p.doRelease f = _
    rw [Part.doRelease_set hparse hclock, hauth]
  · show p.doPickup f = _
    rw [Part.doPickup_set hparse hclock, hauth]
    dsimp only
    rw [hright.resolve_left nofun]
    exact if_neg (not_not.2 rfl)

end Answers

/-! ## The start of a context (R43) -/

/-- The part with a context in place i that opens slot s: its record, the row's context, and LOCK_OPEN in the queue. -/
def Part.ctxOpens (p : Part) (i : Nat) (c : Ctx) (s : Nat) : Part :=
  ({ p with
    ctxs := Table.put p.ctxs i c
    rows := Table.modify p.rows s (fun r => { r with ctx := some i }) } : Part).onChan (p.slotEntry s).chan
      (fun ch => { ch with queue := ch.queue ++ [.lockOpen (p.slotEntry s).addr (p.slotEntry s).pos i] })

theorem Part.essRoom_onChan (p : Part) (c : Chan) (f : Channel → Channel) : (p.onChan c f).essRoom = p.essRoom := by
  cases c <;> rfl

theorem Part.onChan_congr {p : Part} {c : Chan} {f g : Channel → Channel} (h : f (p.chan c) = g (p.chan c)) :
    p.onChan c f = p.onChan c g := by
  cases c
  · exact congrArg (fun ch => { p with chanA := ch }) h
  · exact congrArg (fun ch => { p with chanB := ch }) h

theorem Channel.pushLock_room {ch : Channel} (h : ch.queue.length < 16) (b : BusCmd) :
    ch.pushLock b = { ch with queue := ch.queue ++ [b] } := if_pos h

/-- The context of a release that starts at slot s (R43). -/
def Part.ctxNew (p : Part) (s : Nat) (key : Option Nat) (q : RelReq) (reservation : Option Nat) : Ctx :=
  ⟨.opening, some s, key, q, some (p.mono + 2000), none, reservation, none, none, false, false, 0, none⟩

section Start
variable {p : Part} {i s : Nat} {q : RelReq} {reservation : Option Nat}
  (hroom : (p.chan (p.slotEntry s).chan).queue.length < 16)
include hroom

/-- The last step of a start, on a part x that has the channels and slots of p. -/
theorem Part.pushOpen_unlit {x : Part} (ks : List Nat) (hx : x = p.touch ks) (c : Ctx) :
    (((({ x with ctxs := Table.put x.ctxs i c } : Part).onRow s
      (fun r => { r with ctx := some i })).onChan (p.slotEntry s).chan
      (·.pushLock (.lockOpen (p.slotEntry s).addr (p.slotEntry s).pos i))).touchSlot s).unlit = (p.ctxOpens i c s).unlit := by
  subst hx
  unfold Part.touchSlot
  rw [Part.touch_unlit]
  unfold Part.ctxOpens
  generalize hd : (p.slotEntry s).chan = d at *
  cases d
  · exact congrArg (fun ch => Part.unlit { p with
      ctxs := Table.put p.ctxs i c, rows := Table.modify p.rows s (fun r => { r with ctx := some i }), chanA := ch })
      (Channel.pushLock_room hroom _)
  · exact congrArg (fun ch => Part.unlit { p with
      ctxs := Table.put p.ctxs i c, rows := Table.modify p.rows s (fun r => { r with ctx := some i }), chanB := ch })
      (Channel.pushLock_room hroom _)

/-- A context starts for a rental: its authorization ACTIVE, its key RELEASING. -/
theorem Part.startCtx_rental {n h : Nat} {k : KeyRec} (hsub : q.subject = .rental n) (hk : Table.look p.keys h = some k) :
    (p.startCtx i q (s, some h, reservation)).unlit = (({ p with
      auths := p.auths.map (fun x => if x.rental = n then { x with state := .active } else x)
      keys := Table.put p.keys h { k with state := .releasing } } : Part).ctxOpens i
        (p.ctxNew s (some h) q reservation) s).unlit := by
  obtain ⟨ks, hks⟩ := (p.onAuth n (fun a => { a with state := .active })).setKey_touch h { k with state := .releasing }
  have found : (Option.map (fun k : KeyRec => (h, k)) (Table.look (p.onAuth n (fun a => { a with state := .active })).keys h))
      = some (h, k) := by
    rw [show Table.look (p.onAuth n (fun a => { a with state := .active })).keys h = some k from hk]
    rfl
  unfold Part.startCtx
  rw [hsub]
  dsimp only
  rw [Option.bind_some, found]
  dsimp only
  have mono : ((p.onAuth n (fun a => { a with state := .active })).setKey h { k with state := .releasing }).mono = p.mono := by
    rw [hks]
    rfl
  generalize (p.onAuth n (fun a => { a with state := .active })).setKey h { k with state := .releasing } = x at *
  rw [show p.ctxNew s (some h) q reservation = x.ctxNew s (some h) q reservation by unfold Part.ctxNew; rw [mono]]
  exact Part.pushOpen_unlit (p := { p with
    auths := p.auths.map (fun x => if x.rental = n then { x with state := .active } else x)
    keys := Table.put p.keys h { k with state := .releasing } }) hroom ks hks (x.ctxNew s (some h) q reservation)

end Start

theorem Part.freeContext_eq {p : Part} {i : Nat} (hi : i < 4) (hfree : Table.look p.ctxs i = none)
    (hleast : ∀ j, j < i → (Table.look p.ctxs j).isSome) : p.freeContext = some i := Table.lowestFree_eq hi hfree hleast

theorem Part.freeContext_none {p : Part} (h : ∀ j, j < 4 → (Table.look p.ctxs j).isSome) : p.freeContext = none :=
  Table.lowestFree_none h

/-- A started release or pickup is answered with its context, key and slot; a service release with its context and slot. -/
theorem Part.startRelease_rental {p : Part} {i : Nat} (hi : p.freeContext = some i) {q : RelReq} (hq : q.kind ≠ .service)
    (g : Grant) :
    p.startRelease q g = (p.startCtx i q g).answer .started (beBytes 1 i ++ (beIndex g.2.1 ++ beBytes 2 g.1)) := by
  unfold Part.startRelease
  rw [hi]
  dsimp only
  cases hk : q.kind with
  | service => exact absurd hk hq
  | release => rfl
  | pickup => rfl

theorem Part.startRelease_service {p : Part} {i : Nat} (hi : p.freeContext = some i) {q : RelReq} (hq : q.kind = .service)
    (g : Grant) : p.startRelease q g = (p.startCtx i q g).answer .started (beBytes 1 i ++ beBytes 2 g.1) := by
  unfold Part.startRelease
  rw [hi]
  dsimp only
  rw [hq]

theorem Part.startRelease_queues {p : Part} (hnone : p.freeContext = none) (q : RelReq) (g : Grant) :
    p.startRelease q g = p.queueRelease q := by
  unfold Part.startRelease
  rw [hnone]

theorem Part.queueRelease_room {p : Part} {q : RelReq} (hnew : ∀ w ∈ p.waitQ, w.req.subject ≠ q.subject)
    (h8 : p.waitQ.length < 8) : p.queueRelease q
      = ({ p with waitQ := p.waitQ ++ [⟨p.nextId, q, none⟩], nextId := p.nextId + 1 } : Part).answer .queued
        (beBytes 1 (p.waitQ.length + 1)) := by
  unfold Part.queueRelease
  rw [if_neg fun queued => by
    obtain ⟨w, hw, hs⟩ := (p.inQueue_iff _).1 queued
    exact hnew w hw hs]
  exact if_neg (Nat.not_le.2 h8)

theorem Part.queueRelease_full {p : Part} {q : RelReq} (hnew : ∀ w ∈ p.waitQ, w.req.subject ≠ q.subject)
    (h8 : 8 ≤ p.waitQ.length) : p.queueRelease q = p.refuse .busy := by
  unfold Part.queueRelease
  rw [if_neg fun queued => by
    obtain ⟨w, hw, hs⟩ := (p.inQueue_iff _).1 queued
    exact hnew w hw hs]
  exact if_pos h8

theorem reqTag_cons (tag : Byte) (bs : List Byte) : reqTag (tag :: bs) = tag.toNat := by
  unfold reqTag
  rw [byteAt_eq]
  rfl

end Sys2Proof.Machine
end

section
/-! PROOFS. RELEASE and PICKUP: the statements (R34, R37 to R39, R43). -/

namespace Sys2Proof.Machine
open Sys2Proof

/-! ## The frame of a RELEASE or a PICKUP -/

section Frames
variable {s : State} {f : Frame} {rest : List Frame} {tag : Byte} {n : Nat} {ds : List Nat} {kind : RelKind}

/-- The row taken, the operands read back, and the tag. -/
theorem reads_of_frame (hn : n < 4294967296)
    (h : kind = .release ∧ s.Asks .release f rest ∧ f.payload = tag :: beBytes 4 n
      ∨ kind = .pickup ∧ s.Asks .pickup f rest ∧ 1 ≤ ds.length ∧ ds.length ≤ 8 ∧ (∀ x ∈ ds, x ≤ 9)
        ∧ f.payload = tag :: (beBytes 4 n ++ (beBytes 1 ds.length ++ ds.flatMap (beBytes 1)))) :
    s.Asks (relRow kind) f rest ∧ Reads kind f.payload n ds ∧ reqTag f.payload = tag.toNat := by
  rcases h with ⟨rfl, hasks, hpay⟩ | ⟨rfl, hasks, h1, h8, hds, hpay⟩
  · exact ⟨hasks, .inl ⟨rfl, hpay ▸ parseNum_payload tag 4 n hn⟩, by rw [hpay, reqTag_cons]⟩
  · exact ⟨hasks, .inr ⟨rfl, parsePickup_payload hpay hn h1 h8 hds⟩, by rw [hpay, reqTag_cons]⟩

/-- The same, where the code is the one that the authorization carries. -/
theorem reads_of_rightCode {a : Auth} (hn : n < 4294967296)
    (h : kind = .release ∧ s.Asks .release f rest ∧ f.payload = tag :: beBytes 4 n
      ∨ kind = .pickup ∧ s.Asks .pickup f rest ∧ (∃ ds, a.code = some ds ∧ 1 ≤ ds.length ∧ ds.length ≤ 8 ∧ (∀ x ∈ ds, x ≤ 9)
        ∧ f.payload = tag :: (beBytes 4 n ++ (beBytes 1 ds.length ++ ds.flatMap (beBytes 1))))) :
    ∃ ds, s.Asks (relRow kind) f rest ∧ Reads kind f.payload n ds ∧ reqTag f.payload = tag.toNat
      ∧ (kind = .release ∨ a.code = some ds) := by
  rcases h with ⟨hk, hasks, hpay⟩ | ⟨hk, hasks, ds, hcode, h1, h8, hds, hpay⟩
  · obtain ⟨asks, reads, tags⟩ := reads_of_frame (ds := []) hn (.inl ⟨hk, hasks, hpay⟩)
    exact ⟨[], asks, reads, tags, .inl hk⟩
  · obtain ⟨asks, reads, tags⟩ := reads_of_frame (ds := ds) hn (.inr ⟨hk, hasks, h1, h8, hds, hpay⟩)
    exact ⟨ds, asks, reads, tags, .inr hcode⟩

theorem State.relReplies {q p : Part} {r : Result} {fields : List Byte} (h : s.Asks (relRow kind) f rest)
    (ho : relOwner kind (s.part.asked f rest) f = q.answer r fields) (hq : q.unlit = p.unlit) (room : p.essRoom = true) :
    s.Becomes (exec (relRow kind) s) (p.queued (s.part.replyTo f r fields)) := by
  rw [exec_relRow]
  exact State.replies (relOwner kind) h ho hq room

theorem State.relRefuses {r : Result} (h : s.Asks (relRow kind) f rest) (room : s.part.essRoom = true)
    (ho : relOwner kind (s.part.asked f rest) f = (s.part.asked f rest).refuse r) :
    s.Becomes (exec (relRow kind) s) ((s.part.asked f rest).queued (s.part.replyTo f r [])) :=
  State.relReplies h ho rfl room

end Frames

/-- Settles O32. -/
theorem releaseStartsAContext : Obligations.ReleaseStartsAContext := by
  unfold Obligations.ReleaseStartsAContext
  refine ⟨?_, ?_⟩
  · intro s f rest tag n ds kind hframe hn room refused
    obtain ⟨hasks, hreads, -⟩ := reads_of_frame hn hframe
    have refuse {r : Result} (ho : relOwner kind (s.part.asked f rest) f = (s.part.asked f rest).refuse r) : refused r :=
      State.relRefuses hasks room ho
    refine ⟨fun hclock => refuse (Part.relOwner_noTime hreads hclock), fun hclock hnone =>
      refuse (Part.relOwner_refused (p := s.part.asked f rest) hreads hclock (Part.relAuth_none hnone)), fun a hclock ha => ⟨fun hst =>
      refuse (Part.relOwner_refused (p := s.part.asked f rest) hreads hclock (Part.relAuth_active ha hst)), fun hst =>
      refuse (Part.relOwner_refused (p := s.part.asked f rest) hreads hclock (Part.relAuth_lockedOut ha hst)), fun hst hqueued =>
      refuse (Part.relOwner_refused (p := s.part.asked f rest) hreads hclock (Part.relAuth_queued ha hst hqueued)), fun hst hnew =>
      ⟨fun hkind hcode => ?_, fun hright => ⟨fun hearly => ?_, fun hfrom => ⟨fun hfull => ?_, fun i r hi hrental hres hkey => ?_⟩⟩⟩⟩⟩
    · exact refuse (Part.relOwner_codeNotSet hreads hclock (Part.relAuth_ok ha hst hnew) hkind hcode)
    · have right := Part.relOwner_right (p := s.part.asked f rest) hreads hclock (Part.relAuth_ok ha hst hnew) hright
      rw [Part.relGrant_early (p := s.part.asked f rest) hearly] at right
      exact refuse right
    · have right := Part.relOwner_right (p := s.part.asked f rest) hreads hclock (Part.relAuth_ok ha hst hnew) hright
      rw [Part.relGrant_noSpace (p := s.part.asked f rest) hfrom (Part.freeRentalPlace_none hfull)] at right
      exact refuse right
    · obtain ⟨place, hplace⟩ := Part.freeRentalPlace_exists (p := s.part.asked f rest) hi hrental hres
      have right := Part.relOwner_right (p := s.part.asked f rest) hreads hclock (Part.relAuth_ok ha hst hnew) hright
      rw [Part.relGrant_error (p := s.part.asked f rest) (role := ((s.part.asked f rest).terminal f.origin).role) hfrom hplace hkey] at right
      exact refuse right
  · intro s f rest tag n h i place slot a k kind hframe hn hclock ha hst hnew hfrom hplace hkey hk hloc hi hfree hleast hroom
      room p e req ctx
    obtain ⟨ds, hasks, hreads, htag, hright⟩ := reads_of_rightCode hn hframe
    have answer := Part.relOwner_right (p := p) hreads hclock (Part.relAuth_ok ha hst hnew) hright
    have grant : p.relGrant a (p.terminal f.origin).role = .ok (slot, some h, some place) := by
      rw [Part.relGrant_ok (p := p) (role := (p.terminal f.origin).role) hfrom hplace hkey, hloc]
      rfl
    have request : p.relReq f kind (.rental n) = req := by
      unfold Part.relReq
      rw [htag]
      rfl
    rw [grant, request] at answer
    dsimp only at answer
    have notService : req.kind ≠ .service := by rcases hframe with ⟨rfl, -⟩ | ⟨rfl, -⟩ <;> nofun
    rw [Part.startRelease_rental (Part.freeContext_eq (p := p) hi hfree hleast) notService] at answer
    exact State.relReplies hasks answer (Part.startCtx_rental (p := p) hroom rfl hk) (by
      rw [Part.essRoom_onChan]
      exact room)

/-- Settles O33. -/
theorem releaseIsQueuedWhenNoContextIsFree : Obligations.ReleaseIsQueuedWhenNoContextIsFree := by
  unfold Obligations.ReleaseIsQueuedWhenNoContextIsFree
  intro s f rest tag n h place a k kind hframe hn hclock ha hst hnew hfrom hplace hkey hfull room p becomes
  obtain ⟨ds, hasks, hreads, htag, hright⟩ := reads_of_rightCode hn hframe
  have answer := Part.relOwner_right (p := p) hreads hclock (Part.relAuth_ok ha hst hnew) hright
  have request : p.relReq f kind (.rental n) = ⟨kind, .rental n, f.origin, (s.part.terminal f.origin).role, tag.toNat⟩ := by
    unfold Part.relReq
    rw [htag]
    rfl
  rw [Part.relGrant_ok (p := p) (role := (p.terminal f.origin).role) hfrom hplace hkey, request] at answer
  dsimp only at answer
  rw [Part.startRelease_queues (Part.freeContext_none (p := p) hfull)] at answer
  refine ⟨fun h8 => ?_, fun h8 => ?_⟩
  · exact State.relReplies hasks (answer.trans (Part.queueRelease_room (p := p) hnew h8)) rfl room
  · exact State.relRefuses hasks room (answer.trans (Part.queueRelease_full (p := p) hnew h8))

/-! ## The wrong code (R34) -/

theorem Part.wrongCode_left {p : Part} {a : Auth} (h : 2 ≤ a.attempts) : p.wrongCode a
    = (p.onAuth a.rental (fun x => { x with attempts := a.attempts - 1 })).answer .badCode (beBytes 1 (a.attempts - 1)) := by
  unfold Part.wrongCode
  exact if_neg (by omega)

theorem Part.wrongCode_last {p : Part} {a : Auth} (h : a.attempts = 1) : p.wrongCode a
    = ((p.onAuth a.rental (fun x => { x with attempts := 0, state := .lockedOut })).raise .lockout (.rental a.rental) none).refuse
      .lockedOut := by
  unfold Part.wrongCode
  exact if_pos (by omega)

/-- Settles O34. -/
theorem wrongCodeIsCharged : Obligations.WrongCodeIsCharged := by
  unfold Obligations.WrongCodeIsCharged
  intro s f rest tag n a want ds hasks h1 h8 hds hpay hn hclock ha hst hcode hne hnew room p
  have answer := Part.relOwner_wrongCode (p := p) (kind := .pickup) (.inr ⟨rfl, parsePickup_payload hpay hn h1 h8 hds⟩) hclock
    (Part.relAuth_ok ha hst hnew) rfl hcode hne
  have number : a.rental = n := by simpa using List.find?_some ha
  refine ⟨fun h2 => ?_, fun hlast => ?_⟩
  · rw [Part.wrongCode_left h2, number] at answer
    exact State.replies Part.doPickup hasks answer rfl room
  · intro q hq
    rw [Part.wrongCode_last hlast, number] at answer
    exact State.replies Part.doPickup hasks answer rfl hq

end Sys2Proof.Machine
end

section
/-! PROOFS. The lamp of a position (R136, R137). -/

namespace Sys2Proof.Machine
open Sys2Proof

/-! ## The key whose home a slot is -/

theorem Part.homeTier_none {p : Part} {n : Nat} (h : ∀ e, ¬ (e ∈ p.keys ∧ e.2.state = .out ∧ e.2.home = some n)) :
    p.homeTier n = none := by
  have hnone : p.keys.find? (fun e => e.2.state == .out && e.2.home == some n) = none := by
    rw [List.find?_eq_none]
    intro e hmem htrue
    simp only [Bool.and_eq_true, beq_iff_eq] at htrue
    exact h e ⟨hmem, htrue⟩
  rw [Part.homeTier, hnone]
  rfl

theorem Part.homeTier_some {p : Part} {n i : Nat} {e : Nat × KeyRec} {r : Rental}
    (he : e ∈ p.keys ∧ e.2.state = .out ∧ e.2.home = some n)
    (only : ∀ x, (x ∈ p.keys ∧ x.2.state = .out ∧ x.2.home = some n) → x = e) (hi : e.2.rental = some i)
    (hr : Table.look p.rentals i = some r) : p.homeTier n = some r.tier := by
  have hsome : p.keys.find? (fun e => e.2.state == .out && e.2.home == some n) = some e := by
    cases hfound : p.keys.find? (fun e => e.2.state == .out && e.2.home == some n) with
    | none =>
      have := List.find?_eq_none.1 hfound e he.1
      simp [he.2.1, he.2.2] at this
    | some x =>
      have htrue := List.find?_some hfound
      simp only [Bool.and_eq_true, beq_iff_eq] at htrue
      rw [only x ⟨List.mem_of_find?_eq_some hfound, htrue⟩]
  rw [Part.homeTier, hsome]
  simp only [Option.bind_some, hi, hr, Option.map_some]

/-! ## The conditions of R136 on a slot's records -/

section Records
variable {p : Part} {n : Nat} {row : SlotRow}

theorem releasing_iff (ctxs : List (Nat × Ctx)) :
    (row.ctx.bind (Table.look ctxs)).any (fun c => c.state.releasing) = true
      ↔ ∃ i x, row.ctx = some i ∧ Table.look ctxs i = some x
          ∧ (x.state = .opening ∨ x.state = .opened ∨ x.state = .removedSettling) := by
  have states (x : Ctx) : x.state.releasing = true ↔ x.state = .opening ∨ x.state = .opened ∨ x.state = .removedSettling := by
    cases x.state <;> simp [CtxState.releasing]
  simp only [Option.any_eq_true, Option.bind_eq_some_iff, states]
  constructor
  · rintro ⟨x, ⟨i, hi, hx⟩, hst⟩
    exact ⟨i, x, hi, hx, hst⟩
  · rintro ⟨i, x, hi, hx, hst⟩
    exact ⟨x, ⟨i, hi, hx⟩, hst⟩

/-- Condition 6: an unread fob, or a tag of no key. -/
theorem unknown_iff :
    (row.occ == some .unread || (row.occ.isSome && row.occ != some .empty && (row.occ.bind p.keyOfOcc).isNone)) = true
      ↔ row.occ = some .unread ∨ ∃ t, row.occ = some (.tag t) ∧ p.keyByTag t = none := by
  cases hocc : row.occ with
  | none => simp
  | some v => cases v <;> simp [Part.keyOfOcc]

/-- A condition on the key that the slot holds and that is located there. -/
theorem here_iff (f : KeyRec → Bool) :
    ((row.occ.bind p.keyOfOcc).filter (fun e => e.2.loc == some n)).any (fun e => f e.2) = true
      ↔ ∃ t h k, row.occ = some (.tag t) ∧ p.keyByTag t = some (h, k) ∧ k.loc = some n ∧ f k = true := by
  simp only [Option.any_eq_true, Option.filter_eq_some_iff, Option.bind_eq_some_iff, beq_iff_eq]
  constructor
  · rintro ⟨⟨h, k⟩, ⟨⟨v, hocc, hkey⟩, hloc⟩, hf⟩
    cases v with
    | tag t => exact ⟨t, h, k, hocc, hkey, hloc, hf⟩
    | empty => simp [Part.keyOfOcc] at hkey
    | unread => simp [Part.keyOfOcc] at hkey
  · rintro ⟨t, h, k, hocc, hkey, hloc, hf⟩
    exact ⟨(h, k), ⟨⟨.tag t, hocc, hkey⟩, hloc⟩, hf⟩

/-- Conditions 4 to 11, in their order. -/
theorem Part.recordLamp_cases (hrow : Table.look p.rows n = some row) :
    let c4 : Prop := ∃ i x, row.ctx = some i ∧ Table.look p.ctxs i = some x
      ∧ (x.state = .opening ∨ x.state = .opened ∨ x.state = .removedSettling)
    let c5 : Prop := row.lock = some .jammed
    let c6 : Prop := row.occ = some .unread ∨ ∃ t, row.occ = some (.tag t) ∧ p.keyByTag t = none
    let here (f : KeyRec → Prop) : Prop :=
      ∃ t h k, row.occ = some (.tag t) ∧ p.keyByTag t = some (h, k) ∧ k.loc = some n ∧ f k
    let c7 : Prop := here (fun k => k.state = .misplaced)
    let c8 : Prop := row.guide ≠ none
    let c9 (tier : Tier) : Prop := p.homeTier n = some tier
    let c10 : Prop := here (fun k => k.hold ≠ none)
    (c4 → p.recordLamp n = .lit .green .fast)
    ∧ (¬ c4 → c5 → p.recordLamp n = .lit .red .steady)
    ∧ (¬ c4 → ¬ c5 → c6 → p.recordLamp n = .lit .red .fast)
    ∧ (¬ c4 → ¬ c5 → ¬ c6 → c7 → p.recordLamp n = .lit .amber .fast)
    ∧ (¬ c4 → ¬ c5 → ¬ c6 → ¬ c7 → c8 → p.recordLamp n = .lit .green .steady)
    ∧ (¬ c4 → ¬ c5 → ¬ c6 → ¬ c7 → ¬ c8 →
      (c9 .escalated → p.recordLamp n = .lit .amber .slow)
      ∧ (c9 .overdue → p.recordLamp n = .lit .amber .steady)
      ∧ (¬ c9 .escalated → ¬ c9 .overdue → c10 → p.recordLamp n = .lit .red .slow)
      ∧ (¬ c9 .escalated → ¬ c9 .overdue → ¬ c10 → p.recordLamp n = .off)) := by
  intro c4 c5 c6 here c7 c8 c9 c10
  have ctx := releasing_iff (row := row) p.ctxs
  have jam : (row.lock == some .jammed) = true ↔ c5 := beq_iff_eq
  have odd := unknown_iff (p := p) (row := row)
  have away : ((row.occ.bind p.keyOfOcc).filter (fun e => e.2.loc == some n)).any (fun e => e.2.state == .misplaced) = true
      ↔ c7 := (here_iff (fun k => k.state == .misplaced)).trans (by simp only [beq_iff_eq]; exact Iff.rfl)
  have guide : row.guide.isSome = true ↔ c8 := Option.isSome_iff_ne_none
  have tier (t : Tier) : (p.homeTier n == some t) = true ↔ c9 t := beq_iff_eq
  have held : ((row.occ.bind p.keyOfOcc).filter (fun e => e.2.loc == some n)).any (fun e => e.2.hold.isSome) = true ↔ c10 :=
    (here_iff (fun k => k.hold.isSome)).trans (by simp only [Option.isSome_iff_ne_none]; exact Iff.rfl)
  simp only [Part.recordLamp, Part.row, hrow, Option.getD_some]
  refine ⟨fun h4 => if_pos (ctx.2 h4), fun n4 h5 => ?_, fun n4 n5 h6 => ?_, fun n4 n5 n6 h7 => ?_, fun n4 n5 n6 n7 h8 => ?_,
    fun n4 n5 n6 n7 n8 => ⟨fun h9 => ?_, fun h9 => ?_, fun n9 m9 h10 => ?_, fun n9 m9 n10 => ?_⟩⟩ <;> rw [if_neg (mt ctx.1 n4)]
  · rw [if_pos (jam.2 h5)]
  all_goals rw [if_neg (mt jam.1 n5)]
  · rw [if_pos (odd.2 h6)]
  all_goals rw [if_neg (mt odd.1 n6)]
  · rw [if_pos (away.2 h7)]
  all_goals rw [if_neg (mt away.1 n7)]
  · rw [if_pos (guide.2 h8)]
  all_goals rw [if_neg (mt guide.1 n8)]
  · rw [if_pos ((tier .escalated).2 h9)]
  · have n9 : ¬ c9 .escalated := fun h => nomatch h.symm.trans h9
    rw [if_neg (mt (tier .escalated).1 n9), if_pos ((tier .overdue).2 h9)]
  · rw [if_neg (mt (tier .escalated).1 n9), if_neg (mt (tier .overdue).1 m9), if_pos (held.2 h10)]
  · rw [if_neg (mt (tier .escalated).1 n9), if_neg (mt (tier .overdue).1 m9), if_neg (mt held.1 n10)]

end Records

/-! ## The lamp test and the override -/

section Positions
variable {p : Part} {c : Chan} {a pos : Nat}

theorem Part.lampOf_test {col : Colour} {t : Nat} (h : p.lmp.test = some (col, t)) : p.lampOf c a pos = .lit col .steady := by
  simp only [Part.lampOf, h]

theorem Part.lampOf_override {ls : List Lamp} (h : p.lmp.test = none)
    (ho : Table.look p.lmp.overrides (lampKey c a) = some ls) : p.lampOf c a pos = (ls[pos]?).getD .off := by
  have raw : p.rawLamp c a pos = some ((ls[pos]?).getD .off) := by rw [Part.rawLamp, ho]; rfl
  simp only [Part.lampOf, h, raw, Option.getD_some, ite_self]
  split <;> rfl

theorem Part.lampOf_noSlot (h : p.lmp.test = none) (ho : Table.look p.lmp.overrides (lampKey c a) = none)
    (hs : p.slotAt c a pos = none) : p.lampOf c a pos = .off := by
  simp only [Part.lampOf, h, hs, Part.rawLamp, ho, Option.map_none, Option.getD_none]

/-- With no override the lamp of a position is its slot's. -/
theorem Part.lampOf_slot {n : Nat} (h : p.lmp.test = none) (ho : Table.look p.lmp.overrides (lampKey c a) = none)
    (hs : p.slotAt c a pos = some n) :
    p.lampOf c a pos = if (p.slotEntry n).kind = .drop then
        if p.dropBinFull then .lit .red .steady else .lit .green .steady
      else if p.blanked then .off else p.recordLamp n := by
  simp only [Part.lampOf, h, hs, Part.rawLamp, ho, Option.map_none, Option.getD_none, beq_iff_eq]

end Positions

/-! ## The statement -/

/-- Settles O51: the lamp test, then the override, then the slot's own records in the order of R136. -/
theorem lampOfAPosition : Obligations.LampOfAPosition := by
  intro p c a pos
  refine ⟨fun n => ⟨Part.homeTier_none, fun e i r he only hi hr _ => Part.homeTier_some he only hi hr⟩,
    fun col t => Part.lampOf_test, fun ht ls => Part.lampOf_override ht,
    fun ht ho => ⟨Part.lampOf_noSlot ht ho, fun n hs hkind => ?drop, fun n hs hkind => ⟨fun hblank => ?dark, ?lit⟩⟩⟩
  case drop =>
    rw [Part.lampOf_slot ht ho hs, if_pos hkind]
    have full : p.dropBinFull = true ↔ 96 ≤ p.dropBin.length := decide_eq_true_iff
    simp only [full]
  case dark =>
    have blanked : p.blanked = true := by
      rcases hblank with h | ⟨hpol, hzone⟩
      · simp [Part.blanked, h]
      · simp [Part.blanked, Part.zoneBlank, hpol, hzone]
    rw [Part.lampOf_slot ht ho hs, if_neg hkind, if_pos blanked]
  case lit =>
    intro hflag hzone row hrow
    have shown : ¬ p.blanked = true := by
      rcases hzone with h | h <;> simp [Part.blanked, Part.zoneBlank, hflag, h]
    have value : p.lampOf c a pos = p.recordLamp n := by
      rw [Part.lampOf_slot ht ho hs, if_neg hkind, if_neg shown]
    rw [value]
    exact Part.recordLamp_cases hrow

end Sys2Proof.Machine
end

section
/-! PROOFS. The requests that read (R18, R101, R102, R116, R134, R176, R196, R197). -/

namespace Sys2Proof.Machine
open Sys2Proof

/-! ## Their operands -/

theorem parseForm_place {bs : List Byte} {tag : Byte} {h : Nat} (hbs : bs = tag :: 1#8 :: beBytes 2 h) (hh : h < 65536) :
    parseForm bs = some (true, h) := by
  have hlen : bs.length = 4 := by rw [hbs]; simp
  have form : byteAt bs 1 = 1 := by rw [byteAt_eq, hbs]; rfl
  have place : field bs 2 2 = h := field_after [tag, 1#8] [] rfl hh (by rw [hbs]; simp)
  unfold parseForm
  rw [hlen, form, place]
  rfl

/-- The resume point of OVERDUE_LIST, where one is given. -/
theorem parseOverdue_payload {bs : List Byte} {tag : Byte} {x : Option (Nat × Nat)} {d n : Nat}
    (hbs : bs = tag :: (beBytes 1 (if x.isSome then 1 else 0) ++ (beBytes 3 d ++ beBytes 4 n))) (hd : d < 16777216)
    (hn : n < 4294967296) (hx : x = none ∨ x = some (d, n)) : parseOverdue bs = some x := by
  have hlen : bs.length = 9 := by rw [hbs]; simp
  have due : field bs 2 3 = d := field_after (tag :: beBytes 1 (if x.isSome then 1 else 0)) (beBytes 4 n) (by simp) hd
    (by rw [hbs]; simp)
  have number : field bs 5 4 = n := field_after (tag :: (beBytes 1 (if x.isSome then 1 else 0) ++ beBytes 3 d)) []
    (by simp) hn (by rw [hbs]; simp)
  unfold parseOverdue
  rw [if_pos hlen, due, number]
  rcases hx with rfl | rfl
  · have flag : byteAt bs 1 = 0 := by rw [byteAt_eq, hbs]; rfl
    rw [flag]
    rfl
  · have flag : byteAt bs 1 = 1 := by simp [byteAt_eq, hbs, beBytes]
    rw [flag]
    rfl

theorem parseIndex_payload {bs : List Byte} {tag : Byte} {i : Nat} (hbs : bs = tag :: beBytes 2 i) (hi : i ≤ 63) :
    parseIndex bs = some i := by
  unfold parseIndex
  rw [hbs, parseNum_payload tag 2 i (by omega)]
  exact if_pos hi

/-! ## What their owners answer -/

section Owners
variable {p : Part} {f : Frame} {n h i : Nat}

theorem Part.doKeyQuery_tag {k : KeyRec} (hparse : parseForm f.payload = some (false, n)) (hkey : p.keyByTag n = some (h, k)) :
    p.doKeyQuery f = p.answer .ok (p.keyFields h k) := by
  simp only [Part.doKeyQuery, hparse, Bool.false_eq_true, if_false, hkey]

theorem Part.doKeyQuery_handle {k : KeyRec} (hparse : parseForm f.payload = some (true, h))
    (hkey : Table.look p.keys h = some k) : p.doKeyQuery f = p.answer .ok (p.keyFields h k) := by
  simp only [Part.doKeyQuery, hparse, if_true, hkey, Option.map_some]

theorem Part.doKeyQuery_noHandle (hparse : parseForm f.payload = some (true, h)) (hkey : Table.look p.keys h = none) :
    p.doKeyQuery f = p.answer .notFound [] := by
  simp only [Part.doKeyQuery, hparse, if_true, hkey, Option.map_none]
  rfl

theorem Part.doKeyQuery_noTag (hparse : parseForm f.payload = some (false, n)) (hkey : p.keyByTag n = none) :
    p.doKeyQuery f = p.answer .notFound ((p.slotHolding n).elim [] (beBytes 2)) := by
  simp only [Part.doKeyQuery, hparse, Bool.false_eq_true, if_false, hkey]
  cases p.slotHolding n <;> rfl

theorem Part.doRentalQuery_number {r : Rental} (hparse : parseForm f.payload = some (false, n))
    (hr : p.rentalByNumber n = some (i, r)) : p.doRentalQuery f = p.answer .ok (p.rentalFields r) := by
  simp only [Part.doRentalQuery, hparse, Bool.false_eq_true, if_false, hr, Option.map_some]

theorem Part.doRentalQuery_index {r : Rental} (hparse : parseForm f.payload = some (true, i))
    (hr : Table.look p.rentals i = some r) : p.doRentalQuery f = p.answer .ok (p.rentalFields r) := by
  simp only [Part.doRentalQuery, hparse, if_true, hr]

theorem Part.doCensusRead_index (hparse : parseIndex f.payload = some i) :
    p.doCensusRead f = p.answer .ok (p.cen.readFields i) := by
  simp only [Part.doCensusRead, hparse]

/-- OVERDUE_LIST gives its first page after the resume point. -/
theorem Part.doOverdueList_point {x : Option (Nat × Nat)} (hparse : parseOverdue f.payload = some x) :
    let after := p.lateRentals.filter (fun e => afterResume e.2 x)
    p.doOverdueList f = p.answer .ok (beBytes 2 p.lateRentals.length ++ beBytes 1 (bit (decide (12 < after.length)))
      ++ beBytes 1 (after.take 12).length ++ (after.take 12).flatMap (fun e => p.overdueEntry e.1 e.2)) := by
  simp only [Part.doOverdueList, hparse]
  rfl

end Owners

/-! ## Their fields, spelled -/

theorem bit_decide (c : Prop) [Decidable c] : bit (decide c) = if c then 1 else 0 := by
  by_cases h : c <;> simp [bit, h]

theorem beName_map {α : Type} (o : Option α) (g : α → Nat) : beName (o.map g) = beBytes 1 ((o.map g).getD 255) := rfl

/-- The place of a key in the Drop Bin list and its entry, absent or 0 where it is not there. -/
theorem Part.dropPlace_eq (p : Part) (h : Nat) :
    p.dropPlace h = (p.dropBin.zipIdx.find? (fun e => e.1.key == h)).map (fun e => (e.2 + 1, e.1)) := rfl

theorem Part.rentalOf_number (p : Part) (k : KeyRec) :
    (p.rentalOf k).map (fun x => x.2.number) = (k.rental.bind (fun i => Table.look p.rentals i)).map (·.number) := by
  unfold Part.rentalOf
  cases k.rental with
  | none => rfl
  | some i =>
    dsimp only [Option.bind_some]
    cases Table.look p.rentals i <;> rfl

theorem lockName_eq (l : Option LockState) : lockName l = (match l with
    | some .locked => 0
    | some .opened => 1
    | some .jammed => 2
    | none => 3) := by
  cases l with
  | none => rfl
  | some l => cases l <;> rfl

theorem Tier.late_iff (t : Tier) : t.late = true ↔ t = .grace ∨ t = .overdue ∨ t = .escalated := by
  cases t <;> simp [Tier.late]

theorem afterResume_iff (r : Rental) (x : Option (Nat × Nat)) :
    afterResume r x = x.all (fun x => decide (x.1 < r.due ∨ (x.1 = r.due ∧ x.2 < r.number))) := by
  cases x with
  | none => rfl
  | some x =>
    rw [Bool.eq_iff_iff]
    simp only [afterResume, Option.all_some, Bool.or_eq_true, Bool.and_eq_true, decide_eq_true_eq, beq_iff_eq, eq_comm (a := r.due)]

theorem CenState.code_eq (x : CenState) : x.code = (match x with
    | .idle => 0
    | .sweeping => 1
    | .aborted => 2) := by
  cases x <;> rfl

theorem causeName_eq (o : Option CenCause) : (o.map CenCause.code).getD 255 = (match o with
    | none => 255
    | some (.request _) => 0
    | some .schedule => 1) := by
  cases o with
  | none => rfl
  | some x => cases x <;> rfl

theorem causeOrigin_eq (o : Option CenCause) : (o.map CenCause.origin).getD 0 = (match o with
    | some (.request origin) => origin
    | _ => 0) := by
  cases o with
  | none => rfl
  | some x => cases x <;> rfl

theorem scopeName_eq (o : Option Scope) : (o.map Scope.code).getD 255 = (match o with
    | none => 255
    | some .A => 0
    | some .B => 1
    | some .both => 2) := by
  cases o with
  | none => rfl
  | some x => cases x <;> rfl

theorem posBytes_eq (o : Option (Chan × Nat)) : posBytes o = (match o with
    | none => [0#8, 0#8]
    | some (ch, a) => beBytes 1 ch.code ++ beBytes 1 a) := by
  cases o <;> rfl

theorem readName_eq (o : Option ReadOut) : (o.map ReadOut.code).getD 255 = (match o with
    | none => 255
    | some .notSent => 0
    | some .sent => 1) := by
  cases o with
  | none => rfl
  | some x => cases x <;> rfl

theorem outcomeName_eq (o : Option Outcome) : (o.map Outcome.code).getD 255 = (match o with
    | none => 255
    | some .complete => 0
    | some .aborted => 1) := by
  cases o with
  | none => rfl
  | some x => cases x <;> rfl

/-! ## The queries -/

/-- Settles O41. -/
theorem queriesChangeNothing : Obligations.QueriesChangeNothing := by
  intro s f rest tag room p answers flag keyBytes rentalBytes censusBytes seen mismatchBytes
  have keys (h : Nat) (k : KeyRec) : (s.part.asked f rest).keyFields h k = keyBytes h k := by
    have same : (s.part.asked f rest).keyFields h k = s.part.keyFields h k := rfl
    have row : s.part.row = fun n => Table.look s.part.rows n := rfl
    rw [same]
    simp only [Part.keyFields, s.part.dropPlace_eq, s.part.rentalOf_number k, row, lockName_eq, Option.map_map,
      Option.isSome_map, Function.comp_def, beSlot, beName, beIndex, bit, keyBytes, flag, p] <;> rfl
  have rentals (r : Rental) : (s.part.asked f rest).rentalFields r = rentalBytes r := by
    have same : (s.part.asked f rest).rentalFields r = s.part.rentalFields r := rfl
    rw [same]
    cases hs : r.snap <;>
      simp only [hs, Part.rentalFields, rentalBytes, bit, flag, p, Option.map_none, Option.map_some, Option.getD_none,
        Option.getD_some, Snapshot.bytes, RetFlags.byte, beSlot]
  have census : s.part.cen.bytes = censusBytes := by
    simp only [Cen.bytes, CenState.code_eq, beName, causeName_eq, causeOrigin_eq, scopeName_eq, posBytes_eq, readName_eq,
      outcomeName_eq, CenCounts.bytes, bit, censusBytes, flag, p, List.append_assoc] <;> rfl
  have mismatch : Mismatch.bytes = mismatchBytes := by
    funext m
    have read : occBytes = seen := by
      funext o
      cases o with
      | none => rfl
      | some v => cases v <;> rfl
    simp only [Mismatch.bytes, beIndex, beName, mismatchBytes, read]
    cases m.kind <;> rfl
  have late : (s.part.asked f rest).lateRentals = (if p.clock.set then
          (p.due.filterMap (fun i => (Table.look p.rentals i).map (fun r => (i, r)))).filter (fun e =>
            e.2.tier = .grace ∨ e.2.tier = .overdue ∨ e.2.tier = .escalated)
        else []) := by
    have same : (s.part.asked f rest).lateRentals = s.part.lateRentals := rfl
    have tier : (fun e : Nat × Rental => e.2.tier.late)
        = fun e => decide (e.2.tier = .grace ∨ e.2.tier = .overdue ∨ e.2.tier = .escalated) := by
      funext e
      rw [Bool.eq_iff_iff, Tier.late_iff, decide_eq_true_iff]
    rw [same, Part.lateRentals, tier]
  refine ⟨fun t h k hasks hpay ht hkey => ?_, fun h k hasks hpay hh hkey => ?_, ⟨fun h hasks hpay hh hkey => ?_,
    fun t hasks hpay ht hkey => ?_⟩, fun n i r hasks hpay hn hr => ?_, fun i r hasks hpay hi hr => ?_,
    fun x d n hasks hpay hd hn hx => ?_, fun i hasks hpay hi => ?_⟩
  · have ok := Part.doKeyQuery_tag (p := s.part.asked f rest) (parseForm_number hpay ht) hkey
    rw [keys] at ok
    exact State.replies Part.doKeyQuery hasks ok rfl room
  · have ok := Part.doKeyQuery_handle (p := s.part.asked f rest) (parseForm_place hpay hh) hkey
    rw [keys] at ok
    exact State.replies Part.doKeyQuery hasks ok rfl room
  · have missing := Part.doKeyQuery_noHandle (p := s.part.asked f rest) (parseForm_place hpay hh) hkey
    exact State.replies Part.doKeyQuery hasks missing rfl room
  · have missing := Part.doKeyQuery_noTag (p := s.part.asked f rest) (parseForm_number hpay ht) hkey
    refine ⟨fun nowhere => ?_, fun pre n r post hrows before hr => ?_⟩
    · rw [Part.slotHolding_none (p := s.part.asked f rest) nowhere] at missing
      exact State.replies Part.doKeyQuery hasks missing rfl room
    · rw [Part.slotHolding_some (p := s.part.asked f rest) hrows hr before] at missing
      exact State.replies Part.doKeyQuery hasks missing rfl room
  · have ok := Part.doRentalQuery_number (p := s.part.asked f rest) (parseForm_number hpay hn) hr
    rw [rentals] at ok
    exact State.replies Part.doRentalQuery hasks ok rfl room
  · have ok := Part.doRentalQuery_index (p := s.part.asked f rest) (parseForm_place hpay hi) hr
    rw [rentals] at ok
    exact State.replies Part.doRentalQuery hasks ok rfl room
  · have ok := Part.doOverdueList_point (p := s.part.asked f rest) (parseOverdue_payload hpay hd hn hx)
    simp only [late, afterResume_iff, bit_decide] at ok
    exact State.replies Part.doOverdueList hasks ok rfl room
  · have ok := Part.doCensusRead_index (p := s.part.asked f rest) (parseIndex_payload hpay hi)
    have fields : (s.part.asked f rest).cen.readFields i = censusBytes ++ beBytes 1 p.cen.list.length
        ++ beBytes 1 ((p.cen.list.drop i).take 12).length ++ ((p.cen.list.drop i).take 12).flatMap mismatchBytes := by
      rw [← mismatch, ← census]
      rfl
    rw [fields] at ok
    exact State.replies Part.doCensusRead hasks ok rfl room

end Sys2Proof.Machine
end

section
/-! PROOFS. FLAGS_READ, STATUS_READ and COUNTERS_READ (R116, R176, R196, R197). -/

namespace Sys2Proof.Machine
open Sys2Proof

theorem parseOption_clear {bs : List Byte} {tag : Byte} (h : bs = [tag, 0#8]) : parseOption bs = some false := by
  have number : parseNum 1 bs = some 0 := h ▸ parseNum_payload tag 1 0 (by decide)
  simp only [parseOption, number]

theorem parseOption_set {bs : List Byte} {tag : Byte} (h : bs = [tag, 1#8]) : parseOption bs = some true := by
  have number : parseNum 1 bs = some 1 := h ▸ parseNum_payload tag 1 1 (by decide)
  simp only [parseOption, number]

section Owners
variable {p : Part} {f : Frame}

theorem Part.doFlagsRead_option {clear : Bool} (h : parseOption f.payload = some clear) :
    p.doFlagsRead f = (if clear then p.clearFlags else p).answer .ok p.flagFields := by
  simp only [Part.doFlagsRead, h]

theorem Part.doCountersRead_option {clear : Bool} (h : parseOption f.payload = some clear) :
    p.doCountersRead f = (if clear then p.clearCounters else p).answer .ok p.counterFields := by
  simp only [Part.doCountersRead, h]

theorem Part.doStatusRead_none (h : f.payload.length = 1) :
    p.doStatusRead f = (p.onLink (fun l => { l with overrunBit := false })).answer .ok p.statusFields := by
  simp only [Part.doStatusRead, parseNone, h, if_true]

end Owners

/-! ## The fields of STATUS_READ, spelled -/

theorem Watch.code_eq (w : Watch) : w.code = (match w with
    | .off => 0
    | .watching _ => 1
    | .silent _ => 2) := by
  cases w <;> rfl

theorem bit_not (b : Bool) : bit (!b) = if b then 0 else 1 := by
  cases b <;> rfl

theorem ctxCode_eq (o : Option Ctx) : (o.map (fun x => x.state.code)).getD 0 = (match o with
    | none => 0
    | some x => x.state.code) := by
  cases o <;> rfl

theorem Part.asked_statusFields (p : Part) (f : Frame) (rest : List Frame) :
    (p.asked f rest).statusFields = p.statusFields := by
  unfold Part.statusFields
  rfl

/-- The places reserved are those of the contexts that hold one. -/
theorem Part.reserved_length (p : Part) :
    p.reserved.length = (p.ctxs.filter (fun e => e.2.reservation.isSome)).length := by
  unfold Part.reserved
  induction p.ctxs with
  | nil => rfl
  | cons e r ih =>
    cases h : e.2.reservation <;> simp [h, ih]

/-! ## The statement -/

/-- Settles O42. -/
theorem statusReadsAndClears : Obligations.StatusReadsAndClears := by
  intro s f rest tag room p q flag c unacked flagBytes chanBytes keysIn authsIn ctxByte statusBytes l chanCounters counterBytes
  have flags : (s.part.asked f rest).flagFields = flagBytes := by
    have same : (s.part.asked f rest).flagFields = s.part.flagFields := rfl
    rw [same]
    simp only [Part.flagFields, Alt.unacked, bit, flagBytes, flag, unacked, p]
  have counters : (s.part.asked f rest).counterFields = counterBytes := by
    have same : (s.part.asked f rest).counterFields = s.part.counterFields := rfl
    rw [same]
    simp only [Part.counterFields, LinkCounters.bytes, Channel.counterBytes, Part.dropSlots, counterBytes, chanCounters, l, p,
      List.flatMap_cons, List.flatMap_nil, List.append_nil, List.append_assoc]
  have status : (s.part.asked f rest).statusFields = statusBytes := by
    rw [Part.asked_statusFields]
    have places : List.range Config.contexts = [0, 1, 2, 3] := rfl
    unfold Part.statusFields Channel.status keyStates
    rw [places, s.part.reserved_length, Watch.code_eq, CenState.code_eq]
    dsimp only
    rw [bit_not]
    simp only [bit, ctxCode_eq, Clock.minuteOfDay, List.flatMap_cons, List.flatMap_nil, List.append_nil]
    simp only [statusBytes, chanBytes, keysIn, authsIn, ctxByte, flag, p, c]
    simp only [List.append_assoc] <;> rfl
  refine ⟨fun hasks => ⟨fun hpay => ?_, fun hpay => ?_⟩, fun hasks hpay => ?_,
    fun hasks => ⟨fun hpay => ?_, fun hpay => ?_⟩⟩
  · have ok := Part.doFlagsRead_option (p := s.part.asked f rest) (parseOption_clear hpay)
    rw [flags] at ok
    exact State.replies Part.doFlagsRead hasks ok rfl room
  · have ok := Part.doFlagsRead_option (p := s.part.asked f rest) (parseOption_set hpay)
    rw [flags] at ok
    exact State.replies Part.doFlagsRead hasks ok rfl room
  · have ok := Part.doStatusRead_none (p := s.part.asked f rest) (f := f) (by rw [hpay]; rfl)
    rw [status] at ok
    exact State.replies Part.doStatusRead hasks ok rfl room
  · have ok := Part.doCountersRead_option (p := s.part.asked f rest) (parseOption_clear hpay)
    rw [counters] at ok
    exact State.replies Part.doCountersRead hasks ok rfl room
  · have ok := Part.doCountersRead_option (p := s.part.asked f rest) (parseOption_set hpay)
    rw [counters] at ok
    exact State.replies Part.doCountersRead hasks ok rfl room

end Sys2Proof.Machine
end

section
/-! PROOFS. What alerts and tiers leave unchanged, and the tiers that a recomputation gives (R96 to R99). -/

namespace Sys2Proof.Machine
open Sys2Proof

/-! ## Factor flags -/

/-- From p to q no factor flag is cleared, and those of the clock stand. -/
structure Part.FlagsRise (p q : Part) : Prop where
  rise : ∀ j, p.alt.flags.getLsbD j = true → q.alt.flags.getLsbD j = true
  clock : ∀ j, 13 < j → q.alt.flags.getLsbD j = p.alt.flags.getLsbD j

theorem Part.FlagsRise.of_flags {p q : Part} (h : q.alt.flags = p.alt.flags) : p.FlagsRise q :=
  ⟨fun j hj => h ▸ hj, fun j _ => by rw [h]⟩

theorem Part.FlagsRise.refl (p : Part) : p.FlagsRise p := .of_flags rfl

theorem Part.FlagsRise.trans {p q r : Part} (h : p.FlagsRise q) (k : q.FlagsRise r) : p.FlagsRise r :=
  ⟨fun j hj => k.rise j (h.rise j hj), fun j hj => (k.clock j hj).trans (h.clock j hj)⟩

theorem Part.FlagsRise.foldl {p : Part} {α : Type} (f : Part → α → Part) (rises : ∀ q a, Part.FlagsRise q (f q a)) (l : List α) :
    p.FlagsRise (l.foldl f p) := by
  induction l generalizing p with
  | nil => exact .refl p
  | cons a l ih => exact (rises p a).trans ih

theorem Part.flagsRise_setLink (p : Part) (l : Link) : p.FlagsRise { p with link := l } := .of_flags rfl

theorem Part.flagsRise_setRentals (p : Part) (t : Table Rental) : p.FlagsRise { p with rentals := t } := .of_flags rfl

theorem Part.flagsRise_setFlag (p : Part) {i : Nat} (hi : i ≤ 13) : p.FlagsRise (p.setFlag i) := by
  have flag := Part.setFlag_flags p (i := i) (by omega)
  refine ⟨fun j hj => by rw [flag, hj]; rfl, fun j hj => ?_⟩
  rw [flag]
  simp [show ¬ j = i by omega]

theorem AlertKind.code_le (k : AlertKind) : k.code ≤ 13 := by cases k <;> decide

theorem Part.offerAlert_flags (p : Part) (i : Nat) (f : AlertFlags) : (p.offerAlert i f).alt.flags = p.alt.flags := by
  unfold Part.offerAlert
  repeat' split
  all_goals rfl

theorem Part.offerNotice_flags (p : Part) (i : Nat) (r : Report) : (p.offerNotice i r).alt.flags = p.alt.flags := by
  unfold Part.offerNotice
  split <;> rfl

theorem Part.giveUpAlert_flags (p : Part) (i : Nat) : (p.giveUpAlert i).alt.flags = p.alt.flags := by
  unfold Part.giveUpAlert
  split <;> rfl

theorem Part.flagsRise_raise (p : Part) (k : AlertKind) (s : Subject) (d : Option Detail) : p.FlagsRise (p.raise k s d) := by
  have set := p.flagsRise_setFlag k.code_le
  unfold Part.raise
  dsimp only
  split
  · split
    · exact set.trans (.of_flags (Part.offerAlert_flags _ _ _))
    · exact set.trans (.of_flags rfl)
  · split
    · exact set.trans (.of_flags (Part.offerAlert_flags _ _ _))
    · split
      · split
        · refine set.trans (.of_flags ((Part.offerAlert_flags _ _ _).trans (Part.giveUpAlert_flags _ _)))
        · refine set.trans (.of_flags ((Part.offerAlert_flags _ _ _).trans (Part.offerNotice_flags _ _ _)))
      · exact set.trans (Part.flagsRise_setFlag _ (by decide))

theorem Part.flagsRise_remove (p : Part) (k : AlertKind) (s : Subject) : p.FlagsRise (p.remove k s) :=
  .of_flags (p.remove_flags k s)

theorem Part.removeQuietly_flags (p : Part) (e : AlertEntry) : (p.removeQuietly e).alt.flags = p.alt.flags := by
  unfold Part.removeQuietly
  dsimp only
  split
  · exact Part.giveUpAlert_flags _ _
  · rfl

theorem Part.flagsRise_replaceAlert (p : Part) (old new : AlertKind) (s : Subject) : p.FlagsRise (p.replaceAlert old new s) := by
  unfold Part.replaceAlert
  split
  · exact p.flagsRise_raise _ _ _
  · exact (Part.FlagsRise.of_flags (p.removeQuietly_flags _)).trans (Part.flagsRise_raise _ _ _ _)
  · refine (p.flagsRise_setFlag new.code_le).trans (.of_flags ((Part.offerAlert_flags _ _ _).trans ?_))
    dsimp only
    split
    · exact Part.giveUpAlert_flags _ _
    · rfl

theorem Part.flagsRise_offerOrd (p : Part) (r : Report) : p.FlagsRise (p.offerOrd r) := by
  unfold Part.offerOrd
  split
  · exact .of_flags rfl
  · dsimp only
    split
    · exact .of_flags rfl
    · exact (Part.flagsRise_setLink p _).trans (Part.flagsRise_raise _ _ _ _)

theorem Part.flagsRise_reAlertPlace (m : Nat) (p : Part) (i : Nat) : p.FlagsRise (Part.reAlertPlace m p i) := by
  unfold Part.reAlertPlace
  split
  · exact .refl p
  · rename_i e _
    split
    · exact (p.flagsRise_setFlag e.kind.code_le).trans (.of_flags (Part.offerAlert_flags _ _ _))
    · exact .refl p

theorem Part.flagsRise_tierAlert (p : Part) (n : Nat) (a b : Tier) : p.FlagsRise (p.tierAlert n a b) := by
  unfold Part.tierAlert
  dsimp only
  repeat' split
  · exact p.flagsRise_replaceAlert _ _ _
  · exact p.flagsRise_replaceAlert _ _ _
  · exact .refl p
  · exact .refl p
  · exact p.flagsRise_raise _ _ _
  · exact p.flagsRise_raise _ _ _
  · exact (p.flagsRise_remove _ _).trans (Part.flagsRise_remove _ _ _)
  · exact .refl p

/-! ## What a change of tier writes -/

/-- The part but for alerts, the link, the Rental Table and the modules touched: what a change of tier leaves. -/
def Part.restT (p : Part) : Part := { p.restA with rentals := [], lmp := { p.lmp with touched := [] } }

theorem Part.restT_of_restA {p q : Part} (h : q.restA = p.restA) : q.restT = p.restT := by
  have lmp : q.lmp = p.lmp := (congrArg Part.lmp h :)
  unfold Part.restT
  rw [h, lmp]

theorem Part.flagsRise_touchSlotO (p : Part) (o : Option Nat) : p.FlagsRise (p.touchSlotO o) := by
  obtain ⟨ks, h⟩ := p.touchSlotO_touch o
  rw [h]
  exact .of_flags rfl

theorem Part.touchSlotO_restT (p : Part) (o : Option Nat) : (p.touchSlotO o).restT = p.restT := by
  obtain ⟨ks, h⟩ := p.touchSlotO_touch o
  rw [h]
  rfl

theorem Part.tierChange_restT (p : Part) (i : Nat) (r : Rental) (a b : Tier) : (p.tierChange i r a b).restT = p.restT := by
  have told : ((({ p with rentals := Table.put p.rentals i { r with tier := b } } : Part).touchSlotO
      (p.homeOf r.key)).tierAlert r.number a b).restT = p.restT :=
    (Part.restT_of_restA (Part.tierAlert_restA _ _ _ _)).trans (Part.touchSlotO_restT _ _)
  unfold Part.tierChange
  dsimp only
  split
  · exact (Part.restT_of_restA (Part.offerOrd_restA _ _)).trans told
  · exact told

theorem Part.flagsRise_tierChange (p : Part) (i : Nat) (r : Rental) (a b : Tier) : p.FlagsRise (p.tierChange i r a b) := by
  have told : p.FlagsRise ((({ p with rentals := Table.put p.rentals i { r with tier := b } } : Part).touchSlotO
      (p.homeOf r.key)).tierAlert r.number a b) :=
    ((p.flagsRise_setRentals _).trans (Part.flagsRise_touchSlotO _ _)).trans (Part.flagsRise_tierAlert _ _ _ _)
  unfold Part.tierChange
  dsimp only
  split
  · exact told.trans (Part.flagsRise_offerOrd _ _)
  · exact told

/-! ## The recomputation of tiers -/

/-- A record with the tier that the formula gives it now; a closed one as it stands. -/
def Part.retier (p : Part) (r : Rental) : Rental := if r.snap = none then { r with tier := p.tierNow r } else r

theorem Part.retier_tier {p : Part} {r : Rental} (h : (p.retier r).snap = none) : (p.retier r).tier = p.tierNow (p.retier r) := by
  unfold Part.retier at h ⊢
  split
  · rfl
  · rename_i hne
    rw [if_neg hne] at h
    exact absurd h hne

theorem Part.retier_same {p : Part} {r : Rental} (h : r.snap.isSome ∨ p.tierNow r = r.tier) : p.retier r = r := by
  unfold Part.retier
  split
  · rename_i hnone
    rw [h.resolve_left (by rw [hnone]; nofun)]
  · rfl

theorem Part.retier_retier (p : Part) (r : Rental) : p.retier (p.retier r) = p.retier r := by
  by_cases h : (p.retier r).snap = none
  · exact Part.retier_same (.inr (Part.retier_tier h).symm)
  · exact Part.retier_same (.inl (Option.isSome_iff_ne_none.2 h))

theorem Part.retier_due (p : Part) (r : Rental) : (p.retier r).due = r.due ∧ (p.retier r).number = r.number := by
  unfold Part.retier
  split <;> exact ⟨rfl, rfl⟩

theorem Part.retier_of_restT {p q : Part} (h : q.restT = p.restT) : q.retier = p.retier := by
  have clock : q.clock = p.clock := (congrArg Part.clock h :)
  have policy : q.policy = p.policy := (congrArg Part.policy h :)
  have tier : q.tierNow = p.tierNow := by
    funext r
    unfold Part.tierNow Part.now
    rw [clock, policy]
  unfold Part.retier
  rw [tier]

theorem Part.recomputeTier_restT (p : Part) (i : Nat) : (p.recomputeTier i).restT = p.restT := by
  unfold Part.recomputeTier
  split
  · rfl
  · split
    · rfl
    · exact Part.tierChange_restT _ _ _ _ _

theorem Part.flagsRise_recomputeTier (p : Part) (i : Nat) : p.FlagsRise (p.recomputeTier i) := by
  unfold Part.recomputeTier
  split
  · exact .refl p
  · split
    · exact .refl p
    · exact Part.flagsRise_tierChange _ _ _ _ _

/-- The record in place i has its tier worked out, and no other is written. -/
theorem Part.recomputeTier_look (p : Part) (i j : Nat) :
    Table.look (p.recomputeTier i).rentals j
      = if j = i then (Table.look p.rentals j).map p.retier else Table.look p.rentals j := by
  unfold Part.recomputeTier
  split
  · rename_i hnone
    split
    · rename_i hj
      rw [hj, hnone]
      rfl
    · rfl
  · rename_i r hr
    split
    · rename_i same
      split
      · rename_i hj
        rw [hj, hr, Option.map_some, Part.retier_same same]
      · rfl
    · rename_i differs
      rw [not_or, Option.not_isSome_iff_eq_none] at differs
      rw [Part.tierChange_rentals]
      split
      · rename_i hj
        rw [hj, Table.look_put_same, hr, Option.map_some, Part.retier, if_pos differs.1]
      · rename_i hj
        exact Table.look_put_other _ _ _ _ hj

theorem Part.recomputed_restT (is : List Nat) (p : Part) : (is.foldl Part.recomputeTier p).restT = p.restT := by
  induction is generalizing p with
  | nil => rfl
  | cons i is ih => exact (ih _).trans (p.recomputeTier_restT i)

theorem Part.recomputed_look (is : List Nat) (p : Part) (j : Nat) :
    Table.look (is.foldl Part.recomputeTier p).rentals j
      = if j ∈ is then (Table.look p.rentals j).map p.retier else Table.look p.rentals j := by
  induction is generalizing p with
  | nil => rw [if_neg List.not_mem_nil]; rfl
  | cons i is ih =>
    rw [List.foldl_cons, ih, Part.retier_of_restT (p.recomputeTier_restT i), Part.recomputeTier_look]
    have again : (p.retier ∘ p.retier) = p.retier := funext p.retier_retier
    by_cases hj : j = i <;> by_cases hmem : j ∈ is <;> simp [hj, hmem, again] <;> simp_all [Option.map_map]

theorem Part.recomputeTiers_restT (p : Part) : p.recomputeTiers.restT = p.restT := Part.recomputed_restT _ _

theorem Part.flagsRise_recomputeTiers (p : Part) : p.FlagsRise p.recomputeTiers :=
  Part.FlagsRise.foldl _ Part.flagsRise_recomputeTier _

/-- Every OPEN record of the Due List has the tier of the present minute. -/
theorem Part.recomputeTiers_tier (p : Part) {i : Nat} {r : Rental} (hi : i ∈ p.due)
    (hr : Table.look p.recomputeTiers.rentals i = some r) (hopen : r.snap = none) : r.tier = p.tierNow r := by
  have look : Table.look p.recomputeTiers.rentals i = (Table.look p.rentals i).map p.retier := by
    rw [Part.recomputeTiers, Part.recomputed_look, if_pos hi]
  rw [look, Option.map_eq_some_iff] at hr
  obtain ⟨x, -, rfl⟩ := hr
  exact Part.retier_tier hopen

end Sys2Proof.Machine
end

section
/-! PROOFS. EXTEND and RENTAL_CLOSE_MANUAL (R76, R95, R100). -/

namespace Sys2Proof.Machine
open Sys2Proof

/-! ## A response, entered or waiting -/

/-- A response that is offered is held by the TFL or is the last report, and nothing else is written. -/
theorem Part.respond_last (p : Part) (r : Report) : ∃ tfl link, p.respond r = { p with tfl := tfl, link := link }
    ∧ (tfl.held = some r ∨ link.reports.getLast? = some r) := by
  unfold Part.respond
  split
  · exact ⟨p.tfl, { p.link with reports := p.link.reports ++ [r] }, rfl, .inr (List.getLast?_concat ..)⟩
  · exact ⟨_, _, rfl, .inl rfl⟩

/-- A request whose owner answers: the part of the answer, and the response held or the last report. -/
theorem State.answersLast {s : State} {row : Instr} {f : Frame} {rest : List Frame} (owner : Part → Frame → Answer) {q : Part}
    {r : Result} {fields : List Byte} (h : s.Asks row f rest) (ho : owner (s.part.asked f rest) f = q.answer r fields) :
    ∃ tfl link u, (.next { s with part := (s.part.requestRun row owner).lampRun } : Host.Outcome State Fault Refusal) = .next u
      ∧ u.part.unlit = ({ q with tfl := tfl, link := link } : Part).unlit
      ∧ (u.part.tfl.held = some (s.part.replyTo f r fields)
        ∨ u.part.link.reports.getLast? = some (s.part.replyTo f r fields)) := by
  have response : responseReport f.origin (reqTag f.payload) f.kind r (bit (s.part.sequenceReset f) + 2 * bit false) fields
      = s.part.replyTo f r fields := by
    simp [Part.replyTo, responseReport, bit]
  obtain ⟨tfl, link, sent, last⟩ := q.respond_last (s.part.replyTo f r fields)
  have run : s.part.requestRun row owner = { q with tfl := tfl, link := link } := by
    rw [Part.requestRun_asks s row f rest owner h, ho]
    simp only [Answer.send, Part.answer]
    rw [response, sent]
  obtain ⟨u, hu, -, hunlit⟩ := State.becomes_of_eq (s := s) run
  have htfl : u.part.tfl = tfl := (congrArg Part.tfl hunlit :)
  have hlink : u.part.link = link := (congrArg Part.link hunlit :)
  exact ⟨tfl, link, u, hu, hunlit, by rw [htfl, hlink]; exact last⟩

/-! ## EXTEND -/

theorem parseExtend_payload {bs : List Byte} {tag : Byte} {n d : Nat} (hbs : bs = tag :: (beBytes 4 n ++ beBytes 3 d))
    (hn : n < 4294967296) (hd : d ≤ 16777215) : parseExtend bs = some (n, d) := by
  have hlen : bs.length = 8 := by rw [hbs]; simp
  have number : field bs 1 4 = n := field_after [tag] (beBytes 3 d) rfl hn (by rw [hbs]; simp)
  have due : field bs 5 3 = d := field_after (tag :: beBytes 4 n) [] (by simp) (by omega) (by rw [hbs]; simp)
  unfold parseExtend
  rw [if_pos hlen, number, due]

section Extend
variable {p : Part} {f : Frame} {n d i : Nat} {r : Rental} (hparse : parseExtend f.payload = some (n, d))
include hparse

theorem Part.doExtend_unknown (h : p.rentalByNumber n = none) : p.doExtend f = p.refuse .notFound := by
  simp only [Part.doExtend, hparse, h]

theorem Part.doExtend_closed (h : p.rentalByNumber n = some (i, r)) (hsnap : r.snap ≠ none) :
    p.doExtend f = p.refuse .notOpen := by
  simp only [Part.doExtend, hparse, h, Option.isSome_iff_ne_none.2 hsnap, if_true]

theorem Part.doExtend_limit (h : p.rentalByNumber n = some (i, r)) (hsnap : r.snap = none) (hext : 9 ≤ r.extensions) :
    p.doExtend f = p.refuse .limit := by
  simp only [Part.doExtend, hparse, h, hsnap, Option.isSome_none, Bool.false_eq_true, if_false, hext, if_true]

theorem Part.doExtend_granted (h : p.rentalByNumber n = some (i, r)) (hsnap : r.snap = none) (hext : r.extensions < 9)
    (hout : r.out ≤ d) : p.doExtend f = (p.extendRental i r d).answer .ok (beBytes 3 d ++ beBytes 1 (r.extensions + 1)
      ++ beBytes 1 ((p.extendRental i r d).tierNow { r with due := d }).code) := by
  simp only [Part.doExtend, hparse, h, hsnap, Option.isSome_none, Bool.false_eq_true, if_false, Nat.not_le.2 hext,
    Nat.not_lt.2 hout]

end Extend

section Extended
variable (p : Part) (i : Nat) (r : Rental) (d : Nat)

/-- The record of an EXTEND, before its tier is worked out. -/
def Part.dueMoved : Part :=
  ({ p with rentals := Table.put p.rentals i { r with due := d, extensions := r.extensions + 1 } } : Part).dueInsert i

theorem Part.extendRental_restT : (p.extendRental i r d).restT = (p.dueMoved i r d).restT :=
  Part.recomputeTier_restT _ _

theorem Part.extendRental_look (j : Nat) : Table.look (p.extendRental i r d).rentals j
    = if j = i then some (p.retier { r with due := d, extensions := r.extensions + 1 }) else Table.look p.rentals j := by
  have step := (p.dueMoved i r d).recomputeTier_look i j
  have retier : (p.dueMoved i r d).retier = p.retier := rfl
  have rentals : (p.dueMoved i r d).rentals = Table.put p.rentals i { r with due := d, extensions := r.extensions + 1 } := rfl
  rw [retier, rentals] at step
  refine step.trans ?_
  split
  · rename_i hj
    rw [hj, Table.look_put_same]
    rfl
  · rename_i hj
    exact Table.look_put_other _ _ _ _ hj

theorem Part.extendRental_due : (p.extendRental i r d).due = (p.dueMoved i r d).due :=
  (congrArg Part.due (p.extendRental_restT i r d) :)

/-- The Due List stays in its order (R95). -/
theorem Part.extendRental_ordered (h : p.DueOrdered) : (p.extendRental i r d).DueOrdered := by
  have others (j : Nat) (hj : j ≠ i) : Table.look (p.dueMoved i r d).rentals j = Table.look p.rentals j :=
    Table.look_put_other _ _ _ _ hj
  have moved : (p.dueMoved i r d).DueOrdered := by
    refine Part.dueInsert_ordered _ i ?_ ⟨fun j hj => ?_, ?_⟩
    · show (Table.look (Table.put p.rentals i _) i).isSome = true
      rw [Table.look_put_same]
      rfl
    · have hj : j ∈ p.due ∧ j ≠ i := by simpa using hj
      exact (others j hj.2).symm ▸ h.1 j hj.1
    · refine (h.2.filter _).imp_of_mem fun {j k} hj hk hjk a b ha hb => ?_
      have hj : j ≠ i := by simpa using (List.mem_filter.1 hj).2
      have hk : k ≠ i := by simpa using (List.mem_filter.1 hk).2
      exact hjk a b ((others j hj).symm.trans ha) ((others k hk).symm.trans hb)
  have look (j : Nat) : Table.look (p.extendRental i r d).rentals j
      = if j = i then (Table.look (p.dueMoved i r d).rentals j).map p.retier
        else Table.look (p.dueMoved i r d).rentals j := (p.dueMoved i r d).recomputeTier_look i j
  have kept (j : Nat) (a : Rental) (ha : Table.look (p.extendRental i r d).rentals j = some a) :
      ∃ b, Table.look (p.dueMoved i r d).rentals j = some b ∧ a.due = b.due ∧ a.number = b.number := by
    rw [look] at ha
    split at ha
    · obtain ⟨b, hb, rfl⟩ := Option.map_eq_some_iff.1 ha
      exact ⟨b, hb, p.retier_due b⟩
    · exact ⟨a, ha, rfl, rfl⟩
  unfold Part.DueOrdered
  rw [p.extendRental_due i r d]
  refine ⟨fun j hj => ?_, moved.2.imp fun {j k} hjk a b ha hb => ?_⟩
  · rw [look]
    have := moved.1 j hj
    split
    · rw [Option.isSome_map]
      exact this
    · exact this
  · obtain ⟨x, hx, xdue, xnumber⟩ := kept j a ha
    obtain ⟨y, hy, ydue, ynumber⟩ := kept k b hb
    rw [xdue, xnumber, ydue, ynumber]
    exact hjk x y hx hy

end Extended

/-! ## A rental closed -/

theorem Table.del_put {α : Type} (t : Table α) (i : Nat) (v : α) : Table.del (Table.put t i v) i = Table.del t i := by
  induction t with
  | nil => simp [Table.put, Table.del]
  | cons e t ih =>
    obtain ⟨k, w⟩ := e
    unfold Table.put
    split
    · simp [Table.del]
    · split
      · rename_i hk
        simp [Table.del, hk]
      · rename_i hk
        simp [Table.del, Ne.symm hk, ih]

/-- A rental closed where it has no alert and its RETURN may enter: the record is free, and the RETURN is the last report (R60
to R62). -/
theorem Part.closeRental_entered {p : Part} {i : Nat} {r : Rental} {x : Snapshot}
    (overdue : p.alt.find .overdue (.rental r.number) = none) (escalated : p.alt.find .escalated (.rental r.number) = none)
    (room : p.essRoom = true) : (p.closeRental i r x).unlit = (({ p with
      rentals := Table.del p.rentals i
      due := p.due.filter (fun j => j != i) } : Part).queued (p.returnReport i r x)).unlit := by
  obtain ⟨ks, hks⟩ := ({ p with rentals := Table.put p.rentals i { r with snap := some x } } : Part).touchSlotO_touch
    (p.homeOf r.key)
  unfold Part.closeRental
  dsimp only
  rw [hks, Part.remove_none (k := .overdue) (by exact overdue), Part.remove_none (k := .escalated) (by exact escalated), Part.offerReturn,
    if_pos (by exact room)]
  unfold Part.freeRental
  have freed : Table.del (Table.put p.rentals i { r with snap := some x }) i = Table.del p.rentals i := Table.del_put _ _ _
  exact congrArg (fun t => (({ p with rentals := t, due := p.due.filter (fun j => j != i) } : Part).queued
    (p.returnReport i r x)).unlit) freed

theorem Part.closeManual_entered {p : Part} {i : Nat} {r : Rental} {k : KeyRec} (hk : Table.look p.keys r.key = some k)
    (overdue : p.alt.find .overdue (.rental r.number) = none) (escalated : p.alt.find .escalated (.rental r.number) = none)
    (room : p.essRoom = true) : (p.closeManual i r).unlit = (({ p with
      keys := Table.put p.keys r.key { k with
        state := .away, loc := none, inSince := none, rental := none, away := some .manualClose }
      rentals := Table.del p.rentals i
      due := p.due.filter (fun j => j != i) } : Part).queued (p.returnReport i r (p.manualSnap r))).unlit := by
  obtain ⟨ks, hks⟩ := p.setKey_touch r.key (k.gone .away none (some .manualClose))
  unfold Part.closeManual
  simp only [hk]
  rw [hks, Part.closeRental_entered (by exact overdue) (by exact escalated) (by exact room)]
  have report : ((({ p with keys := Table.put p.keys r.key (k.gone .away none (some .manualClose)) } : Part).touch ks).returnReport
      i r (p.manualSnap r)) = p.returnReport i r (p.manualSnap r) := by
    have tag : Table.look (({ p with keys := Table.put p.keys r.key (k.gone .away none (some .manualClose)) } : Part).touch
        ks).keys r.key = some (k.gone .away none (some .manualClose)) := Table.look_put_same _ _ _
    unfold Part.returnReport
    rw [tag, hk]
    rfl
  rw [report]
  rfl

theorem Part.doCloseManual_open {p : Part} {f : Frame} {n i : Nat} {r : Rental} (hparse : parseNum 4 f.payload = some n)
    (h : p.rentalByNumber n = some (i, r)) (hsnap : r.snap = none) :
    p.doCloseManual f = (p.closeManual i r).answer .ok (beBytes 1 (p.manualSnap r).cls.code
      ++ beBytes 1 (p.manualSnap r).lateDays ++ beBytes 1 (p.manualSnap r).lateBlocks) := by
  simp only [Part.doCloseManual, hparse, h, hsnap, Option.isSome_none, Bool.false_eq_true, if_false]

/-! ## The statement -/

/-- Settles O46. -/
theorem rentalsAreExtendedAndClosed : Obligations.RentalsAreExtendedAndClosed := by
  intro s f rest tag n hn
  refine ⟨?_, ?_, ?_⟩
  · intro i r d hasks hpay hd hnumber hr hsnap hext hout tier
    have parse := parseExtend_payload hpay hn hd
    have granted := Part.doExtend_granted (p := s.part.asked f rest) parse hnumber hsnap hext hout
    have rest' := (s.part.asked f rest).extendRental_restT i r d
    have code : ((s.part.asked f rest).extendRental i r d).tierNow { r with due := d } = tier := by
      have policy : ((s.part.asked f rest).extendRental i r d).policy = s.part.policy := (congrArg Part.policy rest' :)
      have clock : ((s.part.asked f rest).extendRental i r d).clock = s.part.clock := (congrArg Part.clock rest' :)
      unfold Part.tierNow Part.now
      rw [policy, clock]
      rfl
    rw [code] at granted
    have look := (s.part.asked f rest).extendRental_look i r d
    have ordered := (s.part.asked f rest).extendRental_ordered i r d
    have due := (s.part.asked f rest).extendRental_due i r d
    have keys : ((s.part.asked f rest).extendRental i r d).keys = s.part.keys := (congrArg Part.keys rest' :)
    have clock : ((s.part.asked f rest).extendRental i r d).clock = s.part.clock := (congrArg Part.clock rest' :)
    have auths : ((s.part.asked f rest).extendRental i r d).auths = s.part.auths := (congrArg Part.auths rest' :)
    obtain ⟨tfl, link, u, hu, hunlit, last⟩ := State.answersLast Part.doExtend hasks granted
    generalize (s.part.asked f rest).extendRental i r d = q at *
    have urentals : u.part.rentals = q.rentals := (congrArg Part.rentals hunlit :)
    have udue : u.part.due = q.due := (congrArg Part.due hunlit :)
    refine ⟨u, hu, ?_, fun h => ?_, ?_, ?_, fun j hj => ?_, (congrArg Part.keys hunlit :).trans keys,
      (congrArg Part.clock hunlit :).trans clock, (congrArg Part.auths hunlit :).trans auths, last⟩
    · rw [urentals, look, if_pos rfl, Part.retier, if_pos hsnap]
      rfl
    · have := ordered h
      unfold Part.DueOrdered at this ⊢
      rw [urentals, udue]
      exact this
    · rw [udue, due]
      exact (mem_insertBy ..).2 (.inl rfl)
    · rw [udue, due]
      exact (insertBy_others ..).trans (List.filter_filter.trans (by simp [Part.asked]))
    · rw [urentals, look, if_neg hj]
      rfl
  · intro d hasks hpay hd room refused
    have parse := parseExtend_payload hpay hn hd
    refine ⟨fun h => ?_, fun i r h hsnap => ?_, fun i r h hsnap hext => ?_⟩
    · exact State.refuses Part.doExtend hasks room (Part.doExtend_unknown (p := s.part.asked f rest) parse h)
    · exact State.refuses Part.doExtend hasks room (Part.doExtend_closed (p := s.part.asked f rest) parse h hsnap)
    · exact State.refuses Part.doExtend hasks room (Part.doExtend_limit (p := s.part.asked f rest) parse h hsnap hext)
  · intro i r k hasks hpay hnumber hsnap hk reports waiters overdue escalated p x
    have parse : parseNum 4 f.payload = some n := hpay ▸ parseNum_payload tag 4 n hn
    have closes := Part.doCloseManual_open (p := s.part.asked f rest) parse hnumber hsnap
    have room : s.part.essRoom = true := (Part.essRoom_iff _).2 ⟨by omega, waiters⟩
    refine State.replies Part.doCloseManual hasks closes
      (Part.closeManual_entered (p := s.part.asked f rest) hk overdue escalated room) ?_
    refine (Part.essRoom_iff _).2 ⟨?_, waiters⟩
    show (s.part.link.reports ++ [_]).length < 64
    rw [List.length_append]
    exact Nat.succ_lt_succ reports

end Sys2Proof.Machine
end

section
/-! PROOFS. Monotonic seconds and minute ticks (R83 to R87, R96 to R99). -/

namespace Sys2Proof.Machine
open Sys2Proof

/-! ## What alerts read -/

/-- The part o with the alerts of p and all that an alert reads of it: the link, the clock, the zone and the policy. -/
def Part.graft (p o : Part) : Part :=
  { o with alt := p.alt, link := p.link, clock := p.clock, zone := p.zone, policy := p.policy }

section Graft
variable (p o : Part)

theorem Part.offerAlert_graft (i : Nat) (f : AlertFlags) : (p.graft o).offerAlert i f = (p.offerAlert i f).graft o := by
  unfold Part.offerAlert
  rw [show (p.graft o).alt = p.alt from rfl, show (p.graft o).essRoom = p.essRoom from rfl]
  cases p.alt.entryAt i with
  | none => rfl
  | some e =>
    dsimp only
    cases e.pending with
    | some g => rfl
    | none =>
      dsimp only
      cases p.essRoom <;> rfl

theorem Part.offerNotice_graft (i : Nat) (r : Report) : (p.graft o).offerNotice i r = (p.offerNotice i r).graft o := by
  unfold Part.offerNotice
  rw [show (p.graft o).essRoom = p.essRoom from rfl]
  cases p.essRoom <;> rfl

theorem Part.giveUpAlert_graft (i : Nat) : (p.graft o).giveUpAlert i = (p.giveUpAlert i).graft o := by
  unfold Part.giveUpAlert
  rw [show (p.graft o).alt = p.alt from rfl]
  cases (Table.look p.alt.notices i).isSome <;> rfl

theorem Part.register_graft (i : Nat) (k : AlertKind) (s : Subject) (d : Option Detail) :
    (p.graft o).register i k s d = (p.register i k s d).graft o := Part.offerAlert_graft { p with alt := _ } o i _

theorem Part.removeQuietly_graft (e : AlertEntry) : (p.graft o).removeQuietly e = (p.removeQuietly e).graft o := by
  unfold Part.removeQuietly
  dsimp only
  cases e.pending.isSome with
  | false => rfl
  | true => exact Part.giveUpAlert_graft { p with alt := p.alt.drop e.place } o e.place

theorem Part.raise_graft (k : AlertKind) (s : Subject) (d : Option Detail) :
    (p.graft o).raise k s d = (p.raise k s d).graft o := by
  cases find : p.alt.find k s with
  | some e =>
    cases hack : e.acked with
    | false =>
      rw [p.raise_unacked k s d find hack, (p.graft o).raise_unacked k s d find hack]
      rfl
    | true =>
      rw [p.raise_acked k s d find hack, (p.graft o).raise_acked k s d find hack]
      exact Part.offerAlert_graft { p.setFlag k.code with alt := _ } o _ _
  | none =>
    cases free : p.alt.freePlace with
    | some i =>
      rw [p.raise_free k s d find free, (p.graft o).raise_free k s d find free]
      exact (p.setFlag k.code).register_graft o i k s d
    | none =>
      cases displaced : p.alt.displaceable with
      | none =>
        rw [p.raise_full k s d find free displaced, (p.graft o).raise_full k s d find free displaced]
        rfl
      | some e =>
        rw [p.raise_displaces k s d find free displaced, (p.graft o).raise_displaces k s d find free displaced]
        have given := Part.giveUpAlert_graft { p.setFlag k.code with alt := (p.setFlag k.code).alt.drop e.place } o e.place
        have told := Part.offerNotice_graft { p.setFlag k.code with alt := (p.setFlag k.code).alt.drop e.place } o e.place
          e.droppedReport
        cases e.pending.isSome with
        | false => exact (congrArg (fun q : Part => q.register e.place k s d) told).trans (Part.register_graft _ o _ _ _ _)
        | true => exact (congrArg (fun q : Part => q.register e.place k s d) given).trans (Part.register_graft _ o _ _ _ _)

theorem Part.remove_graft (k : AlertKind) (s : Subject) : (p.graft o).remove k s = (p.remove k s).graft o := by
  cases find : p.alt.find k s with
  | none => rw [Part.remove_none find, Part.remove_none (by exact find)]
  | some e =>
    rw [Part.remove_found find, Part.remove_found (p := p.graft o) find]
    cases e.pending.isSome with
    | false => exact Part.offerNotice_graft { p with alt := p.alt.drop e.place } o _ _
    | true => exact Part.giveUpAlert_graft { p with alt := p.alt.drop e.place } o _

theorem Part.replaceAlert_graft (old new : AlertKind) (s : Subject) :
    (p.graft o).replaceAlert old new s = (p.replaceAlert old new s).graft o := by
  unfold Part.replaceAlert
  rw [show (p.graft o).alt = p.alt from rfl]
  split
  · exact p.raise_graft o _ _ _
  · rw [Part.removeQuietly_graft, Part.raise_graft]
  · rename_i e _ _
    dsimp only
    cases e.pending.isSome with
    | false => exact Part.offerAlert_graft { p.setFlag new.code with alt := _ } o _ _
    | true =>
      have given := Part.giveUpAlert_graft (p.setFlag new.code) o e.place
      rw [show (p.graft o).setFlag new.code = (p.setFlag new.code).graft o from rfl]
      simp only [if_true, given]
      exact Part.offerAlert_graft { (p.setFlag new.code).giveUpAlert e.place with alt := _ } o _ _

theorem Part.offerOrd_graft (r : Report) : (p.graft o).offerOrd r = (p.offerOrd r).graft o := by
  unfold Part.offerOrd
  rw [show (p.graft o).link = p.link from rfl]
  split
  · rfl
  · dsimp only
    split
    · rfl
    · exact Part.raise_graft { p with link := _ } o _ _ _

end Graft

/-! ## The clock at its limit (R86) -/

theorem Part.limitCheck_clock {p : Part} {m sec off : Nat} (h : p.clock = ⟨true, m, sec, off, false⟩) :
    p.limitCheck.clock = ⟨true, m, if m = 16777215 then 0 else sec, off, decide (m = 16777215)⟩ := by
  unfold Part.limitCheck
  by_cases hm : m = 16777215
  · rw [if_pos (by rw [h]; exact hm), if_pos hm, decide_eq_true hm]
    show ({ p.clock with atLimit := true, second := 0 } : Clock) = _
    rw [h]
  · rw [if_neg (by rw [h]; exact hm), if_neg hm, decide_eq_false hm, h]

theorem Part.limitCheck_flags (p : Part) (j : Nat) : p.limitCheck.alt.flags.getLsbD j
    = (p.alt.flags.getLsbD j || (decide (j = 15) && decide (p.clock.minute = 16777215))) := by
  unfold Part.limitCheck
  by_cases hm : p.clock.minute = 16777215
  · rw [if_pos (by exact hm), decide_eq_true hm, Bool.and_true]
    exact setBit_getLsbD _ (by decide) j
  · rw [if_neg (by exact hm), decide_eq_false hm, Bool.and_false, Bool.or_false]

/-- Nothing but the clock and a flag is written. -/
theorem Part.limitCheck_rest (p : Part) : ({ p.limitCheck with clock := p.clock } : Part).restA = p.restA := by
  unfold Part.limitCheck
  split <;> rfl

theorem Part.limitCheck_below {p : Part} (h : p.clock.minute ≠ 16777215) : p.limitCheck = p := if_neg h

/-! ## Zone and tiers reworked (R91, R97) -/

theorem Part.zoneEval_congr {p q : Part} (clock : q.clock = p.clock) (schedule : q.schedule = p.schedule) :
    q.zoneEval = p.zoneEval := by
  unfold Part.zoneEval
  rw [clock, schedule]

theorem Part.intervalChanged_flags (p : Part) (n : Nat) : (p.intervalChanged n).alt.flags = p.alt.flags := by
  unfold Part.intervalChanged
  repeat' split
  all_goals rfl

theorem Part.blankingChanged_touch (p r : Part) : ∃ ks, p.blankingChanged r = p.touch ks := by
  unfold Part.blankingChanged
  split
  · exact ⟨[], by unfold Part.touch; rw [List.append_nil]⟩
  · exact ⟨_, rfl⟩

/-- The zone evaluated afresh: it is written, and of the rest alerts and the modules touched. -/
theorem Part.zoneRun_leaves (p : Part) : p.zoneRun.restT = ({ p with zone := p.zoneEval } : Part).restT
    ∧ p.zoneRun.rentals = p.rentals ∧ p.zoneRun.alt.flags = p.alt.flags := by
  unfold Part.zoneRun
  split
  · rename_i same
    rw [same]
    exact ⟨rfl, rfl, rfl⟩
  · have interval := Part.intervalChanged_restA { p with zone := p.zoneEval } p.interval
    have flags := Part.intervalChanged_flags { p with zone := p.zoneEval } p.interval
    dsimp only
    generalize ({ p with zone := p.zoneEval } : Part).intervalChanged p.interval = q at *
    obtain ⟨ks, hks⟩ := q.blankingChanged_touch p
    rw [hks]
    have touched : (q.touch ks).restT = q.restT := rfl
    exact ⟨touched.trans (Part.restT_of_restA interval), (congrArg Part.rentals interval :), flags⟩

/-- Zone and tiers reworked: what stands, and the tiers. -/
theorem Part.reworked_leaves (p : Part) : p.zoneRun.recomputeTiers.restT = ({ p with zone := p.zoneEval } : Part).restT
    ∧ p.FlagsRise p.zoneRun.recomputeTiers
    ∧ ∀ i r, i ∈ p.due → Table.look p.zoneRun.recomputeTiers.rentals i = some r → r.snap = none →
      r.tier = tierOf p.policy.dueSoon p.policy.escalation r.due r.grace p.now := by
  obtain ⟨zone, -, flags⟩ := p.zoneRun_leaves
  refine ⟨(Part.recomputeTiers_restT _).trans zone,
    (Part.FlagsRise.of_flags flags).trans (Part.flagsRise_recomputeTiers _), fun i r hi hr hopen => ?_⟩
  have due : p.zoneRun.due = p.due := (congrArg Part.due zone :)
  have clock : p.zoneRun.clock = p.clock := (congrArg Part.clock zone :)
  have policy : p.zoneRun.policy = p.policy := (congrArg Part.policy zone :)
  have tier := Part.recomputeTiers_tier p.zoneRun (due ▸ hi) hr hopen
  unfold Part.tierNow Part.now at tier
  rw [clock, policy] at tier
  exact tier

/-! ## What a change of tier asks of the ALT (R98) -/

section TierAlert
variable (p : Part) (n : Nat) {old new : Tier}

/-- A tier with no alert. -/
def Tier.low (x : Tier) : Prop := x = .onTime ∨ x = .dueSoon ∨ x = .grace

theorem Part.tierAlert_toOverdue (h : old.low) : p.tierAlert n old .overdue = p.raise .overdue (.rental n) none := by
  rcases h with rfl | rfl | rfl <;> rfl

theorem Part.tierAlert_toEscalated (h : old.low) : p.tierAlert n old .escalated = p.raise .escalated (.rental n) none := by
  rcases h with rfl | rfl | rfl <;> rfl

theorem Part.tierAlert_falls (h : ¬ old.low) (hnew : new.low) :
    p.tierAlert n old new = (p.remove .overdue (.rental n)).remove .escalated (.rental n) := by
  cases old with
  | overdue => rcases hnew with rfl | rfl | rfl <;> rfl
  | escalated => rcases hnew with rfl | rfl | rfl <;> rfl
  | onTime => exact absurd (.inl rfl) h
  | dueSoon => exact absurd (.inr (.inl rfl)) h
  | grace => exact absurd (.inr (.inr rfl)) h

theorem Part.tierAlert_low (h : old.low) (hnew : new.low) : p.tierAlert n old new = p := by
  rcases h with rfl | rfl | rfl <;> rcases hnew with rfl | rfl | rfl <;> rfl

end TierAlert

/-! ## The rows -/

/-- The monotonic second that wraps the second field, by either row. -/
theorem exec_minute {s : State} (hset : s.part.clock.set = true) (running : s.part.clock.atLimit = false)
    (wraps : 59 ≤ s.part.clock.second) {row : Instr} (hrow : row ∈ [Instr.monotonicSecond, .minuteTick]) :
    exec row s = .next { s with part := s.part.toNextSecond.minuteAdvance.lampRun } := by
  have second : s.part.toNextSecond.clockSecond = s.part.toNextSecond.minuteAdvance := by
    have run : (s.part.toNextSecond.clock.set && !s.part.toNextSecond.clock.atLimit) = true := by
      show (s.part.clock.set && !s.part.clock.atLimit) = true
      rw [hset, running]
      rfl
    unfold Part.clockSecond
    rw [if_pos run, if_pos (by exact wraps)]
  have tick : s.part.minuteTick = s.part.toNextSecond.minuteAdvance := by
    unfold Part.minuteTick
    rw [if_pos]
    unfold Part.tickNext
    rw [hset, running, decide_eq_true wraps]
    rfl
  rcases List.mem_cons.1 hrow with rfl | hrow
  · show (.next { s with part := s.part.toNextSecond.clockSecond.lampRun } : Host.Outcome State Fault Refusal) = _
    rw [second]
  · cases List.mem_singleton.1 hrow
    show (.next { s with part := s.part.minuteTick.lampRun } : Host.Outcome State Fault Refusal) = _
    rw [tick]

/-- The part of a minute tick whose branch minute has gone up. -/
def Part.nextMinute (p : Part) : Part :=
  { p.toNextSecond with clock := { p.clock with second := 0, minute := p.clock.minute + 1 } }

theorem Part.minuteAdvance_eq (p : Part) : p.toNextSecond.minuteAdvance
    = (let q := p.nextMinute.limitCheck.zoneRun.recomputeTiers
       { q with
         tickRel := q.tickRel ++ [p.clock.minute + 1], tickAlt := q.tickAlt ++ [p.clock.minute + 1]
         tickCen := q.tickCen ++ [p.clock.minute + 1] }) := rfl

/-! ## One tier that changes at a tick (R98, R99) -/

/-- The part of a minute tick below the limit, with the record of place i written. -/
def Part.ticked (p : Part) (i : Nat) (r : Rental) : Part :=
  { p.nextMinute with
    rentals := Table.put p.rentals i r
    tickRel := p.tickRel ++ [p.clock.minute + 1], tickAlt := p.tickAlt ++ [p.clock.minute + 1]
    tickCen := p.tickCen ++ [p.clock.minute + 1] }

/-- What becomes of the alerts before the ticks are handed on is what becomes of them after. -/
theorem Part.ticked_alerts {p : Part} {i : Nat} {r : Rental} (F : Part → Part)
    (graft : ∀ q o, F (q.graft o) = (F q).graft o) (o : Option Nat) :
    let x := F (({ p.nextMinute with rentals := Table.put p.rentals i r } : Part).touchSlotO o)
    ({ x with
      tickRel := x.tickRel ++ [p.clock.minute + 1], tickAlt := x.tickAlt ++ [p.clock.minute + 1]
      tickCen := x.tickCen ++ [p.clock.minute + 1] } : Part).unlit = (F (p.ticked i r)).unlit := by
  obtain ⟨ks, hks⟩ := ({ p.nextMinute with rentals := Table.put p.rentals i r } : Part).touchSlotO_touch o
  rw [hks]
  have before := graft { p.nextMinute with rentals := Table.put p.rentals i r }
    (({ p.nextMinute with rentals := Table.put p.rentals i r } : Part).touch ks)
  have after := graft { p.nextMinute with rentals := Table.put p.rentals i r } (p.ticked i r)
  generalize F { p.nextMinute with rentals := Table.put p.rentals i r } = q at before after
  have left : F (({ p.nextMinute with rentals := Table.put p.rentals i r } : Part).touch ks)
      = q.graft (({ p.nextMinute with rentals := Table.put p.rentals i r } : Part).touch ks) := before
  have right : F (p.ticked i r) = q.graft (p.ticked i r) := after
  rw [left, right]
  rfl

theorem Part.tierAlert_graft (p o : Part) (n : Nat) (old new : Tier) :
    (p.graft o).tierAlert n old new = (p.tierAlert n old new).graft o := by
  have removed := (Part.remove_graft (p.remove .overdue (.rental n)) o .escalated (.rental n)).symm
  rw [← Part.remove_graft p o .overdue (.rental n)] at removed
  unfold Part.tierAlert
  dsimp only
  split
  · exact p.replaceAlert_graft o _ _ _
  · exact p.replaceAlert_graft o _ _ _
  · rfl
  · rfl
  · exact p.raise_graft o _ _ _
  · exact p.raise_graft o _ _ _
  · split
    · exact removed.symm
    · rfl

/-- What a change of the tier of record r to new asks of the ALT, and the DUE_SOON it offers. -/
def Part.tierAsks (r : Rental) (new : Tier) (report : Report) (p : Part) : Part :=
  if new = .dueSoon then (p.tierAlert r.number r.tier new).offerOrd report else p.tierAlert r.number r.tier new

theorem Part.tierAsks_graft (r : Rental) (new : Tier) (report : Report) (p o : Part) :
    (p.graft o).tierAsks r new report = (p.tierAsks r new report).graft o := by
  unfold Part.tierAsks
  rw [Part.tierAlert_graft, Part.offerOrd_graft]
  split <;> rfl

theorem Part.tierChange_asks {p : Part} {i : Nat} {r : Rental} {new : Tier} (differs : new ≠ r.tier) :
    p.tierChange i r r.tier new
      = (({ p with rentals := Table.put p.rentals i { r with tier := new } } : Part).touchSlotO (p.homeOf r.key)).tierAsks r new
        ⟨.dueSoon, 255, beBytes 4 r.number ++ beBytes 2 r.key ++ beBytes 3 r.due ++ beBytes 1 (r.due - p.now)⟩ := by
  obtain ⟨ks, hks⟩ := ({ p with rentals := Table.put p.rentals i { r with tier := new } } : Part).touchSlotO_touch
    (p.homeOf r.key)
  unfold Part.tierChange Part.tierAsks
  dsimp only
  rw [hks]
  have clock := (congrArg Part.clock (Part.tierAlert_restA
    (({ p with rentals := Table.put p.rentals i { r with tier := new } } : Part).touch ks) r.number r.tier new) :)
  generalize (({ p with rentals := Table.put p.rentals i { r with tier := new } } : Part).touch ks).tierAlert r.number r.tier
    new = q at *
  have now : q.now = p.now := by
    unfold Part.now
    rw [show q.clock = p.clock from clock]
  by_cases hnew : new = .dueSoon
  · have old : r.tier ≠ .dueSoon := fun h => differs (hnew.trans h.symm)
    rw [if_pos ⟨hnew, old⟩, if_pos hnew]
    unfold Part.dueSoonReport
    rw [now]
    rfl
  · rw [if_neg fun h => hnew h.1, if_neg hnew]

/-- The minute tick below the limit, at which the zone stands and the one record of the Due List changes its tier. -/
theorem Part.minuteAdvance_oneTier {p : Part} {i : Nat} {r : Rental} (below : p.clock.minute + 1 ≠ 16777215)
    (zone : p.nextMinute.zoneEval = p.zone) (due : p.due = [i]) (hr : Table.look p.rentals i = some r) (hopen : r.snap = none)
    (differs : p.nextMinute.tierNow r ≠ r.tier) :
    p.toNextSecond.minuteAdvance.unlit = ((p.ticked i { r with tier := p.nextMinute.tierNow r }).tierAsks r
      (p.nextMinute.tierNow r) ⟨.dueSoon, 255,
        beBytes 4 r.number ++ beBytes 2 r.key ++ beBytes 3 r.due ++ beBytes 1 (r.due - p.nextMinute.now)⟩).unlit := by
  have limit : p.nextMinute.limitCheck = p.nextMinute := Part.limitCheck_below below
  have zoned : p.nextMinute.zoneRun = p.nextMinute := if_pos zone
  have one : p.nextMinute.recomputeTiers = p.nextMinute.recomputeTier i := by
    unfold Part.recomputeTiers
    rw [show p.nextMinute.due = [i] from due]
    rfl
  have tier : p.nextMinute.recomputeTier i = p.nextMinute.tierChange i r r.tier (p.nextMinute.tierNow r) := by
    unfold Part.recomputeTier
    rw [show Table.look p.nextMinute.rentals i = some r from hr]
    exact if_neg (not_or.2 ⟨by rw [hopen]; nofun, differs⟩)
  rw [Part.minuteAdvance_eq, limit, zoned, one, tier, Part.tierChange_asks differs]
  exact Part.ticked_alerts (Part.tierAsks r _ _) (Part.tierAsks_graft r _ _) _

/-- The cases of R98 and R99. -/
theorem Part.tierTold_of_asks {p : Part} {r : Rental} {new : Tier} {becomes : Part → Prop} (differs : new ≠ r.tier)
    (h : becomes (p.tierAsks r new ⟨.dueSoon, 255,
      beBytes 4 r.number ++ beBytes 2 r.key ++ beBytes 3 r.due ++ beBytes 1 (r.due - p.now)⟩)) : p.TierTold r new becomes := by
  unfold Part.tierAsks at h
  refine ⟨fun low hnew => ?_, fun low hnew => ?_, fun old hnew => ?_, fun old hnew => ?_, fun high low => ?_,
    fun low hlow => ?_⟩
  · rw [hnew, if_neg nofun, Part.tierAlert_toOverdue _ _ low] at h
    exact h
  · rw [hnew, if_neg nofun, Part.tierAlert_toEscalated _ _ low] at h
    exact h
  · rw [hnew, old, if_neg nofun] at h
    exact h
  · rw [hnew, old, if_neg nofun] at h
    exact h
  · rw [Part.tierAlert_falls _ _ high low] at h
    refine ⟨fun hnew => ?_, fun hnew => ?_⟩
    · rw [if_neg hnew] at h
      exact h
    · rw [if_pos hnew] at h
      exact h
  · rw [Part.tierAlert_low _ _ low hlow] at h
    refine ⟨fun hnew => ?_, fun hnew => ?_⟩
    · rw [if_neg hnew] at h
      exact h
    · rw [if_pos hnew] at h
      exact h

/-! ## The statement -/

/-- Settles O44. -/
theorem secondsMakeMinuteTicks : Obligations.SecondsMakeMinuteTicks := by
  intro s next c
  refine ⟨fun stands => ?_, fun hset running below => ?_, ?_, ?_⟩
  · refine State.becomes_of_eq (q := s.part.toNextSecond.clockSecond) (if_neg ?_)
    show ¬ (s.part.clock.set && !s.part.clock.atLimit) = true
    rcases stands with h | h <;> simp [c] at h <;> simp [h]
  · refine State.becomes_of_eq (q := s.part.toNextSecond.clockSecond) ?_
    have run : (s.part.clock.set && !s.part.clock.atLimit) = true := by
      simp only [c] at hset running
      rw [hset, running]
      rfl
    exact (if_pos run).trans (if_neg (Nat.not_le.2 below))
  · intro hset running wraps row hrow clock
    rw [exec_minute hset running wraps hrow]
    have given : s.part.nextMinute.clock = ⟨true, c.minute + 1, 0, c.dayOffset, false⟩ := by
      rw [← hset, ← running]
      rfl
    have limit : s.part.nextMinute.limitCheck.clock = clock := by
      rw [Part.limitCheck_clock given, ite_self]
    have flags := s.part.nextMinute.limitCheck_flags
    have same := s.part.nextMinute.limitCheck_rest
    obtain ⟨u, hu, -, hunlit⟩ := State.becomes_of_eq (s := s) s.part.minuteAdvance_eq
    generalize s.part.nextMinute.limitCheck = q at *
    obtain ⟨left, rise, tiers⟩ := q.reworked_leaves
    generalize q.zoneRun.recomputeTiers = t at *
    have qdue : q.due = s.part.due := (congrArg Part.due same :)
    have qpolicy : q.policy = s.part.policy := (congrArg Part.policy same :)
    have udue : u.part.due = q.due := (congrArg Part.due hunlit :).trans (congrArg Part.due left :)
    have urentals : u.part.rentals = t.rentals := (congrArg Part.rentals hunlit :)
    have uflags : u.part.alt = t.alt := (congrArg Part.alt hunlit :)
    have now : q.now = c.minute + 1 := by
      unfold Part.now
      rw [limit]
      rfl
    refine ⟨u, hu, ((congrArg Part.clock hunlit :).trans (congrArg Part.clock left :)).trans limit,
      ((congrArg Part.mono hunlit :).trans (congrArg Part.mono left :)).trans (congrArg Part.mono same :),
      ((congrArg Part.zone hunlit :).trans (congrArg Part.zone left :)).trans
        (Part.zoneEval_congr limit (congrArg Part.schedule same :)), ?_, ?_, ?_, ?_, fun i r hi hr hopen => ?_,
      ((congrArg Part.auths hunlit :).trans (congrArg Part.auths left :)).trans (congrArg Part.auths same :),
      ((congrArg Part.cen hunlit :).trans (congrArg Part.cen left :)).trans (congrArg Part.cen same :),
      ((congrArg Part.keys hunlit :).trans (congrArg Part.keys left :)).trans (congrArg Part.keys same :),
      udue.trans qdue⟩
    · rw [uflags, rise.clock 15 (by decide), flags, decide_eq_true rfl, Bool.true_and]
      rfl
    · have ticks : t.tickRel = s.part.tickRel := (congrArg Part.tickRel left :).trans (congrArg Part.tickRel same :)
      exact (congrArg Part.tickRel hunlit :).trans (congrArg (· ++ [c.minute + 1]) ticks :)
    · have ticks : t.tickAlt = s.part.tickAlt := (congrArg Part.tickAlt left :).trans (congrArg Part.tickAlt same :)
      exact (congrArg Part.tickAlt hunlit :).trans (congrArg (· ++ [c.minute + 1]) ticks :)
    · have ticks : t.tickCen = s.part.tickCen := (congrArg Part.tickCen left :).trans (congrArg Part.tickCen same :)
      exact (congrArg Part.tickCen hunlit :).trans (congrArg (· ++ [c.minute + 1]) ticks :)
    · have tier := tiers i r (udue ▸ hi) (urentals ▸ hr) hopen
      rw [qpolicy, now] at tier
      exact tier
  · intro hset running wraps below zone i r due hr hopen new differs row hrow after
    have now : s.part.nextMinute.now = c.minute + 1 := if_pos hset
    have tier : s.part.nextMinute.tierNow r = new := by
      unfold Part.tierNow
      rw [now]
      rfl
    have told := Part.minuteAdvance_oneTier below zone due hr hopen (tier.symm ▸ differs)
    rw [tier] at told
    rw [exec_minute hset running wraps hrow]
    exact Part.tierTold_of_asks differs (State.becomes_of_unlit told)

end Sys2Proof.Machine
end

section
/-! PROOFS. What a re-alert is owed through the ticks that come before it (R111, R114). -/

namespace Sys2Proof.Machine
open Sys2Proof

/-- An UNACKED entry of kind k stands in place i, its next re-alert at or below minute t, or the flag of its kind is set; and
places differ. -/
def Alt.Rings (a : Alt) (k : AlertKind) (i t : Nat) : Prop :=
  (a.entries.map (·.place)).Nodup ∧ (a.flags.getLsbD k.code = true
    ∨ ∃ e ∈ a.entries, e.place = i ∧ e.kind = k ∧ e.acked = false ∧ ∃ n, e.next = some n ∧ n ≤ t)

namespace Alt.Rings
variable {a b : Alt} {k : AlertKind} {i t : Nat}

/-- The entries changed in their place, the one of place i not in what it owes. -/
theorem map (h : a.Rings k i t) (f : AlertEntry → AlertEntry) (entries : b.entries = a.entries.map f)
    (flags : ∀ j, a.flags.getLsbD j = true → b.flags.getLsbD j = true) (place : ∀ e ∈ a.entries, (f e).place = e.place)
    (same : ∀ e ∈ a.entries, e.place = i → b.flags.getLsbD k.code = true
      ∨ ((f e).kind = e.kind ∧ (f e).acked = e.acked ∧ (f e).next = e.next)) : b.Rings k i t := by
  obtain ⟨places, owed⟩ := h
  refine ⟨?_, ?_⟩
  · rw [entries, List.map_map, List.map_congr_left (g := (·.place)) place]
    exact places
  · rcases owed with set | ⟨e, he, hplace, hkind, hack, n, hn, hle⟩
    · exact .inl (flags _ set)
    · rcases same e he hplace with set | ⟨kind, acked, next⟩
      · exact .inl set
      · refine .inr ⟨f e, entries ▸ List.mem_map_of_mem he, (place e he).trans hplace, kind.trans hkind, acked.trans hack, n,
          next.trans hn, hle⟩

/-- An entry that is not the one owed leaves, or goes to the youngest end of the order, or a new one comes to its place. -/
theorem filter (h : a.Rings k i t) (l : List AlertEntry) (x : Nat) (entries : b.entries = a.entries.filter (fun e => e.place != x) ++ l)
    (flags : ∀ j, a.flags.getLsbD j = true → b.flags.getLsbD j = true) (one : l = [] ∨ ∃ y, l = [y] ∧ y.place = x)
    (other : ∀ e ∈ a.entries, e.place = x → e.kind ≠ k ∨ e.acked = true) : b.Rings k i t := by
  obtain ⟨places, owed⟩ := h
  refine ⟨?_, ?_⟩
  · have kept : ((a.entries.filter (fun e => e.place != x)).map (·.place)).Nodup := places.sublist (List.filter_sublist.map _)
    rw [entries, List.map_append]
    rcases one with rfl | ⟨y, rfl, hy⟩
    · simpa using kept
    · rw [List.map_singleton, List.nodup_append]
      refine ⟨kept, List.nodup_singleton _, fun p hp q hq => ?_⟩
      rw [List.mem_singleton] at hq
      obtain ⟨e, he, rfl⟩ := List.mem_map.1 hp
      rw [hq, hy]
      simpa using (List.mem_filter.1 he).2
  · rcases owed with set | ⟨e, he, hplace, hkind, hack, owed⟩
    · exact .inl (flags _ set)
    · refine .inr ⟨e, entries ▸ List.mem_append_left _ (List.mem_filter.2 ⟨he, ?_⟩), hplace, hkind, hack, owed⟩
      rw [bne_iff_ne]
      intro hx
      rcases other e he hx with h | h
      · exact h hkind
      · rw [hack] at h
        cases h

end Alt.Rings

section Rings
variable {p : Part} {k : AlertKind} {i t : Nat}

theorem Part.rings_offerAlert (h : p.alt.Rings k i t) (j : Nat) (f : AlertFlags) : (p.offerAlert j f).alt.Rings k i t := by
  unfold Part.offerAlert
  have pending (g : AlertFlags) : (p.alt.modify j (fun e => { e with pending := some g })).Rings k i t := by
    refine h.map (fun e => if e.place = j then { e with pending := some g } else e) rfl (fun _ => id) (fun e _ => ?_)
      fun e _ _ => .inr ?_
    · split <;> rfl
    · split <;> exact ⟨rfl, rfl, rfl⟩
  split
  · exact h
  · split
    · rename_i g _
      refine h.map (fun e => if e.place = j then { e with pending := some (g.join f) } else e) rfl (fun _ => id) (fun e _ => ?_)
        fun e _ _ => .inr ?_
      · split <;> rfl
      · split <;> exact ⟨rfl, rfl, rfl⟩
    · split
      · exact h
      · exact pending f

theorem Part.rings_setFlag (h : p.alt.Rings k i t) (j : Nat) : (p.setFlag j).alt.Rings k i t := by
  refine h.map id (List.map_id _).symm (fun x hx => ?_) (fun _ _ => rfl) fun _ _ _ => .inr ⟨rfl, rfl, rfl⟩
  show (setBit p.alt.flags j).getLsbD x = true
  unfold setBit
  rw [BitVec.getLsbD_or, hx]
  rfl

theorem Alt.mem_of_displaceable {a : Alt} {e : AlertEntry} (h : a.displaceable = some e) : e ∈ a.entries ∧ e.acked = true := by
  have := List.find?_some h
  rw [Bool.and_eq_true] at this
  exact ⟨List.mem_of_find?_eq_some h, this.1⟩

/-- Entries of one place are one. -/
theorem Alt.eq_of_place {a : Alt} (h : (a.entries.map (·.place)).Nodup) {e x : AlertEntry} (he : e ∈ a.entries)
    (hx : x ∈ a.entries) (same : e.place = x.place) : e = x := List.inj_on_of_nodup_map h he hx same

theorem Alt.Rings.of_entries {a b : Alt} (h : a.Rings k i t) (entries : b.entries = a.entries) (flags : b.flags = a.flags) :
    b.Rings k i t :=
  h.map id (entries.trans (List.map_id _).symm) (fun _ hj => flags ▸ hj) (fun _ _ => rfl) fun _ _ _ => .inr ⟨rfl, rfl, rfl⟩

/-- A new entry in a place that no entry holds. -/
theorem Part.rings_register (h : p.alt.Rings k i t) {j : Nat} (clear : ∀ y ∈ p.alt.entries, y.place ≠ j) (x : AlertKind)
    (s : Subject) (d : Option Detail) : (p.register j x s d).alt.Rings k i t := by
  unfold Part.register
  refine Part.rings_offerAlert ?_ _ _
  exact h.filter _ j rfl (fun _ => id) (.inr ⟨_, rfl, rfl⟩) fun y hy hp => absurd hp (clear y hy)

theorem Part.rings_raise (h : p.alt.Rings k i t) (x : AlertKind) (s : Subject) (d : Option Detail) :
    (p.raise x s d).alt.Rings k i t := by
  have set := Part.rings_setFlag h x.code
  cases find : p.alt.find x s with
  | some e =>
    obtain ⟨hmem, -, -⟩ := Alt.mem_of_find find
    cases hack : e.acked with
    | false =>
      rw [p.raise_unacked x s d find hack]
      refine set.map (fun y => if y.place = e.place then { e with detail := d.orElse (fun _ => e.detail) } else y) rfl
        (fun _ => id) (fun y _ => ?_) fun y hy hplace => .inr ?_
      · split
        · rename_i hp
          exact hp.symm
        · rfl
      · split
        · rename_i hp
          rw [Alt.eq_of_place set.1 hy hmem hp]
          exact ⟨rfl, rfl, rfl⟩
        · exact ⟨rfl, rfl, rfl⟩
    | true =>
      rw [p.raise_acked x s d find hack]
      refine Part.rings_offerAlert ?_ _ _
      refine set.filter _ e.place rfl (fun _ => id) (.inr ⟨_, rfl, rfl⟩) fun y hy hp => .inr ?_
      rw [Alt.eq_of_place set.1 hy hmem hp]
      exact hack
  | none =>
    cases free : p.alt.freePlace with
    | some j =>
      rw [p.raise_free x s d find free]
      exact Part.rings_register set (Alt.freePlace_free free).1 x s d
    | none =>
      cases displaced : p.alt.displaceable with
      | none =>
        rw [p.raise_full x s d find free displaced]
        exact Part.rings_setFlag set _
      | some e =>
        obtain ⟨hmem, hack⟩ := Alt.mem_of_displaceable displaced
        rw [p.raise_displaces x s d find free displaced]
        have dropped : ((p.setFlag x.code).alt.drop e.place).Rings k i t := by
          refine set.filter [] e.place (List.append_nil _).symm (fun _ => id) (.inl rfl) fun y hy hp => .inr ?_
          rw [Alt.eq_of_place set.1 hy hmem hp]
          exact hack
        have gone : ∀ y ∈ ((p.setFlag x.code).alt.drop e.place).entries, y.place ≠ e.place := fun y hy => by
          simpa using (List.mem_filter.1 hy).2
        dsimp only
        cases e.pending.isSome with
        | true =>
          rw [if_pos rfl]
          have entries := Part.giveUpAlert_alt { p.setFlag x.code with alt := (p.setFlag x.code).alt.drop e.place } e.place
          refine Part.rings_register (Alt.Rings.of_entries dropped (congrArg Alt.entries entries) (congrArg Alt.flags entries))
            (fun y hy => gone y ?_) x s d
          rw [entries] at hy
          exact hy
        | false =>
          rw [if_neg nofun]
          have entries := Part.offerNotice_entries { p.setFlag x.code with alt := (p.setFlag x.code).alt.drop e.place } e.place
            e.droppedReport
          refine Part.rings_register (Alt.Rings.of_entries dropped entries (Part.offerNotice_flags _ _ _))
            (fun y hy => gone y ?_) x s d
          rw [entries] at hy
          exact hy

theorem Part.rings_offerOrd (h : p.alt.Rings k i t) (r : Report) : (p.offerOrd r).alt.Rings k i t := by
  unfold Part.offerOrd
  split
  · exact h
  · dsimp only
    split
    · exact h
    · refine Part.rings_raise ?_ _ _ _
      exact h

/-- The removal of entries of another kind. -/
theorem Part.rings_remove (h : p.alt.Rings k i t) {x : AlertKind} (hx : x ≠ k) (s : Subject) : (p.remove x s).alt.Rings k i t := by
  cases find : p.alt.find x s with
  | none =>
    rw [Part.remove_none find]
    exact h
  | some e =>
    obtain ⟨hmem, hkind, -⟩ := Alt.mem_of_find find
    obtain ⟨-, entries, -⟩ := removeWithdrawsTheEntry p x s e find
    refine h.filter [] e.place (entries.trans (List.append_nil _).symm) (fun j hj => (p.remove_flags x s).symm ▸ hj) (.inl rfl)
      fun y hy hp => .inl ?_
    rw [Alt.eq_of_place h.1 hy hmem hp, hkind]
    exact hx

theorem Alt.entryAt_some {a : Alt} {e : AlertEntry} (h : a.entryAt i = some e) : e ∈ a.entries ∧ e.place = i :=
  ⟨List.mem_of_find?_eq_some h, by simpa using List.find?_some h⟩

/-- The re-alerts of places at a minute m. -/
theorem Part.rings_reAlertPlace (h : p.alt.Rings k i t) (m j : Nat) : (Part.reAlertPlace m p j).alt.Rings k i t := by
  unfold Part.reAlertPlace
  split
  · exact h
  · rename_i e he
    obtain ⟨hmem, hplace⟩ := Alt.entryAt_some he
    split
    · refine Part.rings_offerAlert ?_ _ _
      have set := Part.rings_setFlag h e.kind.code
      refine set.map (fun x => if x.place = j then { x with next := (p.setFlag e.kind.code).nextAfter m } else x) rfl
        (fun _ => id) (fun x _ => ?_) fun x hx hi => ?_
      · split <;> rfl
      · by_cases hp : x.place = j
        · by_cases hk : e.kind = k
          · refine .inl ?_
            rw [← hk]
            exact (Part.setFlag_flags p e.kind.code_lt _).trans (by simp)
          · rcases set.2 with flag | ⟨y, hy, yplace, ykind, -⟩
            · exact .inl flag
            · have : y = e := Alt.eq_of_place set.1 hy hmem (yplace.trans (hi.symm.trans (hp.trans hplace.symm)))
              exact absurd (this ▸ ykind) hk
        · exact .inr (by rw [if_neg hp]; exact ⟨rfl, rfl, rfl⟩)
    · exact h

theorem Part.rings_reAlerts (js : List Nat) (h : p.alt.Rings k i t) (m : Nat) :
    (js.foldl (Part.reAlertPlace m) p).alt.Rings k i t := by
  induction js generalizing p with
  | nil => exact h
  | cons j js ih => exact ih (Part.rings_reAlertPlace h m j)

/-- At a tick of minute t the owed re-alert comes. -/
theorem Part.reAlertPlace_flag (h : p.alt.Rings k i t) {m : Nat} (hm : t ≤ m) :
    (Part.reAlertPlace m p i).alt.flags.getLsbD k.code = true := by
  rcases h.2 with set | ⟨e, he, hplace, hkind, hack, n, hn, hle⟩
  · exact (p.flagsRise_reAlertPlace m i).rise _ set
  · have at_ : p.alt.entryAt i = some e := by
      cases find : p.alt.entryAt i with
      | none =>
        have := List.find?_eq_none.1 find e he
        simp [hplace] at this
      | some x =>
        obtain ⟨hmem, hx⟩ := Alt.entryAt_some find
        rw [Alt.eq_of_place h.1 he hmem (hplace.trans hx.symm)]
    have due : (!e.acked && e.next.any (fun n => decide (n ≤ m))) = true := by
      rw [hack, hn]
      simp only [Bool.not_false, Option.any_some, Bool.true_and, decide_eq_true_eq]
      omega
    have run : Part.reAlertPlace m p i = ({ p.setFlag e.kind.code with
        alt := (p.setFlag e.kind.code).alt.modify i (fun x => { x with next := (p.setFlag e.kind.code).nextAfter m }) } : Part).offerAlert i
        ⟨true, false, false⟩ := by
      unfold Part.reAlertPlace
      rw [at_]
      exact if_pos due
    rw [run, Part.offerAlert_flags, ← hkind]
    exact (Part.setFlag_flags p e.kind.code_lt _).trans (by simp)

theorem Part.reAlertAll_flag (h : p.alt.Rings k i t) {m : Nat} (hm : t ≤ m) :
    (p.reAlertAll m).alt.flags.getLsbD k.code = true := by
  have rises (q : Part) (l : List Nat) : q.FlagsRise (l.foldl (Part.reAlertPlace m) q) :=
    Part.FlagsRise.foldl _ (Part.flagsRise_reAlertPlace m) l
  unfold Part.reAlertAll
  rcases h.2 with set | ⟨e, he, hplace, -⟩
  · exact (rises p _).rise _ set
  · have hi : i ∈ p.alt.entries.map (·.place) := hplace ▸ List.mem_map_of_mem he
    obtain ⟨pre, post, split⟩ := List.append_of_mem hi
    rw [split, List.foldl_append, List.foldl_cons]
    exact (rises _ post).rise _ (Part.reAlertPlace_flag (Part.rings_reAlerts pre h m) hm)

/-- Of several ticks one at minute t suffices. -/
theorem Part.reAlertsAll_flag {ms : List Nat} (h : p.alt.Rings k i t) (ht : t ∈ ms) :
    (ms.foldl Part.reAlertAll p).alt.flags.getLsbD k.code = true := by
  induction ms generalizing p with
  | nil => exact absurd ht List.not_mem_nil
  | cons m ms ih =>
    rw [List.foldl_cons]
    rcases List.mem_cons.1 ht with rfl | ht
    · refine Part.FlagsRise.rise (Part.FlagsRise.foldl _ (fun q m => ?_) ms) _ (Part.reAlertAll_flag h (Nat.le_refl _))
      exact Part.FlagsRise.foldl _ (Part.flagsRise_reAlertPlace m) _
    · exact ih (Part.rings_reAlerts _ h m) ht

end Rings

end Sys2Proof.Machine
end

section
/-! PROOFS. What the census leaves unchanged, and the setting of the clock (R88, R89). -/

namespace Sys2Proof.Machine
open Sys2Proof

/-! ## What a sweep leaves -/

/-- The part but for alerts, the link, the census and the two queues: what a sweep leaves. -/
def Part.restC (p : Part) : Part := { p.restA with
  cen := ⟨.idle, none, none, none, none, none, none, false, none, false, false, false, false, CenCounts.zero, 0, none, []⟩
  chanA := { p.chanA with queue := [] }, chanB := { p.chanB with queue := [] } }

theorem Part.restC_of_restA {p q : Part} (h : q.restA = p.restA) : q.restC = p.restC := by
  have chanA : q.chanA = p.chanA := (congrArg Part.chanA h :)
  have chanB : q.chanB = p.chanB := (congrArg Part.chanB h :)
  unfold Part.restC
  rw [h, chanA, chanB]

theorem Part.onCen_restC (p : Part) (f : Cen → Cen) : (p.onCen f).restC = p.restC := rfl

theorem Part.flagsRise_onCen (p : Part) (f : Cen → Cen) : p.FlagsRise (p.onCen f) := .of_flags rfl

theorem Part.onChan_restC (p : Part) (c : Chan) {f : Channel → Channel}
    (h : ∀ ch, ({ f ch with queue := [] } : Channel) = { ch with queue := [] }) : (p.onChan c f).restC = p.restC := by
  cases c with
  | A => exact congrArg (fun x => ({ p.restC with chanA := x } : Part)) (h p.chanA)
  | B => exact congrArg (fun x => ({ p.restC with chanB := x } : Part)) (h p.chanB)

theorem Part.mismatch_restC (p : Part) (m : Mismatch) : (p.mismatch m).restC = p.restC := rfl

theorem Part.unverified_leaves (slots : List Nat) (p : Part) :
    (p.unverified slots).restC = p.restC ∧ (p.unverified slots).alt = p.alt := by
  unfold Part.unverified
  induction slots generalizing p with
  | nil => exact ⟨rfl, rfl⟩
  | cons s slots ih =>
    rw [List.foldl_cons]
    obtain ⟨rest, alt⟩ := ih (match p.keyAt s with
      | some (h, _) => p.mismatch ⟨.unverified, s, some h, none, none, none⟩
      | none => p)
    refine ⟨rest.trans ?_, alt.trans ?_⟩
    · split <;> rfl
    · split <;> rfl

theorem Part.moduleUnverified_leaves (p : Part) (c : Chan) (a : Nat) :
    (p.moduleUnverified c a).restC = p.restC ∧ (p.moduleUnverified c a).alt = p.alt :=
  Part.unverified_leaves (p.moduleSlots c a) p

theorem Part.reachLost_leaves (p : Part) (c : Chan) : (p.reachLost c).restC = p.restC ∧ (p.reachLost c).alt = p.alt := by
  cases c with
  | A => unfold Part.reachLost; dsimp only; split <;> exact ⟨rfl, rfl⟩
  | B => unfold Part.reachLost; dsimp only; split <;> exact ⟨rfl, rfl⟩

theorem Part.offerRead_leaves (p : Part) (c : Chan) (a : Nat) :
    (p.offerRead c a).restC = p.restC ∧ (p.offerRead c a).alt = p.alt := by
  unfold Part.offerRead
  split
  · refine ⟨(Part.onCen_restC _ _).trans (Part.onChan_restC _ _ fun _ => rfl), ?_⟩
    cases c <;> rfl
  · exact ⟨rfl, rfl⟩

theorem Part.cenEnd_leaves (p : Part) (o : Outcome) (st : CenState) :
    (p.cenEnd o st).restC = p.restC ∧ p.FlagsRise (p.cenEnd o st) := by
  unfold Part.cenEnd
  dsimp only
  have done : p.FlagsRise (p.onCen fun c =>
      { c with state := st, outcome := some o, endMin := some p.now, pos := none, deferred := false }) := .of_flags rfl
  have same : (p.onCen fun c =>
      { c with state := st, outcome := some o, endMin := some p.now, pos := none, deferred := false }).restC = p.restC := rfl
  generalize (p.onCen fun c =>
      { c with state := st, outcome := some o, endMin := some p.now, pos := none, deferred := false }) = q at *
  have offered := (Part.restC_of_restA (Part.offerOrd_restA q q.cen.doneReport)).trans same
  have told := done.trans (Part.flagsRise_offerOrd q q.cen.doneReport)
  generalize q.offerOrd q.cen.doneReport = t at *
  split
  · exact ⟨(Part.restC_of_restA (Part.raise_restA _ _ _ _)).trans offered, told.trans (Part.flagsRise_raise _ _ _ _)⟩
  · split
    · exact ⟨(Part.restC_of_restA (Part.remove_restA _ _ _)).trans offered, told.trans (Part.flagsRise_remove _ _ _)⟩
    · exact ⟨offered, told⟩

theorem sweepOn_leaves (l : List (Chan × Nat)) (p : Part) : (sweepOn l p).restC = p.restC ∧ p.FlagsRise (sweepOn l p) := by
  induction l generalizing p with
  | nil => exact p.cenEnd_leaves .complete .idle
  | cons x l ih =>
    obtain ⟨c, a⟩ := x
    obtain ⟨reached, alt⟩ := p.reachLost_leaves c
    have on := Part.FlagsRise.of_flags (congrArg Alt.flags alt)
    unfold sweepOn
    dsimp only
    generalize p.reachLost c = q at *
    split
    · exact ⟨(ih q).1.trans reached, on.trans (ih q).2⟩
    · split
      · obtain ⟨read, readAlt⟩ := (q.onCen (fun n => { n with pos := some (c, a), read := some .notSent })).offerRead_leaves c a
        exact ⟨(read.trans (Part.onCen_restC _ _)).trans reached, on.trans (.of_flags (congrArg Alt.flags readAlt))⟩
      · obtain ⟨counted, countedAlt⟩ := q.moduleUnverified_leaves c a
        exact ⟨((ih _).1.trans counted).trans reached,
          (on.trans (.of_flags (congrArg Alt.flags countedAlt))).trans (ih _).2⟩

theorem Part.cenStart_leaves (p : Part) (cause : CenCause) (sc : Scope) :
    (p.cenStart cause sc).restC = p.restC ∧ p.FlagsRise (p.cenStart cause sc) := by
  obtain ⟨swept, rise⟩ := sweepOn_leaves (scopeSweep sc) (p.onCen (fun c => { c with
    list := [], counts := CenCounts.zero, lostA := false, lostB := false, pendA := false, pendB := false
    cause := some cause, scope := some sc, startMin := some p.now, endMin := none, outcome := none
    state := .sweeping, pos := none, read := none, deferred := false
    nextStart := if p.policy.censusInterval = 0 then c.nextStart else some (p.now + p.policy.censusInterval) }))
  exact ⟨swept.trans (Part.onCen_restC _ _), (Part.flagsRise_onCen p _).trans rise⟩

theorem Part.cenTick_leaves (p : Part) (m : Nat) : (p.cenTick m).restC = p.restC ∧ p.FlagsRise (p.cenTick m) := by
  unfold Part.cenTick
  dsimp only
  repeat' split
  all_goals first
    | exact ⟨rfl, .of_flags rfl⟩
    | exact p.cenStart_leaves _ _

/-! ## What the ticks leave -/

/-- From p to q the blocks have taken ticks: clock and zone, records, rows, contexts and policy stand, flags only rise. -/
structure Part.Ticks (p q : Part) : Prop where
  mono : q.mono = p.mono
  clock : q.clock = p.clock
  zone : q.zone = p.zone
  schedule : q.schedule = p.schedule
  policy : q.policy = p.policy
  due : q.due = p.due
  rows : q.rows = p.rows
  ctxs : q.ctxs = p.ctxs
  rentals : q.rentals = p.rentals
  ticks : q.tickRel = p.tickRel ∧ q.tickAlt = p.tickAlt ∧ q.tickCen = p.tickCen
  flags : p.FlagsRise q

theorem Part.Ticks.refl (p : Part) : p.Ticks p := ⟨rfl, rfl, rfl, rfl, rfl, rfl, rfl, rfl, rfl, ⟨rfl, rfl, rfl⟩, .refl p⟩

theorem Part.Ticks.trans {p q r : Part} (h : p.Ticks q) (k : q.Ticks r) : p.Ticks r where
  mono := k.mono.trans h.mono
  clock := k.clock.trans h.clock
  zone := k.zone.trans h.zone
  schedule := k.schedule.trans h.schedule
  policy := k.policy.trans h.policy
  due := k.due.trans h.due
  rows := k.rows.trans h.rows
  ctxs := k.ctxs.trans h.ctxs
  rentals := k.rentals.trans h.rentals
  ticks := ⟨k.ticks.1.trans h.ticks.1, k.ticks.2.1.trans h.ticks.2.1, k.ticks.2.2.trans h.ticks.2.2⟩
  flags := h.flags.trans k.flags

theorem Part.Ticks.foldl {α : Type} (f : Part → α → Part) (step : ∀ q a, Part.Ticks q (f q a)) (l : List α) (p : Part) :
    p.Ticks (l.foldl f p) := by
  induction l generalizing p with
  | nil => exact .refl p
  | cons a l ih => exact (step p a).trans (ih _)

theorem Part.Ticks.of_restC {p q : Part} (h : q.restC = p.restC) (flags : p.FlagsRise q) : p.Ticks q :=
  ⟨(congrArg Part.mono h :), (congrArg Part.clock h :), (congrArg Part.zone h :), (congrArg Part.schedule h :),
    (congrArg Part.policy h :), (congrArg Part.due h :), (congrArg Part.rows h :), (congrArg Part.ctxs h :),
    (congrArg Part.rentals h :), ⟨(congrArg Part.tickRel h :), (congrArg Part.tickAlt h :), (congrArg Part.tickCen h :)⟩, flags⟩

theorem Part.Ticks.of_restA {p q : Part} (h : q.restA = p.restA) (flags : p.FlagsRise q) : p.Ticks q :=
  .of_restC (Part.restC_of_restA h) flags

theorem Part.ticks_authExpire (m : Nat) (p : Part) (n : Nat) : p.Ticks (Part.authExpire m p n) := by
  unfold Part.authExpire
  split
  · exact .refl p
  · rename_i a _
    split
    · exact .refl p
    · obtain ⟨keys, ks, restored⟩ := (p.delAuth n).restoreTarget_touch a.target
      rw [restored]
      have freed : p.Ticks (({ p.delAuth n with keys := keys } : Part).touch ks) :=
        ⟨rfl, rfl, rfl, rfl, rfl, rfl, rfl, rfl, rfl, ⟨rfl, rfl, rfl⟩, .of_flags rfl⟩
      have removed := Part.Ticks.of_restA (Part.remove_restA (({ p.delAuth n with keys := keys } : Part).touch ks) .lockout
        (.rental n)) (Part.flagsRise_remove _ _ _)
      generalize (({ p.delAuth n with keys := keys } : Part).touch ks).remove .lockout (.rental n) = q at *
      obtain ⟨waitQ, link, ended⟩ := q.endQueued_leaves n .expired
      rw [ended]
      have left : q.Ticks { q with waitQ := waitQ, link := link } :=
        ⟨rfl, rfl, rfl, rfl, rfl, rfl, rfl, rfl, rfl, ⟨rfl, rfl, rfl⟩, .of_flags rfl⟩
      exact ((freed.trans removed).trans left).trans (.of_restA (Part.offerOrd_restA _ _) (Part.flagsRise_offerOrd _ _))

theorem Part.ticks_authExpireAll (p : Part) (m : Nat) : p.Ticks (p.authExpireAll m) :=
  Part.Ticks.foldl _ (Part.ticks_authExpire m) _ p

theorem Part.ticks_reAlertAll (p : Part) (m : Nat) : p.Ticks (p.reAlertAll m) :=
  Part.Ticks.foldl _ (fun q i => .of_restA (Part.reAlertPlace_restA q m i) (Part.flagsRise_reAlertPlace m q i)) _ p

theorem Part.ticks_cenTick (p : Part) (m : Nat) : p.Ticks (p.cenTick m) :=
  .of_restC (p.cenTick_leaves m).1 (p.cenTick_leaves m).2

theorem Part.ticks_clampReAlerts (p : Part) : p.Ticks p.clampReAlerts := .of_restA p.clampReAlerts_restA (.of_flags rfl)

theorem Part.ticks_cenClamp (p : Part) : p.Ticks p.cenClamp := by
  unfold Part.cenClamp
  dsimp only
  split
  · exact .refl p
  · exact .of_restC (Part.onCen_restC _ _) (.of_flags rfl)

/-- Every tick still to be taken is carried out, and none is left. -/
theorem Part.ticks_takeTicks (p : Part) : ({ p with tickRel := [], tickAlt := [], tickCen := [] } : Part).Ticks p.takeTicks :=
  ((Part.Ticks.foldl _ Part.ticks_authExpireAll _ _).trans (Part.Ticks.foldl _ Part.ticks_reAlertAll _ _)).trans
    (Part.Ticks.foldl _ Part.ticks_cenTick _ _)

/-- An expiry takes away LOCKOUT entries, and no other. -/
theorem Part.rings_authExpire {p : Part} {k : AlertKind} {i t : Nat} (h : p.alt.Rings k i t) (hk : k ≠ .lockout) (m n : Nat) :
    (Part.authExpire m p n).alt.Rings k i t := by
  unfold Part.authExpire
  split
  · exact h
  · rename_i a _
    split
    · exact h
    · obtain ⟨keys, ks, restored⟩ := (p.delAuth n).restoreTarget_touch a.target
      rw [restored]
      have removed := Part.rings_remove (p := ({ p.delAuth n with keys := keys } : Part).touch ks) h (Ne.symm hk) (.rental n)
      generalize (({ p.delAuth n with keys := keys } : Part).touch ks).remove .lockout (.rental n) = q at *
      obtain ⟨waitQ, link, ended⟩ := q.endQueued_leaves n .expired
      rw [ended]
      refine Part.rings_offerOrd ?_ _
      exact removed

theorem Part.rings_authExpireAll {k : AlertKind} {i t : Nat} (hk : k ≠ .lockout) (ms : List Nat) {p : Part}
    (h : p.alt.Rings k i t) : (ms.foldl Part.authExpireAll p).alt.Rings k i t := by
  have one (ns : List Nat) (m : Nat) {q : Part} (hq : q.alt.Rings k i t) : (ns.foldl (Part.authExpire m) q).alt.Rings k i t := by
    induction ns generalizing q with
    | nil => exact hq
    | cons n ns ih => exact ih (Part.rings_authExpire hq hk m n)
  induction ms generalizing p with
  | nil => exact h
  | cons m ms ih => exact ih (one _ m h)

/-- The flag of an entry owed a re-alert at one of the ticks is set (R114). -/
theorem Part.takeTicks_flag {p : Part} {t : Nat} {e : AlertEntry} (ht : t ∈ p.tickAlt) (he : e ∈ p.alt.entries)
    (places : (p.alt.entries.map (·.place)).Nodup) (hk : e.kind ≠ .lockout) (hack : e.acked = false)
    (hn : ∃ n, e.next = some n ∧ n ≤ t) : p.takeTicks.alt.flags.getLsbD e.kind.code = true := by
  have owed : ({ p with tickRel := [], tickAlt := [], tickCen := [] } : Part).alt.Rings e.kind e.place t :=
    ⟨places, .inr ⟨e, he, rfl, rfl, hack, hn⟩⟩
  have rung := Part.reAlertsAll_flag (Part.rings_authExpireAll hk p.tickRel owed) ht
  exact (Part.Ticks.foldl _ Part.ticks_cenTick p.tickCen _).flags.rise _ rung

/-! ## The setting of the clock (R88) -/

theorem parseTimeSet_payload {bs : List Byte} {tag : Byte} {m sec w : Nat}
    (hbs : bs = tag :: (beBytes 3 m ++ (beBytes 1 sec ++ beBytes 2 w))) (hm : m ≤ 16777215) (hsec : sec ≤ 59) (hw : w ≤ 1439) :
    parseTimeSet bs = some (m, sec, w) := by
  have hlen : bs.length = 7 := by rw [hbs]; simp
  have minute : field bs 1 3 = m := field_after [tag] (beBytes 1 sec ++ beBytes 2 w) rfl (by omega) (by rw [hbs]; simp)
  have second : byteAt bs 4 = sec := field_after (tag :: beBytes 3 m) (beBytes 2 w) (by simp) (by omega) (by rw [hbs]; simp)
  have day : field bs 5 2 = w := field_after (tag :: (beBytes 3 m ++ beBytes 1 sec)) [] (by simp) (by omega)
    (by rw [hbs]; simp)
  unfold parseTimeSet
  rw [minute, second, day, if_pos ⟨hlen, hsec, hw⟩]

/-- The day offset for a minute-of-day gives it back. -/
theorem minuteOfDay_offset (m : Nat) {w : Nat} (hw : w ≤ 1439) : (m + (w + 1440 - m % 1440) % 1440) % 1440 = w := by omega

/-- The clock that a TIME_SET gives (R86, R88). -/
def setClock (m sec w : Nat) : Clock :=
  ⟨true, m, if m = 16777215 then 0 else sec, (w + 1440 - m % 1440) % 1440, decide (m = 16777215)⟩

/-- What stands in the part q after a TIME_SET of part p. -/
structure Part.TimeIsSet (p q : Part) (m sec w : Nat) : Prop where
  clock : q.clock = setClock m sec w
  zone : q.zone = ({ p with clock := setClock m sec w } : Part).zoneEval
  unset : q.alt.flags.getLsbD 14 = false
  limit : q.alt.flags.getLsbD 15 = decide (m = 16777215)
  mono : q.mono = p.mono
  due : q.due = p.due
  ticks : q.tickRel = [] ∧ q.tickAlt = [] ∧ q.tickCen = []
  rung : ∀ j, j < 14 → p.takeTicks.alt.flags.getLsbD j = true → q.alt.flags.getLsbD j = true
  tiers : ∀ i r, i ∈ q.due → Table.look q.rentals i = some r → r.snap = none →
    r.tier = tierOf p.policy.dueSoon p.policy.escalation r.due r.grace m
  policy : q.policy = p.policy
  rows : q.rows = p.rows
  ctxs : q.ctxs = p.ctxs

theorem clearBit_getLsbD_other (w : BitVec 16) {i j : Nat} (hi : i < 16) (h : j ≠ i) : (clearBit w i).getLsbD j = w.getLsbD j := by
  unfold clearBit
  rw [← BitVec.twoPow_eq, BitVec.getLsbD_and, BitVec.getLsbD_not, BitVec.getLsbD_twoPow]
  by_cases hj : j < 16
  · simp [hj, Ne.symm h]
  · rw [BitVec.getLsbD_of_ge _ _ (Nat.le_of_not_lt hj), Bool.false_and]

theorem clearBit_getLsbD_same (w : BitVec 16) {i : Nat} (hi : i < 16) : (clearBit w i).getLsbD i = false := by
  unfold clearBit
  rw [← BitVec.twoPow_eq, BitVec.getLsbD_and, BitVec.getLsbD_not, BitVec.getLsbD_twoPow]
  simp [hi]

/-- The part of a TIME_SET whose clock is set and whose two clock flags are cleared. -/
def Part.timed (p : Part) (m sec w : Nat) : Part :=
  (({ p.takeTicks with clock := ⟨true, m, sec, dayOffsetFor m w, false⟩ } : Part).clearFlag flagClockUnset).clearFlag flagClockLimit

theorem Part.timed_flags (p : Part) (m sec w : Nat) {j : Nat} : (p.timed m sec w).alt.flags.getLsbD j
    = (p.takeTicks.alt.flags.getLsbD j && decide (j ≠ 14 ∧ j ≠ 15)) := by
  show (clearBit (clearBit p.takeTicks.alt.flags 14) 15).getLsbD j = _
  by_cases h15 : j = 15
  · rw [h15, clearBit_getLsbD_same _ (by decide)]
    simp
  · rw [clearBit_getLsbD_other _ (by decide) h15]
    by_cases h14 : j = 14
    · rw [h14, clearBit_getLsbD_same _ (by decide)]
      simp
    · rw [clearBit_getLsbD_other _ (by decide) h14]
      simp [h14, h15]

theorem Part.setTime_eq (p : Part) (m sec w : Nat) : p.setTime m sec w
    = ((((((p.timed m sec w).limitCheck.zoneRun.recomputeTiers).authExpireAll m).reAlertAll m).clampReAlerts).cenTick m).cenClamp :=
  rfl

theorem Part.setTime_set (p : Part) (m sec w : Nat) : p.TimeIsSet (p.setTime m sec w) m sec w := by
  have taken := p.ticks_takeTicks
  have timedClock : (p.timed m sec w).clock = ⟨true, m, sec, (w + 1440 - m % 1440) % 1440, false⟩ := rfl
  have clock := Part.limitCheck_clock timedClock
  have flags := (p.timed m sec w).limitCheck_flags
  have same := (p.timed m sec w).limitCheck_rest
  have timedFlags := @Part.timed_flags p m sec w
  rw [p.setTime_eq m sec w]
  have mono : (p.timed m sec w).mono = p.mono := taken.mono
  have schedule : (p.timed m sec w).schedule = p.schedule := taken.schedule
  have policy : (p.timed m sec w).policy = p.policy := taken.policy
  have due : (p.timed m sec w).due = p.due := taken.due
  have rows : (p.timed m sec w).rows = p.rows := taken.rows
  have ctxs : (p.timed m sec w).ctxs = p.ctxs := taken.ctxs
  have ticks : (p.timed m sec w).tickRel = [] ∧ (p.timed m sec w).tickAlt = [] ∧ (p.timed m sec w).tickCen = [] := taken.ticks
  have minute : (p.timed m sec w).clock.minute = m := rfl
  generalize p.timed m sec w = t at *
  generalize t.limitCheck = q at *
  obtain ⟨left, rise, tiers⟩ := q.reworked_leaves
  generalize q.zoneRun.recomputeTiers = r at *
  have after : r.Ticks (((((r.authExpireAll m).reAlertAll m).clampReAlerts).cenTick m).cenClamp) :=
    (((r.ticks_authExpireAll m).trans (Part.ticks_reAlertAll _ m)).trans (Part.ticks_clampReAlerts _)).trans
      ((Part.ticks_cenTick _ m).trans (Part.ticks_cenClamp _))
  generalize ((((r.authExpireAll m).reAlertAll m).clampReAlerts).cenTick m).cenClamp = u at *
  have qflags (j : Nat) (h : 13 < j) : u.alt.flags.getLsbD j = q.alt.flags.getLsbD j :=
    (after.flags.clock j h).trans (rise.clock j h)
  have qpolicy : q.policy = p.policy := (congrArg Part.policy same :).trans policy
  have qdue : q.due = p.due := (congrArg Part.due same :).trans due
  have now : q.now = m := by
    unfold Part.now
    rw [clock]
    rfl
  have rdue : r.due = q.due := (congrArg Part.due left :)
  exact {
    clock := after.clock.trans ((congrArg Part.clock left :).trans clock)
    zone := after.zone.trans ((congrArg Part.zone left :).trans
      (Part.zoneEval_congr clock ((congrArg Part.schedule same :).trans schedule)))
    unset := by
      rw [qflags 14 (by decide), flags, timedFlags]
      simp
    limit := by
      rw [qflags 15 (by decide), flags, timedFlags, minute]
      simp
    mono := after.mono.trans ((congrArg Part.mono left :).trans ((congrArg Part.mono same :).trans mono))
    due := after.due.trans (rdue.trans qdue)
    ticks := by
      obtain ⟨rel, alt, cen⟩ := after.ticks
      refine ⟨rel.trans ?_, alt.trans ?_, cen.trans ?_⟩
      · exact (congrArg Part.tickRel left :).trans ((congrArg Part.tickRel same :).trans ticks.1)
      · exact (congrArg Part.tickAlt left :).trans ((congrArg Part.tickAlt same :).trans ticks.2.1)
      · exact (congrArg Part.tickCen left :).trans ((congrArg Part.tickCen same :).trans ticks.2.2)
    rung := fun j hj set => by
      refine after.flags.rise j (rise.rise j ?_)
      rw [flags, timedFlags, set]
      simp [show ¬ j = 14 by omega, show ¬ j = 15 by omega]
    tiers := fun i x hi hx hopen => by
      rw [after.due, rdue] at hi
      rw [after.rentals] at hx
      rw [tiers i x hi hx hopen, qpolicy, now]
    policy := after.policy.trans ((congrArg Part.policy left :).trans qpolicy)
    rows := after.rows.trans ((congrArg Part.rows left :).trans ((congrArg Part.rows same :).trans rows))
    ctxs := after.ctxs.trans ((congrArg Part.ctxs left :).trans ((congrArg Part.ctxs same :).trans ctxs)) }

/-! ## The statement -/

theorem tflRow_broadcastTime {f : Frame} (h1 : 1 ≤ f.origin) (h62 : f.origin ≤ 62) (hd : f.dest = 255) (hk : f.kind = 0x20) :
    tflRow f = .broadcastTimeSet := by
  unfold tflRow
  rw [if_neg (by omega), if_neg (by omega), if_pos hd]
  exact if_pos hk

theorem Part.broadcastTime_loads {p : Part} {f : Frame} {m sec w : Nat} (load : (p.terminal f.origin).load = true)
    (hparse : parseTimeSet f.payload = some (m, sec, w)) : p.broadcastTime f = p.setTime m sec w := by
  simp only [Part.broadcastTime, load, Bool.not_true, Bool.false_eq_true, if_false, hparse]

theorem Part.doTimeSet_sets {p : Part} {f : Frame} {m sec w : Nat} (hparse : parseTimeSet f.payload = some (m, sec, w)) :
    p.doTimeSet f = (p.setTime m sec w).answer .ok (beBytes 3 p.clock.minute ++ beBytes 1 (bit (!p.clock.set))
      ++ beBytes 2 (p.setTime m sec w).clock.minuteOfDay ++ beBytes 1 (p.setTime m sec w).zone.code) := by
  simp only [Part.doTimeSet, hparse]

/-- Settles O43. -/
theorem timeSetSetsTheClock : Obligations.TimeSetSetsTheClock := by
  intro s f rest tag m sec w hpay hm hsec hw old clock isSet
  have parse := parseTimeSet_payload hpay hm hsec hw
  have day (q : Part) (h : q.clock = setClock m sec w) : q.clock.minuteOfDay = w := by
    rw [h]
    exact minuteOfDay_offset m hw
  have isSet_of (link : Link) (seq : HoldSeq) (q : Part) (tfl : Tfl) (sent : Link) (u : State)
      (set : ({ s.part with link := link, holdSeq := seq } : Part).TimeIsSet q m sec w)
      (rung : ∀ t e, t ∈ s.part.tickAlt → e ∈ s.part.alt.entries → (s.part.alt.entries.map (·.place)).Nodup →
        e.kind ≠ .lockout → e.acked = false → (∃ n, e.next = some n ∧ n ≤ t) → q.alt.flags.getLsbD e.kind.code = true)
      (hu : u.part.unlit = ({ q with tfl := tfl, link := sent } : Part).unlit) : isSet u := by
    have uclock : u.part.clock = q.clock := (congrArg Part.clock hu :)
    have ualt : u.part.alt = q.alt := (congrArg Part.alt hu :)
    have urentals : u.part.rentals = q.rentals := (congrArg Part.rentals hu :)
    have udue : u.part.due = q.due := (congrArg Part.due hu :)
    refine ⟨uclock.trans set.clock, day q set.clock ▸ congrArg Clock.minuteOfDay (set.clock.symm : clock = q.clock),
      (congrArg Part.zone hu :).trans (set.zone.trans (Part.zoneEval_congr rfl rfl)), ?_, ?_,
      (congrArg Part.mono hu :).trans set.mono, udue.trans set.due, (congrArg Part.tickRel hu :).trans set.ticks.1,
      (congrArg Part.tickAlt hu :).trans set.ticks.2.1, (congrArg Part.tickCen hu :).trans set.ticks.2.2,
      fun t e ht he places hk hack hn => ?_, fun i r hi hr hopen => ?_, (congrArg Part.policy hu :).trans set.policy,
      (congrArg Part.rows hu :).trans set.rows, (congrArg Part.ctxs hu :).trans set.ctxs⟩
    · rw [ualt]
      exact set.unset
    · rw [ualt]
      exact set.limit
    · rw [ualt]
      exact rung t e ht he places hk hack hn
    · exact set.tiers i r (udue ▸ hi) (urentals ▸ hr) hopen
  have rung (link : Link) (seq : HoldSeq) (q : Part)
      (set : ({ s.part with link := link, holdSeq := seq } : Part).TimeIsSet q m sec w) (t : Nat) (e : AlertEntry)
      (ht : t ∈ s.part.tickAlt) (he : e ∈ s.part.alt.entries) (places : (s.part.alt.entries.map (·.place)).Nodup)
      (hk : e.kind ≠ .lockout) (hack : e.acked = false) (hn : ∃ n, e.next = some n ∧ n ≤ t) :
      q.alt.flags.getLsbD e.kind.code = true :=
    set.rung _ (by cases e.kind <;> decide)
      (Part.takeTicks_flag (p := { s.part with link := link, holdSeq := seq }) ht he places hk hack hn)
  refine ⟨fun hasks => ?_, fun hheld hin h1 h62 hd hk => ⟨fun load => ?_, fun noLoad => ?_⟩⟩
  · have sets := Part.doTimeSet_sets (p := s.part.asked f rest) parse
    have set := (s.part.asked f rest).setTime_set m sec w
    generalize (s.part.asked f rest).setTime m sec w = q at *
    rw [day q set.clock] at sets
    obtain ⟨tfl, link, u, hu, hunlit, last⟩ := State.answersLast Part.doTimeSet hasks sets
    have zone : u.part.zone = q.zone := (congrArg Part.zone hunlit :)
    refine ⟨u, hu, isSet_of _ _ q tfl link u set (rung _ _ q set) hunlit, ?_⟩
    rw [zone, ← bit_not]
    exact last
  · have sets := Part.broadcastTime_loads (p := s.part.onLink (fun l => { l with inbound := rest })) load parse
    have set := (s.part.onLink (fun l => { l with inbound := rest })).setTime_set m sec w
    generalize (s.part.onLink (fun l => { l with inbound := rest })).setTime m sec w = q at *
    obtain ⟨u, hu, -, hunlit⟩ := State.becomes_taken (s := s) (act := Part.broadcastTime) (p := q) hheld hin
      (tflRow_broadcastTime h1 h62 hd hk) (by rw [sets])
    exact ⟨u, hu, isSet_of _ s.part.holdSeq q q.tfl q.link u set (rung _ _ q set) hunlit⟩
  · refine State.becomes_taken (s := s) (act := Part.broadcastTime) hheld hin (tflRow_broadcastTime h1 h62 hd hk) ?_
    have terminal : ((s.part.onLink (fun l => { l with inbound := rest })).terminal f.origin).load = false := noLoad
    unfold Part.broadcastTime
    rw [terminal]
    rfl

end Sys2Proof.Machine
end

section
/-! PROOFS. Requests and ticks of the Alert Unit (R111, R112, R114, R117, R178, R180). -/

namespace Sys2Proof.Machine
open Sys2Proof

/-! ## ACK_ALERT (R112) -/

theorem parseAck_payload {bs : List Byte} {tag : Byte} {k : AlertKind} {sub : Subject}
    (hbs : bs = tag :: (beBytes 1 k.code ++ sub.bytes)) (hsub : parseSubject k (beNat sub.bytes) = some sub) :
    parseAck bs = some (k, sub) := by
  have subject : sub.bytes.length = 4 := by cases sub <;> simp [Subject.bytes]
  have hlen : bs.length = 6 := by rw [hbs]; simp [subject]
  have code : byteAt bs 1 = k.code := field_after [tag] sub.bytes rfl (by have := k.code_lt; omega) hbs
  have number : field bs 2 4 = beNat sub.bytes := by
    unfold field
    rw [hbs, List.drop_succ_cons, List.drop_append_of_le_length (by simp)]
    show beNat (List.take 4 sub.bytes) = _
    rw [List.take_of_length_le (by omega)]
  have kind : alertKinds[k.code]? = some k := by cases k <;> rfl
  unfold parseAck
  rw [if_pos hlen, code, number, kind, Option.bind_some, hsub]
  rfl

/-- The kinds whose entry goes when it is acknowledged. -/
theorem Part.ackRemoves_iff (p : Part) (k : AlertKind) (sub : Subject) :
    p.ackRemoves k sub = true ↔ k = .stranger ∨ k = .censusMismatch ∨ k = .queueLoss
      ∨ (k = .foreign ∧ ∃ n, sub = .slot n ∧ (p.slotEntry n).kind = .drop) := by
  cases k <;> cases sub <;> simp [Part.ackRemoves]

section Ack
variable {p : Part} {f : Frame} {k : AlertKind} {sub : Subject} (hparse : parseAck f.payload = some (k, sub))
include hparse

theorem Part.doAckAlert_none (h : p.alt.find k sub = none) : p.doAckAlert f = p.refuse .notFound := by
  simp only [Part.doAckAlert, hparse, h]

theorem Part.doAckAlert_goes {e : AlertEntry} (h : p.alt.find k sub = some e) (goes : p.ackRemoves k sub = true) :
    p.doAckAlert f = ⟨p.removeQuietly e, .ok, [], true⟩ := by
  simp only [Part.doAckAlert, hparse, h, goes, if_true]

theorem Part.doAckAlert_stays {e : AlertEntry} (h : p.alt.find k sub = some e) (stays : ¬ p.ackRemoves k sub = true) :
    p.doAckAlert f = (p.ackEntry e).answer .ok [] := by
  simp only [Part.doAckAlert, hparse, h, stays, if_false]
  rfl

end Ack

/-- An answer that says an entry was removed. -/
theorem State.repliesRemoved {s : State} {row : Instr} {f : Frame} {rest : List Frame} (owner : Part → Frame → Answer) {q : Part}
    (h : s.Asks row f rest) (ho : owner (s.part.asked f rest) f = ⟨q, .ok, [], true⟩) (room : q.essRoom = true) :
    s.Becomes (.next { s with part := (s.part.requestRun row owner).lampRun }) (q.queued ⟨.response, f.origin,
      [BitVec.ofNat 8 (reqTag f.payload), BitVec.ofNat 8 f.kind, 0#8, BitVec.ofNat 8 (bit (s.part.sequenceReset f) + 2)]⟩) := by
  refine State.becomes_of_eq ?_
  rw [Part.requestRun_asks s row f rest owner h, ho]
  have flags : bit true = 1 := rfl
  simp only [Answer.send, flags, Part.respond_room _ _ room]
  simp [responseReport, Result.code, beBytes]

theorem ackAlert_kind {f : Frame} (h : tflRow f = .ackAlert) : f.kind = 0x28 := by
  have row := requestRow_of_tflRow h nofun nofun nofun nofun
  unfold requestRow at row
  split at row
  case h_21 => assumption
  all_goals (repeat' split at row) <;> cases row

/-! ## ENABLE_SET (R117) -/

theorem parseEnableSet_payload {bs : List Byte} {tag : Byte} {a b : BitVec 16} {line : Bool}
    (hbs : bs = tag :: (beBytes 2 a.toNat ++ (beBytes 2 b.toNat ++ beBytes 1 (if line then 1 else 0)))) :
    parseEnableSet bs = some (a, b, line) := by
  have hlen : bs.length = 6 := by rw [hbs]; simp
  have staffed : field bs 1 2 = a.toNat := field_after [tag] _ rfl a.isLt hbs
  have unstaffed : field bs 3 2 = b.toNat := field_after (tag :: beBytes 2 a.toNat) (beBytes 1 (if line then 1 else 0))
    (by simp) b.isLt (by rw [hbs]; simp)
  have enable : byteAt bs 5 = if line then 1 else 0 := field_after (tag :: (beBytes 2 a.toNat ++ beBytes 2 b.toNat)) []
    (by simp) (by cases line <;> decide) (by rw [hbs]; simp)
  unfold parseEnableSet
  rw [staffed, unstaffed, enable, if_pos ⟨hlen, by cases line <;> decide⟩, BitVec.ofNat_toNat, BitVec.ofNat_toNat,
    BitVec.setWidth_eq, BitVec.setWidth_eq]
  cases line <;> rfl

theorem Part.doEnableSet_sets {p : Part} {f : Frame} {a b : BitVec 16} {line : Bool}
    (hparse : parseEnableSet f.payload = some (a, b, line)) :
    p.doEnableSet f = (p.setEnables a b line).answer .ok (beBytes 2 p.alt.enableStaffed.toNat
      ++ beBytes 2 p.alt.enableUnstaffed.toNat ++ beBytes 1 (bit p.alt.lineEnable)
      ++ beBytes 1 (bit (p.setEnables a b line).lineDriven)) := by
  simp only [Part.doEnableSet, hparse]

/-! ## RE_ALERT (R114) -/

/-- The entry is UNACKED and its next re-alert has come at minute m. -/
def AlertEntry.dueAt (m : Nat) (e : AlertEntry) : Bool := !e.acked && e.next.any (fun n => decide (n ≤ m))

/-- The entries re-alerted that offer a report. -/
def freshAt (m : Nat) (es : List AlertEntry) : List AlertEntry := es.filter (fun e => e.dueAt m && e.pending.isNone)

/-- The pending flags of an entry re-alerted, where the reports of some have entered. -/
def AlertEntry.pendingAfter (entered : List AlertEntry) (e : AlertEntry) : Option AlertFlags :=
  match e.pending with
  | some g => some { g with again := true }
  | none => if e ∈ entered then none else some ⟨true, false, false⟩

/-- An entry after the re-alerts of minute m, the next ones at `next`. -/
def AlertEntry.reAlerted (m : Nat) (next : Option Nat) (entered : List AlertEntry) (e : AlertEntry) : AlertEntry :=
  if e.dueAt m then { e with next := next, pending := e.pendingAfter entered } else e

/-- The ALERT of an entry with REPEAT, where n entries are UNACKED. -/
def AlertEntry.repeated (n : Nat) (e : AlertEntry) : Report := ⟨.alert, 255, e.head ++ [0#8, 1#8] ++ beBytes 1 n⟩

/-- The reports that may still enter before an owner must wait. -/
def Link.places (l : Link) : Nat := if l.waiters = [] then 64 - l.reports.length else 0

theorem Link.room_iff (l : Link) : l.room = true ↔ 0 < l.places := by
  unfold Link.room Link.places
  rw [Bool.and_eq_true, decide_eq_true_iff, List.isEmpty_iff]
  show l.reports.length < 64 ∧ _ ↔ _
  split
  · rename_i h
    constructor
    · rintro ⟨hlen, -⟩
      omega
    · exact fun hpos => ⟨by omega, h⟩
  · rename_i h
    exact ⟨fun k => absurd k.2 h, fun k => absurd k (lt_irrefl 0)⟩

section Entries
variable {a : Alt} {pre post : List AlertEntry} {e : AlertEntry} (entries : a.entries = pre ++ e :: post)
  (places : ((pre ++ e :: post).map (·.place)).Nodup)
include entries places

theorem Alt.others_of_split : (∀ x ∈ pre, x.place ≠ e.place) ∧ ∀ x ∈ post, x.place ≠ e.place := by
  rw [List.map_append, List.map_cons, List.nodup_append, List.nodup_cons] at places
  obtain ⟨-, ⟨after, -⟩, before⟩ := places
  exact ⟨fun x hx h => before _ (List.mem_map_of_mem hx) _ (List.mem_cons_self ..) h,
    fun x hx h => after (h ▸ List.mem_map_of_mem hx)⟩

theorem Alt.entryAt_split : a.entryAt e.place = some e := by
  obtain ⟨before, -⟩ := Alt.others_of_split entries places
  unfold Alt.entryAt
  rw [entries, List.find?_append, List.find?_eq_none.2 (by simpa using before), Option.none_or,
    List.find?_cons_of_pos (by simp)]

theorem Alt.modify_split (f : AlertEntry → AlertEntry) : a.modify e.place f = { a with entries := pre ++ f e :: post } := by
  obtain ⟨before, after⟩ := Alt.others_of_split entries places
  have same (l : List AlertEntry) (h : ∀ x ∈ l, x.place ≠ e.place) :
      l.map (fun x => if x.place = e.place then f x else x) = l := by
    conv_rhs => rw [← List.map_id l]
    exact List.map_congr_left fun x hx => if_neg (h x hx)
  unfold Alt.modify
  rw [entries, List.map_append, List.map_cons, same pre before, same post after, if_pos rfl]

end Entries

section ReAlert
variable {p : Part} {m : Nat} {pre post : List AlertEntry} {e : AlertEntry}

theorem Part.reAlertPlace_notDue (entries : p.alt.entries = pre ++ e :: post)
    (places : ((pre ++ e :: post).map (·.place)).Nodup) (h : e.dueAt m = false) : Part.reAlertPlace m p e.place = p := by
  unfold Part.reAlertPlace
  rw [Alt.entryAt_split entries places]
  exact if_neg (by rw [AlertEntry.dueAt] at h; rw [h]; nofun)

/-- The link after the offer of a re-alert. -/
def Link.reOffered (l : Link) (n : Nat) (e : AlertEntry) : Link :=
  if e.pending.isSome then l else if l.room then l.enter (e.repeated n) else l.await (.alertPlace e.place)

theorem AlertFlags.join_again (g : AlertFlags) : g.join ⟨true, false, false⟩ = { g with again := true } := by
  simp [AlertFlags.join]

theorem AlertEntry.pendingAfter_some {g : AlertFlags} (h : e.pending = some g) (l : List AlertEntry) :
    e.pendingAfter l = some { g with again := true } := by
  unfold AlertEntry.pendingAfter
  rw [h]

theorem AlertEntry.pendingAfter_none (h : e.pending = none) (l : List AlertEntry) :
    e.pendingAfter l = if e ∈ l then none else some ⟨true, false, false⟩ := by
  unfold AlertEntry.pendingAfter
  rw [h]

section OfferSplit
variable (f : AlertFlags) (entries : p.alt.entries = pre ++ e :: post) (places : ((pre ++ e :: post).map (·.place)).Nodup)
include entries places

theorem Part.offerAlert_pending {g : AlertFlags} (h : e.pending = some g) : p.offerAlert e.place f
    = { p with alt := { p.alt with entries := pre ++ { e with pending := some (g.join f) } :: post } } := by
  unfold Part.offerAlert
  rw [Alt.entryAt_split entries places]
  dsimp only
  rw [h]
  dsimp only
  rw [Alt.modify_split entries places]

theorem Part.offerAlert_enters (h : e.pending = none) (room : p.link.room = true) :
    p.offerAlert e.place f = p.enter (p.alt.alertReport e f) := by
  unfold Part.offerAlert
  rw [Alt.entryAt_split entries places]
  dsimp only
  rw [h]
  exact if_pos room

theorem Part.offerAlert_waits (h : e.pending = none) (room : p.link.room = false) : p.offerAlert e.place f
    = ({ p with alt := { p.alt with entries := pre ++ { e with pending := some f } :: post } } : Part).await
      (.alertPlace e.place) := by
  unfold Part.offerAlert
  rw [Alt.entryAt_split entries places]
  dsimp only
  rw [h, Alt.modify_split entries places]
  exact if_neg (by rw [show p.essRoom = p.link.room from rfl, room]; nofun)

end OfferSplit

/-- The part with the flag of the entry's kind set and its next re-alert written. -/
def Part.rungAt (p : Part) (pre post : List AlertEntry) (e : AlertEntry) (next : Option Nat) : Part :=
  { p with alt := { p.alt with
      flags := setBit p.alt.flags e.kind.code, entries := pre ++ { e with next := next } :: post } }

theorem Part.rungAt_unacked (entries : p.alt.entries = pre ++ e :: post) (next : Option Nat) :
    (p.rungAt pre post e next).alt.unacked = p.alt.unacked := by
  unfold Alt.unacked Part.rungAt
  rw [entries, List.filter_append, List.filter_append, List.filter_cons, List.filter_cons]
  cases e.acked <;> simp

theorem Part.reAlertPlace_rung (entries : p.alt.entries = pre ++ e :: post)
    (places : ((pre ++ e :: post).map (·.place)).Nodup) (h : e.dueAt m = true) :
    Part.reAlertPlace m p e.place = (p.rungAt pre post e (p.nextAfter m)).offerAlert e.place ⟨true, false, false⟩ := by
  have set : ({ p.setFlag e.kind.code with
      alt := (p.setFlag e.kind.code).alt.modify e.place (fun x => { x with next := (p.setFlag e.kind.code).nextAfter m }) } : Part)
      = p.rungAt pre post e (p.nextAfter m) :=
    congrArg (fun a => ({ p with alt := a } : Part))
      (Alt.modify_split (a := (p.setFlag e.kind.code).alt) entries places _)
  rw [← set]
  unfold Part.reAlertPlace
  rw [Alt.entryAt_split entries places]
  exact if_pos h

/-- The re-alert of the entry of one place. -/
theorem Part.reAlertPlace_due (entries : p.alt.entries = pre ++ e :: post)
    (places : ((pre ++ e :: post).map (·.place)).Nodup) (h : e.dueAt m = true) :
    Part.reAlertPlace m p e.place = { p with
      link := p.link.reOffered p.alt.unacked e
      alt := { p.alt with
        flags := setBit p.alt.flags e.kind.code
        entries := pre ++ { e with
          next := p.nextAfter m, pending := e.pendingAfter (if p.link.room then [e] else []) } :: post } } := by
  have unacked : e.acked = false := by
    unfold AlertEntry.dueAt at h
    rw [Bool.and_eq_true, Bool.not_eq_true'] at h
    exact h.1
  have nplaces : ((pre ++ { e with next := p.nextAfter m } :: post).map (·.place)).Nodup := by
    rw [List.map_append, List.map_cons] at places ⊢
    exact places
  have count := Part.rungAt_unacked entries (p.nextAfter m)
  rw [Part.reAlertPlace_rung entries places h]
  unfold Link.reOffered
  rcases Option.eq_none_or_eq_some e.pending with hp | ⟨g, hp⟩
  · rw [AlertEntry.pendingAfter_none hp, if_neg (by rw [hp]; nofun)]
    cases room : p.link.room with
    | true =>
      have offered := Part.offerAlert_enters (p := p.rungAt pre post e (p.nextAfter m)) ⟨true, false, false⟩ rfl nplaces
        (by exact hp) room
      have report : (p.rungAt pre post e (p.nextAfter m)).alt.alertReport { e with next := p.nextAfter m } ⟨true, false, false⟩
          = e.repeated p.alt.unacked := by
        unfold Alt.alertReport AlertEntry.repeated
        rw [count]
        simp [unacked, bit, AlertFlags.byte, AlertEntry.head, broadcast, beBytes]
      rw [report] at offered
      rw [if_pos rfl, if_pos rfl, if_pos (List.mem_singleton.2 rfl), ← hp]
      exact offered
    | false =>
      have offered := Part.offerAlert_waits (p := p.rungAt pre post e (p.nextAfter m)) ⟨true, false, false⟩ rfl nplaces
        (by exact hp) room
      rw [if_neg nofun, if_neg nofun]
      exact offered
  · have offered := Part.offerAlert_pending (p := p.rungAt pre post e (p.nextAfter m)) ⟨true, false, false⟩ rfl nplaces
      (by exact hp)
    rw [AlertFlags.join_again] at offered
    rw [AlertEntry.pendingAfter_some hp, if_pos (by rw [hp]; rfl)]
    exact offered

end ReAlert

/-! ## A tick at the ALT -/

section Tick
variable {m : Nat}

theorem AlertEntry.reAlerted_keeps (next : Option Nat) (l : List AlertEntry) (e : AlertEntry) :
    (e.reAlerted m next l).place = e.place ∧ (e.reAlerted m next l).acked = e.acked := by
  unfold AlertEntry.reAlerted
  split <;> exact ⟨rfl, rfl⟩

theorem Link.reOffered_pending (l : Link) (n : Nat) {e : AlertEntry} (h : e.pending.isSome = true) : l.reOffered n e = l :=
  if_pos h

/-- An entry that offers its report where one place is left. -/
theorem Link.reOffered_enters {l : Link} (n : Nat) {e : AlertEntry} (h : e.pending = none) (room : l.room = true) :
    l.reOffered n e = { l with reports := l.reports ++ [e.repeated n] } := by
  unfold Link.reOffered
  rw [h, if_neg nofun, if_pos room]
  rfl

/-- An entry that offers its report where no place is left: its place waits. -/
theorem Link.reOffered_waits {l : Link} (n : Nat) {e : AlertEntry} (h : e.pending = none) (room : l.room = false) :
    l.reOffered n e = { l with
      waiters := l.waiters ++ [Waiter.alertPlace e.place].filter (fun w => !l.waiters.contains w) } := by
  unfold Link.reOffered Link.await
  rw [h, if_neg nofun, room, if_neg nofun]
  cases hc : l.waiters.contains (.alertPlace e.place) with
  | true => rw [if_pos rfl, List.filter_cons_of_neg (by rw [hc]; nofun), List.filter_nil, List.append_nil]
  | false =>
    rw [if_neg nofun, List.filter_cons_of_pos (by rw [hc]; rfl)]
    rfl

theorem Link.places_entered {l : Link} (r : Report) (room : l.room = true) :
    l.places = ({ l with reports := l.reports ++ [r] } : Link).places + 1 := by
  have pos := (Link.room_iff l).1 room
  unfold Link.places at pos ⊢
  dsimp only
  split at pos
  · rename_i h
    rw [if_pos h, if_pos h, List.length_append, List.length_singleton]
    omega
  · exact absurd pos (lt_irrefl 0)

theorem Link.places_waiting {l : Link} (h : l.waiters ≠ []) : l.places = 0 := if_neg h

theorem Link.places_zero {l : Link} (h : l.room = false) : l.places = 0 :=
  Nat.eq_zero_of_not_pos fun pos => by rw [(Link.room_iff l).2 pos] at h; cases h

/-- The part with these reports, waiting owners, factor flags and entries. -/
def Part.withAlerts (p : Part) (reports : List Report) (waiters : List Waiter) (flags : BitVec 16) (entries : List AlertEntry) :
    Part :=
  { p with
    link := { p.link with reports := reports, waiters := waiters }, alt := { p.alt with flags := flags, entries := entries } }

theorem freshAt_cons (e : AlertEntry) (es : List AlertEntry) :
    freshAt m (e :: es) = if e.dueAt m && e.pending.isNone then e :: freshAt m es else freshAt m es := List.filter_cons

/-- Entries other than e are not told of e's report. -/
theorem AlertEntry.map_reAlerted_cons {next : Option Nat} {e : AlertEntry} {es : List AlertEntry} (l : List AlertEntry)
    (h : ∀ x ∈ es, x.place ≠ e.place) :
    es.map (AlertEntry.reAlerted m next (e :: l)) = es.map (AlertEntry.reAlerted m next l) := by
  refine List.map_congr_left fun x hx => ?_
  have ne : x ≠ e := fun he => h x hx (congrArg AlertEntry.place he)
  unfold AlertEntry.reAlerted AlertEntry.pendingAfter
  simp only [List.mem_cons, ne, false_or]

/-- The places of entries that offer a report and do not wait already. -/
def waitingPlaces (waiters : List Waiter) (es : List AlertEntry) : List Waiter :=
  (es.map (fun e => Waiter.alertPlace e.place)).filter (fun w => !waiters.contains w)

theorem waitingPlaces_cons (waiters : List Waiter) {e : AlertEntry} {es : List AlertEntry} (h : ∀ x ∈ es, x.place ≠ e.place) :
    waitingPlaces waiters [e] ++ waitingPlaces (waiters ++ waitingPlaces waiters [e]) es = waitingPlaces waiters (e :: es) := by
  have others : waitingPlaces (waiters ++ waitingPlaces waiters [e]) es = waitingPlaces waiters es := by
    unfold waitingPlaces
    refine List.filter_congr fun w hw => ?_
    obtain ⟨x, hx, rfl⟩ := List.mem_map.1 hw
    have ne : Waiter.alertPlace x.place ≠ .alertPlace e.place := fun he => h x hx (Waiter.alertPlace.inj he)
    have apart : Waiter.alertPlace x.place ∉ waitingPlaces waiters [e] := fun hc =>
      ne (List.mem_singleton.1 (List.mem_filter.1 hc).1)
    rw [Bool.eq_iff_iff, Bool.not_eq_true', Bool.not_eq_true', ← Bool.not_eq_true, ← Bool.not_eq_true, List.contains_iff_mem,
      List.contains_iff_mem]
    exact not_congr ⟨fun hm => (List.mem_append.1 hm).resolve_right apart, fun hm => List.mem_append_left _ hm⟩
  rw [others]
  unfold waitingPlaces
  rw [← List.filter_append]
  rfl

theorem waitingPlaces_ne_nil (waiters : List Waiter) (e : AlertEntry) : waiters ++ waitingPlaces waiters [e] ≠ [] := by
  intro h
  obtain ⟨hw, hp⟩ := List.append_eq_nil_iff.1 h
  rw [hw] at hp
  cases hp

/-- The re-alerts of the entries es that stand behind others, oldest first: the reports that find a place enter, and the places of
the others wait. -/
theorem Part.reAlerts_run (es pre : List AlertEntry) {p : Part} (entries : p.alt.entries = pre ++ es)
    (places : ((pre ++ es).map (·.place)).Nodup) :
    ∃ flags, (∀ j, flags.getLsbD j = (p.alt.flags.getLsbD j || es.any (fun e => e.dueAt m && e.kind.code == j)))
      ∧ (es.map (·.place)).foldl (Part.reAlertPlace m) p = p.withAlerts
        (p.link.reports ++ ((freshAt m es).take p.link.places).map (AlertEntry.repeated p.alt.unacked))
        (p.link.waiters ++ waitingPlaces p.link.waiters ((freshAt m es).drop p.link.places)) flags
        (pre ++ es.map (AlertEntry.reAlerted m (p.nextAfter m) ((freshAt m es).take p.link.places))) := by
  induction es generalizing pre p with
  | nil =>
    refine ⟨p.alt.flags, fun j => by simp, ?_⟩
    have fresh : freshAt m [] = [] := rfl
    have none : waitingPlaces p.link.waiters [] = [] := rfl
    simp only [fresh, List.take_nil, List.drop_nil, none, List.map_nil, List.append_nil]
    rw [List.append_nil] at entries
    rw [← entries]
    rfl
  | cons e es ih =>
    obtain ⟨-, after⟩ := Alt.others_of_split entries places
    have afterFresh (x : AlertEntry) (hx : x ∈ freshAt m es) : x.place ≠ e.place := after x (List.mem_of_mem_filter hx)
    have shifted (x : AlertEntry) : (pre ++ [x]) ++ es = pre ++ x :: es := by simp
    rw [List.map_cons, List.foldl_cons]
    cases hdue : e.dueAt m with
    | false =>
      rw [Part.reAlertPlace_notDue entries places hdue]
      obtain ⟨flags, hflags, run⟩ := ih (pre ++ [e]) (p := p) (by rw [entries, shifted]) (by rw [shifted]; exact places)
      refine ⟨flags, fun j => by rw [hflags, List.any_cons, hdue]; rfl, run.trans ?_⟩
      have fresh : freshAt m (e :: es) = freshAt m es := by rw [freshAt_cons, hdue]; rfl
      have same (l : List AlertEntry) : e.reAlerted m (p.nextAfter m) l = e := if_neg (by rw [hdue]; nofun)
      rw [fresh, List.map_cons, same, List.append_assoc, List.singleton_append]
    | true =>
      have step := Part.reAlertPlace_due entries places hdue
      have now (l : List AlertEntry) : e.reAlerted m (p.nextAfter m) l
          = { e with next := p.nextAfter m, pending := e.pendingAfter l } := if_pos hdue
      have goes (e' : AlertEntry) (place : e'.place = e.place) (acked : e'.acked = e.acked) (reports : List Report)
          (waiters : List Waiter) (n : Nat) (left : n = ({ p.link with reports := reports, waiters := waiters } : Link).places) :
          ∃ flags, (∀ j, flags.getLsbD j = (p.alt.flags.getLsbD j
              || (e :: es).any (fun e => e.dueAt m && e.kind.code == j)))
            ∧ (es.map (·.place)).foldl (Part.reAlertPlace m)
              (p.withAlerts reports waiters (setBit p.alt.flags e.kind.code) (pre ++ e' :: es)) = p.withAlerts
              (reports ++ ((freshAt m es).take n).map (AlertEntry.repeated p.alt.unacked))
              (waiters ++ waitingPlaces waiters ((freshAt m es).drop n)) flags
              (pre ++ e' :: es.map (AlertEntry.reAlerted m (p.nextAfter m) ((freshAt m es).take n))) := by
        have nplaces : (((pre ++ [e']) ++ es).map (·.place)).Nodup := by
          rw [shifted, List.map_append, List.map_cons, place]
          rw [List.map_append, List.map_cons] at places
          exact places
        obtain ⟨flags, hflags, run⟩ := ih (pre ++ [e'])
          (p := p.withAlerts reports waiters (setBit p.alt.flags e.kind.code) (pre ++ e' :: es)) (shifted e').symm nplaces
        have count : (p.withAlerts reports waiters (setBit p.alt.flags e.kind.code) (pre ++ e' :: es)).alt.unacked
            = p.alt.unacked := by
          unfold Alt.unacked Part.withAlerts
          rw [entries, List.filter_append, List.filter_append, List.filter_cons, List.filter_cons, acked]
          split <;> simp
        rw [count, List.append_assoc, List.singleton_append] at run
        refine ⟨flags, fun j => ?_, run.trans (left ▸ rfl)⟩
        rw [hflags, List.any_cons, hdue, ← Bool.or_assoc]
        refine congrArg (· || es.any (fun e => e.dueAt m && e.kind.code == j)) ?_
        refine (setBit_getLsbD _ e.kind.code_lt j).trans ?_
        rw [Bool.true_and, Bool.eq_iff_iff, Bool.or_eq_true, Bool.or_eq_true, decide_eq_true_iff, beq_iff_eq]
        exact or_congr Iff.rfl eq_comm
      rcases Option.eq_none_or_eq_some e.pending with hp | ⟨g, hp⟩
      · have fresh : freshAt m (e :: es) = e :: freshAt m es := by rw [freshAt_cons, hdue, hp]; rfl
        cases room : p.link.room with
        | true =>
          rw [Link.reOffered_enters _ hp room, room, if_pos rfl, ← now] at step
          obtain ⟨n, hn⟩ : ∃ n, n = ({ p.link with
            reports := p.link.reports ++ [e.repeated p.alt.unacked], waiters := p.link.waiters } : Link).places := ⟨_, rfl⟩
          have left : p.link.places = n + 1 := hn ▸ Link.places_entered (e.repeated p.alt.unacked) room
          obtain ⟨flags, hflags, run⟩ := goes _ (e.reAlerted_keeps _ [e]).1 (e.reAlerted_keeps _ [e]).2
            (p.link.reports ++ [e.repeated p.alt.unacked]) p.link.waiters n hn
          have entered (l : List AlertEntry) : e.reAlerted m (p.nextAfter m) [e] = e.reAlerted m (p.nextAfter m) (e :: l) := by
            rw [now, now, AlertEntry.pendingAfter_none hp, AlertEntry.pendingAfter_none hp, if_pos (List.mem_singleton.2 rfl),
              if_pos (List.mem_cons_self ..)]
          refine ⟨flags, hflags, ((congrArg (fun q => (es.map (·.place)).foldl (Part.reAlertPlace m) q) step :).trans run).trans ?_⟩
          rw [fresh, left, List.take_succ_cons, List.drop_succ_cons, List.map_cons, List.map_cons,
            AlertEntry.map_reAlerted_cons _ after, entered ((freshAt m es).take n), List.append_assoc, List.singleton_append]
        | false =>
          rw [Link.reOffered_waits _ hp room, room, if_neg nofun, ← now] at step
          obtain ⟨flags, hflags, run⟩ := goes _ (e.reAlerted_keeps _ []).1 (e.reAlerted_keeps _ []).2
            p.link.reports (p.link.waiters ++ waitingPlaces p.link.waiters [e]) 0
            (Link.places_waiting (waitingPlaces_ne_nil _ _)).symm
          refine ⟨flags, hflags, ((congrArg (fun q => (es.map (·.place)).foldl (Part.reAlertPlace m) q) step :).trans run).trans ?_⟩
          rw [fresh, Link.places_zero room, List.take_zero, List.take_zero, List.drop_zero, List.drop_zero, List.append_assoc,
            waitingPlaces_cons _ afterFresh, List.map_cons]
      · have fresh : freshAt m (e :: es) = freshAt m es := by rw [freshAt_cons, hdue, hp]; rfl
        rw [Link.reOffered_pending _ _ (by rw [hp]; rfl), ← now] at step
        obtain ⟨flags, hflags, run⟩ := goes _ (e.reAlerted_keeps _ _).1 (e.reAlerted_keeps _ _).2 p.link.reports p.link.waiters _ rfl
        refine ⟨flags, hflags, ((congrArg (fun q => (es.map (·.place)).foldl (Part.reAlertPlace m) q) step :).trans run).trans ?_⟩
        have same (l l' : List AlertEntry) : e.reAlerted m (p.nextAfter m) l = e.reAlerted m (p.nextAfter m) l' := by
          rw [now, now, AlertEntry.pendingAfter_some hp, AlertEntry.pendingAfter_some hp]
        rw [fresh, List.map_cons, same _ ((freshAt m es).take p.link.places)]

end Tick

/-! ## The statement -/

/-- Settles O47. -/
theorem alertsAreAcknowledgedAndRepeated : Obligations.AlertsAreAcknowledgedAndRepeated := by
  refine ⟨?_, ?_, ?_⟩
  · intro s f rest tag k sub e hasks hpay hsub room p goes
    have parse := parseAck_payload hpay hsub
    have removes := Part.ackRemoves_iff p k sub
    refine ⟨fun hnone => ?_, fun he hgoes hpend => ?_, fun he hstays => ?_⟩
    · exact State.refuses Part.doAckAlert hasks room (Part.doAckAlert_none (p := s.part.asked f rest) parse hnone)
    · have acked := Part.doAckAlert_goes (p := s.part.asked f rest) parse he (removes.2 hgoes)
      have quiet : (s.part.asked f rest).removeQuietly e = ({ s.part.asked f rest with
          alt := (s.part.asked f rest).alt.drop e.place } : Part) := if_neg (by rw [hpend]; nofun)
      rw [quiet] at acked
      have reply := State.repliesRemoved Part.doAckAlert hasks acked room
      rw [hpay, reqTag_cons, BitVec.ofNat_toNat, BitVec.setWidth_eq, ackAlert_kind hasks.2.2.1] at reply
      exact reply
    · have acked := Part.doAckAlert_stays (p := s.part.asked f rest) parse he fun h => hstays (removes.1 h)
      exact State.replies Part.doAckAlert hasks acked rfl room
  · intro s f rest tag a b line hasks hpay room p q
    have sets := Part.doEnableSet_sets (p := s.part.asked f rest) (parseEnableSet_payload hpay)
    exact State.replies Part.doEnableSet hasks sets rfl room
  · intro s m ms htick places link alt due fresh room repeated pending
    obtain ⟨flags, hflags, run⟩ := Part.reAlerts_run (m := m) s.part.alt.entries [] (p := { s.part with tickAlt := ms }) rfl places
    refine ⟨flags, hflags, State.becomes_of_eq ?_⟩
    have tick : s.part.altTick = ({ s.part with tickAlt := ms } : Part).reAlertAll m := by
      unfold Part.altTick
      rw [htick]
    exact tick.trans run

end Sys2Proof.Machine
end

section
/-! PROOFS. The start of a census: the sweep up to the first module that is read (R120 to R124, R130, R131). -/

namespace Sys2Proof.Machine
open Sys2Proof

/-! ## The end of a census -/

theorem CenCause.code_name (o : Option CenCause) : beName (o.map CenCause.code) = [match o with
    | some (.request _) => 0#8
    | some .schedule => 1#8
    | none => 0xFF#8] := by
  rcases o with _ | t | _
  · rfl
  · exact (by rfl : beName (some 0) = [0#8])
  · rfl

theorem CenCause.origin_byte (o : Option CenCause) : beBytes 1 ((o.map CenCause.origin).getD 0) = [match o with
    | some (.request t) => BitVec.ofNat 8 t
    | _ => 0#8] := by
  rcases o with _ | _ | _ <;> simp [CenCause.origin, beBytes]

theorem Scope.code_name (o : Option Scope) : beName (o.map Scope.code) = [match o with
    | some .A => 0#8
    | some .B => 1#8
    | some .both => 2#8
    | none => 0xFF#8] := by
  rcases o with _ | _ | _ | _ <;> rfl

theorem Outcome.code_name (o : Option Outcome) : beName (o.map Outcome.code) = [match o with
    | some .complete => 0#8
    | some .aborted => 1#8
    | none => 0xFF#8] := by
  rcases o with _ | _ | _ <;> rfl

theorem lost_byte (a b : Bool) :
    beBytes 1 (bit a + 2 * bit b) = [(if a then 1#8 else 0#8) + (if b then 2#8 else 0#8)] := by
  cases a <;> cases b <;> rfl

theorem Cen.doneReport_eq (n : Cen) : n.doneReport = n.doneSpelt := by
  unfold Cen.doneReport Cen.doneSpelt
  rw [CenCause.code_name, CenCause.origin_byte, Scope.code_name, Outcome.code_name, lost_byte]
  simp only [CenCounts.bytes, misKinds, List.flatMap_cons, List.flatMap_nil, List.append_nil, List.append_assoc,
    List.cons_append, List.nil_append]
  rfl

/-- The record with which a census ends. -/
def Part.overCen (p : Part) (o : Outcome) (st : CenState) : Cen :=
  { p.cen with state := st, outcome := some o, endMin := some p.now, pos := none, deferred := false }

theorem Part.cenEnd_eq (p : Part) (o : Outcome) (st : CenState) : p.cenEnd o st = p.censusOver (p.overCen o st) := by
  have offered : (({ p with cen := p.overCen o st } : Part).offerOrd (p.overCen o st).doneSpelt).cen = p.overCen o st :=
    (congrArg Part.cen (Part.offerOrd_restA _ _) :)
  unfold Part.cenEnd Part.censusOver
  simp only [Part.onCen, Cen.doneReport_eq]
  change (if 0 < (({ p with cen := p.overCen o st } : Part).offerOrd (p.overCen o st).doneSpelt).cen.counts.recorded
    then _ else _) = _
  rw [offered]
  have outcome : (p.overCen o st).outcome = some o := rfl
  simp only [outcome, Option.some.injEq]
  rfl

theorem Part.censusOver_restA (p : Part) (n : Cen) : (p.censusOver n).restA = ({ p with cen := n } : Part).restA := by
  unfold Part.censusOver
  have offered := ({ p with cen := n } : Part).offerOrd_restA n.doneSpelt
  generalize ({ p with cen := n } : Part).offerOrd n.doneSpelt = q at *
  dsimp only
  split
  · exact (Part.raise_restA _ _ _ _).trans offered
  · split
    · exact (Part.remove_restA _ _ _).trans offered
    · exact offered

theorem Part.censusOver_flag (p : Part) {n : Cen} (h : 0 < n.counts.recorded) :
    (p.censusOver n).alt.flags.getLsbD 10 = true := by
  unfold Part.censusOver
  dsimp only
  rw [if_pos h]
  exact Part.raise_flag _ .censusMismatch .none none

/-! ## The addresses a sweep passes over -/

/-- The sweep gives up an address. -/
def Part.pastModule (p : Part) (x : Chan × Nat) : Part :=
  if ((p.reachLost x.1).moduleSlots x.1 x.2).isEmpty then p.reachLost x.1
  else (p.reachLost x.1).moduleUnverified x.1 x.2

/-- An address where the sweep does not stop: no STANDARD slots, or its module is not to be read. -/
def Part.Passes (p : Part) (x : Chan × Nat) : Prop :=
  p.moduleSlots x.1 x.2 = [] ∨ p.moduleActive x.1 x.2 = false ∨ p.pendLost x.1 = true

/-- q is p with another census record that keeps the channels still to be given up. -/
def Part.OnlyCen (p q : Part) : Prop :=
  ∃ n : Cen, q = { p with cen := n } ∧ n.pendA = p.cen.pendA ∧ n.pendB = p.cen.pendB

theorem Part.OnlyCen.refl (p : Part) : p.OnlyCen p := ⟨p.cen, rfl, rfl, rfl⟩

theorem Part.OnlyCen.trans {p q r : Part} (h : p.OnlyCen q) (k : q.OnlyCen r) : p.OnlyCen r := by
  obtain ⟨n, rfl, hA, hB⟩ := h
  obtain ⟨m, rfl, kA, kB⟩ := k
  exact ⟨m, rfl, kA.trans hA, kB.trans hB⟩

theorem Part.OnlyCen.passes {p q : Part} (h : p.OnlyCen q) {x : Chan × Nat} (hx : p.Passes x) : q.Passes x := by
  obtain ⟨n, rfl, hA, hB⟩ := h
  refine hx.imp id (Or.imp id fun lost => ?_)
  obtain ⟨c, a⟩ := x
  cases c with
  | A => exact hA.trans lost
  | B => exact hB.trans lost

theorem Part.onlyCen_reachLost (p : Part) (c : Chan) : p.OnlyCen (p.reachLost c) := by
  cases c with
  | A => unfold Part.reachLost; dsimp only; split <;> exact ⟨_, rfl, rfl, rfl⟩
  | B => unfold Part.reachLost; dsimp only; split <;> exact ⟨_, rfl, rfl, rfl⟩

theorem Part.onlyCen_mismatch (p : Part) (m : Mismatch) : p.OnlyCen (p.mismatch m) := by
  unfold Part.mismatch Part.onCen
  refine ⟨_, rfl, ?_, ?_⟩ <;> dsimp only <;> split <;> rfl

theorem Part.onlyCen_unverified (slots : List Nat) (p : Part) : p.OnlyCen (p.unverified slots) := by
  unfold Part.unverified
  induction slots generalizing p with
  | nil => exact .refl p
  | cons s slots ih =>
    refine Part.OnlyCen.trans ?_ (ih _)
    dsimp only
    split
    · exact p.onlyCen_mismatch _
    · exact .refl p

theorem Part.onlyCen_moduleUnverified (p : Part) (c : Chan) (a : Nat) : p.OnlyCen (p.moduleUnverified c a) :=
  (Part.onlyCen_unverified (p.moduleSlots c a) p).trans ⟨_, rfl, rfl, rfl⟩

theorem Part.onlyCen_pastModule (p : Part) (x : Chan × Nat) : p.OnlyCen (p.pastModule x) := by
  unfold Part.pastModule
  split
  · exact p.onlyCen_reachLost x.1
  · exact (p.onlyCen_reachLost x.1).trans ((p.reachLost x.1).onlyCen_moduleUnverified x.1 x.2)

theorem Part.onlyCen_foldl {α : Type} {f : Part → α → Part} (step : ∀ q x, Part.OnlyCen q (f q x)) (l : List α) (p : Part) :
    p.OnlyCen (l.foldl f p) := by
  induction l generalizing p with
  | nil => exact .refl p
  | cons x l ih => exact (step p x).trans (ih _)

theorem sweepOn_passes {p : Part} {x : Chan × Nat} (h : p.Passes x) (rest : List (Chan × Nat)) :
    sweepOn (x :: rest) p = sweepOn rest (p.pastModule x) := by
  obtain ⟨c, a⟩ := x
  have reached := (p.onlyCen_reachLost c).passes h
  unfold Part.pastModule
  rw [sweepOn]
  dsimp only at reached ⊢
  generalize p.reachLost c = q at *
  by_cases empty : (q.moduleSlots c a).isEmpty = true
  · rw [if_pos empty, if_pos empty]
  · have unread : (q.moduleActive c a && !q.pendLost c) = false := by
      rcases reached with none | idle | lost
      · exact absurd (List.isEmpty_iff.mpr none) empty
      · simp only at idle; rw [idle]; rfl
      · simp only at lost; rw [lost]; simp
    rw [if_neg empty, if_neg empty, unread]
    rfl

/-- The sweep goes on behind the addresses it passes over. -/
theorem sweepOn_append {pre : List (Chan × Nat)} {p : Part} (h : ∀ x ∈ pre, p.Passes x) (rest : List (Chan × Nat)) :
    sweepOn (pre ++ rest) p = sweepOn rest (pre.foldl Part.pastModule p) := by
  induction pre generalizing p with
  | nil => rfl
  | cons x pre ih =>
    rw [List.cons_append, sweepOn_passes (h x List.mem_cons_self),
      ih (fun y hy => (p.onlyCen_pastModule x).passes (h y (List.mem_cons_of_mem x hy)))]
    rfl

/-- The sweep stops at a module that is ACTIVE, on a channel not lost, and reads it. -/
theorem sweepOn_stops {p : Part} {c : Chan} {a : Nat} (slots : p.moduleSlots c a ≠ []) (active : p.moduleActive c a = true)
    (kept : p.pendLost c = false) (rest : List (Chan × Nat)) : sweepOn ((c, a) :: rest) p
      = (p.onCen (fun n => { n with pos := some (c, a), read := some .notSent })).offerRead c a := by
  have reached : p.reachLost c = p := by
    cases c with
    | A => exact if_neg (ne_true_of_eq_false kept)
    | B => exact if_neg (ne_true_of_eq_false kept)
  rw [sweepOn]
  rw [reached, if_neg (by simpa using slots), active, kept]
  rfl

/-- The read of a module is offered, or waits for a place. -/
theorem Part.offerRead_cen (p : Part) (c : Chan) (a : Nat) :
    (p.offerRead c a).cen = { p.cen with deferred := decide (12 ≤ (p.chan c).queue.length) } := by
  unfold Part.offerRead Channel.otherRoom
  by_cases room : (p.chan c).queue.length < Config.otherCap
  · have waits : ¬ 12 ≤ (p.chan c).queue.length := Nat.not_le.mpr room
    rw [decide_eq_true room, decide_eq_false waits, if_pos rfl]
    cases c <;> rfl
  · have waits : 12 ≤ (p.chan c).queue.length := Nat.not_lt.mp room
    rw [decide_eq_false room, decide_eq_true waits]
    rfl

theorem Part.offerRead_queue {p : Part} {c : Chan} (a : Nat) (room : (p.chan c).queue.length < 12) :
    BusCmd.readTags a ∈ ((p.offerRead c a).chan c).queue := by
  unfold Part.offerRead Channel.otherRoom
  have has : (p.chan c).queue.length < Config.otherCap := room
  rw [if_pos (decide_eq_true has)]
  cases c <;> exact List.mem_append_right _ (List.mem_singleton.mpr rfl)

/-! ## What the sweep has counted -/

/-- The counts after k modules and the entries xs. -/
def cenCounted (xs : List Mismatch) (k : Nat) : CenCounts :=
  ⟨0, k, 0, 0, 0, min xs.length 65535, min (xs.length - 64) 65535⟩

/-- The census has listed the entries xs and given up k modules. -/
def Part.listing (p : Part) (xs : List Mismatch) (k : Nat) : Part :=
  p.onCen (fun n => { n with list := xs.take 64, counts := cenCounted xs k })

/-- The addresses that have STANDARD slots. -/
def Part.sweptModules (p : Part) (as : List (Chan × Nat)) : List (Chan × Nat) :=
  as.filter (fun x => !(p.moduleSlots x.1 x.2).isEmpty)

/-- The entry of a slot where a key is located. -/
def Part.unverifiedAt (p : Part) (n : Nat) : Option Mismatch :=
  (p.keyAt n).map (fun e => ⟨.unverified, n, some e.1, none, none, none⟩)

/-- The entries of the slots of some addresses. -/
def Part.unverifiedOf (p : Part) (as : List (Chan × Nat)) : List Mismatch :=
  ((p.sweptModules as).flatMap (fun x => p.moduleSlots x.1 x.2)).filterMap p.unverifiedAt

theorem satUp_min (n : Nat) : satUp (min n 65535) = min (n + 1) 65535 := by
  have top : Config.satMax = 65535 := rfl
  unfold satUp
  rw [top]
  split <;> omega

theorem Part.mismatch_listing (p : Part) (xs : List Mismatch) (k : Nat) (m : Mismatch) :
    (p.listing xs k).mismatch m = p.listing (xs ++ [m]) k := by
  have cap : Config.mismatchCap = 64 := rfl
  have entered : min (xs ++ [m]).length 65535 = satUp (min xs.length 65535) := by
    rw [satUp_min, List.length_append, List.length_singleton]
  unfold Part.mismatch Part.listing Part.onCen cenCounted
  dsimp only
  rw [entered, cap, List.length_take]
  by_cases room : xs.length < 64
  · have lost : (xs ++ [m]).length - 64 = xs.length - 64 := by simp; omega
    rw [if_pos (by omega), lost, List.take_of_length_le (by omega), List.take_of_length_le (by simp; omega)]
  · have lost : min ((xs ++ [m]).length - 64) 65535 = satUp (min (xs.length - 64) 65535) := by
      rw [satUp_min, List.length_append, List.length_singleton]
      congr 1
      omega
    rw [if_neg (by omega), lost, List.take_append_of_le_length (by omega)]

theorem Part.unverified_listing (p : Part) (slots : List Nat) (xs : List Mismatch) (k : Nat) :
    (p.listing xs k).unverified slots = p.listing (xs ++ slots.filterMap p.unverifiedAt) k := by
  induction slots generalizing xs with
  | nil => rw [List.filterMap_nil, List.append_nil]; rfl
  | cons n slots ih =>
    have split : (p.listing xs k).unverified (n :: slots) = (match (p.listing xs k).keyAt n with
        | some (h, _) => (p.listing xs k).mismatch ⟨.unverified, n, some h, none, none, none⟩
        | none => p.listing xs k).unverified slots := rfl
    have at_n : (p.listing xs k).keyAt n = p.keyAt n := rfl
    rw [split, at_n]
    cases found : p.keyAt n with
    | none =>
      rw [List.filterMap_cons_none (by rw [Part.unverifiedAt, found]; rfl)]
      exact ih xs
    | some e =>
      have entry : p.unverifiedAt n = some ⟨.unverified, n, some e.1, none, none, none⟩ := by
        rw [Part.unverifiedAt, found]; rfl
      rw [List.filterMap_cons_some entry]
      dsimp only
      rw [p.mismatch_listing, ih, List.append_assoc]
      rfl

theorem Part.moduleUnverified_listing (p : Part) (c : Chan) (a : Nat) (xs : List Mismatch) {k : Nat} (hk : k < 65535) :
    (p.listing xs k).moduleUnverified c a
      = p.listing (xs ++ (p.moduleSlots c a).filterMap p.unverifiedAt) (k + 1) := by
  have up : satUp k = k + 1 := if_pos hk
  unfold Part.moduleUnverified
  have slots : (p.listing xs k).moduleSlots c a = p.moduleSlots c a := rfl
  rw [slots, p.unverified_listing]
  unfold Part.listing Part.cenCount Part.onCen cenCounted
  dsimp only
  rw [up]

/-- The sweep passes over some addresses of a census of which no channel is lost. -/
theorem Part.past_listing {p : Part} (keptA : p.cen.pendA = false) (keptB : p.cen.pendB = false) (as : List (Chan × Nat))
    (xs : List Mismatch) {k : Nat} (hk : k + as.length < 65535) :
    as.foldl Part.pastModule (p.listing xs k) = p.listing (xs ++ p.unverifiedOf as) (k + (p.sweptModules as).length) := by
  induction as generalizing xs k with
  | nil => rw [Part.unverifiedOf, Part.sweptModules, List.filter_nil, List.flatMap_nil, List.filterMap_nil, List.append_nil]; rfl
  | cons x as ih =>
    obtain ⟨c, a⟩ := x
    rw [List.length_cons] at hk
    have reached : (p.listing xs k).reachLost c = p.listing xs k := by
      cases c
      · exact if_neg (ne_true_of_eq_false keptA)
      · exact if_neg (ne_true_of_eq_false keptB)
    have slots : (p.listing xs k).moduleSlots c a = p.moduleSlots c a := rfl
    have past : (p.listing xs k).pastModule (c, a) = if (p.moduleSlots c a).isEmpty then p.listing xs k
        else p.listing (xs ++ (p.moduleSlots c a).filterMap p.unverifiedAt) (k + 1) := by
      unfold Part.pastModule
      dsimp only
      rw [reached, slots, p.moduleUnverified_listing c a xs (by omega)]
    rw [List.foldl_cons, past]
    unfold Part.unverifiedOf Part.sweptModules
    by_cases empty : (p.moduleSlots c a).isEmpty = true
    · rw [if_pos empty, List.filter_cons_of_neg (by simpa using empty)]
      exact ih xs (by omega)
    · rw [if_neg empty, List.filter_cons_of_pos (by simpa using empty), List.flatMap_cons, List.filterMap_append,
        ← List.append_assoc, List.length_cons, ih _ (by omega)]
      unfold Part.unverifiedOf Part.sweptModules
      congr 1
      omega

/-! ## A census starts (R120 to R124) -/

theorem exists_first_not {α : Type} (P : α → Prop) (as : List α) :
    (∀ x ∈ as, P x) ∨ ∃ pre x post, as = pre ++ x :: post ∧ (∀ y ∈ pre, P y) ∧ ¬ P x := by
  induction as with
  | nil => exact Or.inl (fun _ h => absurd h List.not_mem_nil)
  | cons y as ih =>
    by_cases hy : P y
    · rcases ih with all | ⟨pre, x, post, rfl, before, stop⟩
      · exact Or.inl (fun x hx => (List.mem_cons.mp hx).elim (· ▸ hy) (all x))
      · exact Or.inr ⟨y :: pre, x, post, rfl, fun z hz => (List.mem_cons.mp hz).elim (· ▸ hy) (before z), stop⟩
    · exact Or.inr ⟨[], y, as, rfl, fun _ h => absurd h List.not_mem_nil, hy⟩

/-- The next scheduled start that a census sets. -/
def Part.nextCensus (p : Part) : Option Nat :=
  if p.policy.censusInterval = 0 then p.cen.nextStart else some (p.now + p.policy.censusInterval)

/-- The record of a census that has given up some addresses. -/
def Part.sweepingCen (p : Part) (cause : CenCause) (sc : Scope) (as : List (Chan × Nat)) : Cen :=
  ⟨.sweeping, some cause, some sc, some p.now, none, none, none, false, none, false, false, false, false,
    cenCounted (p.unverifiedOf as) (p.sweptModules as).length, p.cen.skipped, p.nextCensus, (p.unverifiedOf as).take 64⟩

/-- The record of a census that found no module to read. -/
def Part.emptyCensus (p : Part) (cause : CenCause) (sc : Scope) : Cen :=
  { p.sweepingCen cause sc (scopeSweep sc) with state := .idle, endMin := some p.now, outcome := some .complete }

theorem scopeSweep_length (sc : Scope) : (scopeSweep sc).length ≤ 60 := by
  cases sc <;> decide

theorem Part.cenStart_past (p : Part) (cause : CenCause) (sc : Scope) {pre rest : List (Chan × Nat)}
    (hsweep : scopeSweep sc = pre ++ rest)
    (passed : ∀ x ∈ pre, p.moduleSlots x.1 x.2 = [] ∨ p.moduleActive x.1 x.2 = false) :
    p.cenStart cause sc = sweepOn rest { p with cen := p.sweepingCen cause sc pre } := by
  have short : pre.length ≤ 60 := by
    have := scopeSweep_length sc
    rw [hsweep, List.length_append] at this
    omega
  let fresh : Part := { p with cen := p.sweepingCen cause sc [] }
  have start : p.cenStart cause sc = sweepOn (scopeSweep sc) (fresh.listing [] 0) := rfl
  have pass : ∀ x ∈ pre, (fresh.listing [] 0).Passes x := fun x hx => (passed x hx).imp id Or.inl
  rw [start, hsweep, sweepOn_append pass, Part.past_listing (p := fresh) rfl rfl pre [] (by omega), List.nil_append, Nat.zero_add]
  rfl

/-- The census stops at its first module to read. -/
theorem Part.cenStart_reads (p : Part) (cause : CenCause) {sc : Scope} {pre post : List (Chan × Nat)} {c : Chan} {a : Nat}
    (hsweep : scopeSweep sc = pre ++ (c, a) :: post)
    (passed : ∀ x ∈ pre, p.moduleSlots x.1 x.2 = [] ∨ p.moduleActive x.1 x.2 = false)
    (slots : p.moduleSlots c a ≠ []) (active : p.moduleActive c a = true) : p.cenStart cause sc
      = Part.offerRead { p with cen := { p.sweepingCen cause sc pre with pos := some (c, a), read := some .notSent } } c a := by
  rw [p.cenStart_past cause sc hsweep passed]
  exact sweepOn_stops (p := { p with cen := p.sweepingCen cause sc pre }) slots active (by cases c <;> rfl) post

/-- The census finds no module to read. -/
theorem Part.cenStart_over (p : Part) (cause : CenCause) {sc : Scope}
    (passed : ∀ x ∈ scopeSweep sc, p.moduleSlots x.1 x.2 = [] ∨ p.moduleActive x.1 x.2 = false) :
    p.cenStart cause sc = p.censusOver (p.emptyCensus cause sc) := by
  rw [p.cenStart_past cause sc (List.append_nil _).symm passed, sweepOn, Part.cenEnd_eq]
  rfl

/-- What the start of a census by part p makes of it. -/
structure Part.CensusStarted (p q : Part) (cause : CenCause) (sc : Scope) : Prop where
  cause : q.cen.cause = some cause
  scope : q.cen.scope = some sc
  startMin : q.cen.startMin = some p.now
  nextStart : q.cen.nextStart = p.nextCensus
  skipped : q.cen.skipped = p.cen.skipped
  reads : ∀ pre c a post, scopeSweep sc = pre ++ (c, a) :: post →
    (∀ x ∈ pre, p.moduleSlots x.1 x.2 = [] ∨ p.moduleActive x.1 x.2 = false) → p.moduleSlots c a ≠ [] →
    p.moduleActive c a = true →
    q.cen.state = .sweeping ∧ q.cen.pos = some (c, a) ∧ q.cen.read = some .notSent
      ∧ (q.cen.list = (p.unverifiedOf pre).take 64
        ∧ q.cen.counts = cenCounted (p.unverifiedOf pre) (p.sweptModules pre).length) ∧ q.cen.outcome = none
      ∧ ((p.chan c).queue.length < 12 → BusCmd.readTags a ∈ (q.chan c).queue)
      ∧ (12 ≤ (p.chan c).queue.length → q.cen.deferred = true)
  ends : (∀ x ∈ scopeSweep sc, p.moduleSlots x.1 x.2 = [] ∨ p.moduleActive x.1 x.2 = false) →
    q.cen.state = .idle ∧ q.cen.outcome = some .complete ∧ q.cen.endMin = some p.now ∧ q.cen.pos = none
      ∧ (q.cen.list = (p.unverifiedOf (scopeSweep sc)).take 64
        ∧ q.cen.counts = cenCounted (p.unverifiedOf (scopeSweep sc)) (p.sweptModules (scopeSweep sc)).length)
      ∧ (q.cen.list ≠ [] → q.alt.flags.getLsbD 10 = true)
  keys : q.keys = p.keys
  rows : q.rows = p.rows
  rentals : q.rentals = p.rentals

theorem Part.censusOver_cen (p : Part) (n : Cen) : (p.censusOver n).cen = n := (congrArg Part.cen (p.censusOver_restA n) :)

theorem Part.cenStart_cen (p : Part) (cause : CenCause) (sc : Scope) :
    ∃ as n, (p.cenStart cause sc).cen = n ∧ n.cause = (p.sweepingCen cause sc as).cause
      ∧ n.scope = (p.sweepingCen cause sc as).scope ∧ n.startMin = (p.sweepingCen cause sc as).startMin
      ∧ n.nextStart = (p.sweepingCen cause sc as).nextStart ∧ n.skipped = (p.sweepingCen cause sc as).skipped := by
  rcases exists_first_not (fun x => p.moduleSlots x.1 x.2 = [] ∨ p.moduleActive x.1 x.2 = false) (scopeSweep sc)
    with all | ⟨pre, ⟨c, a⟩, post, hsweep, before, stop⟩
  · refine ⟨scopeSweep sc, p.emptyCensus cause sc, ?_, rfl, rfl, rfl, rfl, rfl⟩
    rw [p.cenStart_over cause all, Part.censusOver_cen]
  · obtain ⟨slots, active⟩ := not_or.mp stop
    refine ⟨pre, { p.sweepingCen cause sc pre with
        pos := some (c, a), read := some .notSent, deferred := decide (12 ≤ (p.chan c).queue.length) },
      ?_, rfl, rfl, rfl, rfl, rfl⟩
    · rw [p.cenStart_reads cause hsweep before slots (by simpa using active), Part.offerRead_cen]
      cases c <;> rfl

theorem Part.censusStarted (p : Part) (cause : CenCause) (sc : Scope) : p.CensusStarted (p.cenStart cause sc) cause sc := by
  obtain ⟨rest, -⟩ := p.cenStart_leaves cause sc
  obtain ⟨as, n, cen, hcause, hscope, hstart, hnext, hskipped⟩ := p.cenStart_cen cause sc
  refine ⟨cen ▸ hcause, cen ▸ hscope, cen ▸ hstart, cen ▸ hnext, cen ▸ hskipped, ?_, ?_,
    (congrArg Part.keys rest :), (congrArg Part.rows rest :), (congrArg Part.rentals rest :)⟩
  · intro pre c a post hsweep passed slots active
    rw [p.cenStart_reads cause hsweep passed slots active, Part.offerRead_cen]
    refine ⟨rfl, rfl, rfl, ⟨rfl, rfl⟩, rfl, fun room => Part.offerRead_queue a (by cases c <;> exact room), fun full => ?_⟩
    exact decide_eq_true (by cases c <;> exact full)
  · intro passed
    rw [p.cenStart_over cause passed, Part.censusOver_cen]
    refine ⟨rfl, rfl, rfl, rfl, ⟨rfl, rfl⟩, fun listed => Part.censusOver_flag p ?_⟩
    have some_entry : (p.unverifiedOf (scopeSweep sc)).length ≠ 0 := fun none =>
      listed (by rw [show (p.emptyCensus cause sc).list = (p.unverifiedOf (scopeSweep sc)).take 64 from rfl,
        List.length_eq_zero_iff.mp none]; rfl)
    exact Nat.lt_min.mpr ⟨Nat.pos_of_ne_zero some_entry, by decide⟩

/-- The start of a census is seen through what no lamp and no response changes. -/
theorem Part.CensusStarted.of_unlit {p q u : Part} {cause : CenCause} {sc : Scope} {tfl : Tfl} {link : Link}
    (h : p.CensusStarted q cause sc) (hu : u.unlit = ({ q with tfl := tfl, link := link } : Part).unlit) :
    p.CensusStarted u cause sc := by
  have cen : u.cen = q.cen := (congrArg Part.cen hu :)
  have flags : u.alt = q.alt := (congrArg Part.alt hu :)
  refine ⟨cen ▸ h.cause, cen ▸ h.scope, cen ▸ h.startMin, cen ▸ h.nextStart, cen ▸ h.skipped, ?_, ?_,
    (congrArg Part.keys hu).trans h.keys, (congrArg Part.rows hu).trans h.rows, (congrArg Part.rentals hu).trans h.rentals⟩
  · intro pre c a post hsweep passed slots active
    rw [cen, Part.mem_queue_of_unlit hu c rfl]
    have same : (({ q with tfl := tfl, link := link } : Part).chan c) = q.chan c := by cases c <;> rfl
    rw [same]
    exact h.reads pre c a post hsweep passed slots active
  · intro passed
    rw [cen, flags]
    exact h.ends passed

theorem Part.doCensusStart_idle {p : Part} {f : Frame} {sc : Scope} (hparse : parseScope f.payload = some sc)
    (idle : p.cen.state = .idle) :
    p.doCensusStart f = (p.cenStart (.request f.origin) sc).answer .ok (beBytes 3 p.now) := by
  unfold Part.doCensusStart
  rw [hparse]
  dsimp only
  rw [idle]

theorem Part.doCensusStart_busy {p : Part} {f : Frame} {sc : Scope} (hparse : parseScope f.payload = some sc)
    (busy : p.cen.state ≠ .idle) : p.doCensusStart f = p.refuse .busy := by
  unfold Part.doCensusStart
  rw [hparse]
  dsimp only
  cases hs : p.cen.state with
  | idle => exact absurd hs busy
  | sweeping => rfl
  | aborted => rfl

theorem parseScope_payload {bs : List Byte} {tag : Byte} {sc : Scope} (h : bs = [tag, match sc with
    | .A => 0#8
    | .B => 1#8
    | .both => 2#8]) : parseScope bs = some sc := by
  cases sc <;> subst h <;> rfl

section Schedule
variable {p : Part} {m : Nat} (hI : p.policy.censusInterval ≠ 0)
include hI

theorem Part.cenTick_unset (h : p.cen.nextStart = none) :
    p.cenTick m = { p with cen := { p.cen with nextStart := some (m + p.policy.censusInterval) } } := by
  unfold Part.cenTick
  dsimp only
  rw [if_neg hI, h]
  rfl

theorem Part.cenTick_early {t : Nat} (h : p.cen.nextStart = some t) (ht : m < t) : p.cenTick m = p := by
  unfold Part.cenTick
  dsimp only
  rw [if_neg hI, h]
  exact if_pos ht

theorem Part.cenTick_skips {t : Nat} (h : p.cen.nextStart = some t) (ht : t ≤ m) (busy : p.cen.state ≠ .idle) :
    p.cenTick m = { p with cen := { p.cen with
      nextStart := some (m + p.policy.censusInterval), skipped := satUp p.cen.skipped } } := by
  unfold Part.cenTick
  dsimp only
  rw [if_neg hI, h]
  dsimp only
  rw [if_neg (Nat.not_lt.mpr ht)]
  cases hs : p.cen.state with
  | idle => exact absurd hs busy
  | sweeping => simp only [Part.onCen, hs]
  | aborted => simp only [Part.onCen, hs]

theorem Part.cenTick_starts {t : Nat} (h : p.cen.nextStart = some t) (ht : t ≤ m) (idle : p.cen.state = .idle) :
    p.cenTick m = p.cenStart .schedule .both := by
  unfold Part.cenTick
  dsimp only
  rw [if_neg hI, h]
  dsimp only
  rw [if_neg (Nat.not_lt.mpr ht), idle]

end Schedule

theorem Part.cenTakeTick_cons {p : Part} {m : Nat} {ms : List Nat} (h : p.tickCen = m :: ms) :
    p.cenTakeTick = ({ p with tickCen := ms } : Part).cenTick m := by
  unfold Part.cenTakeTick
  rw [h]

/-- Settles O48: the sweep passes over the addresses before its first module to read, and what it has counted then is one record. -/
theorem censusStarts : Obligations.CensusStarts := by
  unfold Obligations.CensusStarts
  refine ⟨?_, ?_⟩
  · intro s f rest tag sc hasks hpay
    have hparse := parseScope_payload hpay
    refine ⟨fun idle => ?_, fun idle passed room => ?_, fun busy room => ?_⟩
    · have answer := Part.doCensusStart_idle (p := s.part.asked f rest) hparse idle
      obtain ⟨tfl, link, u, hu, hunlit, last⟩ := State.answersLast Part.doCensusStart hasks answer
      have started := ((s.part.asked f rest).censusStarted (.request f.origin) sc).of_unlit hunlit
      exact ⟨u, hu, ⟨started.cause, started.scope, started.startMin, started.nextStart, started.skipped, started.reads,
        started.ends, started.keys, started.rows, started.rentals⟩, last⟩
    · have answer := Part.doCensusStart_idle (p := s.part.asked f rest) hparse idle
      rw [Part.cenStart_over (s.part.asked f rest) _ passed] at answer
      exact State.replies Part.doCensusStart hasks answer rfl room
    · exact State.refuses Part.doCensusStart hasks room (Part.doCensusStart_busy hparse busy)
  · intro s m ms htick hI
    have taken := s.part.cenTakeTick_cons htick
    refine ⟨fun hnext => ?_, fun t hnext ht => ?_, fun t hnext ht busy => ?_, fun t hnext ht idle => ⟨?_, fun passed => ?_⟩⟩
    · exact State.becomes_of_eq (taken.trans (Part.cenTick_unset hI hnext))
    · exact State.becomes_of_eq (taken.trans (Part.cenTick_early hI hnext ht))
    · exact State.becomes_of_eq (taken.trans (Part.cenTick_skips hI hnext ht busy))
    · obtain ⟨u, hu, -, hunlit⟩ := State.becomes_of_eq (s := s)
        (taken.trans (Part.cenTick_starts (p := { s.part with tickCen := ms }) hI hnext ht idle))
      have started := (Part.censusStarted { s.part with tickCen := ms } .schedule .both).of_unlit
        (tfl := Part.tfl _) (link := Part.link _) hunlit
      have ticks : u.part.tickCen = ms :=
        (congrArg Part.tickCen hunlit).trans (congrArg Part.tickCen (Part.cenStart_leaves _ _ _).1)
      exact ⟨u, hu, ⟨started.cause, started.scope, started.startMin, started.nextStart, started.skipped, started.reads,
        started.ends, started.keys, started.rows, started.rentals⟩, ticks⟩
    · exact State.becomes_of_eq ((taken.trans (Part.cenTick_starts (p := { s.part with tickCen := ms }) hI hnext ht idle)).trans
        (Part.cenStart_over _ _ passed))

end Sys2Proof.Machine
end

section
/-! PROOFS. A context gives up its release (R45, R46, R54, R55, R56). -/

namespace Sys2Proof.Machine
open Sys2Proof

/-! ## The steps of giving up -/

theorem Table.modify_modify {α : Type} (t : Table α) (i : Nat) (f g : α → α) :
    Table.modify (Table.modify t i f) i g = Table.modify t i (fun x => g (f x)) := by
  induction t with
  | nil => rfl
  | cons e t ih =>
    obtain ⟨k, w⟩ := e
    unfold Table.modify
    by_cases hk : k = i
    · simp [hk, Table.modify]
    · simp [hk, Table.modify, ih]

/-- An authorization found by its number is found again after its record has changed. -/
theorem Part.auth_onAuth {p : Part} {n : Nat} {a : Auth} (ha : p.auth n = some a) {f : Auth → Auth}
    (hf : ∀ x, (f x).rental = x.rental) : (p.onAuth n f).auth n = some (f a) := by
  unfold Part.auth Part.onAuth at *
  dsimp only
  rw [List.find?_map]
  have same : (fun x : Auth => x.rental == n) ∘ (fun a => if a.rental = n then f a else a) = fun x => x.rental == n := by
    funext x
    dsimp only [Function.comp]
    split <;> simp [hf]
  have number : a.rental = n := by simpa using List.find?_some ha
  rw [same, ha, Option.map_some, if_pos number]

/-- An authorization removed is found no more. -/
theorem Part.auth_delAuth (p : Part) (n : Nat) : (p.delAuth n).auth n = none := by
  unfold Part.auth Part.delAuth
  rw [List.find?_eq_none]
  intro x hx
  simpa using (List.mem_filter.mp hx).2

theorem Part.authBack_waits {p : Part} {q : RelReq} {n : Nat} {a : Auth} (hsub : q.subject = .rental n) (ha : p.auth n = some a)
    (active : a.state = .active) (valid : a.expired p.now = false) :
    p.authBack q = p.onAuth n (fun a => { a with state := .waiting }) := by
  unfold Part.authBack
  rw [hsub]
  dsimp only
  rw [ha]
  dsimp only
  rw [if_neg (by simpa using active), valid]
  rfl

theorem Part.authBack_expires {p : Part} {q : RelReq} {n : Nat} {a : Auth} (hsub : q.subject = .rental n)
    (ha : p.auth n = some a) (active : a.state = .active) (expired : a.expired p.now = true) :
    p.authBack q = (p.delAuth n).offerOrd a.expiredReport := by
  unfold Part.authBack
  rw [hsub]
  dsimp only
  rw [ha]
  dsimp only
  rw [if_neg (by simpa using active), expired]
  rfl

/-- The key of a context that is still RELEASING gets its state of before. -/
theorem Part.returnKey_touch {p : Part} {c : Ctx} {h : Nat} {k : KeyRec} (hkey : c.key = some h)
    (hk : Table.look p.keys h = some k) (releasing : k.state = .releasing) : ∃ ks, p.returnKey c
      = ({ p with keys := Table.put p.keys h (if p.claims c.req h then { k with state := .assigned } else k.restored) } : Part).touch
        ks := by
  have found : c.key.bind (fun h => (Table.look p.keys h).map (fun k => (h, k))) = some (h, k) := by
    rw [hkey, Option.bind_some, hk]
    rfl
  obtain ⟨ks, hks⟩ := p.setKey_touch h (if p.claims c.req h then { k with state := .assigned } else k.restored)
  refine ⟨ks, ?_⟩
  unfold Part.returnKey
  rw [found]
  dsimp only
  rw [if_neg (by simpa using releasing), hks]

/-- A context goes to CLOSING. -/
def Ctx.closes (c : Ctx) (mono : Nat) : Ctx :=
  { c with state := .closing, lockLimit := some (mono + 2000), window := none, lockSent := false }

/-- Context i closes at slot n. -/
def Part.closesAt (p : Part) (i n : Nat) : Part :=
  ({ p with ctxs := Table.modify p.ctxs i (·.closes p.mono) } : Part).onChan (p.slotEntry n).chan
    (·.pushClose i (p.slotEntry n).addr (p.slotEntry n).pos)

theorem Part.beginClose_touch (p : Part) (i : Nat) {c : Ctx} {n : Nat} (hslot : c.slot = some n) :
    ∃ ks, p.beginClose i c = (p.closesAt i n).touch ks := by
  have closed : (p.onChan (p.slotEntry n).chan (·.pushClose i (p.slotEntry n).addr (p.slotEntry n).pos)).onCtx i (fun c =>
      { c with state := .closing, lockLimit := some (p.mono + Config.lockLimit), window := none, lockSent := false })
      = p.closesAt i n := by
    unfold Part.closesAt
    cases (p.slotEntry n).chan <;> rfl
  unfold Part.beginClose
  rw [hslot, Option.getD_some]
  dsimp only
  rw [closed]
  exact ⟨_, rfl⟩

/-- The key record of a release given up, named by its authorization or not. -/
def KeyRec.givenBack (k : KeyRec) (named : Prop) [Decidable named] (n : Nat) : KeyRec :=
  { k with state := if named then .assigned else if k.home = none ∨ k.home = some n then .inn else .misplaced }

theorem KeyRec.restored_eq {k : KeyRec} {n : Nat} (h : k.loc = some n) : k.restored = { k with
    state := if k.home = none ∨ k.home = some n then .inn else .misplaced } := by
  unfold KeyRec.restored KeyRec.stateAt
  rw [h, Option.getD_some]
  simp only [Bool.or_eq_true, Option.isNone_iff_eq_none, beq_iff_eq]

theorem Channel.pushClose_mem {ch : Channel} (h : ch.queue.length < 16) (i a pos : Nat) :
    BusCmd.lockClose a pos (.ctx i) ∈ (ch.pushClose i a pos).queue := by
  unfold Channel.pushClose
  split
  · next waits =>
    obtain ⟨b, hb, own⟩ := List.any_eq_true.mp waits
    exact List.mem_map.mpr ⟨b, hb, if_pos own⟩
  · rw [Channel.pushLock_room h]
    exact List.mem_append_right _ (List.mem_singleton.mpr rfl)

/-! ## Giving up -/

theorem Auth.expired_iff (a : Auth) (now : Nat) :
    a.expired now = false ↔ a.validUntil.all (fun v => decide (now ≤ v)) = true := by
  unfold Auth.expired
  cases a.validUntil with
  | none => simp
  | some v => simp

theorem Part.touch_closesAt (p : Part) (ks : List Nat) (i n : Nat) :
    (p.touch ks).closesAt i n = (p.closesAt i n).touch ks := by
  have slot : (p.touch ks).slotEntry n = p.slotEntry n := rfl
  unfold Part.closesAt
  rw [slot]
  cases (p.slotEntry n).chan <;> rfl

/-- A context that closes changes its own record and a queue. -/
theorem Part.closesAt_leaves (p : Part) (i n : Nat) : ∃ A B, p.closesAt i n = { p with
    ctxs := Table.modify p.ctxs i (·.closes p.mono), chanA := A, chanB := B } := by
  unfold Part.closesAt
  cases (p.slotEntry n).chan
  · exact ⟨_, p.chanB, rfl⟩
  · exact ⟨p.chanA, _, rfl⟩

theorem Part.closesAt_queue {p : Part} {n : Nat} (room : (p.chan (p.slotEntry n).chan).queue.length < 16) (i : Nat) :
    BusCmd.lockClose (p.slotEntry n).addr (p.slotEntry n).pos (.ctx i)
      ∈ ((p.closesAt i n).chan (p.slotEntry n).chan).queue := by
  unfold Part.closesAt
  rw [Part.chan_onChan]
  exact Channel.pushClose_mem room i _ _

/-- The part after context i has given up with result r the key h, record k, of its slot n. -/
def Part.givenUp (p : Part) (i n : Nat) (a : Auth) (h : Nat) (k : KeyRec) (r : CtxResult) : Part :=
  Part.closesAt { p with
    ctxs := Table.modify p.ctxs i (fun c => { c with result := some r })
    auths := p.auths.map (fun x => if x.rental = a.rental then { x with state := .waiting } else x)
    keys := Table.put p.keys h (k.givenBack (a.target = .key h) n) } i n

section HandsBack
variable {p : Part} {i n h : Nat} {c : Ctx} {a : Auth} {k : KeyRec} (hkey : c.key = some h) (hsub : c.req.subject = .rental a.rental)
  (ha : p.auth a.rental = some a) (active : a.state = .active) (valid : a.expired p.now = false)
  (hk : Table.look p.keys h = some k) (releasing : k.state = .releasing) (hloc : k.loc = some n)
include hsub ha active valid

/-- The authorization of a context waits again. -/
theorem Part.authBack_result (r : CtxResult) : (p.setResult i r).authBack c.req
    = (p.setResult i r).onAuth a.rental (fun a => { a with state := .waiting }) :=
  Part.authBack_waits (p := p.setResult i r) hsub ha active valid

omit valid active in
theorem Part.claims_waiting (r : CtxResult) :
    ((p.setResult i r).onAuth a.rental (fun a => { a with state := .waiting })).claims c.req h = decide (a.target = .key h) := by
  have found := Part.auth_onAuth (p := p.setResult i r) ha (f := fun a => { a with state := .waiting }) (fun _ => rfl)
  unfold Part.claims
  rw [hsub]
  dsimp only
  rw [found]
  exact beq_eq_decide _ _

include hkey hk releasing hloc

/-- A context hands back what it carried: its result, its authorization, its key, and lamps. -/
theorem Part.handsBack_touch (r : CtxResult) : ∃ ks, ((p.setResult i r).authBack c.req).returnKey c = ({ p with
    ctxs := Table.modify p.ctxs i (fun c => { c with result := some r })
    auths := p.auths.map (fun x => if x.rental = a.rental then { x with state := .waiting } else x)
    keys := Table.put p.keys h (k.givenBack (a.target = .key h) n) } : Part).touch ks := by
  have named := Part.claims_waiting (i := i) (h := h) hsub ha r
  obtain ⟨ks, hks⟩ := Part.returnKey_touch
    (p := (p.setResult i r).onAuth a.rental (fun a => { a with state := .waiting })) hkey hk releasing
  have given : (if decide (a.target = .key h) = true then { k with state := .assigned } else k.restored)
      = k.givenBack (a.target = .key h) n := by
    rw [KeyRec.restored_eq hloc]
    unfold KeyRec.givenBack
    by_cases ht : a.target = .key h <;> simp [ht]
  rw [named, given] at hks
  rw [Part.authBack_result hsub ha active valid, hks]
  exact ⟨ks, rfl⟩

end HandsBack

section GiveUp
variable {p : Part} {i n h : Nat} {c : Ctx} {a : Auth} {k : KeyRec} (carries : p.Carries i n c a h k)
include carries

theorem Part.Carries.authBack (r : CtxResult) : (p.setResult i r).authBack c.req
    = (p.setResult i r).onAuth a.rental (fun a => { a with state := .waiting }) := by
  obtain ⟨-, -, -, hsub, ha, active, valid, -⟩ := carries
  exact Part.authBack_result hsub ha active ((a.expired_iff p.now).mpr valid) r

theorem Part.Carries.claims (r : CtxResult) :
    ((p.setResult i r).onAuth a.rental (fun a => { a with state := .waiting })).claims c.req h = decide (a.target = .key h) := by
  obtain ⟨-, -, -, hsub, ha, -⟩ := carries
  exact Part.claims_waiting hsub ha r

theorem Part.giveUp_touch (r : CtxResult) : ∃ ks, p.giveUp i c r = (p.givenUp i n a h k r).touch ks := by
  obtain ⟨-, hslot, hkey, hsub, ha, active, valid, hk, releasing, hloc, -⟩ := carries
  obtain ⟨ks, hks⟩ := Part.handsBack_touch (i := i) hkey hsub ha active ((a.expired_iff p.now).mpr valid) hk releasing hloc r
  unfold Part.giveUp
  rw [hks]
  obtain ⟨ls, hls⟩ := Part.beginClose_touch (Part.touch _ ks) i hslot
  refine ⟨ks ++ ls, hls.trans ?_⟩
  rw [Part.touch_closesAt, Part.touch_touch]
  rfl

theorem Part.gaveUp_givenUp (r : CtxResult) : p.GaveUp (p.givenUp i n a h k r) i n c a h k r := by
  obtain ⟨hc, -, -, -, -, -, -, -, -, -, room⟩ := carries
  have queue := Part.closesAt_queue (n := n) (p := { p with
    ctxs := Table.modify p.ctxs i (fun c => { c with result := some r })
    auths := p.auths.map (fun x => if x.rental = a.rental then { x with state := .waiting } else x)
    keys := Table.put p.keys h (k.givenBack (a.target = .key h) n) })
    room i
  obtain ⟨A, B, closed⟩ := Part.closesAt_leaves { p with
    ctxs := Table.modify p.ctxs i (fun c => { c with result := some r })
    auths := p.auths.map (fun x => if x.rental = a.rental then { x with state := .waiting } else x)
    keys := Table.put p.keys h (k.givenBack (a.target = .key h) n) } i n
  unfold Part.givenUp
  rw [closed] at queue ⊢
  refine ⟨?_, rfl, Table.look_put_same _ _ _, queue, rfl, rfl, rfl, rfl, rfl⟩
  dsimp only
  rw [Table.modify_modify, Table.look_modify_same, hc]
  rfl

end GiveUp

/-- What has been given up is seen through lamps, reports and the TFL. -/
theorem Part.GaveUp.of_unlit {p q u : Part} {i n h : Nat} {c : Ctx} {a : Auth} {k : KeyRec} {r : CtxResult} {tfl : Tfl}
    {link : Link} (gave : p.GaveUp q i n c a h k r) (hu : u.unlit = ({ q with tfl := tfl, link := link } : Part).unlit) :
    p.GaveUp u i n c a h k r := by
  obtain ⟨ctx, auths, key, close, rentals, waitQ, policy, clock, cen⟩ := gave
  have hctxs : u.ctxs = q.ctxs := (congrArg Part.ctxs hu :)
  have hkeys : u.keys = q.keys := (congrArg Part.keys hu :)
  refine ⟨hctxs ▸ ctx, (congrArg Part.auths hu).trans auths, hkeys ▸ key, ?_, (congrArg Part.rentals hu).trans rentals,
    (congrArg Part.waitQ hu).trans waitQ, (congrArg Part.policy hu).trans policy, (congrArg Part.clock hu).trans clock,
    (congrArg Part.cen hu).trans cen⟩
  rw [Part.mem_queue_of_unlit hu _ rfl]
  exact close

/-! ## CANCEL_RELEASE (R55) -/

/-- The only context of a rental number is found. -/
theorem Part.ctxFor_eq {p : Part} {i n : Nat} {c : Ctx} (rising : Table.rising p.ctxs = true)
    (hc : Table.look p.ctxs i = some c) (hsub : c.req.subject = .rental n)
    (only : ∀ e ∈ p.ctxs, e.2.req.subject = .rental n → e.1 = i) (releasing : c.state.releasing = true) :
    p.ctxFor n = some (i, c) := by
  unfold Part.ctxFor
  cases find : p.ctxs.find? (fun e => e.2.req.subject == .rental n && e.2.state.releasing) with
  | none =>
    have := List.find?_eq_none.mp find _ (Table.mem_of_look hc)
    simp [hsub, releasing] at this
  | some e =>
    obtain ⟨j, d⟩ := e
    have mem := List.mem_of_find?_eq_some find
    have carried := List.find?_some find
    simp only [Bool.and_eq_true, beq_iff_eq] at carried
    obtain rfl : j = i := only _ mem carried.1
    have found := Table.look_of_mem rising mem
    rw [hc] at found
    rw [Option.some.inj found]

theorem Part.liveFor_none {p : Part} {n : Nat} (h : ∀ w ∈ p.waitQ, w.req.subject ≠ .rental n) : p.liveFor n = none := by
  unfold Part.liveFor
  rw [List.find?_eq_none]
  intro w hw
  simp [h w hw]

theorem Part.mayCancel_iff (p : Part) (f : Frame) (q : RelReq) :
    p.mayCancel f q = true ↔ q.origin = f.origin ∨ (p.terminal f.origin).role = .office := by
  simp [Part.mayCancel]

/-- Settles O36: the context of the rental number is the one found, and giving up is `Part.giveUp_touch`. -/
theorem cancelReleaseGivesUp : Obligations.CancelReleaseGivesUp := by
  unfold Obligations.CancelReleaseGivesUp
  intro s f rest tag n i slot h c a k hasks hpay hn hrental carries unqueued only rising may room
  subst hrental
  obtain ⟨hc, -, -, hsub, -⟩ := id carries
  have hparse : parseNum 4 f.payload = some a.rental := by
    rw [hpay]
    exact parseNum_payload tag 4 _ hn
  have live : (s.part.asked f rest).liveFor a.rental = none := Part.liveFor_none unqueued
  have allowed : (s.part.asked f rest).mayCancel f c.req = true := (Part.mayCancel_iff _ _ _).mpr may
  have answer (releasing : c.state.releasing = true) : (s.part.asked f rest).doCancelRelease f
      = if c.state = .removedSettling then (s.part.asked f rest).refuse .tooLate
        else ((s.part.asked f rest).giveUp i c .cancelled).answer .ok [] := by
    unfold Part.doCancelRelease
    rw [hparse]
    dsimp only
    rw [live, Part.ctxFor_eq (p := s.part.asked f rest) rising hc hsub only releasing]
    dsimp only
    rw [allowed]
    rfl
  refine ⟨fun running => ?_, fun settling => ?_⟩
  · have ho := answer (by rcases running with h | h <;> rw [h] <;> rfl)
    rw [if_neg (by rcases running with h | h <;> rw [h] <;> nofun)] at ho
    have carriesA : (s.part.asked f rest).Carries i slot c a h k := carries
    obtain ⟨ks, given⟩ := Part.giveUp_touch carriesA .cancelled
    have gave := Part.gaveUp_givenUp carriesA .cancelled
    have link : ((s.part.asked f rest).givenUp i slot a h k .cancelled).link = (s.part.asked f rest).link := by
      unfold Part.givenUp
      obtain ⟨A, B, closed⟩ := Part.closesAt_leaves _ i slot
      rw [closed]
    rw [given] at ho
    obtain ⟨u, hu, -, hunlit⟩ := State.replies Part.doCancelRelease hasks ho (Part.touch_unlit _ ks)
      (by unfold Part.essRoom; rw [link]; exact room)
    refine ⟨u, hu, (gave.of_unlit hunlit :), ?_⟩
    have reports := congrArg (fun p => p.link.reports) hunlit
    refine reports.trans ?_
    show ((s.part.asked f rest).givenUp i slot a h k .cancelled).link.reports ++ _ = _
    rw [link]
    rfl
  · have ho := answer (by rw [settling]; rfl)
    rw [if_pos settling] at ho
    exact State.refuses Part.doCancelRelease hasks room ho

/-! ## The timers of a context (R45, R46, R54) -/

theorem Part.givenUp_leaves (p : Part) (i n : Nat) (a : Auth) (h : Nat) (k : KeyRec) (r : CtxResult) : ∃ ctxs A B,
    p.givenUp i n a h k r = { p with
      ctxs := ctxs, chanA := A, chanB := B
      auths := p.auths.map (fun x => if x.rental = a.rental then { x with state := .waiting } else x)
      keys := Table.put p.keys h (k.givenBack (a.target = .key h) n) } := by
  obtain ⟨A, B, closed⟩ := Part.closesAt_leaves { p with
    ctxs := Table.modify p.ctxs i (fun c => { c with result := some r })
    auths := p.auths.map (fun x => if x.rental = a.rental then { x with state := .waiting } else x)
    keys := Table.put p.keys h (k.givenBack (a.target = .key h) n) } i n
  exact ⟨_, A, B, closed⟩

section AlertsAside
variable {p q : Part} {rows : Table SlotRow} {lmp : Lmp} (same : q.restA = ({ p with rows := rows, lmp := lmp } : Part).restA)
include same

theorem Part.slotEntry_of_restA (n : Nat) : q.slotEntry n = p.slotEntry n := by
  unfold Part.slotEntry
  rw [show q.slotMap = p.slotMap from (congrArg Part.slotMap same :)]

theorem Part.chan_of_restA (c : Chan) : q.chan c = p.chan c := by
  cases c with
  | A => exact (congrArg Part.chanA same :)
  | B => exact (congrArg Part.chanB same :)

/-- What a context carries does not look at alerts, reports, rows and lamps. -/
theorem Part.Carries.of_restA {i n h : Nat} {c : Ctx} {a : Auth} {k : KeyRec} (carries : p.Carries i n c a h k) :
    q.Carries i n c a h k := by
  obtain ⟨hc, hslot, hkey, hsub, ha, active, valid, hk, releasing, hloc, room⟩ := carries
  have ctxs : q.ctxs = p.ctxs := (congrArg Part.ctxs same :)
  have auths : q.auths = p.auths := (congrArg Part.auths same :)
  have keys : q.keys = p.keys := (congrArg Part.keys same :)
  have now : q.now = p.now := (congrArg Part.now same :)
  refine ⟨ctxs ▸ hc, hslot, hkey, hsub, ?_, active, now ▸ valid, keys ▸ hk, releasing, hloc, ?_⟩
  · unfold Part.auth
    rw [auths]
    exact ha
  · rw [Part.slotEntry_of_restA same, Part.chan_of_restA same]
    exact room

theorem Part.GaveUp.of_restA {r : Part} {i n h : Nat} {c : Ctx} {a : Auth} {k : KeyRec} {res : CtxResult}
    (gave : q.GaveUp r i n c a h k res) : p.GaveUp r i n c a h k res := by
  unfold Part.GaveUp at *
  obtain ⟨ctx, auths, key, close, rentals, waitQ, policy, clock, cen⟩ := gave
  rw [show q.mono = p.mono from (congrArg Part.mono same :)] at ctx
  rw [show q.auths = p.auths from (congrArg Part.auths same :)] at auths
  rw [Part.slotEntry_of_restA same] at close
  exact ⟨ctx, auths, key, close, rentals.trans (congrArg Part.rentals same :), waitQ.trans (congrArg Part.waitQ same :),
    policy.trans (congrArg Part.policy same :), clock.trans (congrArg Part.clock same :), cen.trans (congrArg Part.cen same :)⟩

end AlertsAside

/-- The lock of a slot is JAMMED: its row, LOCK_JAM, and lamps. -/
theorem Part.markJam_eq (p : Part) (n : Nat) : ∃ ks, p.markJam n
    = (({ p with rows := Table.modify p.rows n (fun r => { r with lock := some .jammed }) } : Part).touch ks).raise
        .lockJam (.slot n) none := ⟨_, rfl⟩

theorem Part.markJam_restA (p : Part) (n : Nat) : ∃ lmp, (p.markJam n).restA
    = ({ p with rows := Table.modify p.rows n (fun r => { r with lock := some .jammed }), lmp := lmp } : Part).restA :=
  ⟨_, Part.raise_restA _ _ _ _⟩

theorem Part.markJam_flag (p : Part) (n : Nat) : (p.markJam n).alt.flags.getLsbD 5 = true := Part.raise_flag _ .lockJam _ _

/-- A context that gives up at the lock. -/
theorem Part.ctxFault_touch {p : Part} {i n h : Nat} {c : Ctx} {a : Auth} {k : KeyRec} (carries : p.Carries i n c a h k) :
    ∃ ks, p.ctxFault i c = ((p.markJam n).givenUp i n a h k .lockFault).touch ks
      ∧ p.GaveUp ((p.markJam n).givenUp i n a h k .lockFault) i n c a h k .lockFault := by
  obtain ⟨lmp, same⟩ := p.markJam_restA n
  have jammed := Part.Carries.of_restA same carries
  obtain ⟨ks, given⟩ := Part.giveUp_touch jammed .lockFault
  obtain ⟨-, hslot, -⟩ := carries
  refine ⟨ks, ?_, Part.GaveUp.of_restA same (Part.gaveUp_givenUp jammed .lockFault)⟩
  unfold Part.ctxFault
  rw [hslot]
  exact given

theorem Auth.expiredReport_spelt (a : Auth) : a.expiredReport = ⟨.authExpired, a.origin, beBytes 4 a.rental ++ (match a.target with
    | .key h => 0#8 :: beBytes 2 h
    | .cls c => 1#8 :: beBytes 2 c)⟩ := by
  unfold Auth.expiredReport
  cases a.target <;> rfl

/-- A context whose authorization has expired gives up: the authorization is removed, the key is IN or MISPLACED. -/
theorem Part.giveUp_expires {p : Part} {i n h : Nat} {c : Ctx} {a : Auth} {k : KeyRec} (r : CtxResult) (hslot : c.slot = some n)
    (hkey : c.key = some h) (hsub : c.req.subject = .rental a.rental) (ha : p.auth a.rental = some a)
    (active : a.state = .active) (expired : a.expired p.now = true) (hk : Table.look p.keys h = some k)
    (releasing : k.state = .releasing) (hloc : k.loc = some n) (room : p.link.reports.length < 48) :
    ∃ ks, p.giveUp i c r = (Part.closesAt (({ p with
      ctxs := Table.modify p.ctxs i (fun c => { c with result := some r })
      auths := p.auths.filter (fun x => x.rental != a.rental)
      keys := Table.put p.keys h (k.givenBack False n) } : Part).queued a.expiredReport) i n).touch ks := by
  have removed := (Part.authBack_expires (p := p.setResult i r) hsub ha active expired).trans
    (Part.offerOrd_room (p := (p.setResult i r).delAuth a.rental) a.expiredReport room)
  have unclaimed : (((p.setResult i r).delAuth a.rental).enter a.expiredReport).claims c.req h = false := by
    have gone := Part.auth_delAuth (p.setResult i r) a.rental
    unfold Part.claims
    rw [hsub]
    dsimp only
    rw [show (((p.setResult i r).delAuth a.rental).enter a.expiredReport).auth a.rental = none from gone]
    rfl
  obtain ⟨ks, hks⟩ := Part.returnKey_touch
    (p := ((p.setResult i r).delAuth a.rental).enter a.expiredReport) hkey hk releasing
  rw [unclaimed, KeyRec.restored_eq hloc] at hks
  unfold Part.giveUp
  rw [removed, hks]
  obtain ⟨ls, hls⟩ := Part.beginClose_touch (Part.touch _ ks) i hslot
  refine ⟨ks ++ ls, hls.trans ?_⟩
  rw [Part.touch_closesAt, Part.touch_touch]
  rfl

theorem Part.windowExpire_opened {p : Part} {i w : Nat} {c : Ctx} (hc : Table.look p.ctxs i = some c)
    (opened : c.state = .opened) (hwin : c.window = some w) (hw : w ≤ p.mono) : p.windowExpire i = p.giveUp i c .notTaken := by
  unfold Part.windowExpire
  rw [hc]
  exact if_pos ⟨opened, by rw [hwin]; exact decide_eq_true hw⟩

theorem Part.windowExpire_other {p : Part} {i : Nat} {c : Ctx} (hc : Table.look p.ctxs i = some c)
    (other : c.state ≠ .opened) : p.windowExpire i = p := by
  unfold Part.windowExpire
  rw [hc]
  exact if_neg (fun h => other h.1)

/-- Settles O37: each timer makes its context give up, by `Part.giveUp_touch`, `Part.giveUp_expires` and `Part.ctxFault_touch`. -/
theorem contextTimersGiveUp : Obligations.ContextTimersGiveUp := by
  unfold Obligations.ContextTimersGiveUp
  refine ⟨?_, ?_, ?_⟩
  · intro s i slot h w c a k carries hwin hw
    obtain ⟨hc, -⟩ := id carries
    refine ⟨fun opened => ?_, fun settling => ?_⟩
    · obtain ⟨ks, given⟩ := Part.giveUp_touch carries .notTaken
      have run := (Part.windowExpire_opened hc opened hwin hw).trans given
      obtain ⟨u, hu, -, hunlit⟩ := State.becomes_of_unlit (s := s) (congrArg Part.unlit run)
      have gave := (Part.gaveUp_givenUp carries .notTaken).of_unlit (tfl := Part.tfl _) (link := Part.link _) hunlit
      obtain ⟨ctxs, A, B, same⟩ := s.part.givenUp_leaves i slot a h k .notTaken
      rw [same] at hunlit
      exact ⟨u, hu, gave, (congrArg Part.link hunlit :), (congrArg Part.alt hunlit :), (congrArg Part.rows hunlit :)⟩
    · exact State.becomes_of_eq (Part.windowExpire_other hc (by rw [settling]; nofun))
  · intro s i slot h w v c a k hc hslot hkey hsub opened hwin hw ha active hvalid hv hk releasing hloc room qroom
    obtain ⟨ks, given⟩ := Part.giveUp_expires (i := i) .notTaken hslot hkey hsub ha active
      (by unfold Auth.expired; rw [hvalid]; exact decide_eq_true hv) hk releasing hloc room
    have run := (Part.windowExpire_opened hc opened hwin hw).trans given
    have queue := Part.closesAt_queue (n := slot) (p := ({ s.part with
      ctxs := Table.modify s.part.ctxs i (fun c => { c with result := some .notTaken })
      auths := s.part.auths.filter (fun x => x.rental != a.rental)
      keys := Table.put s.part.keys h (k.givenBack False slot) } : Part).queued a.expiredReport) qroom i
    obtain ⟨A, B, same⟩ := Part.closesAt_leaves (({ s.part with
      ctxs := Table.modify s.part.ctxs i (fun c => { c with result := some .notTaken })
      auths := s.part.auths.filter (fun x => x.rental != a.rental)
      keys := Table.put s.part.keys h (k.givenBack False slot) } : Part).queued a.expiredReport) i slot
    obtain ⟨u, hu, -, hunlit⟩ := State.becomes_of_unlit (s := s) (congrArg Part.unlit run)
    rw [Part.touch_unlit, same] at hunlit
    rw [same] at queue
    have ctxs : u.part.ctxs = _ := (congrArg Part.ctxs hunlit :)
    have keys : u.part.keys = _ := (congrArg Part.keys hunlit :)
    refine ⟨u, hu, ?_, (congrArg Part.auths hunlit :), ?_, ?_, ?_, (congrArg Part.rentals hunlit :),
      (congrArg Part.alt hunlit :)⟩
    · rw [ctxs]
      show Table.look (Table.modify (Table.modify s.part.ctxs i _) i _) i = _
      rw [Table.modify_modify, Table.look_modify_same, hc]
      rfl
    · rw [keys]
      exact Table.look_put_same _ _ _
    · exact (congrArg (fun p : Part => p.link.reports) hunlit).trans
        (congrArg (fun r => s.part.link.reports ++ [r]) a.expiredReport_spelt)
    · rw [Part.mem_queue_of_unlit hunlit _ rfl]
      exact queue
  · intro s i slot h w c a k r carries opening hlimit hw hrow
    obtain ⟨hc, -⟩ := id carries
    obtain ⟨ks, given, gave⟩ := Part.ctxFault_touch carries
    have run : s.part.lockLimitOpening i = s.part.ctxFault i c := by
      unfold Part.lockLimitOpening
      rw [hc]
      exact if_pos ⟨opening, by rw [hlimit]; exact decide_eq_true hw⟩
    obtain ⟨u, hu, -, hunlit⟩ := State.becomes_of_unlit (s := s) (congrArg Part.unlit (run.trans given))
    have gaveU := gave.of_unlit (tfl := Part.tfl _) (link := Part.link _) hunlit
    obtain ⟨ctxs, A, B, same⟩ := (s.part.markJam slot).givenUp_leaves i slot a h k .lockFault
    obtain ⟨lmp, jammed⟩ := s.part.markJam_restA slot
    rw [Part.touch_unlit, same] at hunlit
    refine ⟨u, hu, gaveU, ?_, ?_⟩
    · have rows : u.part.rows = Table.modify s.part.rows slot (fun r => { r with lock := some .jammed }) :=
        (congrArg Part.rows hunlit).trans (congrArg Part.rows jammed)
      rw [rows, Table.look_modify_same, hrow]
      rfl
    · have alt : u.part.alt = (s.part.markJam slot).alt := (congrArg Part.alt hunlit :)
      rw [alt]
      exact s.part.markJam_flag slot

end Sys2Proof.Machine
end

section
/-! PROOFS. What becomes of a key that leaves, moves or comes back (R10 to R13, R56, R66 to R68), and the comparison of a
slot by the census (R126 to R129). -/

namespace Sys2Proof.Machine
open Sys2Proof

/-! ## Key records -/

theorem KeyRec.stateAt_eq (k : KeyRec) (n : Nat) :
    k.stateAt n = if k.home = none ∨ k.home = some n then .inn else .misplaced := by
  unfold KeyRec.stateAt
  simp only [Bool.or_eq_true, Option.isNone_iff_eq_none, beq_iff_eq]

theorem KeyRec.placed_eq (k : KeyRec) (n m : Nat) :
    k.placed n m = k.placedAs (if k.home = none ∨ k.home = some n then .inn else .misplaced) n m := by
  unfold KeyRec.placed
  rw [k.stateAt_eq]

/-! ## A key is taken (R11, R33) -/

/-- The authorizations after the one that names key h has been given the class in its place. -/
def Part.retargeted (p : Part) (h cls : Nat) : List Auth :=
  match p.auths.find? (fun a => a.names h) with
  | none => p.auths
  | some a => p.auths.map (fun z => if z.rental = a.rental then { z with target := .cls cls } else z)

theorem Part.retarget_restA (p : Part) (h cls : Nat) :
    (p.retarget h cls).restA = ({ p with auths := p.retargeted h cls } : Part).restA := by
  unfold Part.retarget Part.retargeted
  cases p.auths.find? (fun a => a.names h) with
  | none => rfl
  | some a => exact Part.offerOrd_restA _ _

theorem Part.flagsRise_retarget (p : Part) (h cls : Nat) : p.FlagsRise (p.retarget h cls) := by
  unfold Part.retarget
  split
  · exact .refl p
  · next a _ =>
    have named : p.FlagsRise (p.onAuth a.rental (fun a => { a with target := .cls cls })) := .of_flags rfl
    exact named.trans (Part.flagsRise_offerOrd _ _)

/-- The first authorization that names a key, not ACTIVE, is the one given its class. -/
theorem Part.retargeted_first {p : Part} {h : Nat} (cls : Nat) {pre post : List Auth} {y : Auth} (hp : p.auths = pre ++ y :: post)
    (idle : y.state ≠ .active) (names : y.target = .key h) (before : ∀ z ∈ pre, ¬ (z.state ≠ .active ∧ z.target = .key h)) :
    p.retargeted h cls = p.auths.map (fun z => if z.rental = y.rental then { z with target := .cls cls } else z) := by
  have found : p.auths.find? (fun a => a.names h) = some y := by
    rw [hp, List.find?_append, List.find?_eq_none.mpr (fun z hz named => before z hz (by simpa [Auth.names] using named)),
      Option.none_or, List.find?_cons_of_pos (by simp [Auth.names, idle, names])]
  unfold Part.retargeted
  rw [found]

/-- The record of a key that is taken. -/
def KeyRec.taken (k : KeyRec) : KeyRec := { k with state := .missing, loc := none, inSince := none, rental := none, away := none }

/-- A key is taken: its record, its authorization, TAKEN, and lamps. -/
theorem Part.keyTaken_leaves (p : Part) (h : Nat) (k : KeyRec) : ∃ lmp, (p.keyTaken h k).restA = ({ p with
    keys := Table.put p.keys h k.taken, lmp := lmp
    auths := if k.state = .assigned then p.retargeted h k.cls else p.auths } : Part).restA := by
  obtain ⟨ks, hks⟩ := p.setKey_touch h k.taken
  have raised : ((p.setKey h k.taken).raise .taken (.key h) none).restA
      = (({ p with keys := Table.put p.keys h k.taken } : Part).touch ks).restA := by
    rw [Part.raise_restA, hks]
  refine ⟨(({ p with keys := Table.put p.keys h k.taken } : Part).touch ks).lmp, ?_⟩
  unfold Part.keyTaken
  change (if k.state = .assigned then ((p.setKey h k.taken).raise .taken (.key h) none).retarget h k.cls
    else (p.setKey h k.taken).raise .taken (.key h) none).restA = _
  generalize (p.setKey h k.taken).raise .taken (.key h) none = q at *
  by_cases assigned : k.state = .assigned
  · rw [if_pos assigned, if_pos assigned, Part.retarget_restA]
    have auths : q.auths = p.auths := (congrArg Part.auths raised :)
    have same : q.retargeted h k.cls = p.retargeted h k.cls := by
      unfold Part.retargeted
      rw [auths]
    rw [same]
    exact congrArg (fun x : Part => ({ x with auths := p.retargeted h k.cls } : Part)) raised
  · rw [if_neg assigned, if_neg assigned]
    exact raised

theorem Part.keyTaken_flag (p : Part) (h : Nat) (k : KeyRec) : (p.keyTaken h k).alt.flags.getLsbD 2 = true := by
  have raised := (p.setKey h k.taken).raise_flag .taken (.key h) none
  unfold Part.keyTaken
  change (if k.state = .assigned then ((p.setKey h k.taken).raise .taken (.key h) none).retarget h k.cls
    else (p.setKey h k.taken).raise .taken (.key h) none).alt.flags.getLsbD 2 = true
  split
  · exact (Part.flagsRise_retarget _ _ _).rise 2 raised
  · exact raised

/-! ## The Drop Bin list (R66, R75) -/

theorem Part.foldl_remove_restA {α : Type} (k : AlertKind) (f : α → Subject) (l : List α) (p : Part) :
    (l.foldl (fun q x => q.remove k (f x)) p).restA = p.restA := by
  induction l generalizing p with
  | nil => rfl
  | cons x l ih => exact (ih _).trans (Part.remove_restA _ _ _)

/-- A key leaves the Drop Bin list: the list, alerts, and lamps. -/
theorem Part.dropOut_leaves (p : Part) (h : Nat) : ∃ lmp, (p.dropOut h).restA
    = ({ p with dropBin := p.dropBin.filter (fun e => e.key != h), lmp := lmp } : Part).restA := by
  unfold Part.dropOut Part.dropRoom
  dsimp only
  split
  · refine ⟨_, congrArg (fun x : Part => x.touch _) (Part.foldl_remove_restA .dropFull Subject.slot _ _)⟩
  · exact ⟨p.lmp, rfl⟩

/-! ## A key in RELEASING that moves (R56, R68) -/

/-- Context i of slot n has ended for the key h, which is placed at slot s; its authorization waits. -/
def Part.relocated (p : Part) (i n : Nat) (a : Auth) (h : Nat) (k : KeyRec) (s m : Nat) (r : CtxResult) : Part :=
  let q := Part.closesAt { p with
    ctxs := Table.modify p.ctxs i (fun c => { c with result := some r })
    auths := p.auths.map (fun x => if x.rental = a.rental then { x with state := .waiting } else x) } i n
  { q with keys := Table.put p.keys h (if a.target = .key h then k.placedAs .assigned s m else k.placed s m) }

/-- The only context of a key in RELEASING is found. -/
theorem Part.ctxOfKey_eq {p : Part} {i h : Nat} {c : Ctx} (rising : Table.rising p.ctxs = true)
    (hc : Table.look p.ctxs i = some c) (hkey : c.key = some h) (only : ∀ e ∈ p.ctxs, e.2.key = some h → e.1 = i)
    (releasing : c.state.releasing = true) : p.ctxOfKey h = some (i, c) := by
  unfold Part.ctxOfKey
  cases find : p.ctxs.find? (fun e => e.2.key == some h && e.2.state.releasing) with
  | none =>
    have := List.find?_eq_none.mp find _ (Table.mem_of_look hc)
    simp [hkey, releasing] at this
  | some e =>
    obtain ⟨j, d⟩ := e
    have mem := List.mem_of_find?_eq_some find
    have carried := List.find?_some find
    simp only [Bool.and_eq_true, beq_iff_eq] at carried
    obtain rfl : j = i := only _ mem carried.1
    have found := Table.look_of_mem rising mem
    rw [hc] at found
    rw [Option.some.inj found]

/-- The result of a release whose key is seen elsewhere (R56). -/
def movedResult (lock : Option LockState) : CtxResult := if lock = some .opened then .lockFault else .notTaken

section Relocate
variable {p : Part} {i n h : Nat} {c : Ctx} {a : Auth} {k : KeyRec} {y : SlotRow} (carries : p.Carries i n c a h k)
  (hrow : Table.look p.rows n = some y) (rising : Table.rising p.ctxs = true)
  (only : ∀ e ∈ p.ctxs, e.2.key = some h → e.1 = i) (releasing : c.state.releasing = true)
include carries hrow

/-- The context of a key seen elsewhere ends. -/
theorem Part.endForRelocation_touch : ∃ ks, p.endForRelocation i c = (Part.closesAt { p with
    ctxs := Table.modify p.ctxs i (fun c => { c with result := some (movedResult y.lock) })
    auths := p.auths.map (fun x => if x.rental = a.rental then { x with state := .waiting } else x) } i n).touch ks := by
  have waits := carries.authBack (movedResult y.lock)
  obtain ⟨-, hslot, -⟩ := carries
  have lock : (if ((c.slot.bind p.row).bind (·.lock)) = some .opened then CtxResult.lockFault else .notTaken)
      = movedResult y.lock := by
    rw [hslot, Option.bind_some, show p.row n = some y from hrow, Option.bind_some]
    rfl
  unfold Part.endForRelocation
  rw [lock]
  dsimp only
  rw [waits]
  exact Part.beginClose_touch _ i hslot

include rising only releasing

theorem Part.relocateReleasing_touch (s m : Nat) : ∃ ks, p.relocateReleasing h k s m
    = (p.relocated i n a h k s m (movedResult y.lock)).touch ks := by
  obtain ⟨ks, ended⟩ := Part.endForRelocation_touch carries hrow
  have named := carries.claims (movedResult y.lock)
  obtain ⟨hc, -, hkey, -⟩ := carries
  obtain ⟨A, B, closed⟩ := Part.closesAt_leaves { p with
    ctxs := Table.modify p.ctxs i (fun c => { c with result := some (movedResult y.lock) })
    auths := p.auths.map (fun x => if x.rental = a.rental then { x with state := .waiting } else x) } i n
  have claims : (p.endForRelocation i c).claims c.req h = decide (a.target = .key h) := by
    rw [ended, closed]
    exact named
  unfold Part.relocateReleasing
  rw [Part.ctxOfKey_eq rising hc hkey only releasing]
  dsimp only
  rw [claims]
  obtain ⟨ls, hls⟩ := (p.endForRelocation i c).setKey_touch h
    (if decide (a.target = .key h) = true then k.placedAs .assigned s m else k.placed s m)
  refine ⟨ks ++ ls, hls.trans ?_⟩
  rw [ended, closed, ← Part.touch_touch]
  unfold Part.relocated
  rw [closed]
  simp only [decide_eq_true_eq]
  rfl

end Relocate

/-! ## The comparison of a slot (R126 to R129) -/

/-- The mismatch m is recorded, q holding the census that p left. -/
def Part.Listed (p q : Part) (m : Mismatch) : Prop :=
  q.cen.counts.recorded = satUp p.cen.counts.recorded
    ∧ (p.cen.list.length < 64 → q.cen.list = p.cen.list ++ [m])
    ∧ (64 ≤ p.cen.list.length → q.cen.list = p.cen.list ∧ q.cen.counts.lost = satUp p.cen.counts.lost)

theorem Part.listed_mismatch {p q : Part} (h : q.cen = p.cen) (m : Mismatch) : p.Listed (q.mismatch m) m := by
  unfold Part.mismatch Part.onCen
  rw [h]
  dsimp only
  by_cases room : p.cen.list.length < Config.mismatchCap
  · rw [if_pos room]
    exact ⟨rfl, fun _ => rfl, fun full => absurd room (Nat.not_lt.mpr full)⟩
  · rw [if_neg room]
    exact ⟨rfl, fun few => absurd few room, fun _ => ⟨rfl, rfl⟩⟩

/-- What the placing of a key by the census leaves as it was. -/
structure Part.PlacingKeeps (p q : Part) : Prop where
  rows : q.rows = p.rows
  rentals : q.rentals = p.rentals
  cen : q.cen = p.cen

theorem Part.PlacingKeeps.trans {p q r : Part} (h : p.PlacingKeeps q) (k : q.PlacingKeeps r) : p.PlacingKeeps r :=
  ⟨k.rows.trans h.rows, k.rentals.trans h.rentals, k.cen.trans h.cen⟩

theorem Part.PlacingKeeps.of_restA {p q r : Part} (h : r.restA = q.restA) (k : p.PlacingKeeps q) : p.PlacingKeeps r :=
  k.trans ⟨(congrArg Part.rows h :), (congrArg Part.rentals h :), (congrArg Part.cen h :)⟩

theorem Part.placingKeeps_setKey (p : Part) (h : Nat) (k : KeyRec) : p.PlacingKeeps (p.setKey h k) := by
  obtain ⟨ks, hks⟩ := p.setKey_touch h k
  rw [hks]
  exact ⟨rfl, rfl, rfl⟩

theorem Part.placingKeeps_beginClose (p : Part) (i : Nat) (c : Ctx) : p.PlacingKeeps (p.beginClose i c) := by
  unfold Part.beginClose
  dsimp only
  cases (p.slotEntry (c.slot.getD 0)).chan <;> exact ⟨rfl, rfl, rfl⟩

theorem Part.placingKeeps_authBack (p : Part) (q : RelReq) : p.PlacingKeeps (p.authBack q) := by
  unfold Part.authBack
  repeat' split
  all_goals first
    | exact ⟨rfl, rfl, rfl⟩
    | exact Part.PlacingKeeps.of_restA (Part.offerOrd_restA _ _) ⟨rfl, rfl, rfl⟩

theorem Part.placingKeeps_relocateReleasing (p : Part) (h : Nat) (k : KeyRec) (s m : Nat) :
    p.PlacingKeeps (p.relocateReleasing h k s m) := by
  unfold Part.relocateReleasing
  split
  · exact p.placingKeeps_setKey h _
  · next i c _ =>
    have result : p.PlacingKeeps (p.setResult i (if ((c.slot.bind p.row).bind (·.lock)) = some .opened then .lockFault
      else .notTaken)) := ⟨rfl, rfl, rfl⟩
    exact ((result.trans (Part.placingKeeps_authBack _ _)).trans (Part.placingKeeps_beginClose _ _ _)).trans
      (Part.placingKeeps_setKey _ h _)

theorem Part.placingKeeps_relocate (p : Part) (h : Nat) (k : KeyRec) (s m : Nat) : p.PlacingKeeps (p.relocate h k s m) := by
  unfold Part.relocate
  split
  · exact p.placingKeeps_relocateReleasing h k s m
  · exact p.placingKeeps_setKey h _
  · exact p.placingKeeps_setKey h _

theorem Part.placingKeeps_cenPlace (p : Part) (h : Nat) (k : KeyRec) (s : Nat) : p.PlacingKeeps (p.cenPlace h k s) := by
  unfold Part.cenPlace
  split
  · exact p.placingKeeps_setKey h _
  · exact Part.PlacingKeeps.of_restA (Part.remove_restA _ _ _) (p.placingKeeps_setKey h _)
  · obtain ⟨lmp, out⟩ := p.dropOut_leaves h
    have left : p.PlacingKeeps (p.dropOut h) :=
      ⟨(congrArg Part.rows out :), (congrArg Part.rentals out :), (congrArg Part.cen out :)⟩
    exact left.trans (Part.placingKeeps_setKey _ h _)
  · exact ⟨rfl, rfl, rfl⟩
  · exact p.placingKeeps_relocate h k s p.now

/-- A key that the census finds where it may not move by context: its record, and lamps. -/
theorem Part.cenPlace_touch (p : Part) (h : Nat) {k : KeyRec} (s : Nat)
    (hst : k.state = .away ∨ k.state = .inn ∨ k.state = .misplaced) : ∃ ks, p.cenPlace h k s
      = ({ p with keys := Table.put p.keys h (k.placed s p.now) } : Part).touch ks := by
  obtain ⟨ks, hks⟩ := p.setKey_touch h (k.placed s p.now)
  refine ⟨ks, Eq.trans ?_ hks⟩
  unfold Part.cenPlace Part.relocate
  rcases hst with h | h | h <;> rw [h]

theorem Part.cenPlace_assigned (p : Part) (h : Nat) {k : KeyRec} (s : Nat) (hst : k.state = .assigned) :
    ∃ ks, p.cenPlace h k s = ({ p with keys := Table.put p.keys h (k.placedAs .assigned s p.now) } : Part).touch ks := by
  obtain ⟨ks, hks⟩ := p.setKey_touch h (k.placedAs .assigned s p.now)
  refine ⟨ks, Eq.trans ?_ hks⟩
  unfold Part.cenPlace Part.relocate
  rw [hst]

/-- A missing key that the census finds: its record, its TAKEN entry, and lamps. -/
theorem Part.cenPlace_missing (p : Part) (h : Nat) {k : KeyRec} (s : Nat) (hst : k.state = .missing) :
    (p.cenPlace h k s).keys = Table.put p.keys h (k.placed s p.now) ∧ (p.cenPlace h k s).alt = (p.remove .taken (.key h)).alt
      ∧ (p.cenPlace h k s).link = (p.remove .taken (.key h)).link ∧ (p.cenPlace h k s).auths = p.auths := by
  obtain ⟨ks, hks⟩ := p.setKey_touch h (k.placed s p.now)
  have placed : p.cenPlace h k s = (({ p with keys := Table.put p.keys h (k.placed s p.now) } : Part).touch ks).remove
      .taken (.key h) := by
    unfold Part.cenPlace
    rw [hst]
    dsimp only
    rw [hks]
  have same := p.remove_graft (({ p with keys := Table.put p.keys h (k.placed s p.now) } : Part).touch ks) .taken (.key h)
  rw [placed]
  exact ⟨(congrArg Part.keys (Part.remove_restA _ _ _) :), (congrArg Part.alt same :), (congrArg Part.link same :),
    (congrArg Part.auths (Part.remove_restA _ _ _) :)⟩

theorem Part.cenPlace_dropped (p : Part) (h : Nat) {k : KeyRec} (s : Nat) (hst : k.state = .dropped) :
    (p.cenPlace h k s).keys = Table.put p.keys h (k.placed s p.now)
      ∧ (p.cenPlace h k s).dropBin = p.dropBin.filter (fun e => e.key != h) ∧ (p.cenPlace h k s).auths = p.auths := by
  obtain ⟨lmp, out⟩ := p.dropOut_leaves h
  obtain ⟨ks, hks⟩ := (p.dropOut h).setKey_touch h (k.placed s p.now)
  have placed : p.cenPlace h k s = ({ p.dropOut h with
      keys := Table.put (p.dropOut h).keys h (k.placed s p.now) } : Part).touch ks := by
    unfold Part.cenPlace
    rw [hst]
    exact hks
  have keys : (p.dropOut h).keys = p.keys := (congrArg Part.keys out :)
  rw [placed, keys]
  exact ⟨rfl, (congrArg Part.dropBin out :), (congrArg Part.auths out :)⟩

section Judge
variable {p : Part} {n : Nat} {v : Occ}

theorem Part.cenJudge_equal (p : Part) (n : Nat) {v : Occ} (hv : v ≠ .empty) : p.cenJudge n v v = p.cenEqual n v := by
  unfold Part.cenJudge
  rw [if_neg hv, if_pos rfl]

theorem Part.cenJudge_differs {o : Occ} (hv : v ≠ .empty) (ho : v ≠ o) :
    p.cenJudge n v o = p.mismatch ⟨.readDiffers, n, none, some v, some o, none⟩ := by
  unfold Part.cenJudge
  rw [if_neg hv, if_neg ho]

theorem Part.cenEqual_foreign (hv : p.keyOfOcc v = none) :
    p.cenEqual n v = (p.foreign n v).mismatch ⟨.foreign, n, none, some v, none, none⟩ := by
  unfold Part.cenEqual
  rw [hv]

theorem Part.cenEqual_at {h : Nat} {k : KeyRec} (hv : p.keyOfOcc v = some (h, k)) (loc : k.loc = some n) :
    p.cenEqual n v = p.cenCount (fun n => { n with consistent := satUp n.consistent }) := by
  unfold Part.cenEqual
  rw [hv]
  exact if_pos loc

theorem Part.cenEqual_out {h : Nat} {k : KeyRec} (hv : p.keyOfOcc v = some (h, k)) (loc : k.loc ≠ some n) (out : k.state = .out) :
    p.cenEqual n v = p.mismatch ⟨.outKeyPresent, n, some h, some v, none, none⟩ := by
  unfold Part.cenEqual
  rw [hv]
  dsimp only
  rw [if_neg loc, if_pos out]

theorem Part.cenEqual_moved {h : Nat} {k : KeyRec} (hv : p.keyOfOcc v = some (h, k)) (loc : k.loc ≠ some n) (out : k.state ≠ .out) :
    p.cenEqual n v = (p.cenPlace h k n).mismatch ⟨.relocated, n, some h, some v, none, some k.state⟩ := by
  unfold Part.cenEqual
  rw [hv]
  dsimp only
  rw [if_neg loc, if_neg out]

theorem Part.cenJudge_taken {h : Nat} {k : KeyRec} (o : Occ) (hk : p.keyAt n = some (h, k)) :
    p.cenJudge n .empty o = (p.keyTaken h k).mismatch ⟨.missing, n, some h, some .empty, none, some k.state⟩ := by
  unfold Part.cenJudge
  rw [if_pos rfl, hk]

theorem Part.cenJudge_none (o : Occ) (hk : p.keyAt n = none) : p.cenJudge n .empty o
    = if o = .empty then p.cenCount (fun n => { n with consistent := satUp n.consistent })
      else p.mismatch ⟨.readDiffers, n, none, some .empty, some o, none⟩ := by
  unfold Part.cenJudge
  rw [if_pos rfl, hk]

end Judge

/-- Settles O50: each outcome of the judgement has its equation, and a mismatch is recorded on the census that was there. -/
theorem censusComparesASlot : Obligations.CensusComparesASlot := by
  unfold Obligations.CensusComparesASlot
  intro p n v o
  refine ⟨?_, ?_, ?_, ?_, ?_⟩
  · rintro t h k rfl rfl hk
    have judge := p.cenJudge_equal n (v := .tag t) nofun
    have key : p.keyOfOcc (.tag t) = some (h, k) := hk
    refine ⟨fun loc => ?_, fun loc out => ?_, fun loc moves => ?_⟩
    · rw [judge, Part.cenEqual_at key loc]
      rfl
    · rw [judge, Part.cenEqual_out key loc out]
      exact ⟨rfl, rfl, Part.listed_mismatch rfl _⟩
    · rw [judge, Part.cenEqual_moved key loc moves]
      have kept := p.placingKeeps_cenPlace h k n
      refine ⟨Part.listed_mismatch kept.cen _, kept.rows, kept.rentals, fun hst => ?_, fun hst => ?_, fun hst => ?_,
        fun hst => ?_, fun i m c a y carries hrow only rising running => ?_⟩
      · obtain ⟨ks, hks⟩ := p.cenPlace_touch h n hst
        rw [hks, KeyRec.placed_eq]
        exact ⟨rfl, rfl, rfl, rfl, rfl⟩
      · obtain ⟨ks, hks⟩ := p.cenPlace_assigned h n hst
        rw [hks]
        exact ⟨rfl, rfl, rfl, rfl⟩
      · have placed := p.cenPlace_missing h n hst
        rw [KeyRec.placed_eq] at placed
        exact placed
      · have placed := p.cenPlace_dropped h n hst
        rw [KeyRec.placed_eq] at placed
        exact placed
      · have releasing : c.state.releasing = true := by rcases running with h | h | h <;> rw [h] <;> rfl
        obtain ⟨ks, hks⟩ := Part.relocateReleasing_touch carries hrow rising only releasing n p.now
        obtain ⟨hc, -, -, -, -, -, -, -, state, -, room⟩ := carries
        have place : p.cenPlace h k n = p.relocateReleasing h k n p.now := by
          unfold Part.cenPlace Part.relocate
          rw [state]
        have queue := Part.closesAt_queue (n := m) (p := { p with
          ctxs := Table.modify p.ctxs i (fun c => { c with result := some (movedResult y.lock) })
          auths := p.auths.map (fun x => if x.rental = a.rental then { x with state := .waiting } else x) }) room i
        obtain ⟨A, B, closed⟩ := Part.closesAt_leaves { p with
          ctxs := Table.modify p.ctxs i (fun c => { c with result := some (movedResult y.lock) })
          auths := p.auths.map (fun x => if x.rental = a.rental then { x with state := .waiting } else x) } i m
        unfold Part.relocated at hks
        rw [place, hks]
        rw [closed] at queue ⊢
        refine ⟨?_, ?_, rfl, queue⟩
        · show Table.look (Table.modify (Table.modify p.ctxs i _) i _) i = _
          rw [Table.modify_modify, Table.look_modify_same, hc]
          rfl
        · refine (Table.look_put_same _ _ _).trans (congrArg some ?_)
          rw [KeyRec.placed_eq]
          split <;> rfl
  · rintro d rfl hd
    have unknown : v ≠ .empty ∧ p.keyOfOcc v = none ∧ p.foreign n v = p.raise .foreign (.slot n) (some d) := by
      rcases hd with ⟨rfl, rfl⟩ | ⟨t, rfl, none, rfl⟩
      · exact ⟨nofun, rfl, rfl⟩
      · exact ⟨nofun, none, rfl⟩
    obtain ⟨hv, none, foreign⟩ := unknown
    have rest := p.raise_restA .foreign (.slot n) (some d)
    rw [p.cenJudge_equal n hv, Part.cenEqual_foreign none, foreign]
    exact ⟨Part.listed_mismatch (congrArg Part.cen rest :) _, rfl, rfl, (congrArg Part.keys rest :), (congrArg Part.rows rest :),
      (congrArg Part.auths rest :)⟩
  · rintro rfl hk
    refine ⟨fun ho => ?_, fun ho => ?_⟩
    · rw [Part.cenJudge_none o hk, if_pos ho]
      rfl
    · rw [Part.cenJudge_none o hk, if_neg ho]
      exact ⟨rfl, rfl, rfl, Part.listed_mismatch rfl _⟩
  · rintro h k rfl hk
    obtain ⟨lmp, rest⟩ := p.keyTaken_leaves h k
    rw [Part.cenJudge_taken o hk]
    exact ⟨(congrArg Part.keys rest :), p.keyTaken_flag h k, (congrArg Part.rows rest :),
      Part.listed_mismatch (congrArg Part.cen rest :) _⟩
  · intro hv ho
    rw [Part.cenJudge_differs hv ho]
    exact ⟨rfl, rfl, rfl, Part.listed_mismatch rfl _⟩

end Sys2Proof.Machine
end

section
/-! PROOFS. What the loss of a channel does to the rest of the part (R57, R132, R140, R144, R170, R189). -/

namespace Sys2Proof.Machine
open Sys2Proof

/-! ## Reports only enter -/

/-- From p to q reports have entered the Report Queue, and none has left it. -/
def Part.ReportsGrow (p q : Part) : Prop := p.link.reports <+: q.link.reports

theorem Part.ReportsGrow.of_reports {p q : Part} (h : q.link.reports = p.link.reports) : p.ReportsGrow q :=
  (show p.link.reports <+: q.link.reports from h ▸ List.prefix_refl _)

theorem Part.ReportsGrow.refl (p : Part) : p.ReportsGrow p := .of_reports rfl

theorem Part.ReportsGrow.trans {p q r : Part} (h : p.ReportsGrow q) (k : q.ReportsGrow r) : p.ReportsGrow r := List.IsPrefix.trans h k

theorem Part.reportsGrow_enter (p : Part) (r : Report) : p.ReportsGrow (p.enter r) := List.prefix_append _ _

theorem Part.reportsGrow_await (p : Part) (w : Waiter) : p.ReportsGrow (p.await w) := by
  unfold Part.await Link.await
  split <;> exact .of_reports rfl

theorem Part.reportsGrow_setAlt (p : Part) (a : Alt) : p.ReportsGrow { p with alt := a } := .of_reports rfl

theorem Part.reportsGrow_offerAlert (p : Part) (i : Nat) (f : AlertFlags) : p.ReportsGrow (p.offerAlert i f) := by
  unfold Part.offerAlert
  repeat' split
  · exact .refl p
  · exact .of_reports rfl
  · exact p.reportsGrow_enter _
  · exact (p.reportsGrow_setAlt _).trans (Part.reportsGrow_await _ _)

theorem Part.reportsGrow_offerNotice (p : Part) (i : Nat) (r : Report) : p.ReportsGrow (p.offerNotice i r) := by
  unfold Part.offerNotice
  split
  · exact p.reportsGrow_enter _
  · exact (p.reportsGrow_setAlt _).trans (Part.reportsGrow_await _ _)

theorem Part.reportsGrow_giveUpAlert (p : Part) (i : Nat) : p.ReportsGrow (p.giveUpAlert i) := by
  unfold Part.giveUpAlert
  split <;> exact .of_reports rfl

theorem Part.reportsGrow_register (p : Part) (i : Nat) (k : AlertKind) (s : Subject) (d : Option Detail) :
    p.ReportsGrow (p.register i k s d) := (p.reportsGrow_setAlt _).trans (Part.reportsGrow_offerAlert _ _ _)

theorem Part.reportsGrow_raise (p : Part) (k : AlertKind) (s : Subject) (d : Option Detail) : p.ReportsGrow (p.raise k s d) := by
  unfold Part.raise
  dsimp only
  generalize hq : p.setFlag k.code = q
  have start : p.ReportsGrow q := .of_reports (by rw [← hq]; rfl)
  refine start.trans ?_
  split
  · split
    · exact (q.reportsGrow_setAlt _).trans (Part.reportsGrow_offerAlert _ _ _)
    · exact .of_reports rfl
  · split
    · exact q.reportsGrow_register _ _ _ _
    · split
      · refine Part.ReportsGrow.trans ?_ (Part.reportsGrow_register _ _ _ _ _)
        split
        · exact (q.reportsGrow_setAlt _).trans (Part.reportsGrow_giveUpAlert _ _)
        · exact (q.reportsGrow_setAlt _).trans (Part.reportsGrow_offerNotice _ _ _)
      · exact .of_reports rfl

theorem Part.reportsGrow_remove (p : Part) (k : AlertKind) (s : Subject) : p.ReportsGrow (p.remove k s) := by
  cases find : p.alt.find k s with
  | none => rw [Part.remove_none find]; exact .refl p
  | some e =>
    rw [Part.remove_found find]
    split
    · exact (p.reportsGrow_setAlt _).trans (Part.reportsGrow_giveUpAlert _ _)
    · exact (p.reportsGrow_setAlt _).trans (Part.reportsGrow_offerNotice _ _ _)

theorem Part.reportsGrow_offerOrd (p : Part) (r : Report) : p.ReportsGrow (p.offerOrd r) := by
  unfold Part.offerOrd
  dsimp only
  split
  · exact p.reportsGrow_enter r
  · split
    · exact .of_reports rfl
    · refine Part.ReportsGrow.trans ?_ (Part.reportsGrow_raise _ _ _ _)
      exact .of_reports rfl

/-! ## A channel that is not RUNNING is left alone -/

/-- The part but for what the end of contexts, censuses and frames writes. -/
def Part.restL (p : Part) : Part := { p.restC with
  ctxs := [], waitQ := [], auths := [], keys := [], rows := []
  tfl := { p.tfl with tracking := [], held := none }
  lmp := { p.lmp with images := [], overrides := [], behind := [], touched := [] }
  chanA := Channel.powerOn, chanB := Channel.powerOn }

/-- Channel c is not RUNNING and nothing waits in its queue. -/
structure Part.Silent (p : Part) (c : Chan) : Prop where
  state : (p.chan c).state ≠ .running
  queue : (p.chan c).queue = []

/-- From p to q channel c stands, and so do the rows of its slots that have no context; reports have only entered. -/
structure Part.Spares (c : Chan) (p q : Part) : Prop where
  chan : q.chan c = p.chan c
  rows : ∀ n r, (p.slotEntry n).chan = c → Table.look p.rows n = some r → r.ctx = none → Table.look q.rows n = some r
  lamps : q.lmp.images = p.lmp.images ∧ q.lmp.overrides = p.lmp.overrides
  reports : p.ReportsGrow q
  rest : q.restL = p.restL

variable {c : Chan} {p q r : Part}

theorem Part.Silent.of_chan (h : p.Silent c) (same : q.chan c = p.chan c) : q.Silent c := ⟨same ▸ h.state, same ▸ h.queue⟩

theorem Part.Spares.slotEntry (h : Part.Spares c p q) (n : Nat) : q.slotEntry n = p.slotEntry n := by
  unfold Part.slotEntry
  rw [show q.slotMap = p.slotMap from (congrArg Part.slotMap h.rest :)]

theorem Part.Spares.silent (h : Part.Spares c p q) (s : p.Silent c) : q.Silent c := s.of_chan h.chan

theorem Part.Spares.refl (c : Chan) (p : Part) : Part.Spares c p p := ⟨rfl, fun _ _ _ h _ => h, ⟨rfl, rfl⟩, .refl p, rfl⟩

theorem Part.Spares.trans (h : Part.Spares c p q) (k : Part.Spares c q r) : Part.Spares c p r where
  chan := k.chan.trans h.chan
  rows := fun n r hn hr hc => k.rows n r (by rw [h.slotEntry]; exact hn) (h.rows n r hn hr hc) hc
  lamps := ⟨k.lamps.1.trans h.lamps.1, k.lamps.2.trans h.lamps.2⟩
  reports := h.reports.trans k.reports
  rest := k.rest.trans h.rest

/-- A step that leaves both channels, the rows and the lamps but for marks. -/
theorem Part.Spares.of_same (hA : q.chanA = p.chanA) (hB : q.chanB = p.chanB) (rows : q.rows = p.rows)
    (images : q.lmp.images = p.lmp.images) (overrides : q.lmp.overrides = p.lmp.overrides) (reports : p.ReportsGrow q)
    (rest : q.restL = p.restL) : Part.Spares c p q where
  chan := by cases c; exact hA; exact hB
  rows := fun _ _ _ hr _ => rows ▸ hr
  lamps := ⟨images, overrides⟩
  reports := reports
  rest := rest

theorem Part.spares_of_restA (same : q.restA = p.restA) (reports : p.ReportsGrow q) : Part.Spares c p q :=
  .of_same (congrArg Part.chanA same :) (congrArg Part.chanB same :) (congrArg Part.rows same :)
    (congrArg (fun x : Part => x.lmp.images) same :) (congrArg (fun x : Part => x.lmp.overrides) same :) reports
    (congrArg Part.restL same :)

theorem Part.spares_touch (p : Part) (ks : List Nat) : Part.Spares c p (p.touch ks) := .of_same rfl rfl rfl rfl rfl (.refl p) rfl

theorem Part.spares_enter (p : Part) (r : Report) : Part.Spares c p (p.enter r) :=
  .of_same rfl rfl rfl rfl rfl (p.reportsGrow_enter r) rfl

theorem Part.spares_await (p : Part) (w : Waiter) : Part.Spares c p (p.await w) :=
  .of_same rfl rfl rfl rfl rfl (p.reportsGrow_await w) rfl

theorem Part.spares_raise (p : Part) (k : AlertKind) (s : Subject) (d : Option Detail) : Part.Spares c p (p.raise k s d) :=
  Part.spares_of_restA (Part.raise_restA _ _ _ _) (p.reportsGrow_raise k s d)

theorem Part.spares_remove (p : Part) (k : AlertKind) (s : Subject) : Part.Spares c p (p.remove k s) :=
  Part.spares_of_restA (Part.remove_restA _ _ _) (p.reportsGrow_remove k s)

theorem Part.spares_offerOrd (p : Part) (r : Report) : Part.Spares c p (p.offerOrd r) :=
  Part.spares_of_restA (Part.offerOrd_restA _ _) (p.reportsGrow_offerOrd r)

theorem Part.spares_setKey (p : Part) (h : Nat) (k : KeyRec) : Part.Spares c p (p.setKey h k) := by
  obtain ⟨ks, hks⟩ := p.setKey_touch h k
  rw [hks]
  exact .of_same rfl rfl rfl rfl rfl (.refl p) rfl

theorem Part.spares_onCtx (p : Part) (i : Nat) (f : Ctx → Ctx) : Part.Spares c p (p.onCtx i f) :=
  .of_same rfl rfl rfl rfl rfl (.refl p) rfl

theorem Part.spares_onAuth (p : Part) (n : Nat) (f : Auth → Auth) : Part.Spares c p (p.onAuth n f) :=
  .of_same rfl rfl rfl rfl rfl (.refl p) rfl

theorem Part.spares_authBack (p : Part) (x : RelReq) : Part.Spares c p (p.authBack x) := by
  unfold Part.authBack
  repeat' split
  · exact .refl c p
  · refine Part.Spares.trans (q := p.delAuth _) ?_ (Part.spares_offerOrd _ _)
    exact .of_same rfl rfl rfl rfl rfl (.refl p) rfl
  · exact p.spares_onAuth _ _
  · exact .refl c p
  · exact .refl c p

theorem Part.spares_returnKey (p : Part) (x : Ctx) : Part.Spares c p (p.returnKey x) := by
  unfold Part.returnKey
  split
  · exact .refl c p
  · split
    · exact .refl c p
    · exact p.spares_setKey _ _

/-- A row changed where it has a context, or at a slot of the other channel. -/
theorem Part.spares_onRow (p : Part) (n : Nat) (f : SlotRow → SlotRow)
    (h : (p.slotEntry n).chan ≠ c ∨ ∀ r, r.ctx = none → f r = r) : Part.Spares c p (p.onRow n f) where
  chan := rfl
  rows := by
    intro m r hm hr hc
    show Table.look (Table.modify p.rows n f) m = _
    by_cases same : m = n
    · subst same
      rw [Table.look_modify_same, hr, Option.map_some]
      exact congrArg some (h.elim (fun other => absurd hm other) (fun keeps => keeps r hc))
    · rw [Table.look_modify_other _ _ _ _ same]
      exact hr
  lamps := ⟨rfl, rfl⟩
  reports := .refl p
  rest := rfl

theorem Part.spares_unbind (p : Part) (i : Nat) (x : Ctx) : Part.Spares c p (p.unbind i x) := by
  unfold Part.unbind
  split
  · next n _ =>
    refine (p.spares_onRow n _ (.inr fun r hr => ?_)).trans (Part.spares_touch _ _)
    rw [hr, if_neg nofun]
  · exact .refl c p

/-- A change of another channel. -/
theorem Part.spares_onChan (p : Part) {d : Chan} (f : Channel → Channel) (h : d ≠ c ∨ f (p.chan c) = p.chan c) :
    Part.Spares c p (p.onChan d f) where
  chan := by
    by_cases same : d = c
    · subst same
      rw [Part.chan_onChan]
      exact h.elim (fun other => absurd rfl other) id
    · exact Part.chan_onChan_other _ (Ne.symm same) _
  rows := fun n r _ hr _ => by cases d <;> exact hr
  lamps := by cases d <;> exact ⟨rfl, rfl⟩
  reports := .of_reports (by cases d <;> rfl)
  rest := by cases d <;> rfl

theorem Part.spares_leaveClose (p : Part) (i : Nat) (silent : p.Silent c) : Part.Spares c p (p.leaveClose i) := by
  have kept (ch : Channel) (h : ch.queue = []) : ch.leaveClose i = ch := by
    unfold Channel.leaveClose
    rw [h, List.map_nil, ← h]
  have first : Part.Spares c p (p.onChan .A (·.leaveClose i)) := p.spares_onChan _ (.inr (kept _ silent.queue))
  exact first.trans (Part.spares_onChan _ _ (.inr (kept _ (first.silent silent).queue)))

/-! ## What starts meanwhile starts elsewhere -/

theorem Part.serviceSlot_active {p : Part} {n : Nat} (h : p.serviceSlot n = none) :
    p.moduleActive (p.slotEntry n).chan (p.slotEntry n).addr = true := by
  unfold Part.serviceSlot at h
  dsimp only at h
  cases active : p.moduleActive (p.slotEntry n).chan (p.slotEntry n).addr with
  | true => rfl
  | false =>
    rw [active] at h
    split at h <;> cases h

theorem Part.chooseKey_active {p : Part} {t : Target} {role : Role} {e : Nat × KeyRec} (h : p.chooseKey t role = .ok e) :
    p.moduleActive (p.slotEntry (e.2.loc.getD 0)).chan (p.slotEntry (e.2.loc.getD 0)).addr = true := by
  cases t with
  | cls x => exact (Part.chooseKey_ok h).1.2.1.2.2
  | key x =>
    unfold Part.chooseKey at h
    dsimp only at h
    cases hk : Table.look p.keys x with
    | none => rw [hk] at h; cases h
    | some k =>
      rw [hk] at h
      dsimp only at h
      cases fails : p.keyFails k role with
      | some r => rw [fails] at h; cases h
      | none =>
        rw [fails] at h
        cases h
        exact ((p.keyFails_iff k role).1.mp fails).1.2.2

theorem Part.serviceGrant_active {p : Part} {sub : RelSubject} {g : Grant} (h : p.serviceGrant sub = .ok g) :
    p.moduleActive (p.slotEntry g.1).chan (p.slotEntry g.1).addr = true := by
  cases sub with
  | rental n => cases h
  | tag t =>
    unfold Part.serviceGrant at h
    dsimp only at h
    repeat' split at h
    all_goals first
      | (cases h; done)
      | skip
    all_goals
      cases h
      exact Part.serviceSlot_active (by assumption)
  | slot n =>
    unfold Part.serviceGrant at h
    dsimp only at h
    repeat' split at h
    all_goals first
      | (cases h; done)
      | skip
    all_goals
      cases h
      exact Part.serviceSlot_active (by assumption)

/-- A request whose checks pass starts at a module that is ACTIVE. -/
theorem Part.recheck_active {p : Part} {q : RelReq} {g : Grant} (h : p.recheck q = .ok g) :
    p.moduleActive (p.slotEntry g.1).chan (p.slotEntry g.1).addr = true := by
  unfold Part.recheck at h
  split at h
  · split at h
    · cases h
    · unfold Part.relGrant at h
      repeat' split at h
      all_goals first
        | (cases h; done)
        | skip
      next chosen =>
        cases h
        exact Part.chooseKey_active chosen
  · exact Part.serviceGrant_active h

theorem Part.Silent.other (silent : p.Silent c) {d : Chan} {a : Nat} (active : p.moduleActive d a = true) : d ≠ c := by
  rintro rfl
  unfold Part.moduleActive at active
  simp only [Bool.and_eq_true, beq_iff_eq] at active
  exact silent.state active.1

/-- A context takes its slot and its place, and asks another channel for its lock. -/
theorem Part.Spares.bind (hq : Part.Spares c p q) {i n : Nat} {x : Ctx} {f : SlotRow → SlotRow} {g : Channel → Channel} {d : Chan}
    (slot : (p.slotEntry n).chan ≠ c) (h : d ≠ c) :
    Part.Spares c p (((({ q with ctxs := Table.put q.ctxs i x } : Part).onRow n f).onChan d g).touchSlot n) := by
  have ctxs : Part.Spares c q { q with ctxs := Table.put q.ctxs i x } := .of_same rfl rfl rfl rfl rfl (.refl q) rfl
  have row := Part.spares_onRow (c := c) { q with ctxs := Table.put q.ctxs i x } n f (.inl (by
    show (q.slotEntry n).chan ≠ c
    rw [hq.slotEntry]
    exact slot))
  exact (((hq.trans ctxs).trans row).trans (Part.spares_onChan _ g (.inl h))).trans (Part.spares_touch _ _)

theorem Part.spares_startCtx (p : Part) (i : Nat) (x : RelReq) (g : Grant) (h : (p.slotEntry g.1).chan ≠ c) :
    Part.Spares c p (p.startCtx i x g) := by
  unfold Part.startCtx
  dsimp only
  split
  · split
    · refine Part.Spares.bind ?_ h h
      exact (p.spares_onAuth _ _).trans (Part.spares_setKey _ _ _)
    · refine Part.Spares.bind ?_ h h
      exact p.spares_setKey _ _
  · split
    · refine Part.Spares.bind ?_ h h
      exact p.spares_onAuth _ _
    · exact (Part.Spares.refl c p).bind h h

theorem Part.spares_endEntry (p : Part) (w : WaitEntry) (x : Result) : Part.Spares c p (p.endEntry w x) := by
  unfold Part.endEntry
  dsimp only
  split
  · exact (p.spares_enter _).trans (.of_same rfl rfl rfl rfl rfl (.refl _) rfl)
  · refine Part.Spares.trans ?_ (Part.spares_await _ _)
    exact .of_same rfl rfl rfl rfl rfl (.refl _) rfl

theorem spares_takeQueueFrom (n i : Nat) (p : Part) (silent : p.Silent c) : Part.Spares c p (takeQueueFrom n i p) := by
  induction n generalizing p with
  | zero => exact .refl c p
  | succ n ih =>
    unfold takeQueueFrom
    split
    · exact .refl c p
    · next w _ =>
      split
      · next g granted =>
        have left : Part.Spares c p { p with waitQ := p.waitQ.filter (fun x => x.id != w.id) } :=
          .of_same rfl rfl rfl rfl rfl (.refl _) rfl
        exact left.trans (Part.spares_startCtx _ i w.req g (silent.other (Part.recheck_active granted)))
      · have ended := p.spares_endEntry (c := c) w
        exact (ended _).trans (ih _ ((ended _).silent silent))

theorem Part.spares_freeCtx (p : Part) (i : Nat) (silent : p.Silent c) : Part.Spares c p (p.freeCtx i) := by
  unfold Part.freeCtx
  split
  · exact .refl c p
  · next x _ =>
    have freed : Part.Spares c p { p with ctxs := Table.del p.ctxs i } := .of_same rfl rfl rfl rfl rfl (.refl _) rfl
    have unbound := freed.trans (Part.spares_unbind _ i x)
    have left := unbound.trans (Part.spares_leaveClose _ i (unbound.silent silent))
    exact left.trans (spares_takeQueueFrom _ i _ (left.silent silent))

theorem Part.spares_ctxFinalUnbound (p : Part) (i : Nat) (silent : p.Silent c) : Part.Spares c p (p.ctxFinalUnbound i) := by
  unfold Part.ctxFinalUnbound
  split
  · exact .refl c p
  · next x _ =>
    have unbound := p.spares_unbind (c := c) i x
    dsimp only
    split
    · have told := (unbound.trans (Part.spares_enter _ x.report)).trans
        (Part.spares_onCtx _ i (fun c => { c with slot := none }))
      exact told.trans (Part.spares_freeCtx _ i (told.silent silent))
    · exact (unbound.trans (Part.spares_onCtx _ i _)).trans (Part.spares_await _ _)

theorem Part.spares_ctxEnd (p : Part) (i : Nat) (r : CtxResult) (silent : p.Silent c) : Part.Spares c p (p.ctxEnd i r) := by
  have result : Part.Spares c p (p.setResult i r) := p.spares_onCtx i _
  unfold Part.ctxEnd
  split
  · exact .refl c p
  · next x _ =>
    split
    · exact (p.spares_unbind i x).trans (Part.spares_onCtx _ i _)
    · split
      · exact p.spares_ctxFinalUnbound i silent
      · exact result.trans (Part.spares_ctxFinalUnbound _ i (result.silent silent))
    · have back := (result.trans (Part.spares_authBack _ x.req)).trans (Part.spares_returnKey _ x)
      exact back.trans (Part.spares_ctxFinalUnbound _ i (back.silent silent))

/-- A fold of steps each of which spares the channel. -/
theorem Part.Spares.foldl {α : Type} {f : Part → α → Part} (h : ∀ q a, q.Silent c → Part.Spares c q (f q a)) (l : List α)
    {p : Part} (silent : p.Silent c) : Part.Spares c p (l.foldl f p) := by
  induction l generalizing p with
  | nil => exact .refl c p
  | cons a l ih => exact (h p a silent).trans (ih ((h p a silent).silent silent))

theorem Part.spares_ctxsLost (p : Part) (slots : List Nat) (silent : p.Silent c) : Part.Spares c p (p.ctxsLost slots) :=
  Part.Spares.foldl (fun q i hq => by
    split
    · exact q.spares_ctxEnd i _ hq
    · exact .refl c q) _ silent

theorem Part.spares_trackRespond (p : Part) (e : Nat) (r : Result) (fields : List Byte) :
    Part.Spares c p (p.trackRespond e r fields) := by
  unfold Part.trackRespond
  split
  · exact .refl c p
  · split
    · exact .refl c p
    · dsimp only
      split
      · exact (p.spares_enter _).trans (.of_same rfl rfl rfl rfl rfl (.refl _) rfl)
      · refine Part.Spares.trans ?_ (Part.spares_await _ _)
        exact .of_same rfl rfl rfl rfl rfl (.refl _) rfl

theorem Part.spares_trackAbort (p : Part) (d : Chan) (silent : p.Silent c) : Part.Spares c p (p.trackAbort d) :=
  Part.Spares.foldl (fun q e _ => by
    split
    · exact q.spares_trackRespond e _ _
    · exact .refl c q) _ silent

/-! ## The census of a lost channel -/

theorem Part.restL_of_restC (h : q.restC = p.restC) : q.restL = p.restL := (congrArg Part.restL h :)

/-- Only the census record changes. -/
theorem Part.spares_onCen (p : Part) (f : Cen → Cen) : Part.Spares c p (p.onCen f) :=
  .of_same rfl rfl rfl rfl rfl (.refl _) rfl

theorem Part.OnlyCen.spares (h : p.OnlyCen q) : Part.Spares c p q := by
  obtain ⟨n, rfl, -⟩ := h
  exact p.spares_onCen (fun _ => n)

theorem Part.spares_offerRead (p : Part) {d : Chan} (a : Nat) (h : d ≠ c) : Part.Spares c p (p.offerRead d a) := by
  unfold Part.offerRead
  split
  · exact (p.spares_onChan _ (.inl h)).trans (Part.spares_onCen _ _)
  · exact p.spares_onCen _

theorem Part.spares_cenEnd (p : Part) (o : Outcome) (st : CenState) : Part.Spares c p (p.cenEnd o st) := by
  unfold Part.cenEnd
  dsimp only
  have told := (p.spares_onCen (c := c) (fun c => { c with
    state := st, outcome := some o, endMin := some p.now, pos := none, deferred := false })).trans
    (Part.spares_offerOrd _ (p.onCen (fun c => { c with
      state := st, outcome := some o, endMin := some p.now, pos := none, deferred := false })).cen.doneReport)
  split
  · exact told.trans (Part.spares_raise _ _ _ _)
  · split
    · exact told.trans (Part.spares_remove _ _ _)
    · exact told

theorem spares_sweepOn (l : List (Chan × Nat)) {p : Part} (silent : p.Silent c) : Part.Spares c p (sweepOn l p) := by
  induction l generalizing p with
  | nil => exact p.spares_cenEnd .complete .idle
  | cons x l ih =>
    obtain ⟨d, a⟩ := x
    have reached : Part.Spares c p (p.reachLost d) := (p.onlyCen_reachLost d).spares
    unfold sweepOn
    dsimp only
    refine reached.trans ?_
    have silent' := reached.silent silent
    generalize p.reachLost d = q at *
    split
    · exact ih silent'
    · split
      · next read =>
        have other : d ≠ c := silent'.other (a := a) (by simp only [Bool.and_eq_true] at read; exact read.1)
        exact (q.spares_onCen _).trans (Part.spares_offerRead _ a other)
      · have given : Part.Spares c q (q.moduleUnverified d a) := (q.onlyCen_moduleUnverified d a).spares
        exact given.trans (ih (given.silent silent'))

theorem Part.spares_cenChannelLost (p : Part) (d : Chan) (sent : Bool) (silent : p.Silent c) :
    Part.Spares c p (p.cenChannelLost d sent) := by
  unfold Part.cenChannelLost
  split
  · exact .refl c p
  · split
    · exact p.spares_onCen _
    · exact .refl c p
  · cases p.cen.pos with
    | none => exact .refl c p
    | some x =>
      obtain ⟨e, a⟩ := x
      dsimp only
      split
      · have given := Part.Spares.foldl (c := c) (f := fun q (x : Chan × Nat) =>
          if (q.moduleSlots d x.2).isEmpty then q else q.moduleUnverified d x.2) (fun q x _ => by
            split
            · exact .refl c q
            · exact (q.onlyCen_moduleUnverified d x.2).spares) ((chanSweep d).filter (fun x => decide (a ≤ x.2))) silent
        have marked := given.trans (Part.spares_onCen _ (fun n => { n with
          read := none, deferred := false
          lostA := n.lostA || d == .A, lostB := n.lostB || d == .B }))
        exact marked.trans (spares_sweepOn _ (marked.silent silent))
      · split
        · exact p.spares_onCen _
        · exact .refl c p

/-! ## The lamps of a lost channel -/

/-- The lamps of the modules of a channel are lost: images and marks, where no command of them waits. -/
theorem Part.lampChannelLost_eq {p : Part} (silent : p.Silent c) : ∃ images behind,
    p.lampChannelLost c = { p with lmp := { p.lmp with images := images, behind := behind } }
      ∧ ∀ k ∈ chanModules c, Table.look images k = none := by
  have fold (as : List Nat) : ∃ images behind,
      as.foldl (fun q a => q.lampLost c a) p = { p with lmp := { p.lmp with images := images, behind := behind } }
        ∧ (∀ a ∈ as, Table.look images (lampKey c a) = none) := by
    induction as using List.reverseRecOn with
    | nil => exact ⟨p.lmp.images, p.lmp.behind, rfl, fun _ h => absurd h List.not_mem_nil⟩
    | append_singleton as a ih =>
      obtain ⟨images, behind, eq, none⟩ := ih
      have kept : (({ p with lmp := { p.lmp with images := images, behind := behind } } : Part).chan c).withdraw
          (BusCmd.isLamp a) = p.chan c := by
        unfold Channel.withdraw
        rw [show (({ p with lmp := { p.lmp with images := images, behind := behind } } : Part).chan c) = p.chan c by
          cases c <;> rfl, silent.queue, List.filter_nil, ← silent.queue]
      refine ⟨Table.del images (lampKey c a), behind.filter (fun x => x != lampKey c a), ?_, fun b hb => ?_⟩
      · rw [List.foldl_append, eq]
        unfold Part.lampLost
        cases c with
        | A => exact congrArg (fun ch => ({ p with
            chanA := ch
            lmp := { p.lmp with
              images := Table.del images (lampKey .A a), behind := behind.filter (fun x => x != lampKey .A a) } } : Part)) kept
        | B => exact congrArg (fun ch => ({ p with
            chanB := ch
            lmp := { p.lmp with
              images := Table.del images (lampKey .B a), behind := behind.filter (fun x => x != lampKey .B a) } } : Part)) kept
      · rcases List.mem_append.mp hb with old | new
        · by_cases same : lampKey c b = lampKey c a
          · rw [same]; exact Table.look_del_same _ _
          · rw [Table.look_del_other _ _ _ same]; exact none b old
        · rw [List.mem_singleton.mp new]; exact Table.look_del_same _ _
  obtain ⟨images, behind, eq, none⟩ := fold ((List.range Config.modules).map (· + 1))
  refine ⟨images, behind, eq, fun k hk => ?_⟩
  obtain ⟨i, hi, rfl⟩ := List.mem_map.mp hk
  exact none (i + 1) (List.mem_map.mpr ⟨i, hi, rfl⟩)

/-! ## A channel leaves RUNNING or STARTING -/

theorem Part.rowsUnknown_eq (p : Part) (slots : List Nat) : ∃ rows ks, p.rowsUnknown slots = ({ p with rows := rows } : Part).touch ks
    ∧ ∀ n r, Table.look p.rows n = some r → Table.look rows n
      = some (if n ∈ slots then { r with occ := none, lock := none, settle := none, ctx := none } else r) := by
  unfold Part.rowsUnknown
  induction slots using List.reverseRecOn with
  | nil => exact ⟨p.rows, [], by unfold Part.touch; rw [List.append_nil]; rfl, fun n r hr => by rw [if_neg List.not_mem_nil]; exact hr⟩
  | append_singleton slots s ih =>
    obtain ⟨rows, ks, eq, looks⟩ := ih
    refine ⟨Table.modify rows s (fun r => { r with occ := none, lock := none, settle := none, ctx := none }), ?_⟩
    rw [List.foldl_append, eq]
    refine ⟨ks ++ [lampKey (p.slotEntry s).chan (p.slotEntry s).addr], ?_, fun n r hr => ?_⟩
    · rw [← Part.touch_touch]
      rfl
    · by_cases same : n = s
      · subst same
        rw [Table.look_modify_same, looks n r hr, if_pos (List.mem_append_right _ (List.mem_singleton.mpr rfl))]
        by_cases before : n ∈ slots
        · rw [if_pos before]; rfl
        · rw [if_neg before]; rfl
      · rw [Table.look_modify_other _ _ _ _ same, looks n r hr]
        simp only [List.mem_append, List.mem_singleton, same, or_false]

/-- The STANDARD slots of a channel are those whose entry names it. -/
theorem Part.chanSlots_chan {p : Part} (rising : Table.rising p.slotMap = true) {n : Nat} (h : n ∈ p.chanSlots c) :
    (p.slotEntry n).chan = c := by
  obtain ⟨e, he, rfl⟩ := List.mem_map.mp h
  obtain ⟨mem, kind⟩ := List.mem_filter.mp he
  simp only [Bool.and_eq_true, beq_iff_eq] at kind
  unfold Part.slotEntry
  rw [Table.look_of_mem rising mem]
  exact kind.2

/-- What a channel that leaves RUNNING or STARTING for a state st leaves behind. -/
structure Part.ChanLeft (c : Chan) (st : ChanState) (p q : Part) : Prop where
  chan : q.chan c = (p.chan c).leave st
  rows : Table.rising p.slotMap = true → ∀ n ∈ p.chanSlots c, ∀ r, Table.look p.rows n = some r →
    Table.look q.rows n = some { r with occ := none, lock := none, settle := none, ctx := none }
  lamps : ∀ k ∈ chanModules c, Table.look q.lmp.images k = none ∧ Table.look q.lmp.overrides k = none
  overrides : q.lmp.overrides = p.lmp.overrides.filter (fun e => !(chanModules c).contains e.1)
  reports : p.ReportsGrow q
  rest : q.restL = p.restL

theorem Table.look_filter_none {α : Type} (t : Table α) {f : Nat × α → Bool} {k : Nat} (h : ∀ v, f (k, v) = false) :
    Table.look (t.filter f) k = none := by
  cases look : Table.look (t.filter f) k with
  | none => rfl
  | some v =>
    have := (List.mem_filter.mp (Table.mem_of_look look)).2
    rw [h v] at this
    cases this

theorem Part.channelLeave_left (p : Part) (c : Chan) {st : ChanState} (hst : st ≠ .running) :
    Part.ChanLeft c st p (p.channelLeave c st) := by
  obtain ⟨rows, ks, dark, looks⟩ := (p.onChan c (·.leave st)).rowsUnknown_eq (p.chanSlots c)
  have chanLeft : (p.onChan c (·.leave st)).chan c = (p.chan c).leave st := Part.chan_onChan _ _ _
  have rowsLeft : (p.onChan c (·.leave st)).rows = p.rows := by cases c <;> rfl
  have restLeft : (p.onChan c (·.leave st)).restL = p.restL := by cases c <;> rfl
  have overLeft : (p.onChan c (·.leave st)).lmp = p.lmp := by cases c <;> rfl
  have linkLeft : (p.onChan c (·.leave st)).link = p.link := by cases c <;> rfl
  have mapLeft : (p.onChan c (·.leave st)).slotMap = p.slotMap := by cases c <;> rfl
  rw [rowsLeft] at looks
  unfold Part.channelLeave
  dsimp only
  rw [dark]
  generalize p.onChan c (·.leave st) = q at *
  have dead : (Part.touch { q with rows := rows } ks).Silent c :=
    ⟨by show (q.chan c).state ≠ _; rw [chanLeft]; exact hst, by show (q.chan c).queue = _; rw [chanLeft]; rfl⟩
  have ended := Part.spares_ctxsLost (c := c) _ (p.chanSlots c) dead
  have swept := ended.trans (r := if (p.chan c).state = .running then
      ((Part.touch { q with rows := rows } ks).ctxsLost (p.chanSlots c)).cenChannelLost c (p.chan c).readOnLine
    else (Part.touch { q with rows := rows } ks).ctxsLost (p.chanSlots c)) (by
      split
      · exact Part.spares_cenChannelLost _ c _ (ended.silent dead)
      · exact .refl c _)
  generalize (if (p.chan c).state = .running then
      ((Part.touch { q with rows := rows } ks).ctxsLost (p.chanSlots c)).cenChannelLost c (p.chan c).readOnLine
    else (Part.touch { q with rows := rows } ks).ctxsLost (p.chanSlots c)) = x at *
  obtain ⟨images, behind, lamps, none⟩ := Part.lampChannelLost_eq (swept.silent dead)
  rw [lamps]
  have aborted := Part.spares_trackAbort (c := c)
    (Part.clearOverrides { x with lmp := { x.lmp with images := images, behind := behind } } (chanModules c)) c
    ((swept.silent dead).of_chan rfl)
  have overrides : x.lmp.overrides = p.lmp.overrides := swept.lamps.2.trans (congrArg Lmp.overrides overLeft :)
  refine ⟨aborted.chan.trans (swept.chan.trans chanLeft), fun rising n hn r hr => ?_, fun k hk => ⟨?_, ?_⟩, ?_, ?_, ?_⟩
  · have at_n : (q.slotEntry n).chan = c := by
      unfold Part.slotEntry
      rw [mapLeft]
      exact Part.chanSlots_chan rising hn
    have unknown := looks n r hr
    rw [if_pos hn] at unknown
    refine aborted.rows n _ ?_ (swept.rows n _ at_n unknown rfl) rfl
    rw [← at_n]
    exact congrArg SlotEntry.chan (swept.slotEntry n)
  · rw [aborted.lamps.1]
    exact none k hk
  · rw [aborted.lamps.2]
    exact Table.look_filter_none _ (fun v => by simpa using hk)
  · rw [aborted.lamps.2, ← overrides]
    rfl
  · refine Part.ReportsGrow.trans ?_ aborted.reports
    refine Part.ReportsGrow.trans ?_ (swept.reports.trans (.of_reports rfl))
    exact .of_reports (congrArg Link.reports linkLeft)
  · exact (aborted.rest.trans (swept.rest)).trans restLeft

end Sys2Proof.Machine
end

section
/-! PROOFS. CHANNEL_CONTROL (R151), hangs and reset pulses (R168, R169). -/

namespace Sys2Proof.Machine
open Sys2Proof

/-! ## Lamps of a channel that is not RUNNING -/

theorem Part.recompute_chan_idle {p : Part} {c : Chan} (idle : (p.chan c).state ≠ .running) (k : Nat) :
    (p.recompute k).chan c = p.chan c := by
  unfold Part.recompute
  dsimp only
  by_cases served : p.moduleServed (lampModule k).1 (lampModule k).2 = true
  · have other : c ≠ (lampModule k).1 := by
      intro same
      have running := ((p.moduleServed_iff _ _).mp served).1
      exact idle (by rw [same]; exact running)
    rw [served]
    simp only [Bool.not_true, Bool.false_eq_true, if_false]
    repeat' split
    all_goals first
      | exact Part.onChan_chan_ne _ _ other
      | rfl
      | skip
    unfold Part.offerLamp
    split
    · rw [Part.clearBehind_chan, Part.onChan_chan_ne _ _ other]
    · rw [Part.markBehind_chan]
  · rw [Bool.not_eq_true] at served
    rw [served]
    rfl

theorem Part.lampRun_chan_idle {p : Part} {c : Chan} (idle : (p.chan c).state ≠ .running) : p.lampRun.chan c = p.chan c := by
  unfold Part.lampRun
  have start : (({ p with lmp := { p.lmp with touched := [] } } : Part).chan c) = p.chan c := by cases c <;> rfl
  have steps (l : List Nat) (q : Part) (hq : q.chan c = p.chan c) : (l.foldl Part.recompute q).chan c = p.chan c := by
    induction l generalizing q with
    | nil => exact hq
    | cons k l ih => exact ih _ ((Part.recompute_chan_idle (by rw [hq]; exact idle) k).trans hq)
  exact steps _ _ start

/-! ## CHANNEL_CONTROL (R151) -/

theorem parseChanByte_payload {bs : List Byte} {tag op : Byte} {c : Chan} (h : bs = tag :: (beBytes 1 c.code ++ [op])) :
    parseChanByte bs = some (c, op.toNat) := by
  have hlen : bs.length = 3 := by rw [h]; simp
  have op_byte : byteAt bs 2 = op.toNat := by rw [byteAt_eq, h]; cases c <;> rfl
  have chan : parseChan (byteAt bs 1) = some c := by rw [h]; cases c <;> rfl
  unfold parseChanByte
  rw [if_pos hlen, chan, op_byte]
  rfl

theorem chanArg_payload {bs : List Byte} {tag op : Byte} {c : Chan} (h : bs = tag :: (beBytes 1 c.code ++ [op])) : chanArg bs = c := by
  unfold chanArg
  rw [parseChanByte_payload h]
  rfl

/-- A channel is started anew. -/
theorem Part.channelStart_fresh (p : Part) (c : Chan) : (p.onChan c (fun ch => { ch with history := [] })).channelStart c
    = p.onChan c (fun ch => { ch with
      state := .starting .pulse, history := [], modules := ch.freshModules, muted := 0, nextIdent := none
      queue := [], onLine := none, passOn := false, kept := [], pulse := some (p.mono + 20) }) := by
  cases c <;> rfl

theorem Part.chanOn_starts {p : Part} {c : Chan} (h : (p.chan c).state = .off ∨ (p.chan c).state = .faulted) : p.chanOn c
    = ((p.remove .channelFault (.chan c)).onChan c (fun ch => { ch with history := [] })).channelStart c := by
  unfold Part.chanOn
  rcases h with h | h <;> rw [h]

theorem Part.chanOn_stays {p : Part} {c : Chan} (off : (p.chan c).state ≠ .off) (faulted : (p.chan c).state ≠ .faulted) :
    p.chanOn c = p.remove .channelFault (.chan c) := by
  unfold Part.chanOn
  cases h : (p.chan c).state with
  | off => exact absurd h off
  | faulted => exact absurd h faulted
  | starting st => rfl
  | running => rfl
  | recovering => rfl

theorem Part.chanOff_off {p : Part} {c : Chan} (h : (p.chan c).state = .off ∨ (p.chan c).state = .faulted) :
    p.chanOff c = p.onChan c (fun ch => { ch with state := .off }) := by
  unfold Part.chanOff
  rcases h with h | h <;> rw [h]

theorem Part.chanOff_leaves {p : Part} {c : Chan} (off : (p.chan c).state ≠ .off) (faulted : (p.chan c).state ≠ .faulted) :
    p.chanOff c = (p.channelLeave c .off).onChan c (fun ch => { ch with
      modules := ch.freshModules, pulse := some (p.mono + 20) }) := by
  unfold Part.chanOff
  cases h : (p.chan c).state with
  | off => exact absurd h off
  | faulted => exact absurd h faulted
  | starting st => rfl
  | running => rfl
  | recovering => rfl

theorem Part.doReenumerate_eq {p : Part} {f : Frame} {c : Chan} (h : chanArg f.payload = c) : p.doReenumerate f
    = if (p.chan c).state = .running then (p.onChan c Channel.passNow).chanAnswered c .running else p.refuse .notRunning := by
  unfold Part.doReenumerate
  rw [h]

/-- A channel that changes leaves rows, lamps, reports and the rest. -/
theorem Part.onChan_rest (p : Part) (c : Chan) (f : Channel → Channel) : (p.onChan c f).rows = p.rows
    ∧ (p.onChan c f).lmp = p.lmp ∧ (p.onChan c f).link = p.link ∧ (p.onChan c f).restL = p.restL := by
  cases c <;> exact ⟨rfl, rfl, rfl, rfl⟩

/-- A request that is answered: what its owner makes of the part, and the response held or last in the queue. -/
theorem State.requestRun_answers {s : State} {row : Instr} {f : Frame} {rest : List Frame} (owner : Part → Frame → Answer)
    {q : Part} {r : Result} {fields : List Byte} (h : s.Asks row f rest) (ho : owner (s.part.asked f rest) f = q.answer r fields) :
    ∃ tfl link, s.part.requestRun row owner = { q with tfl := tfl, link := link }
      ∧ (tfl.held = some (s.part.replyTo f r fields) ∨ link.reports.getLast? = some (s.part.replyTo f r fields)) := by
  have response : responseReport f.origin (reqTag f.payload) f.kind r (bit (s.part.sequenceReset f) + 2 * bit false) fields
      = s.part.replyTo f r fields := by
    simp [Part.replyTo, responseReport, bit]
  obtain ⟨tfl, link, sent, last⟩ := q.respond_last (s.part.replyTo f r fields)
  refine ⟨tfl, link, ?_, last⟩
  rw [Part.requestRun_asks s row f rest owner h, ho]
  simp only [Answer.send, Part.answer]
  rw [response, sent]

/-- Settles O53: ON and REENUMERATE by their equations, OFF by what leaving a channel leaves (`Part.channelLeave_left`). -/
theorem channelControlActs : Obligations.ChannelControlActs := by
  unfold Obligations.ChannelControlActs
  intro s f rest tag c room
  refine ⟨fun hasks hpay qroom => ?_, fun hasks hpay => ?_, fun hasks hpay => ?_⟩
  · have parsed : parseChanByte f.payload = some (c, 0) := parseChanByte_payload hpay
    have ho : (s.part.asked f rest).doChannelOn f
        = ((s.part.asked f rest).chanOn c).chanAnswered c ((s.part.asked f rest).chan c).state := by
      unfold Part.doChannelOn
      rw [parsed]
      rfl
    have same : ((s.part.asked f rest).remove .channelFault (.chan c)).restA = (s.part.asked f rest).restA :=
      Part.remove_restA _ _ _
    have chan : ((s.part.asked f rest).remove .channelFault (.chan c)).chan c = s.part.chan c :=
      Part.chan_of_restA (p := s.part.asked f rest) (rows := s.part.rows) (lmp := s.part.lmp) same c
    have mono : ((s.part.asked f rest).remove .channelFault (.chan c)).mono = s.part.mono := (congrArg Part.mono same :)
    refine ⟨fun idle => ?_, fun off faulted => ?_⟩
    · rw [Part.chanOn_starts (p := s.part.asked f rest) idle, Part.channelStart_fresh, mono] at ho
      unfold Part.chanAnswered at ho
      rw [Part.chan_onChan] at ho
      refine State.replies Part.doChannelOn hasks ho rfl ?_
      generalize (s.part.asked f rest).remove .channelFault (.chan c) = q at *
      cases c <;> exact qroom
    · rw [Part.chanOn_stays (p := s.part.asked f rest) off faulted] at ho
      unfold Part.chanAnswered at ho
      rw [chan] at ho
      exact State.replies Part.doChannelOn hasks ho rfl qroom
  · have ho : (s.part.asked f rest).doChannelOff f
        = ((s.part.asked f rest).chanOff c).chanAnswered c ((s.part.asked f rest).chan c).state := by
      unfold Part.doChannelOff
      rw [chanArg_payload hpay]
    refine ⟨fun idle => ?_, fun off faulted => ?_⟩
    · rw [Part.chanOff_off (p := s.part.asked f rest) idle] at ho
      unfold Part.chanAnswered at ho
      rw [Part.chan_onChan] at ho
      exact State.replies Part.doChannelOff hasks ho rfl (by cases c <;> exact room)
    · rw [Part.chanOff_leaves (p := s.part.asked f rest) off faulted] at ho
      have left := (s.part.asked f rest).channelLeave_left c (st := .off) nofun
      generalize (s.part.asked f rest).channelLeave c .off = q at *
      have state : ((q.onChan c (fun ch => { ch with
          modules := ch.freshModules, pulse := some ((s.part.asked f rest).mono + 20) })).chan c).state = .off := by
        rw [Part.chan_onChan, left.chan]
        rfl
      unfold Part.chanAnswered at ho
      rw [state] at ho
      obtain ⟨tfl, link, run, last⟩ := State.requestRun_answers Part.doChannelOff hasks ho
      have same := q.onChan_rest c (fun ch => { ch with
        modules := ch.freshModules, pulse := some ((s.part.asked f rest).mono + 20) })
      have chan := Part.chan_onChan q c (fun ch => { ch with
        modules := ch.freshModules, pulse := some ((s.part.asked f rest).mono + 20) })
      rw [left.chan] at chan
      generalize q.onChan c (fun ch => { ch with
        modules := ch.freshModules, pulse := some ((s.part.asked f rest).mono + 20) }) = z at *
      obtain ⟨rows, lamps, -, rest⟩ := same
      have idle : (Part.chan { z with tfl := tfl, link := link } c).state ≠ .running := by
        rw [show Part.chan { z with tfl := tfl, link := link } c = z.chan c from rfl, chan]
        nofun
      have chanU : (Part.lampRun { z with tfl := tfl, link := link }).chan c = _ := (Part.lampRun_chan_idle idle).trans chan
      have unlit := Part.lampRun_unlit { z with tfl := tfl, link := link }
      have fixed := rest.trans left.rest
      refine ⟨{ s with part := Part.lampRun { z with tfl := tfl, link := link } }, ?_, ?_, ?_, ?_, ?_, ?_, ?_,
        fun rising n hn r hr => ?_, fun k hk => ?_, ?_, ?_, ?_, ?_⟩
      · rw [← run]
        rfl
      · exact (congrArg Channel.state chanU :)
      · exact (congrArg Channel.queue chanU :)
      · exact (congrArg Channel.onLine chanU :)
      · exact (congrArg Channel.modules chanU :)
      · exact (congrArg Channel.pulse chanU :)
      · exact (congrArg Channel.map chanU :)
      · have rowsU : (Part.lampRun { z with tfl := tfl, link := link }).rows = q.rows := (congrArg Part.rows unlit).trans rows
        rw [show Table.look (State.part { s with part := Part.lampRun { z with tfl := tfl, link := link } }).rows n
          = Table.look q.rows n from congrArg (Table.look · n) rowsU]
        exact left.rows rising n hn r hr
      · have images : (Part.lampRun { z with tfl := tfl, link := link }).lmp.images = q.lmp.images :=
          (congrArg (fun x : Part => x.lmp.images) unlit).trans (congrArg Lmp.images lamps :)
        have overrides : (Part.lampRun { z with tfl := tfl, link := link }).lmp.overrides = q.lmp.overrides :=
          (congrArg (fun x : Part => x.lmp.overrides) unlit).trans (congrArg Lmp.overrides lamps :)
        exact ⟨(congrArg (Table.look · k) images).trans (left.lamps k hk).1,
          (congrArg (Table.look · k) overrides).trans (left.lamps k hk).2⟩
      · exact (congrArg Part.rentals unlit).trans (congrArg Part.rentals fixed :)
      · exact (congrArg Part.clock unlit).trans (congrArg Part.clock fixed :)
      · exact (congrArg Part.policy unlit).trans (congrArg Part.policy fixed :)
      · rw [show (State.part { s with part := Part.lampRun { z with tfl := tfl, link := link } }).tfl = tfl from
          (congrArg Part.tfl unlit :), show (State.part { s with part := Part.lampRun { z with tfl := tfl, link := link } }).link
            = link from (congrArg Part.link unlit :)]
        exact last
  · have ho := Part.doReenumerate_eq (p := s.part.asked f rest) (chanArg_payload hpay)
    refine ⟨fun running idle => ?_, fun stopped => ?_⟩
    · rw [if_pos (by exact running)] at ho
      have begun : (s.part.asked f rest).onChan c Channel.passNow
          = (s.part.asked f rest).onChan c (fun ch => { ch with passOn := true, rounds := 0 }) := by
        have now : (s.part.chan c).passNow = { s.part.chan c with passOn := true, rounds := 0 } := if_neg (by simp [idle])
        cases c with
        | A => exact congrArg (fun ch => ({ s.part.asked f rest with chanA := ch } : Part)) now
        | B => exact congrArg (fun ch => ({ s.part.asked f rest with chanB := ch } : Part)) now
      rw [begun] at ho
      unfold Part.chanAnswered at ho
      rw [Part.chan_onChan] at ho
      have code : ({ (s.part.asked f rest).chan c with passOn := true, rounds := 0 } : Channel).state = .running := running
      rw [code] at ho
      exact State.replies Part.doReenumerate hasks ho rfl (by cases c <;> exact room)
    · rw [if_neg (by exact stopped)] at ho
      exact State.refuses Part.doReenumerate hasks room ho

end Sys2Proof.Machine
end

section
/-! PROOFS. Contexts that end with their channel or module (R57). -/

namespace Sys2Proof.Machine
open Sys2Proof

/-! ## What the end of a context leaves -/

/-- The part but for what the end of a context, and the start of another in its place, write. -/
def Part.restK (p : Part) : Part := { p.restA with
  ctxs := [], waitQ := [], auths := [], keys := [], rows := [], lmp := { p.lmp with touched := [] }
  chanA := { p.chanA with queue := [] }, chanB := { p.chanB with queue := [] } }

theorem Part.restK_of_restA {p q : Part} (h : q.restA = p.restA) : q.restK = p.restK := (congrArg Part.restK h :)

theorem Part.setKey_restK (p : Part) (h : Nat) (k : KeyRec) : (p.setKey h k).restK = p.restK := by
  obtain ⟨ks, hks⟩ := p.setKey_touch h k
  rw [hks]
  rfl

theorem Part.onChan_restK (p : Part) (c : Chan) {f : Channel → Channel}
    (h : ∀ ch, ({ f ch with queue := [] } : Channel) = { ch with queue := [] }) : (p.onChan c f).restK = p.restK := by
  cases c with
  | A => exact congrArg (fun x => ({ p.restK with chanA := x } : Part)) (h p.chanA)
  | B => exact congrArg (fun x => ({ p.restK with chanB := x } : Part)) (h p.chanB)

theorem Part.authBack_restK (p : Part) (q : RelReq) : (p.authBack q).restK = p.restK := by
  unfold Part.authBack
  repeat' split
  all_goals first
    | rfl
    | exact (Part.restK_of_restA (Part.offerOrd_restA _ _)).trans rfl

theorem Part.returnKey_restK (p : Part) (c : Ctx) : (p.returnKey c).restK = p.restK := by
  unfold Part.returnKey
  split
  · rfl
  · split
    · rfl
    · exact p.setKey_restK _ _

theorem Part.unbind_restK (p : Part) (i : Nat) (c : Ctx) : (p.unbind i c).restK = p.restK := by
  unfold Part.unbind
  split <;> rfl

theorem Part.bind_restK {p q : Part} (hq : q.restK = p.restK) {i n : Nat} {x : Ctx} {f : SlotRow → SlotRow} {d : Chan} {b : BusCmd} :
    (((({ q with ctxs := Table.put q.ctxs i x } : Part).onRow n f).onChan d (·.pushLock b)).touchSlot n).restK = p.restK := by
  have pushed : ((({ q with ctxs := Table.put q.ctxs i x } : Part).onRow n f).onChan d (·.pushLock b)).restK = q.restK :=
    Part.onChan_restK (({ q with ctxs := Table.put q.ctxs i x } : Part).onRow n f) d
      (fun ch => by unfold Channel.pushLock; split <;> rfl)
  exact pushed.trans hq

theorem Part.startCtx_restK (p : Part) (i : Nat) (x : RelReq) (g : Grant) : (p.startCtx i x g).restK = p.restK := by
  unfold Part.startCtx
  dsimp only
  split
  · split
    · refine Part.bind_restK ?_
      exact Part.setKey_restK _ _ _
    · refine Part.bind_restK ?_
      exact Part.setKey_restK _ _ _
  · split
    · exact Part.bind_restK rfl
    · exact Part.bind_restK rfl

theorem Part.endEntry_restK (p : Part) (w : WaitEntry) (x : Result) : (p.endEntry w x).restK = p.restK := by
  unfold Part.endEntry
  dsimp only
  split <;> rfl

theorem takeQueueFrom_restK (n i : Nat) (p : Part) : (takeQueueFrom n i p).restK = p.restK := by
  induction n generalizing p with
  | zero => rfl
  | succ n ih =>
    unfold takeQueueFrom
    split
    · rfl
    · split
      · exact Part.startCtx_restK _ _ _ _
      · exact (ih _).trans (p.endEntry_restK _ _)

theorem Part.leaveClose_restK (p : Part) (i : Nat) : (p.leaveClose i).restK = p.restK :=
  (Part.onChan_restK (f := (·.leaveClose i)) (p.onChan .A (·.leaveClose i)) .B fun _ => rfl).trans
    (Part.onChan_restK (f := (·.leaveClose i)) p .A fun _ => rfl)

theorem Part.freeCtx_restK (p : Part) (i : Nat) : (p.freeCtx i).restK = p.restK := by
  unfold Part.freeCtx
  split
  · rfl
  · exact ((takeQueueFrom_restK _ _ _).trans (Part.leaveClose_restK _ _)).trans (Part.unbind_restK _ _ _)

theorem Part.ctxFinalUnbound_restK (p : Part) (i : Nat) : (p.ctxFinalUnbound i).restK = p.restK := by
  unfold Part.ctxFinalUnbound
  split
  · rfl
  · next c _ =>
    dsimp only
    split
    · exact (Part.freeCtx_restK _ _).trans (p.unbind_restK i c)
    · exact p.unbind_restK i c

theorem Part.ctxEnd_restK (p : Part) (i : Nat) (r : CtxResult) : (p.ctxEnd i r).restK = p.restK := by
  unfold Part.ctxEnd
  split
  · rfl
  · next c _ =>
    split
    · exact p.unbind_restK i c
    · split
      · exact p.ctxFinalUnbound_restK i
      · exact Part.ctxFinalUnbound_restK (p.setResult i r) i
    · exact ((Part.ctxFinalUnbound_restK _ i).trans (Part.returnKey_restK _ _)).trans (Part.authBack_restK _ _)

theorem Part.foldl_restK {α : Type} {f : Part → α → Part} (h : ∀ q a, (f q a).restK = Part.restK q) (l : List α) (p : Part) :
    (l.foldl f p).restK = p.restK := by
  induction l generalizing p with
  | nil => rfl
  | cons a l ih => exact (ih _).trans (h p a)

theorem Part.ctxsLost_restK (p : Part) (slots : List Nat) : (p.ctxsLost slots).restK = p.restK :=
  Part.foldl_restK (fun q i => by
    split
    · exact q.ctxEnd_restK i _
    · rfl) _ p

theorem Part.rowsUnknown_restK (p : Part) (slots : List Nat) : (p.rowsUnknown slots).restK = p.restK := by
  unfold Part.rowsUnknown
  refine Part.foldl_restK (fun q s => ?_) _ p
  rfl

/-! ## The end of a context (R53, R57) -/

theorem Table.del_modify {α : Type} (t : Table α) (i : Nat) (f : α → α) : Table.del (Table.modify t i f) i = Table.del t i := by
  induction t with
  | nil => rfl
  | cons e t ih =>
    obtain ⟨k, w⟩ := e
    by_cases hk : k = i
    · simp [Table.modify, Table.del, hk]
    · simp [Table.modify, Table.del, hk, ih]

/-- A context is freed with no request waiting: contexts, rows, lamps, and the close commands left. -/
theorem Part.freeCtx_eq {p : Part} {i : Nat} {c : Ctx} (hc : Table.look p.ctxs i = some c)
    (ended : ∀ w ∈ p.waitQ, w.ended ≠ none) : ∃ rows lmp, p.freeCtx i = { p with
      ctxs := Table.del p.ctxs i, rows := rows, lmp := lmp, chanA := p.chanA.leaveClose i, chanB := p.chanB.leaveClose i } := by
  unfold Part.freeCtx
  rw [hc]
  dsimp only
  unfold Part.unbind
  cases c.slot with
  | none =>
    dsimp only
    rw [Part.takeQueue_none (by exact ended)]
    exact ⟨p.rows, p.lmp, rfl⟩
  | some n =>
    dsimp only
    rw [Part.takeQueue_none (by exact ended)]
    exact ⟨_, _, rfl⟩

theorem Part.ctxFinalUnbound_eq {p : Part} {i : Nat} {c : Ctx} (hc : Table.look p.ctxs i = some c)
    (ended : ∀ w ∈ p.waitQ, w.ended ≠ none) (room : p.essRoom = true) : ∃ rows lmp A B, p.ctxFinalUnbound i = { p.enter c.report with
      ctxs := Table.del p.ctxs i, rows := rows, lmp := lmp, chanA := A, chanB := B } := by
  have unbound : ∃ rows lmp, p.unbind i c = { p with rows := rows, lmp := lmp } := by
    unfold Part.unbind
    split
    · exact ⟨_, _, rfl⟩
    · exact ⟨p.rows, p.lmp, rfl⟩
  obtain ⟨rows, lmp, unbound⟩ := unbound
  have found : Table.look (Table.modify p.ctxs i (fun c => { c with slot := none })) i = some { c with slot := none } := by
    rw [Table.look_modify_same, hc]
    rfl
  obtain ⟨rows', lmp', freed⟩ := Part.freeCtx_eq (p := ({ ({ p with rows := rows, lmp := lmp } : Part).enter c.report with
    ctxs := Table.modify p.ctxs i (fun c => { c with slot := none }) } : Part)) found ended
  unfold Part.ctxFinalUnbound
  rw [hc]
  dsimp only
  rw [unbound, if_pos (by exact room)]
  refine ⟨rows', lmp', p.chanA.leaveClose i, p.chanB.leaveClose i, freed.trans ?_⟩
  rw [Table.del_modify]
  rfl

theorem Ctx.report_failed {c : Ctx} {num n : Nat} {r : CtxResult} (hsub : c.req.subject = .rental num) (hslot : c.slot = some n)
    (hres : c.result = some r) (hr : r ≠ .released ∧ r ≠ .lateTake) : c.report = ⟨.releaseFailed, c.req.origin,
      [BitVec.ofNat 8 c.req.tag, BitVec.ofNat 8 c.req.kind.code] ++ beBytes 4 num ++ beIndex c.key ++ beBytes 2 n ++ beBytes 4 0
        ++ [BitVec.ofNat 8 r.result.code]⟩ := by
  have spelt : failedReport c.req c.key c.slot r.result = ⟨.releaseFailed, c.req.origin,
      [BitVec.ofNat 8 c.req.tag, BitVec.ofNat 8 c.req.kind.code] ++ beBytes 4 num ++ beIndex c.key ++ beBytes 2 n ++ beBytes 4 0
        ++ [BitVec.ofNat 8 r.result.code]⟩ := by
    unfold failedReport
    rw [hsub, hslot, beBytes_one, beBytes_one, beBytes_one]
    rfl
  unfold Ctx.report
  rw [hres]
  cases r with
  | released => exact absurd rfl hr.1
  | lateTake => exact absurd rfl hr.2
  | notTaken => exact spelt
  | lockFault => exact spelt
  | cancelled => exact spelt
  | channelReset => exact spelt
  | restart => exact spelt

theorem Ctx.report_done {c : Ctx} {num n place : Nat} {r : CtxResult} (hsub : c.req.subject = .rental num) (hslot : c.slot = some n)
    (hrental : c.rental = some place) (hres : c.result = some r) (hr : r = .released ∨ r = .lateTake) :
    c.report = ⟨.releaseDone, c.req.origin,
      [BitVec.ofNat 8 c.req.tag, BitVec.ofNat 8 c.req.kind.code] ++ beBytes 4 num ++ beIndex c.key ++ beBytes 2 n
        ++ beBytes 2 place ++ beBytes 3 c.out ++ [if r = .released then 0x06#8 else 0x07#8, if c.closeFault then 1#8 else 0#8]⟩ := by
  have flag : beBytes 1 (bit c.closeFault) = [if c.closeFault then 1#8 else 0#8] := by cases c.closeFault <;> rfl
  unfold Ctx.report
  rw [hres]
  rcases hr with rfl | rfl
  · dsimp only
    unfold Ctx.report.done
    rw [hsub, hslot, hrental, flag, beBytes_one, beBytes_one]
    simp [beSlot, beIndex]
    rfl
  · dsimp only
    unfold Ctx.report.done
    rw [hsub, hslot, hrental, flag, beBytes_one, beBytes_one]
    simp [beSlot, beIndex]
    rfl

section CtxEnd
variable {p : Part} {i : Nat} {x : Ctx} (hx : Table.look p.ctxs i = some x) (r : CtxResult)
include hx

theorem Part.ctxEnd_waiting (st : x.state = .donePending) :
    p.ctxEnd i r = (p.unbind i x).onCtx i (fun c => { c with slot := none }) := by
  unfold Part.ctxEnd
  rw [hx]
  dsimp only
  rw [st]

theorem Part.ctxEnd_closing (st : x.state = .closing) : p.ctxEnd i r
    = if x.result = some .released ∨ x.result = some .lateTake then p.ctxFinalUnbound i
      else (p.setResult i r).ctxFinalUnbound i := by
  unfold Part.ctxEnd
  rw [hx]
  dsimp only
  rw [st]

theorem Part.ctxEnd_running (st : x.state = .opening ∨ x.state = .opened ∨ x.state = .removedSettling) :
    p.ctxEnd i r = (((p.setResult i r).authBack x.req).returnKey x).ctxFinalUnbound i := by
  unfold Part.ctxEnd
  rw [hx]
  dsimp only
  rcases st with h | h | h <;> rw [h]

end CtxEnd

/-- q holds what the end of a context reads of p. -/
structure Part.SameCtxs (p q : Part) : Prop where
  ctxs : q.ctxs = p.ctxs
  auths : q.auths = p.auths
  keys : q.keys = p.keys
  rentals : q.rentals = p.rentals
  clock : q.clock = p.clock

section Lost
variable {p q : Part} (same : p.SameCtxs q) {i n : Nat} {x : Ctx} (hx : Table.look p.ctxs i = some x) (hslot : x.slot = some n)
  (ended : ∀ w ∈ q.waitQ, w.ended ≠ none)
include same hx

theorem Part.SameCtxs.result (r : CtxResult) :
    Table.look (Table.modify q.ctxs i (fun c => { c with result := some r })) i = some { x with result := some r } := by
  rw [same.ctxs, Table.look_modify_same, hx]
  rfl

include hslot ended

theorem Part.ctxEnd_carries {h : Nat} {a : Auth} {k : KeyRec} (carries : p.Carries i n x a h k)
    (running : x.state = .opening ∨ x.state = .opened ∨ x.state = .removedSettling) (room : q.essRoom = true) :
    (q.ctxEnd i .channelReset).ctxs = Table.del p.ctxs i
      ∧ (q.ctxEnd i .channelReset).auths = p.auths.map (fun z => if z.rental = a.rental then { z with state := .waiting } else z)
      ∧ Table.look (q.ctxEnd i .channelReset).keys h = some (k.givenBack (a.target = .key h) n)
      ∧ Ctx.report { x with result := some .channelReset } ∈ (q.ctxEnd i .channelReset).link.reports := by
  have result := same.result hx .channelReset
  obtain ⟨ctxs, auths, keys, -, clock⟩ := same
  obtain ⟨-, -, hkey, hsub, ha, active, valid, hk, releasing, hloc, -⟩ := carries
  have found : q.auth a.rental = some a := by
    unfold Part.auth
    rw [auths]
    exact ha
  have now : q.now = p.now := congrArg (fun c => ({ p with clock := c } : Part).now) clock
  obtain ⟨ks, hks⟩ := Part.handsBack_touch (p := q) (i := i) hkey hsub found active
    (by rw [now]; exact (a.expired_iff p.now).mpr valid) (by rw [keys]; exact hk) releasing hloc .channelReset
  obtain ⟨rows, lmp, A, B, final⟩ := Part.ctxFinalUnbound_eq (p := (({ q with
    ctxs := Table.modify q.ctxs i (fun c => { c with result := some .channelReset })
    auths := q.auths.map (fun x => if x.rental = a.rental then { x with state := .waiting } else x)
    keys := Table.put q.keys h (k.givenBack (a.target = .key h) n) } : Part).touch ks)) result ended room
  rw [Part.ctxEnd_running (by rw [ctxs]; exact hx) .channelReset running, hks, final]
  refine ⟨?_, ?_, Table.look_put_same _ _ _, List.mem_append_right _ (List.mem_singleton.mpr rfl)⟩
  · exact (Table.del_modify _ _ _).trans (by rw [ctxs])
  · show q.auths.map _ = _
    rw [auths]

theorem Part.ctxEnd_closes (closing : x.state = .closing) (room : q.essRoom = true) :
    (q.ctxEnd i .channelReset).ctxs = Table.del p.ctxs i ∧ (q.ctxEnd i .channelReset).keys = p.keys
      ∧ (q.ctxEnd i .channelReset).auths = p.auths
      ∧ (if x.result = some .released ∨ x.result = some .lateTake then x.report
        else Ctx.report { x with result := some .channelReset }) ∈ (q.ctxEnd i .channelReset).link.reports := by
  have result := same.result hx .channelReset
  obtain ⟨ctxs, auths, keys, -, -⟩ := same
  have found : Table.look q.ctxs i = some x := ctxs ▸ hx
  rw [Part.ctxEnd_closing found .channelReset closing]
  split
  · obtain ⟨rows, lmp, A, B, final⟩ := Part.ctxFinalUnbound_eq found ended room
    rw [final]
    exact ⟨congrArg (Table.del · i) ctxs, keys, auths, List.mem_append_right _ (List.mem_singleton.mpr rfl)⟩
  · obtain ⟨rows, lmp, A, B, final⟩ := Part.ctxFinalUnbound_eq (p := q.setResult i .channelReset) result ended room
    rw [final]
    exact ⟨(Table.del_modify _ _ _).trans (congrArg (Table.del · i) ctxs), keys, auths,
      List.mem_append_right _ (List.mem_singleton.mpr rfl)⟩

/-- The end of context i of slot n by the loss of its channel or module. -/
theorem Part.ctxEnd_lost (room : x.state ≠ .donePending → q.essRoom = true) :
    p.LostCtx (q.ctxEnd i .channelReset) i n x := by
  have reported (num : Nat) (hsub : x.req.subject = .rental num) := Ctx.report_failed
    (c := { x with result := some .channelReset }) hsub hslot rfl ⟨nofun, nofun⟩
  have rentals : (q.ctxEnd i .channelReset).rentals = p.rentals :=
    (congrArg Part.rentals (q.ctxEnd_restK i .channelReset)).trans same.rentals
  refine ⟨rentals, fun a h k carries running => ?_, fun num closing hsub => ?_, fun waiting => ?_⟩
  · have other : x.state ≠ .donePending := by rcases running with h | h | h <;> rw [h] <;> nofun
    obtain ⟨ctxs, auths, key, told⟩ := Part.ctxEnd_carries same hx hslot ended carries running (room other)
    obtain ⟨-, -, -, hsub, -⟩ := carries
    rw [reported a.rental hsub] at told
    exact ⟨ctxs, auths, key, told⟩
  · obtain ⟨ctxs, keys, auths, told⟩ := Part.ctxEnd_closes same hx hslot ended closing (room (by rw [closing]; nofun))
    refine ⟨ctxs, ⟨keys, auths⟩, fun place hplace => ⟨fun res => ?_, fun res => ?_⟩, fun res late => ?_⟩
    · have report := Ctx.report_done hsub hslot hplace res (.inl rfl)
      rw [if_pos (.inl res), report, if_pos rfl] at told
      exact told
    · have report := Ctx.report_done hsub hslot hplace res (.inr rfl)
      rw [if_pos (.inr res), report, if_neg nofun] at told
      exact told
    · rw [if_neg (not_or.mpr ⟨res, late⟩), reported num hsub] at told
      exact told
  · rw [Part.ctxEnd_waiting (same.ctxs ▸ hx) .channelReset waiting]
    unfold Part.unbind
    rw [hslot]
    refine ⟨⟨same.keys, same.auths⟩, ?_⟩
    show Table.look (Table.modify q.ctxs i (fun c => { c with slot := none })) i = _
    rw [same.ctxs, Table.look_modify_same, hx]
    rfl

end Lost

/-- What has become of a context is kept by what leaves contexts, authorizations, keys and rentals, and only adds reports. -/
theorem Part.LostCtx.of_same {p q r : Part} {i n : Nat} {x : Ctx} (lost : p.LostCtx q i n x) (ctxs : r.ctxs = q.ctxs)
    (auths : r.auths = q.auths) (keys : r.keys = q.keys) (rentals : r.rentals = q.rentals) (grow : q.ReportsGrow r) :
    p.LostCtx r i n x := by
  obtain ⟨same, running, closing, waiting⟩ := lost
  refine ⟨rentals.trans same, fun a h k carries st => ?_, fun num st sub => ?_, fun st => ?_⟩
  · obtain ⟨gone, back, key, told⟩ := running a h k carries st
    exact ⟨ctxs.trans gone, auths.trans back, keys ▸ key, grow.subset told⟩
  · obtain ⟨gone, ⟨sameKeys, sameAuths⟩, done, told⟩ := closing num st sub
    exact ⟨ctxs.trans gone, ⟨keys.trans sameKeys, auths.trans sameAuths⟩, fun place hp =>
      ⟨fun h => grow.subset ((done place hp).1 h), fun h => grow.subset ((done place hp).2 h)⟩,
      fun h1 h2 => grow.subset (told h1 h2)⟩
  · obtain ⟨⟨sameKeys, sameAuths⟩, ctx⟩ := waiting st
    exact ⟨⟨keys.trans sameKeys, auths.trans sameAuths⟩, ctxs ▸ ctx⟩

/-- A context bound to a slot, and only it, is bound to the slots given. -/
structure Part.LoneCtx (p : Part) (slots : List Nat) (i : Nat) (x : Ctx) : Prop where
  found : Table.look p.ctxs i = some x
  bound : ∃ n, x.slot = some n ∧ n ∈ slots
  lone : ∀ e ∈ p.ctxs, e.1 ≠ i → ∀ m, e.2.slot = some m → m ∉ slots

/-- Of the contexts of some slots only one is there: it ends. -/
theorem Part.ctxsLost_lone {p : Part} {slots : List Nat} {i : Nat} {x : Ctx} (h : p.LoneCtx slots i x) (hi : i < 4)
    (after : ∀ j, j ≠ i → Table.look (p.ctxEnd i .channelReset).ctxs j = Table.look p.ctxs j) :
    p.ctxsLost slots = p.ctxEnd i .channelReset := by
  obtain ⟨found, ⟨n, hslot, mem⟩, lone⟩ := h
  have skip (q : Part) (j : Nat) (hj : j ≠ i) (same : Table.look q.ctxs j = Table.look p.ctxs j) :
      (if ((Table.look q.ctxs j).bind (·.slot)).any (fun s => slots.contains s) then q.ctxEnd j .channelReset else q) = q := by
    refine if_neg fun bound => ?_
    rw [same] at bound
    cases hc : Table.look p.ctxs j with
    | none => rw [hc] at bound; cases bound
    | some c =>
      rw [hc, Option.bind_some] at bound
      cases hm : c.slot with
      | none => rw [hm] at bound; cases bound
      | some m =>
        rw [hm] at bound
        exact lone _ (Table.mem_of_look hc) hj m hm (by simpa using bound)
  have ends : (if ((Table.look p.ctxs i).bind (·.slot)).any (fun s => slots.contains s) then p.ctxEnd i .channelReset else p)
      = p.ctxEnd i .channelReset := by
    refine if_pos ?_
    rw [found, Option.bind_some, hslot]
    simpa using mem
  have split : (List.range Config.contexts) = [0, 1, 2, 3] := rfl
  unfold Part.ctxsLost
  rw [split]
  simp only [List.foldl_cons, List.foldl_nil]
  rcases (by omega : i = 0 ∨ i = 1 ∨ i = 2 ∨ i = 3) with rfl | rfl | rfl | rfl
  · rw [ends, skip _ 1 nofun (after 1 nofun), skip _ 2 nofun (after 2 nofun), skip _ 3 nofun (after 3 nofun)]
  · rw [skip p 0 nofun rfl, ends, skip _ 2 nofun (after 2 nofun), skip _ 3 nofun (after 3 nofun)]
  · rw [skip p 0 nofun rfl, skip p 1 nofun rfl, ends, skip _ 3 nofun (after 3 nofun)]
  · rw [skip p 0 nofun rfl, skip p 1 nofun rfl, skip p 2 nofun rfl, ends]

theorem Part.authBack_queues (p : Part) (q : RelReq) : (p.authBack q).ctxs = p.ctxs ∧ (p.authBack q).waitQ = p.waitQ := by
  unfold Part.authBack
  repeat' split
  · exact ⟨rfl, rfl⟩
  · exact ⟨(congrArg Part.ctxs (Part.offerOrd_restA _ _) :), (congrArg Part.waitQ (Part.offerOrd_restA _ _) :)⟩
  · exact ⟨rfl, rfl⟩
  · exact ⟨rfl, rfl⟩
  · exact ⟨rfl, rfl⟩

theorem Part.returnKey_queues (p : Part) (c : Ctx) : (p.returnKey c).ctxs = p.ctxs ∧ (p.returnKey c).waitQ = p.waitQ := by
  unfold Part.returnKey
  split
  · exact ⟨rfl, rfl⟩
  · next h k _ =>
    split
    · exact ⟨rfl, rfl⟩
    · obtain ⟨ks, hks⟩ := p.setKey_touch h (if p.claims c.req h then { k with state := .assigned } else k.restored)
      rw [hks]
      exact ⟨rfl, rfl⟩

theorem Part.ctxFinalUnbound_other {p : Part} (ended : ∀ w ∈ p.waitQ, w.ended ≠ none) {i j : Nat} (h : j ≠ i) :
    Table.look (p.ctxFinalUnbound i).ctxs j = Table.look p.ctxs j := by
  cases hc : Table.look p.ctxs i with
  | none =>
    unfold Part.ctxFinalUnbound
    rw [hc]
  | some c =>
    by_cases room : p.essRoom = true
    · obtain ⟨rows, lmp, A, B, final⟩ := Part.ctxFinalUnbound_eq hc ended room
      rw [final]
      exact Table.look_del_other _ _ _ h
    · have unbound : (p.unbind i c).essRoom = p.essRoom ∧ (p.unbind i c).ctxs = p.ctxs := by
        unfold Part.unbind
        split <;> exact ⟨rfl, rfl⟩
      unfold Part.ctxFinalUnbound
      rw [hc]
      dsimp only
      rw [unbound.1, if_neg room]
      show Table.look (Table.modify (p.unbind i c).ctxs i _) j = _
      rw [unbound.2, Table.look_modify_other _ _ _ _ h]

/-- The end of a context leaves the others, where no request waits. -/
theorem Part.ctxEnd_other {p : Part} (ended : ∀ w ∈ p.waitQ, w.ended ≠ none) {i j : Nat} (h : j ≠ i) (r : CtxResult) :
    Table.look (p.ctxEnd i r).ctxs j = Table.look p.ctxs j := by
  have result : Table.look (Table.modify p.ctxs i (fun c => { c with result := some r })) j = Table.look p.ctxs j :=
    Table.look_modify_other _ _ _ _ h
  cases hx : Table.look p.ctxs i with
  | none =>
    unfold Part.ctxEnd
    rw [hx]
  | some x =>
    by_cases waiting : x.state = .donePending
    · have unbound : (p.unbind i x).ctxs = p.ctxs := by
        unfold Part.unbind
        split <;> rfl
      rw [Part.ctxEnd_waiting hx r waiting]
      show Table.look (Table.modify (p.unbind i x).ctxs i _) j = _
      rw [unbound, Table.look_modify_other _ _ _ _ h]
    · by_cases closing : x.state = .closing
      · rw [Part.ctxEnd_closing hx r closing]
        split
        · exact Part.ctxFinalUnbound_other ended h
        · exact (Part.ctxFinalUnbound_other (p := p.setResult i r) ended h).trans result
      · have running : x.state = .opening ∨ x.state = .opened ∨ x.state = .removedSettling := by
          cases st : x.state with
          | opening => exact .inl rfl
          | opened => exact .inr (.inl rfl)
          | removedSettling => exact .inr (.inr rfl)
          | closing => exact absurd st closing
          | donePending => exact absurd st waiting
        have back : (((p.setResult i r).authBack x.req).returnKey x).ctxs = (p.setResult i r).ctxs
            ∧ (((p.setResult i r).authBack x.req).returnKey x).waitQ = p.waitQ := by
          have authed := (p.setResult i r).authBack_queues x.req
          have keyed := ((p.setResult i r).authBack x.req).returnKey_queues x
          exact ⟨keyed.1.trans authed.1, keyed.2.trans authed.2⟩
        rw [Part.ctxEnd_running hx r running, Part.ctxFinalUnbound_other (by rw [back.2]; exact ended) h, back.1]
        exact result

/-! ## The rest of a channel's loss leaves contexts, authorizations and keys -/

theorem Part.SameCtxs.refl (p : Part) : p.SameCtxs p := ⟨rfl, rfl, rfl, rfl, rfl⟩

theorem Part.SameCtxs.trans {p q r : Part} (h : p.SameCtxs q) (k : q.SameCtxs r) : p.SameCtxs r :=
  ⟨k.ctxs.trans h.ctxs, k.auths.trans h.auths, k.keys.trans h.keys, k.rentals.trans h.rentals, k.clock.trans h.clock⟩

theorem Part.SameCtxs.foldl {α : Type} {f : Part → α → Part} (h : ∀ q a, Part.SameCtxs q (f q a)) (l : List α) (p : Part) :
    p.SameCtxs (l.foldl f p) := by
  induction l generalizing p with
  | nil => exact .refl p
  | cons a l ih => exact (h p a).trans (ih _)

theorem Part.SameCtxs.of_restC {p q : Part} (h : q.restC = p.restC) : p.SameCtxs q :=
  ⟨(congrArg Part.ctxs h :), (congrArg Part.auths h :), (congrArg Part.keys h :), (congrArg Part.rentals h :),
    (congrArg Part.clock h :)⟩

theorem Part.sameCtxs_onChan (p : Part) (c : Chan) (f : Channel → Channel) : p.SameCtxs (p.onChan c f) := by
  cases c <;> exact ⟨rfl, rfl, rfl, rfl, rfl⟩

theorem Part.sameCtxs_rowsUnknown (p : Part) (slots : List Nat) : p.SameCtxs (p.rowsUnknown slots) := by
  unfold Part.rowsUnknown
  refine Part.SameCtxs.foldl (fun q s => ?_) _ p
  exact ⟨rfl, rfl, rfl, rfl, rfl⟩

theorem Part.OnlyCen.restC {p q : Part} (h : p.OnlyCen q) : q.restC = p.restC := by
  obtain ⟨n, rfl, -⟩ := h
  rfl

theorem Part.cenChannelLost_restC (p : Part) (d : Chan) (sent : Bool) : (p.cenChannelLost d sent).restC = p.restC := by
  unfold Part.cenChannelLost
  split
  · rfl
  · split <;> rfl
  · cases p.cen.pos with
    | none => rfl
    | some x =>
      obtain ⟨e, a⟩ := x
      dsimp only
      split
      · have given := Part.onlyCen_foldl (f := fun q (x : Chan × Nat) =>
          if (q.moduleSlots d x.2).isEmpty then q else q.moduleUnverified d x.2) (fun q x => by
            split
            · exact .refl q
            · exact q.onlyCen_moduleUnverified d x.2) ((chanSweep d).filter (fun x => decide (a ≤ x.2))) p
        exact (sweepOn_leaves _ _).1.trans ((Part.onCen_restC _ _).trans given.restC)
      · split <;> rfl

theorem Part.sameCtxs_lampLost (p : Part) (c : Chan) (a : Nat) : p.SameCtxs (p.lampLost c a) := by
  cases c <;> exact ⟨rfl, rfl, rfl, rfl, rfl⟩

theorem Part.sameCtxs_trackRespond (p : Part) (e : Nat) (r : Result) (fields : List Byte) :
    p.SameCtxs (p.trackRespond e r fields) := by
  unfold Part.trackRespond
  split
  · exact .refl p
  · split
    · exact .refl p
    · dsimp only
      split <;> exact ⟨rfl, rfl, rfl, rfl, rfl⟩

theorem Part.sameCtxs_trackAbort (p : Part) (c : Chan) : p.SameCtxs (p.trackAbort c) := by
  unfold Part.trackAbort
  refine Part.SameCtxs.foldl (fun q e => ?_) _ p
  split
  · exact q.sameCtxs_trackRespond _ _ _
  · exact .refl q

/-- What a channel that leaves RUNNING or STARTING does after its contexts have ended. -/
def Part.leaveRest (p : Part) (c : Chan) (census sent : Bool) : Part :=
  (((if census then p.cenChannelLost c sent else p).lampChannelLost c).clearOverrides (chanModules c)).trackAbort c

theorem Part.channelLeave_eq (p : Part) (c : Chan) (st : ChanState) : p.channelLeave c st
    = (((p.onChan c (·.leave st)).rowsUnknown (p.chanSlots c)).ctxsLost (p.chanSlots c)).leaveRest c
      (decide ((p.chan c).state = .running)) (p.chan c).readOnLine := by
  have slots : (p.onChan c (·.leave st)).chanSlots c = p.chanSlots c := by cases c <;> rfl
  unfold Part.channelLeave Part.leaveRest
  simp only [decide_eq_true_eq, slots]

theorem Part.sameCtxs_leaveRest (p : Part) (c : Chan) (census sent : Bool) : p.SameCtxs (p.leaveRest c census sent) := by
  have swept : p.SameCtxs (if census then p.cenChannelLost c sent else p) := by
    split
    · exact .of_restC (p.cenChannelLost_restC c sent)
    · exact .refl p
  have lamps (q : Part) : q.SameCtxs (q.lampChannelLost c) := by
    unfold Part.lampChannelLost
    exact Part.SameCtxs.foldl (fun q a => q.sameCtxs_lampLost c a) _ q
  have cleared (q : Part) : q.SameCtxs (q.clearOverrides (chanModules c)) := ⟨rfl, rfl, rfl, rfl, rfl⟩
  exact ((swept.trans (lamps _)).trans (cleared _)).trans (Part.sameCtxs_trackAbort _ c)

theorem Part.reportsGrow_leaveRest {p : Part} {c : Chan} (silent : p.Silent c) (census sent : Bool) :
    p.ReportsGrow (p.leaveRest c census sent) := by
  have swept : Part.Spares c p (if census then p.cenChannelLost c sent else p) := by
    split
    · exact p.spares_cenChannelLost c sent silent
    · exact .refl c p
  have lost := swept.silent silent
  unfold Part.leaveRest
  generalize (if census then p.cenChannelLost c sent else p) = q at *
  obtain ⟨images, behind, lamps, -⟩ := Part.lampChannelLost_eq lost
  rw [lamps]
  generalize hz : Part.clearOverrides { q with lmp := { q.lmp with images := images, behind := behind } } (chanModules c) = z
  have cleared : q.ReportsGrow z := .of_reports (by rw [← hz]; rfl)
  have silentZ : z.Silent c := lost.of_chan (by rw [← hz]; cases c <;> rfl)
  exact (swept.reports.trans cleared).trans (Part.spares_trackAbort z c silentZ).reports

/-- The one context bound to a slot of a channel that is lost. -/
theorem Part.channelLeave_lost {p q : Part} (same : p.SameCtxs q) {c : Chan} {st : ChanState} (hst : st ≠ .running) {i n : Nat}
    {x : Ctx} (lone : q.LoneCtx (q.chanSlots c) i x) (hslot : x.slot = some n) (hi : i < 4)
    (ended : ∀ w ∈ q.waitQ, w.ended ≠ none) (room : x.state ≠ .donePending → q.essRoom = true) :
    p.LostCtx (q.channelLeave c st) i n x := by
  have hx : Table.look p.ctxs i = some x := same.ctxs ▸ lone.found
  have dark : q.SameCtxs ((q.onChan c (·.leave st)).rowsUnknown (q.chanSlots c)) :=
    (q.sameCtxs_onChan c _).trans (Part.sameCtxs_rowsUnknown _ _)
  have restK : ((q.onChan c (·.leave st)).rowsUnknown (q.chanSlots c)).waitQ = q.waitQ
      ∧ ((q.onChan c (·.leave st)).rowsUnknown (q.chanSlots c)).link = q.link := by
    obtain ⟨rows, ks, unknown, -⟩ := (q.onChan c (·.leave st)).rowsUnknown_eq (q.chanSlots c)
    rw [unknown]
    cases c <;> exact ⟨rfl, rfl⟩
  have silent : ((q.onChan c (·.leave st)).rowsUnknown (q.chanSlots c)).Silent c := by
    obtain ⟨rows, ks, unknown, -⟩ := (q.onChan c (·.leave st)).rowsUnknown_eq (q.chanSlots c)
    rw [unknown]
    have left : (q.onChan c (·.leave st)).chan c = (q.chan c).leave st := Part.chan_onChan _ _ _
    exact ⟨by show ((q.onChan c (·.leave st)).chan c).state ≠ _; rw [left]; exact hst,
      by show ((q.onChan c (·.leave st)).chan c).queue = _; rw [left]; rfl⟩
  rw [q.channelLeave_eq c st]
  generalize (q.onChan c (·.leave st)).rowsUnknown (q.chanSlots c) = y at *
  have endedY : ∀ w ∈ y.waitQ, w.ended ≠ none := by rw [restK.1]; exact ended
  have roomY : x.state ≠ .donePending → y.essRoom = true := by
    unfold Part.essRoom at *
    rw [restK.2]
    exact room
  have loneY : y.LoneCtx (q.chanSlots c) i x := ⟨dark.ctxs ▸ lone.found, lone.bound, dark.ctxs ▸ lone.lone⟩
  have lost := Part.ctxEnd_lost (same.trans dark) hx hslot endedY roomY
  rw [Part.ctxsLost_lone loneY hi (fun j hj => Part.ctxEnd_other endedY hj _)]
  have kept := (y.ctxEnd i .channelReset).sameCtxs_leaveRest c (decide ((q.chan c).state = .running)) (q.chan c).readOnLine
  exact lost.of_same kept.ctxs kept.auths kept.keys kept.rentals
    (Part.reportsGrow_leaveRest ((y.spares_ctxEnd i _ silent).silent silent) _ _)

end Sys2Proof.Machine
end

section
/-! PROOFS. Hangs and reset pulses (R152, R168, R169). -/

namespace Sys2Proof.Machine
open Sys2Proof

/-! ## A line held -/

section Hang
variable {p : Part} {c : Chan} {ms : Nat}

theorem Part.lineHang_hangs (h : (p.chan c).hung p.mono ms = true) :
    p.lineHang c ms = (p.onChan c (fun ch => { ch with held := decide (0 < ms) })).hang c := by
  unfold Part.lineHang
  dsimp only
  rw [h, if_pos rfl]

theorem Channel.hung_iff (ch : Channel) (mono ms : Nat) :
    ch.hung mono ms = true ↔ 50 < ms ∧ ∀ t, ch.pulse = some t → t + 50 < mono := by
  have limit : Config.hangTime = 50 := rfl
  unfold Channel.hung
  rw [Bool.and_eq_true, decide_eq_true_iff, limit]
  cases ch.pulse with
  | none => simp
  | some t => simp

/-- The channel with its line held. -/
def Channel.lineHeld (ch : Channel) : Channel := { ch with held := true }

theorem Part.lineHang_over (hms : 50 < ms) (hpulse : ∀ t, (p.chan c).pulse = some t → t + 50 < p.mono) :
    p.lineHang c ms = (p.onChan c (·.lineHeld)).hang c := by
  have held : decide (0 < ms) = true := decide_eq_true (by omega)
  rw [Part.lineHang_hangs (((p.chan c).hung_iff p.mono ms).mpr ⟨hms, hpulse⟩), held]
  rfl

/-- The recoveries of the last ten minutes. -/
def Channel.recent (ch : Channel) (mono : Nat) : List Nat := ch.history.filter (fun t => decide (mono < t + 600000))

theorem Part.hang_running (off : (p.chan c).state ≠ .off) (recovering : (p.chan c).state ≠ .recovering)
    (faulted : (p.chan c).state ≠ .faulted) : p.hang c = if 3 ≤ ((p.chan c).recent p.mono).length then
      ((p.channelLeave c .recovering).onChan c (fun ch => { ch with
        state := .faulted, history := (p.chan c).recent p.mono, modules := ch.freshModules
        nextIdent := none, pulse := none })).raise .channelFault (.chan c) none
    else (p.channelLeave c .recovering).onChan c (fun ch => { ch with
      history := (p.chan c).recent p.mono ++ [p.mono], recoveries := satUp ch.recoveries, pulse := some (p.mono + 20) }) := by
  unfold Part.hang
  cases h : (p.chan c).state with
  | off => exact absurd h off
  | recovering => exact absurd h recovering
  | faulted => exact absurd h faulted
  | starting st => rfl
  | running => rfl

/-- A channel that hangs has left RUNNING or STARTING. -/
theorem Part.hang_left (off : (p.chan c).state ≠ .off) (recovering : (p.chan c).state ≠ .recovering)
    (faulted : (p.chan c).state ≠ .faulted) :
    ∃ f : Channel → Channel, (∀ ch, (f ch).queue = ch.queue ∧ (f ch).onLine = ch.onLine ∧ (f ch).held = ch.held
        ∧ (f ch).map = ch.map ∧ (f ch).misses = ch.misses)
      ∧ (p.hang c).chan c = f ((p.chan c).leave .recovering) ∧ ((p.hang c).chan c).state ≠ .running
      ∧ (p.hang c).rows = (p.channelLeave c .recovering).rows
      ∧ (p.hang c).restL = p.restL
      ∧ (((p.chan c).recent p.mono).length < 3 → f = fun ch => { ch with
        history := (p.chan c).recent p.mono ++ [p.mono], recoveries := satUp ch.recoveries, pulse := some (p.mono + 20) })
      ∧ (3 ≤ ((p.chan c).recent p.mono).length → (p.hang c).alt.flags.getLsbD 8 = true ∧ f = fun ch => { ch with
        state := .faulted, history := (p.chan c).recent p.mono, modules := ch.freshModules
        nextIdent := none, pulse := none }) := by
  have left := p.channelLeave_left c (st := .recovering) nofun
  rw [Part.hang_running off recovering faulted]
  generalize p.channelLeave c .recovering = q at *
  by_cases many : 3 ≤ ((p.chan c).recent p.mono).length
  · rw [if_pos many]
    have chan := Part.chan_onChan q c (fun ch => { ch with
        state := .faulted, history := (p.chan c).recent p.mono, modules := ch.freshModules
        nextIdent := none, pulse := none })
    have same := q.onChan_rest c (fun ch => { ch with
        state := .faulted, history := (p.chan c).recent p.mono, modules := ch.freshModules
        nextIdent := none, pulse := none })
    rw [left.chan] at chan
    generalize q.onChan c (fun ch => { ch with
        state := .faulted, history := (p.chan c).recent p.mono, modules := ch.freshModules
        nextIdent := none, pulse := none }) = z at *
    have raised := z.raise_restA .channelFault (.chan c) none
    have chanR := (z.spares_raise (c := c) .channelFault (.chan c) none).chan.trans chan
    refine ⟨_, fun ch => ?_, chanR, by rw [chanR]; nofun, (congrArg Part.rows raised).trans same.1,
      (congrArg Part.restL raised).trans (same.2.2.2.trans left.rest), fun few => absurd many (Nat.not_le.mpr few), fun _ =>
        ⟨Part.raise_flag _ .channelFault _ _, rfl⟩⟩
    exact ⟨rfl, rfl, rfl, rfl, rfl⟩
  · rw [if_neg many]
    have chan := Part.chan_onChan q c (fun ch => { ch with
        history := (p.chan c).recent p.mono ++ [p.mono], recoveries := satUp ch.recoveries, pulse := some (p.mono + 20) })
    have same := q.onChan_rest c (fun ch => { ch with
        history := (p.chan c).recent p.mono ++ [p.mono], recoveries := satUp ch.recoveries, pulse := some (p.mono + 20) })
    rw [left.chan] at chan
    generalize q.onChan c (fun ch => { ch with
        history := (p.chan c).recent p.mono ++ [p.mono], recoveries := satUp ch.recoveries, pulse := some (p.mono + 20) }) = z at *
    refine ⟨_, fun ch => ?_, chan, by rw [chan]; nofun, same.1, same.2.2.2.trans left.rest, fun _ => rfl, fun h => absurd h many⟩
    exact ⟨rfl, rfl, rfl, rfl, rfl⟩

end Hang

section LostInHang
variable {s : State} {c : Chan} {ms : Nat}

/-- While its line is held a channel sends nothing and misses nothing. -/
theorem State.becomes_heldLine (held : (s.part.chan c).held = true) :
    ∀ row ∈ [Instr.sendPoll c, .sendReadTags c, .sendLockOpen c, .sendLockClose c, .sendLamp c, .sendPassedFrame c,
      .commandMiss c], s.Becomes (exec row s) s.part := by
  have none := (s.part.chan c).choice_held s.part.mono held
  have turn := (s.part.chan c).pollTurn_held s.part.mono held
  have sends (row : Part → Part) (h : row s.part = s.part) :
      s.Becomes (.next { s with part := (row s.part).lampRun }) s.part := State.becomes_of_eq h
  simp only [List.forall_mem_cons, List.not_mem_nil, false_implies, implies_true, and_true]
  refine ⟨?_, ?_, ?_, ?_, ?_, ?_, ?_⟩
  · exact sends (·.sendPoll c) (by simp only [Part.sendPoll, turn]; rfl)
  · exact sends (·.sendReadTags c) (by simp only [Part.sendReadTags, none])
  · exact sends (·.sendLockOpen c) (by simp only [Part.sendLockOpen, none])
  · exact sends (·.sendLockClose c) (by simp only [Part.sendLockClose, none])
  · exact sends (·.sendLamp c) (by simp only [Part.sendLamp, none])
  · exact sends (·.sendPassed c) (by simp only [Part.sendPassed, none])
  · exact sends (·.commandMiss c) (s.part.commandMiss_held c held)

/-- A channel that hangs loses the context bound to its slot. -/
theorem Part.hang_lost {p q : Part} (same : p.SameCtxs q) {i n : Nat} {x : Ctx} (run : (q.chan c).state = .running)
    (lone : q.LoneCtx (q.chanSlots c) i x) (hslot : x.slot = some n) (hi : i < 4)
    (ended : ∀ w ∈ q.waitQ, w.ended ≠ none) (room : x.state ≠ .donePending → q.essRoom = true) :
    p.LostCtx (q.hang c) i n x := by
  have lost := Part.channelLeave_lost same (st := .recovering) nofun lone hslot hi ended room
  rw [Part.hang_running (by rw [run]; nofun) (by rw [run]; nofun) (by rw [run]; nofun)]
  generalize q.channelLeave c .recovering = y at *
  split
  · generalize hz : y.onChan c _ = z
    have kept : y.SameCtxs z := hz ▸ y.sameCtxs_onChan c _
    have raised := z.raise_restA .channelFault (.chan c) none
    have grow : y.ReportsGrow (z.raise .channelFault (.chan c) none) := Part.ReportsGrow.trans
      (.of_reports (by rw [← hz, (y.onChan_rest c _).2.2.1])) (z.reportsGrow_raise _ _ _)
    exact lost.of_same ((congrArg Part.ctxs raised :).trans kept.ctxs) ((congrArg Part.auths raised :).trans kept.auths)
      ((congrArg Part.keys raised :).trans kept.keys) ((congrArg Part.rentals raised :).trans kept.rentals) grow
  · have kept := y.sameCtxs_onChan c (fun ch => { ch with
      history := (q.chan c).recent q.mono ++ [q.mono], recoveries := satUp ch.recoveries, pulse := some (q.mono + 20) })
    exact lost.of_same kept.ctxs kept.auths kept.keys kept.rentals (.of_reports (congrArg Link.reports (y.onChan_rest c _).2.2.1))

end LostInHang

theorem Part.chanSlots_onChan (p : Part) (c : Chan) (f : Channel → Channel) : (p.onChan c f).chanSlots = p.chanSlots := by
  cases c <;> rfl

/-- Settles O54: short and own holdings by `Part.lineHang_short` and `Part.lineHang_pulse`, a hang by `Part.hang_left` and
`Part.hang_lost`, the end of a reset pulse by its equations. -/
theorem hangsAndPulses : Obligations.HangsAndPulses := by
  unfold Obligations.HangsAndPulses
  refine ⟨fun s c ms short => State.becomes_of_eq (s.part.lineHang_short c ms short),
    fun s c held => State.becomes_heldLine held,
    fun s c n held => State.becomes_of_eq (s.part.round_not_turn c n ((s.part.chan c).roundTurn_held _ held)),
    fun s c ms t pulse own pos => State.becomes_of_eq ?_, fun s c ms i n x long noPulse run hx hi hslot hn lone ended room => ?_,
    fun s c ms long free => ⟨fun idle => State.becomes_of_eq ?_, fun off recovering faulted => ?_⟩,
    fun s c t pulse due => ⟨fun recovering => State.becomes_of_eq ?_, fun starting =>
      ⟨fun held => State.becomes_of_eq ?_, fun held => State.becomes_of_eq ?_⟩⟩⟩
  · rw [s.part.lineHang_pulse c ms t pulse own, decide_eq_true pos]
  · have chan : (s.part.onChan c (·.lineHeld)).chan c = (s.part.chan c).lineHeld := Part.chan_onChan _ _ _
    have kept := s.part.sameCtxs_onChan c (·.lineHeld)
    have slots := s.part.chanSlots_onChan c (·.lineHeld)
    have same : (s.part.onChan c (·.lineHeld)).waitQ = s.part.waitQ
        ∧ (s.part.onChan c (·.lineHeld)).link = s.part.link := by cases c <;> exact ⟨rfl, rfl⟩
    have roomy : x.state ≠ .donePending → (s.part.onChan c (·.lineHeld)).essRoom = true := by
      intro h
      unfold Part.essRoom
      rw [same.2]
      exact (Part.essRoom_iff s.part).mpr (room h).symm
    have lost := Part.hang_lost (c := c) kept (by rw [chan]; exact run)
      (show (s.part.onChan c (·.lineHeld)).LoneCtx _ i x from
        ⟨kept.ctxs ▸ hx, ⟨n, hslot, slots ▸ hn⟩, by rw [kept.ctxs, slots]; exact lone⟩) hslot hi (by rw [same.1]; exact ended) roomy
    have hangs := Part.lineHang_over (p := s.part) (c := c) long (by rw [noPulse]; nofun)
    obtain ⟨u, hu, -, hunlit⟩ := State.becomes_of_eq (s := s) hangs
    exact ⟨u, hu, lost.of_same (congrArg Part.ctxs hunlit :) (congrArg Part.auths hunlit :) (congrArg Part.keys hunlit :)
      (congrArg Part.rentals hunlit :) (.of_reports (congrArg (·.link.reports) hunlit :))⟩
  · rw [Part.lineHang_over long free]
    exact Part.hang_idle _ c (by rw [Part.chan_onChan]; exact idle)
  · have chan : (s.part.onChan c (·.lineHeld)).chan c = (s.part.chan c).lineHeld := Part.chan_onChan _ _ _
    have slots := s.part.chanSlots_onChan c (·.lineHeld)
    have mono : (s.part.onChan c (·.lineHeld)).mono = s.part.mono := by cases c <;> rfl
    have maps : (s.part.onChan c (·.lineHeld)).slotMap = s.part.slotMap := by cases c <;> rfl
    have rowsKept := s.part.onChan_rest c (·.lineHeld)
    have left := (s.part.onChan c (·.lineHeld)).channelLeave_left c (st := .recovering) nofun
    obtain ⟨g, keeps, hchan, still, rows, rest, few, many⟩ := Part.hang_left (p := s.part.onChan c (·.lineHeld)) (c := c)
      (by rw [chan]; exact off) (by rw [chan]; exact recovering) (by rw [chan]; exact faulted)
    have hangs := Part.lineHang_over (p := s.part) (c := c) long free
    rw [chan, mono] at *
    obtain ⟨queue, onLine, held, map, misses⟩ := keeps ((s.part.chan c).lineHeld.leave .recovering)
    obtain ⟨u, hu, -, hunlit⟩ := State.becomes_of_eq (s := s) hangs
    have hu' : u.part = ((s.part.onChan c (·.lineHeld)).hang c).lampRun := by
      injection hu with hu
      rw [← hu, ← hangs]
    have chanU : u.part.chan c = g ((s.part.chan c).lineHeld.leave .recovering) := by
      rw [hu', Part.lampRun_chan_idle still, hchan]
    have darkened := left.rows
    rw [slots, maps, rowsKept.1] at darkened
    refine ⟨u, hu, by rw [chanU, held]; rfl, by rw [chanU, queue]; rfl, by rw [chanU, onLine]; rfl, by rw [chanU, map]; rfl,
      by rw [chanU, misses]; rfl, fun lt => ?_, fun ge => ?_, fun rising m hm r hr => ?_, ?_⟩
    · rw [chanU, few lt]
      exact ⟨rfl, rfl, rfl, rfl⟩
    · obtain ⟨flag, spelt⟩ := many ge
      rw [chanU, spelt]
      exact ⟨rfl, rfl, rfl, (congrArg (·.alt.flags.getLsbD 8) hunlit :).trans flag⟩
    · exact ((congrArg (fun p => Table.look (Part.rows p) m) hunlit :).trans (congrArg (Table.look · m) rows)).trans (darkened rising m hm r hr)
    · exact ((congrArg Part.rentals hunlit :).trans (congrArg Part.rentals rest :)).trans (congrArg Part.rentals rowsKept.2.2.2 :)
  all_goals
    unfold Part.pulseEnd
    rw [pulse]
    dsimp only
    rw [if_neg (Nat.not_lt.mpr due)]
  · rw [recovering]
    rfl
  · rw [starting, held]
    rfl
  · rw [starting, held]
    rfl

end Sys2Proof.Machine
end

section
/-! PROOFS. The reads of a census, a channel it loses, and its abort (R123, R124, R131, R132, R167). -/

namespace Sys2Proof.Machine
open Sys2Proof

/-! ## What follows the census when a channel is lost -/

/-- What comes after the census took the loss of a channel leaves its record, and its report and alert. -/
structure Part.AfterCensus (p q : Part) : Prop where
  cen : q.cen = p.cen
  flags : p.FlagsRise q
  reports : p.ReportsGrow q

theorem Part.AfterCensus.trans {p q r : Part} (h : p.AfterCensus q) (k : q.AfterCensus r) : p.AfterCensus r :=
  ⟨k.cen.trans h.cen, h.flags.trans k.flags, h.reports.trans k.reports⟩

theorem Part.AfterCensus.of_same {p q : Part} (cen : q.cen = p.cen) (alt : q.alt = p.alt)
    (reports : q.link.reports = p.link.reports) : p.AfterCensus q :=
  ⟨cen, .of_flags (congrArg Alt.flags alt), .of_reports reports⟩

theorem Part.AfterCensus.foldl {α : Type} {f : Part → α → Part} (h : ∀ q a, Part.AfterCensus q (f q a)) (l : List α) (p : Part) :
    p.AfterCensus (l.foldl f p) := by
  induction l generalizing p with
  | nil => exact .of_same rfl rfl rfl
  | cons a l ih => exact (h p a).trans (ih _)

theorem Part.afterCensus_onChan (p : Part) (c : Chan) (f : Channel → Channel) : p.AfterCensus (p.onChan c f) := by
  cases c <;> exact .of_same rfl rfl rfl

theorem Part.afterCensus_raise (p : Part) (k : AlertKind) (s : Subject) (d : Option Detail) : p.AfterCensus (p.raise k s d) :=
  ⟨(congrArg Part.cen (p.raise_restA k s d) :), p.flagsRise_raise k s d, p.reportsGrow_raise k s d⟩

theorem Part.afterCensus_trackRespond (p : Part) (e : Nat) (r : Result) (fields : List Byte) :
    p.AfterCensus (p.trackRespond e r fields) := by
  unfold Part.trackRespond
  split
  · exact .of_same rfl rfl rfl
  · split
    · exact .of_same rfl rfl rfl
    · dsimp only
      split
      · exact ⟨rfl, .of_flags rfl, p.reportsGrow_enter _⟩
      · exact ⟨rfl, .of_flags rfl, Part.reportsGrow_await _ _⟩

theorem Part.afterCensus_trackAbort (p : Part) (c : Chan) : p.AfterCensus (p.trackAbort c) := by
  unfold Part.trackAbort
  refine Part.AfterCensus.foldl (fun q e => ?_) _ p
  split
  · exact q.afterCensus_trackRespond _ _ _
  · exact .of_same rfl rfl rfl

theorem Part.ctxsLost_nil {p : Part} (none : p.ctxs = []) (slots : List Nat) : p.ctxsLost slots = p := by
  have stay (l : List Nat) : l.foldl (fun q i =>
      if ((Table.look q.ctxs i).bind (·.slot)).any (fun s => slots.contains s) then q.ctxEnd i .channelReset else q) p = p := by
    induction l with
    | nil => rfl
    | cons i l ih =>
      have noCtx : Table.look p.ctxs i = Option.none := by rw [none]; rfl
      rw [List.foldl_cons, noCtx]
      exact ih
  exact stay _

/-- The census is told of the channel when its rows and contexts are dealt with. -/
theorem Part.hang_census {p : Part} {c : Chan} (run : (p.chan c).state = .running) :
    ∃ y : Part, y.restK = (p.onChan c (·.leave .recovering)).restK ∧ (p.ctxs = [] → y.link = p.link)
      ∧ (y.cenChannelLost c (p.chan c).readOnLine).AfterCensus (p.hang c) := by
  obtain ⟨rows, ks, dark, -⟩ := (p.onChan c (·.leave .recovering)).rowsUnknown_eq (p.chanSlots c)
  have chanLeft : (p.onChan c (·.leave .recovering)).chan c = (p.chan c).leave .recovering := Part.chan_onChan _ _ _
  have silent : ((p.onChan c (·.leave .recovering)).rowsUnknown (p.chanSlots c)).Silent c := by
    rw [dark]
    exact ⟨by show ((p.onChan c _).chan c).state ≠ _; rw [chanLeft]; nofun,
      by show ((p.onChan c _).chan c).queue = _; rw [chanLeft]; rfl⟩
  refine ⟨((p.onChan c (·.leave .recovering)).rowsUnknown (p.chanSlots c)).ctxsLost (p.chanSlots c),
    (Part.ctxsLost_restK _ _).trans (Part.rowsUnknown_restK _ _), fun none => ?_, ?_⟩
  · have noCtxs : ((p.onChan c (·.leave .recovering)).rowsUnknown (p.chanSlots c)).ctxs = [] := by
      rw [dark, ← none]
      cases c <;> rfl
    rw [Part.ctxsLost_nil noCtxs, dark]
    exact (p.onChan_rest c _).2.2.1
  · have ended := Part.spares_ctxsLost _ (p.chanSlots c) silent
    have gone := ended.silent silent
    have leaves := p.channelLeave_eq c .recovering
    rw [decide_eq_true run] at leaves
    rw [Part.hang_running (by rw [run]; nofun) (by rw [run]; nofun) (by rw [run]; nofun)]
    generalize ((p.onChan c (·.leave .recovering)).rowsUnknown (p.chanSlots c)).ctxsLost (p.chanSlots c) = y at *
    have told := (y.spares_cenChannelLost c (p.chan c).readOnLine gone).silent gone
    have rest : (y.cenChannelLost c (p.chan c).readOnLine).AfterCensus (p.channelLeave c .recovering) := by
      rw [leaves]
      unfold Part.leaveRest
      rw [if_pos rfl]
      generalize y.cenChannelLost c (p.chan c).readOnLine = z at *
      obtain ⟨images, behind, lamps, -⟩ := Part.lampChannelLost_eq told
      rw [lamps]
      generalize hw : Part.clearOverrides { z with lmp := { z.lmp with images := images, behind := behind } } (chanModules c) = w
      have cleared : z.AfterCensus w := by
        rw [← hw]
        exact .of_same rfl rfl rfl
      exact cleared.trans (w.afterCensus_trackAbort c)
    refine rest.trans ?_
    split
    · exact (Part.afterCensus_onChan _ c _).trans (Part.afterCensus_raise _ _ _ _)
    · exact Part.afterCensus_onChan _ c _

/-! ## Modules given up -/

/-- The census of p has listed slots as UNVERIFIED, k modules being given up. -/
def Part.Noted (p q : Part) (k : Nat) : Prop :=
  ∃ list recorded lost, q = { p with cen := { p.cen with
    list := list, counts := { p.cen.counts with recorded := recorded, lost := lost, unverified := k } } }

theorem Part.Noted.refl (p : Part) : p.Noted p p.cen.counts.unverified := ⟨_, _, _, rfl⟩

theorem Part.Noted.trans {p q r : Part} {j k : Nat} (h : p.Noted q j) (g : q.Noted r k) : p.Noted r k := by
  obtain ⟨l, a, b, rfl⟩ := h
  obtain ⟨l', a', b', rfl⟩ := g
  exact ⟨l', a', b', rfl⟩

theorem Part.noted_mismatch (p : Part) (m : Mismatch) : p.Noted (p.mismatch m) p.cen.counts.unverified := by
  unfold Part.mismatch Part.onCen
  dsimp only
  split <;> exact ⟨_, _, _, rfl⟩

theorem Part.noted_unverified (slots : List Nat) (p : Part) : p.Noted (p.unverified slots) p.cen.counts.unverified := by
  unfold Part.unverified
  induction slots generalizing p with
  | nil => exact .refl p
  | cons n slots ih =>
    rw [List.foldl_cons]
    split
    · next h _ _ =>
      have first := p.noted_mismatch ⟨.unverified, n, some h, none, none, none⟩
      have rest := ih (p.mismatch ⟨.unverified, n, some h, none, none, none⟩)
      have same : (p.mismatch ⟨.unverified, n, some h, none, none, none⟩).cen.counts.unverified = p.cen.counts.unverified := by
        obtain ⟨l, a, b, eq⟩ := first
        rw [eq]
      rw [same] at rest
      exact first.trans rest
    · exact ih p

theorem Part.noted_moduleUnverified (p : Part) (c : Chan) (a : Nat) :
    p.Noted (p.moduleUnverified c a) (satUp p.cen.counts.unverified) := by
  obtain ⟨l, a', b, eq⟩ := Part.noted_unverified (p.moduleSlots c a) p
  unfold Part.moduleUnverified Part.cenCount Part.onCen
  rw [eq]
  exact ⟨l, a', b, rfl⟩

/-- k goes up once for each address that has slots. -/
def Part.givenUpCount (p : Part) (c : Chan) (as : List Nat) (k : Nat) : Nat :=
  (as.filter (fun x => !(p.moduleSlots c x).isEmpty)).foldl (fun k _ => satUp k) k

/-- The modules at some addresses of a channel are given up, each by a step that deals with it as not ACTIVE. -/
theorem Part.noted_addresses (c : Chan) {f : Part → Chan × Nat → Part} {inv : Part → Prop}
    (keeps : ∀ q r k, inv q → Part.Noted q r k → inv r)
    (step : ∀ q x, inv q → f q (c, x) = if (q.moduleSlots c x).isEmpty then q else q.moduleUnverified c x)
    (as : List Nat) (p : Part) (hp : inv p) :
    p.Noted ((as.map (fun x => (c, x))).foldl f p) (p.givenUpCount c as p.cen.counts.unverified) := by
  induction as generalizing p with
  | nil => exact .refl p
  | cons x as ih =>
    rw [List.map_cons, List.foldl_cons, step p x hp]
    unfold Part.givenUpCount
    by_cases empty : (p.moduleSlots c x).isEmpty = true
    · rw [if_pos empty, List.filter_cons_of_neg (by simpa using empty)]
      exact ih p hp
    · rw [if_neg empty, List.filter_cons_of_pos (by simpa using empty)]
      have first := p.noted_moduleUnverified c x
      have rest := ih _ (keeps _ _ _ hp first)
      obtain ⟨l, a, b, eq⟩ := p.noted_moduleUnverified c x
      have count : (p.moduleUnverified c x).givenUpCount c as (p.moduleUnverified c x).cen.counts.unverified
          = p.givenUpCount c as (satUp p.cen.counts.unverified) := by
        rw [eq]
        rfl
      rw [count] at rest
      exact first.trans rest

/-! ## The addresses of a sweep -/

theorem mem_chanSweep {c : Chan} {x : Chan × Nat} : x ∈ chanSweep c ↔ x.1 = c ∧ 1 ≤ x.2 ∧ x.2 ≤ 30 := by
  have modules : Config.modules = 30 := rfl
  unfold chanSweep
  rw [List.mem_map, modules]
  constructor
  · rintro ⟨i, hi, rfl⟩
    have := List.mem_range.mp hi
    exact ⟨rfl, by dsimp only; omega, by dsimp only; omega⟩
  · rintro ⟨hc, low, high⟩
    obtain ⟨d, a⟩ := x
    exact ⟨a - 1, List.mem_range.mpr (by dsimp only at *; omega), Prod.ext hc.symm (Nat.sub_add_cancel low)⟩

theorem chanSweep_nodup (c : Chan) : (chanSweep c).Nodup :=
  List.nodup_range.map fun i j h => by simpa using h

theorem scopeSweep_nodup (sc : Scope) : (scopeSweep sc).Nodup := by
  cases sc with
  | A => exact chanSweep_nodup .A
  | B => exact chanSweep_nodup .B
  | both =>
    refine (chanSweep_nodup .A).append (chanSweep_nodup .B) fun x hA hB => ?_
    have := (mem_chanSweep.mp hA).1.symm.trans (mem_chanSweep.mp hB).1
    cases this

theorem chanSweep_ascends (c : Chan) : (chanSweep c).Pairwise (fun x y => x.2 < y.2) :=
  List.pairwise_map.mpr (List.pairwise_lt_range.imp fun h => Nat.succ_lt_succ h)

theorem chanSweep_eq (c : Chan) : chanSweep c = ((List.range 30).map (· + 1)).map (fun x => (c, x)) := by
  rw [List.map_map]
  rfl

/-- What is left of a sweep behind an address. -/
theorem Part.sweepAfter_split {p : Part} {sc : Scope} {pre post : List (Chan × Nat)} {c : Chan} {a : Nat}
    (scope : p.cen.scope = some sc) (hsweep : scopeSweep sc = pre ++ (c, a) :: post) : p.sweepAfter c a = post := by
  have first : (c, a) ∉ pre := fun mem =>
    (List.nodup_append.mp (hsweep ▸ scopeSweep_nodup sc)).2.2 _ mem _ List.mem_cons_self rfl
  unfold Part.sweepAfter
  rw [scope, Option.getD_some, hsweep, List.dropWhile_append_of_pos (fun x hx => bne_iff_ne.mpr (by rintro rfl; exact first hx)),
    List.dropWhile_cons_of_neg (by simp)]
  rfl

/-- Behind an address of the last channel in scope comes only that channel. -/
theorem Part.sweepAfter_last {p : Part} {sc : Scope} {d : Chan} {a : Nat} (scope : p.cen.scope = some sc)
    (mem : (d, a) ∈ scopeSweep sc) (last : d = .B ∨ sc = .A) : ∀ x ∈ p.sweepAfter d a, x.1 = d := by
  have tail {pre post : List (Chan × Nat)} (hsweep : chanSweep d = pre ++ (d, a) :: post) : ∀ x ∈ post, x.1 = d := fun x hx =>
    (mem_chanSweep.mp (hsweep ▸ List.mem_append_right _ (List.mem_cons_of_mem _ hx))).1
  cases sc with
  | A =>
    obtain rfl : d = .A := (mem_chanSweep.mp mem).1
    obtain ⟨pre, post, hsweep⟩ := List.append_of_mem mem
    rw [p.sweepAfter_split scope hsweep]
    exact tail hsweep
  | B =>
    obtain rfl : d = .B := (mem_chanSweep.mp mem).1
    obtain ⟨pre, post, hsweep⟩ := List.append_of_mem mem
    rw [p.sweepAfter_split scope hsweep]
    exact tail hsweep
  | both =>
    obtain rfl : d = .B := last.resolve_right nofun
    have own : (Chan.B, a) ∈ chanSweep .B := (List.mem_append.mp mem).resolve_left fun h => nomatch (mem_chanSweep.mp h).1
    obtain ⟨pre, post, hsweep⟩ := List.append_of_mem own
    rw [p.sweepAfter_split (pre := chanSweep .A ++ pre) scope (by rw [scopeSweep, hsweep, List.append_assoc])]
    exact tail hsweep

/-- Behind an address of channel A comes the rest of A, then B when B is in scope. -/
theorem Part.sweepAfter_both {p : Part} {a : Nat} (scope : p.cen.scope = some .both) (low : 1 ≤ a) (high : a ≤ 30) :
    ∃ post, (∀ x ∈ post, x.1 = .A ∧ a < x.2) ∧ p.sweepAfter .A a = post ++ chanSweep .B := by
  obtain ⟨pre, post, hsweep⟩ := List.append_of_mem (mem_chanSweep.mpr ⟨rfl, low, high⟩ : (Chan.A, a) ∈ chanSweep .A)
  have ascends := chanSweep_ascends .A
  rw [hsweep, List.pairwise_append, List.pairwise_cons] at ascends
  refine ⟨post, fun x hx => ⟨?_, ascends.2.1.1 x hx⟩,
    p.sweepAfter_split (pre := pre) scope (by rw [scopeSweep, hsweep, List.append_assoc]; rfl)⟩
  exact (mem_chanSweep.mp (hsweep ▸ List.mem_append_right _ (List.mem_cons_of_mem _ hx))).1

/-! ## The end of a census, told -/

/-- With room in the Report Queue the census that ends tells it. -/
theorem Part.censusOver_tells {p : Part} (n : Cen) (room : p.link.reports.length < 48) :
    (p.censusOver n).link.reports[p.link.reports.length]? = some n.doneSpelt := by
  have offered : (({ p with cen := n } : Part).offerOrd n.doneSpelt).link.reports = p.link.reports ++ [n.doneSpelt] := by
    rw [Part.offerOrd_room _ (by exact room)]
    rfl
  have grows : (({ p with cen := n } : Part).offerOrd n.doneSpelt).ReportsGrow (p.censusOver n) := by
    unfold Part.censusOver
    generalize ({ p with cen := n } : Part).offerOrd n.doneSpelt = q
    dsimp only
    split
    · exact q.reportsGrow_raise _ _ _
    · split
      · exact q.reportsGrow_remove _ _
      · exact .refl q
  obtain ⟨more, eq⟩ := grows
  rw [← eq, offered, List.append_assoc, List.getElem?_append_right (Nat.le_refl _), Nat.sub_self]
  rfl

/-! ## A channel lost in the sweep (R132) -/

section ChannelLost
variable {p : Part} {c : Chan} {a : Nat} {sent : Bool}

theorem Part.cenChannelLost_aborted (st : p.cen.state = .aborted) :
    p.cenChannelLost c true = p.onCen (fun n => { n with state := .idle, read := none }) := by
  unfold Part.cenChannelLost
  rw [st]
  rfl

theorem Part.cenChannelLost_later {d : Chan} (st : p.cen.state = .sweeping) (pos : p.cen.pos = some (d, a)) (other : d ≠ c) :
    p.cenChannelLost c sent = if (p.sweepAfter d a).any (fun x => x.1 == c) then
      p.onCen (fun n => { n with pendA := n.pendA || c == .A, pendB := n.pendB || c == .B }) else p := by
  unfold Part.cenChannelLost
  rw [st, pos]
  dsimp only
  rw [if_neg other]

/-- The census gives up its modules on the channel it is sweeping, from its position on. -/
theorem Part.cenChannelLost_here (st : p.cen.state = .sweeping) (pos : p.cen.pos = some (c, a)) :
    ∃ list recorded lost, p.cenChannelLost c sent = sweepOn ((p.sweepAfter c a).filter (fun x => x.1 != c)) { p with
      cen := { p.cen with
        list := list
        counts := { p.cen.counts with
          recorded := recorded, lost := lost
          unverified := p.givenUpCount c (((List.range 30).map (· + 1)).filter (fun x => decide (a ≤ x)))
            p.cen.counts.unverified }
        read := none, deferred := false, lostA := p.cen.lostA || c == .A, lostB := p.cen.lostB || c == .B } } := by
  have rest : (chanSweep c).filter (fun x => decide (a ≤ x.2))
      = (((List.range 30).map (· + 1)).filter (fun x => decide (a ≤ x))).map (fun x => (c, x)) := by
    rw [chanSweep_eq, List.filter_map]
    rfl
  obtain ⟨list, recorded, lost, eq⟩ := Part.noted_addresses c (inv := fun _ => True)
    (f := fun q x => if (q.moduleSlots c x.2).isEmpty then q else q.moduleUnverified c x.2)
    (fun _ _ _ _ _ => trivial) (fun _ _ _ => rfl) (((List.range 30).map (· + 1)).filter (fun x => decide (a ≤ x))) p trivial
  refine ⟨list, recorded, lost, ?_⟩
  unfold Part.cenChannelLost
  rw [st, pos]
  dsimp only
  rw [if_pos rfl, rest, eq]
  rfl

end ChannelLost

/-! ## A hang in the sweep -/

/-- What the census sees of part p as the hang of channel c is told it by part y. -/
structure Part.CensusSees (c : Chan) (p y : Part) : Prop where
  cen : y.cen = p.cen
  slots : y.moduleSlots = p.moduleSlots
  now : y.now = p.now
  other : ∀ d, d ≠ c → y.moduleActive d = p.moduleActive d

theorem Part.CensusSees.of_restK {p y : Part} {c : Chan}
    (h : y.restK = ((p.onChan c (·.lineHeld)).onChan c (·.leave .recovering)).restK) : p.CensusSees c y := by
  refine ⟨(congrArg Part.cen h :).trans ?_, (congrArg Part.moduleSlots h :).trans ?_, (congrArg Part.now h :).trans ?_,
    fun d hd => ?_⟩
  · cases c <;> rfl
  · cases c <;> rfl
  · cases c <;> rfl
  · have same := congrArg (fun q : Part => q.moduleActive d) h
    cases c <;> cases d
    · exact absurd rfl hd
    · exact same
    · exact same
    · exact absurd rfl hd

/-- The line of channel c hangs, the census record is as f says, and an end of the census is told. -/
def State.CensusAfterHang (s : State) (c : Chan) (ms : Nat) (f : Cen → Prop) : Prop :=
  ∃ u, exec (.lineHang ⟨c, ms⟩) s = .next u ∧ f u.part.cen
    ∧ (u.part.cen.outcome = some .complete → s.part.cen.outcome = none → s.part.ctxs = [] → s.part.link.reports.length < 48 →
      u.part.link.reports[s.part.link.reports.length]? = some u.part.cen.doneSpelt
        ∧ (0 < u.part.cen.counts.recorded → u.part.alt.flags.getLsbD 10 = true))

/-- A line that hangs, and what the census makes of its channel's loss. -/
theorem State.becomes_hangs {s : State} {c : Chan} {ms : Nat} {f : Cen → Prop} (run : (s.part.chan c).state = .running)
    (long : 50 < ms) (noPulse : (s.part.chan c).pulse = none)
    (census : ∀ y, s.part.CensusSees c y → f (y.cenChannelLost c (s.part.chan c).readOnLine).cen
      ∧ ((y.cenChannelLost c (s.part.chan c).readOnLine).cen.outcome = s.part.cen.outcome
        ∨ ∃ w : Part, ∃ n, w.link = y.link ∧ y.cenChannelLost c (s.part.chan c).readOnLine = w.censusOver n)) :
    s.CensusAfterHang c ms f := by
  have chan : (s.part.onChan c (·.lineHeld)).chan c = (s.part.chan c).lineHeld := Part.chan_onChan _ _ _
  obtain ⟨y, rest, link, after⟩ := Part.hang_census (p := s.part.onChan c (·.lineHeld)) (c := c) (by rw [chan]; exact run)
  have hangs := Part.lineHang_over (p := s.part) (c := c) long (by rw [noPulse]; nofun)
  obtain ⟨u, hu, -, hunlit⟩ := State.becomes_of_eq (s := s) hangs
  obtain ⟨made, told⟩ := census y (.of_restK rest)
  have sentSame : ((s.part.onChan c (·.lineHeld)).chan c).readOnLine = (s.part.chan c).readOnLine := by rw [chan]; rfl
  rw [sentSame] at after
  have cen : u.part.cen = (y.cenChannelLost c (s.part.chan c).readOnLine).cen := (congrArg Part.cen hunlit :).trans after.cen
  refine ⟨u, hu, cen ▸ made, fun complete unset noCtxs room => ?_⟩
  rcases told with same | ⟨w, n, wlink, ended⟩
  · rw [cen, same, unset] at complete
    cases complete
  · have linkY : y.link = s.part.link := (link ((s.part.sameCtxs_onChan c _).ctxs.trans noCtxs)).trans (s.part.onChan_rest c _).2.2.1
    have tells := w.censusOver_tells n (by rw [wlink, linkY]; exact room)
    rw [wlink, linkY, ← ended] at tells
    have overCen : (y.cenChannelLost c (s.part.chan c).readOnLine).cen = n := by rw [ended, Part.censusOver_cen]
    refine ⟨?_, fun listed => ?_⟩
    · obtain ⟨more, eq⟩ := after.reports
      have reports : u.part.link.reports = ((s.part.onChan c (·.lineHeld)).hang c).link.reports := (congrArg (·.link.reports) hunlit :)
      rw [reports, ← eq, cen, overCen, List.getElem?_append_left (List.getElem?_eq_some_iff.mp tells).1]
      exact tells
    · rw [cen, overCen] at listed
      refine (congrArg (·.alt.flags.getLsbD 10) hunlit :).trans (after.flags.rise 10 ?_)
      rw [ended]
      exact w.censusOver_flag listed

/-! ## The comparison of a module's answer -/

/-- The part but for what the comparison of a slot writes. -/
def Part.restJ (p : Part) : Part := { p.restA with
  ctxs := [], auths := [], keys := [], dropBin := [], lmp := ⟨[], [], [], false, none, []⟩
  chanA := { p.chanA with queue := [] }, chanB := { p.chanB with queue := [] }
  cen := { p.cen with
    list := [], counts := { p.cen.counts with compared := 0, consistent := 0, busySkipped := 0, recorded := 0, lost := 0 } } }

theorem Part.restJ_of_restA {p q : Part} (h : q.restA = p.restA) : q.restJ = p.restJ := (congrArg Part.restJ h :)

theorem Part.mismatch_restJ (p : Part) (m : Mismatch) : (p.mismatch m).restJ = p.restJ := by
  unfold Part.mismatch Part.onCen
  dsimp only
  split <;> rfl

theorem Part.onChan_restJ (p : Part) (c : Chan) {f : Channel → Channel}
    (h : ∀ ch, ({ f ch with queue := [] } : Channel) = { ch with queue := [] }) : (p.onChan c f).restJ = p.restJ := by
  cases c with
  | A => exact congrArg (fun x => ({ p.restJ with chanA := x } : Part)) (h p.chanA)
  | B => exact congrArg (fun x => ({ p.restJ with chanB := x } : Part)) (h p.chanB)

theorem Part.setKey_restJ (p : Part) (h : Nat) (k : KeyRec) : (p.setKey h k).restJ = p.restJ := by
  obtain ⟨ks, hks⟩ := p.setKey_touch h k
  rw [hks]
  rfl

theorem Part.authBack_restJ (p : Part) (q : RelReq) : (p.authBack q).restJ = p.restJ := by
  unfold Part.authBack
  repeat' split
  all_goals first
    | rfl
    | exact (Part.restJ_of_restA (Part.offerOrd_restA _ _)).trans rfl

theorem Part.beginClose_restJ (p : Part) (i : Nat) (c : Ctx) : (p.beginClose i c).restJ = p.restJ := by
  unfold Part.beginClose
  dsimp only
  have pushed := p.onChan_restJ (p.slotEntry (c.slot.getD 0)).chan
    (f := (·.pushClose i (p.slotEntry (c.slot.getD 0)).addr (p.slotEntry (c.slot.getD 0)).pos))
    (fun ch => by unfold Channel.pushClose Channel.pushLock; split <;> [rfl; (split <;> rfl)])
  exact Eq.trans rfl pushed

theorem Part.relocate_restJ (p : Part) (h : Nat) (k : KeyRec) (s m : Nat) : (p.relocate h k s m).restJ = p.restJ := by
  unfold Part.relocate
  split
  · unfold Part.relocateReleasing
    split
    · exact p.setKey_restJ h _
    · dsimp only
      refine (Part.setKey_restJ _ _ _).trans ?_
      exact ((Part.beginClose_restJ _ _ _).trans (Part.authBack_restJ _ _)).trans rfl
  · exact p.setKey_restJ h _
  · exact p.setKey_restJ h _

theorem Part.cenPlace_restJ (p : Part) (h : Nat) (k : KeyRec) (s : Nat) : (p.cenPlace h k s).restJ = p.restJ := by
  unfold Part.cenPlace
  split
  · exact p.setKey_restJ h _
  · exact (Part.restJ_of_restA (Part.remove_restA _ _ _)).trans (p.setKey_restJ h _)
  · obtain ⟨lmp, out⟩ := p.dropOut_leaves h
    exact (Part.setKey_restJ _ h _).trans (congrArg Part.restJ out :)
  · rfl
  · exact p.relocate_restJ h k s p.now

theorem Part.keyTaken_restJ (p : Part) (h : Nat) (k : KeyRec) : (p.keyTaken h k).restJ = p.restJ := by
  obtain ⟨lmp, taken⟩ := p.keyTaken_leaves h k
  exact (congrArg Part.restJ taken :)

theorem Part.cenEqual_restJ (p : Part) (n : Nat) (v : Occ) : (p.cenEqual n v).restJ = p.restJ := by
  unfold Part.cenEqual
  split
  · exact (Part.mismatch_restJ _ _).trans (Part.restJ_of_restA (Part.raise_restA _ _ _ _))
  · split
    · rfl
    · split
      · exact p.mismatch_restJ _
      · exact (Part.mismatch_restJ _ _).trans (p.cenPlace_restJ _ _ _)

theorem Part.cenJudge_restJ (p : Part) (n : Nat) (v o : Occ) : (p.cenJudge n v o).restJ = p.restJ := by
  unfold Part.cenJudge
  split
  · split
    · exact (Part.mismatch_restJ _ _).trans (p.keyTaken_restJ _ _)
    · split
      · rfl
      · exact p.mismatch_restJ _
  · split
    · exact p.cenEqual_restJ n v
    · exact p.mismatch_restJ _

theorem Part.unverified_restJ (slots : List Nat) (p : Part) : (p.unverified slots).restJ = p.restJ := by
  obtain ⟨list, recorded, lost, eq⟩ := Part.noted_unverified slots p
  rw [eq]
  rfl

theorem Part.cenPosition_restJ (p : Part) (c : Chan) (a pos : Nat) (v : Occ) : (p.cenPosition c a pos v).restJ = p.restJ := by
  unfold Part.cenPosition
  split
  · rfl
  · split
    · rfl
    · dsimp only
      split
      · rfl
      · split
        · exact Part.unverified_restJ _ p
        · exact (Part.cenJudge_restJ _ _ _ _).trans rfl

theorem Part.cenCompare_restJ (p : Part) (c : Chan) (a : Nat) (reads : List Occ) : (p.cenCompare c a reads).restJ = p.restJ := by
  unfold Part.cenCompare
  generalize reads.zipIdx = l
  induction l generalizing p with
  | nil => rfl
  | cons x l ih => exact (ih _).trans (p.cenPosition_restJ _ _ _ _)

/-! ## The answer of the module at the census's position -/

/-- A good answer changes modules, and lamps that are touched. -/
theorem Part.goodAnswer_onChan (p : Part) (c : Chan) (a : Nat) : ∃ f ks, p.goodAnswer c a false = (p.onChan c f).touch ks
    ∧ ∀ ch : Channel, ∃ ms, f ch = { ch with modules := ms } := by
  have idle : p = (p.onChan c (fun ch => { ch with modules := ch.modules })).touch [] := by
    unfold Part.touch
    rw [List.append_nil]
    cases c <;> rfl
  have quiet (q : Part) : q = q.touch [] := by
    unfold Part.touch
    rw [List.append_nil]
  unfold Part.goodAnswer
  split
  · exact ⟨_, [], quiet _, fun ch => ⟨_, rfl⟩⟩
  · split
    · exact ⟨_, _, rfl, fun ch => ⟨_, rfl⟩⟩
    · exact ⟨_, [], quiet _, fun ch => ⟨_, rfl⟩⟩
  · exact ⟨_, [], idle, fun ch => ⟨_, rfl⟩⟩

section ReadAnswer
variable {p : Part} {c : Chan} {a : Nat} (line : (p.chan c).onLine = some (.queued (.readTags a)))
include line

theorem Part.readTagsAnswer_good {y : Reply} (good : GoodReply y a) (vs : List Occ) :
    p.readTagsAnswer c (some ⟨y, vs⟩) = ((p.lineFree c).goodAnswer c a false).cenAnswer c a (some vs) := by
  unfold Part.readTagsAnswer
  rw [line]
  exact Part.judged_good p c a y _ good

theorem Part.readTagsAnswer_bad {y : Reply} (bad : ¬ GoodReply y a) (vs : List Occ) :
    p.readTagsAnswer c (some ⟨y, vs⟩) = p.commandMiss c := by
  unfold Part.readTagsAnswer
  rw [line]
  exact Part.judged_bad p c a y _ bad

theorem Part.readTagsAnswer_none : p.readTagsAnswer c none = p.commandMiss c := by
  unfold Part.readTagsAnswer
  rw [line]

theorem Part.readTags_missed (free : (p.chan c).held = false) :
    p.commandMiss c = ((p.lineFree c).chargeMiss c a).cenAnswer c a none := by
  rw [Part.commandMiss_queued free line]
  rfl

end ReadAnswer

section CenAnswer
variable {p : Part} {c : Chan} {a : Nat}

theorem Part.cenAnswer_aborted (st : p.cen.state = .aborted) (reads : Option (List Occ)) :
    p.cenAnswer c a reads = p.onCen (fun n => { n with state := .idle, read := none }) := by
  unfold Part.cenAnswer
  rw [st]

theorem Part.cenAnswer_read (st : p.cen.state = .sweeping) (pos : p.cen.pos = some (c, a)) (vs : List Occ) :
    p.cenAnswer c a (some vs) = sweepOn (p.sweepAfter c a)
      (((p.cenCount (fun n => { n with read := satUp n.read })).cenCompare c a vs).onCen
        (fun n => { n with read := none, deferred := false })) := by
  unfold Part.cenAnswer
  rw [st]
  dsimp only
  rw [if_neg (not_not_intro pos)]

theorem Part.cenAnswer_missed (st : p.cen.state = .sweeping) (pos : p.cen.pos = some (c, a)) :
    p.cenAnswer c a none = sweepOn (p.sweepAfter c a) ((p.moduleUnverified c a).onCen
        (fun n => { n with read := none, deferred := false })) := by
  unfold Part.cenAnswer
  rw [st]
  dsimp only
  rw [if_neg (not_not_intro pos)]

end CenAnswer

/-! ## The channel lost, case by case -/

/-- Modules without slots, of a channel not lost, are passed over. -/
theorem Part.past_slotless {p : Part} {c : Chan} {as : List (Chan × Nat)} (h : ∀ x ∈ as, x.1 = c ∧ p.moduleSlots x.1 x.2 = [])
    (kept : p.pendLost c = false) : as.foldl Part.pastModule p = p := by
  have reached : p.reachLost c = p := by
    cases c with
    | A => exact if_neg (ne_true_of_eq_false kept)
    | B => exact if_neg (ne_true_of_eq_false kept)
  induction as with
  | nil => rfl
  | cons x as ih =>
    obtain ⟨rfl, slotless⟩ := h x List.mem_cons_self
    have past : p.pastModule x = p := by
      unfold Part.pastModule
      rw [reached, slotless]
      rfl
    rw [List.foldl_cons, past]
    exact ih fun y hy => h y (List.mem_cons_of_mem _ hy)

section Sees
variable {p y : Part} {c : Chan} (sees : p.CensusSees c y)
include sees

theorem Part.CensusSees.givenUp (a k : Nat) :
    y.givenUpCount c (((List.range 30).map (· + 1)).filter (fun x => decide (a ≤ x))) k
      = (((List.range 30).map (· + 1)).filter (fun x => decide (a ≤ x) && !(p.moduleSlots c x).isEmpty)).foldl
        (fun k _ => satUp k) k := by
  unfold Part.givenUpCount
  rw [List.filter_filter, sees.slots]
  simp only [Bool.and_comm]

theorem Part.CensusSees.sweepAfter (d : Chan) (a : Nat) : y.sweepAfter d a = p.sweepAfter d a := by
  unfold Part.sweepAfter
  rw [sees.cen]

/-- The last channel in scope is lost at the census's position: the census ends. -/
theorem Part.CensusSees.lost_last {a : Nat} {sc : Scope} {sent : Bool} (st : p.cen.state = .sweeping)
    (scope : p.cen.scope = some sc) (pos : p.cen.pos = some (c, a)) (mem : (c, a) ∈ scopeSweep sc) (last : c = .B ∨ sc = .A) :
    ∃ list recorded lost, ∃ w : Part, w.link = y.link ∧ y.cenChannelLost c sent = w.censusOver { p.cen with
      list := list, counts := { p.cen.counts with
        recorded := recorded, lost := lost
        unverified := (((List.range 30).map (· + 1)).filter (fun x => decide (a ≤ x) && !(p.moduleSlots c x).isEmpty)).foldl
          (fun k _ => satUp k) p.cen.counts.unverified }
      read := none, deferred := false, lostA := p.cen.lostA || c == .A, lostB := p.cen.lostB || c == .B
      state := .idle, outcome := some .complete, endMin := some p.now, pos := none } := by
  obtain ⟨list, recorded, lost, gone⟩ := Part.cenChannelLost_here (p := y) (c := c) (a := a) (sent := sent)
    (by rw [sees.cen]; exact st) (by rw [sees.cen]; exact pos)
  have none : (y.sweepAfter c a).filter (fun x => x.1 != c) = [] := by
    rw [sees.sweepAfter, List.filter_eq_nil_iff]
    intro x hx
    rw [Part.sweepAfter_last scope mem last x hx]
    simp
  rw [none, sees.givenUp, sees.cen, sweepOn, Part.cenEnd_over] at gone
  generalize hz : ({ y with cen := _ } : Part) = z at gone
  have now : z.now = p.now := by rw [← hz]; exact sees.now
  rw [now] at gone
  refine ⟨list, recorded, lost, z, by rw [← hz], gone.trans ?_⟩
  rw [← hz]

/-- No module of channel B has slots below b: the census goes on there when A is lost. -/
theorem Part.CensusSees.lost_first {a b : Nat} {sent : Bool} (hc : c = .A) (st : p.cen.state = .sweeping)
    (scope : p.cen.scope = some .both) (pos : p.cen.pos = some (.A, a)) (low : 1 ≤ a) (high : a ≤ 30)
    (kept : p.cen.pendB = false) (blow : 1 ≤ b) (bhigh : b ≤ 30) (before : ∀ x, x < b → p.moduleSlots .B x = [])
    (slots : p.moduleSlots .B b ≠ []) (active : p.moduleActive .B b = true) :
    ∃ list recorded lost deferred, (y.cenChannelLost c sent).cen = { p.cen with
      list := list, counts := { p.cen.counts with
        recorded := recorded, lost := lost
        unverified := (((List.range 30).map (· + 1)).filter (fun x => decide (a ≤ x) && !(p.moduleSlots c x).isEmpty)).foldl
          (fun k _ => satUp k) p.cen.counts.unverified }
      lostA := true, pos := some (.B, b), read := some .notSent, deferred := deferred } := by
  obtain ⟨list, recorded, lost, gone⟩ := Part.cenChannelLost_here (p := y) (c := c) (a := a) (sent := sent)
    (by rw [sees.cen]; exact st) (by rw [sees.cen, hc]; exact pos)
  obtain ⟨post, ownA, after⟩ := Part.sweepAfter_both scope low high
  have other : (y.sweepAfter c a).filter (fun x => x.1 != c) = chanSweep .B := by
    have dropA : post.filter (fun x => x.1 != c) = [] := by
      rw [List.filter_eq_nil_iff]
      intro x hx
      rw [(ownA x hx).1, hc]
      simp
    have keepB : (chanSweep .B).filter (fun x => x.1 != c) = chanSweep .B := by
      rw [List.filter_eq_self]
      intro x hx
      rw [(mem_chanSweep.mp hx).1, hc]
      rfl
    rw [sees.sweepAfter, hc, after, List.filter_append, ← hc, dropA, keepB]
    rfl
  obtain ⟨pre, rest, hsweep⟩ := List.append_of_mem (mem_chanSweep.mpr ⟨rfl, blow, bhigh⟩ : (Chan.B, b) ∈ chanSweep .B)
  have ascends := chanSweep_ascends .B
  rw [hsweep, List.pairwise_append] at ascends
  have slotless : ∀ x ∈ pre, x.1 = .B ∧ p.moduleSlots x.1 x.2 = [] := fun x hx => by
    have own := (mem_chanSweep.mp (hsweep ▸ List.mem_append_left _ hx)).1
    exact ⟨own, own ▸ before _ (ascends.2.2 x hx _ List.mem_cons_self)⟩
  rw [other, hsweep, sees.givenUp, sees.cen] at gone
  generalize hz : ({ y with cen := _ } : Part) = z at gone
  have zslots : z.moduleSlots = p.moduleSlots := by rw [← sees.slots, ← hz]; rfl
  have zactive : z.moduleActive .B = p.moduleActive .B := by
    rw [← sees.other .B (by rw [hc]; nofun), ← hz]
    rfl
  have zkept : z.pendLost .B = false := by rw [← hz]; exact kept
  rw [sweepOn_append (fun x hx => Or.inl (by rw [zslots]; exact (slotless x hx).2)),
    Part.past_slotless (fun x hx => by rw [zslots]; exact slotless x hx) zkept,
    sweepOn_stops (by rw [zslots]; exact slots) (by rw [zactive]; exact active) zkept] at gone
  obtain ⟨deferred, reads⟩ : ∃ d, (y.cenChannelLost c sent).cen
      = { z.cen with pos := some (.B, b), read := some .notSent, deferred := d } := ⟨_, by rw [gone, Part.offerRead_cen]; rfl⟩
  have lostA : (p.cen.lostA || Chan.A == .A) = true := Bool.or_true _
  have lostB : (p.cen.lostB || Chan.A == .B) = p.cen.lostB := Bool.or_false _
  refine ⟨list, recorded, lost, deferred, ?_⟩
  rw [reads, ← hz, hc, lostA, lostB]

end Sees

/-! ## The last read of a sweep -/

/-- The sweep ends behind its last module with slots. -/
theorem Part.sweep_over {p : Part} {as : List (Chan × Nat)} (slotless : ∀ x ∈ as, p.moduleSlots x.1 x.2 = []) :
    sweepOn as (p.onCen (fun n => { n with read := none, deferred := false })) = p.censusOver { p.cen with
      state := .idle, outcome := some .complete, endMin := some p.now, pos := none, read := none, deferred := false
      lostA := p.cen.lostA || (p.cen.pendA && as.any (fun x => x.1 == .A))
      lostB := p.cen.lostB || (p.cen.pendB && as.any (fun x => x.1 == .B)) } := by
  refine (sweepOn_empty as (p.onCen _) slotless).trans ?_
  rw [Part.cenEnd_over]
  rfl

/-- Channel B is lost before the sweep reaches it: its modules are given up, and the census ends. -/
theorem Part.sweep_lostB {p : Part} {post : List (Chan × Nat)} (own : ∀ x ∈ post, x.1 = .A ∧ p.moduleSlots x.1 x.2 = [])
    (lost : p.cen.pendB = true) : ∃ q : Part, ∃ n : Cen, sweepOn (post ++ chanSweep .B) p = q.censusOver n
      ∧ n.state = .idle ∧ n.outcome = some .complete ∧ n.lostB = true
      ∧ n.counts.unverified = (((List.range 30).map (· + 1)).filter (fun x => !(p.moduleSlots .B x).isEmpty)).foldl
        (fun k _ => satUp k) p.cen.counts.unverified := by
  obtain ⟨l, pastA⟩ : ∃ l, post.foldl Part.pastModule p = { p with cen := { p.cen with lostA := l } } := by
    induction post using List.reverseRecOn with
    | nil => exact ⟨p.cen.lostA, rfl⟩
    | append_singleton post x ih =>
      obtain ⟨l, eq⟩ := ih fun y hy => own y (List.mem_append_left _ hy)
      obtain ⟨hA, slotless⟩ := own x (List.mem_append_right _ (List.mem_singleton.mpr rfl))
      obtain ⟨c, a⟩ := x
      obtain rfl : c = .A := hA
      have reached : ∃ l', Part.reachLost { p with cen := { p.cen with lostA := l } } .A = { p with cen := { p.cen with lostA := l' } } := by
        unfold Part.reachLost
        dsimp only
        split <;> exact ⟨_, rfl⟩
      obtain ⟨l', reached⟩ := reached
      refine ⟨l', ?_⟩
      rw [List.foldl_append, eq, List.foldl_cons, List.foldl_nil]
      unfold Part.pastModule
      dsimp only
      rw [reached]
      exact if_pos (List.isEmpty_iff.mpr slotless)
  rw [sweepOn_append (fun x hx => Or.inl (own x hx).2), pastA]
  have passesB : ∀ x ∈ chanSweep .B, Part.Passes { p with cen := { p.cen with lostA := l } } x := fun x hx =>
    Or.inr (Or.inr (by rw [(mem_chanSweep.mp hx).1]; exact lost))
  have sweepB := sweepOn_append passesB []
  rw [List.append_nil] at sweepB
  rw [sweepB]
  have firstB : (chanSweep .B).foldl Part.pastModule { p with cen := { p.cen with lostA := l } }
      = (chanSweep .B).foldl Part.pastModule { p with cen := { p.cen with lostA := l, lostB := true } } := by
    have reach : Part.reachLost { p with cen := { p.cen with lostA := l } } .B
        = Part.reachLost { p with cen := { p.cen with lostA := l, lostB := true } } .B := by
      unfold Part.reachLost
      dsimp only
      rw [lost]
      rfl
    rw [chanSweep_eq, show (List.range 30).map (· + 1) = 1 :: (List.range 29).map (· + 2) from rfl, List.map_cons,
      List.foldl_cons, List.foldl_cons]
    congr 1
    unfold Part.pastModule
    dsimp only
    rw [reach]
  have notes := Part.noted_addresses .B (f := Part.pastModule) (inv := fun q => q.cen.pendB = true ∧ q.cen.lostB = true)
    (fun q r k hq noted => by obtain ⟨_, _, _, rfl⟩ := noted; exact hq)
    (fun q x hq => by
      have reached : q.reachLost .B = q := by
        unfold Part.reachLost Part.onCen
        dsimp only
        rw [if_pos hq.1, ← hq.2]
      unfold Part.pastModule
      dsimp only
      rw [reached])
    ((List.range 30).map (· + 1)) { p with cen := { p.cen with lostA := l, lostB := true } } ⟨lost, rfl⟩
  rw [← chanSweep_eq] at notes
  obtain ⟨list, recorded, gone, eq⟩ := notes
  rw [firstB, eq, sweepOn, Part.cenEnd_over]
  exact ⟨_, _, rfl, rfl, rfl, rfl, rfl⟩

/-! ## The abort (R132) -/

section Abort
variable {p : Part}

theorem Part.doCensusAbort_sweeping {f : Frame} {tag : Byte} (hpay : f.payload = [tag]) (st : p.cen.state = .sweeping) :
    p.doCensusAbort f = p.censusAbort.answer .ok (posBytes p.cen.pos) := by
  unfold Part.doCensusAbort
  rw [hpay]
  show (match p.cen.state with
    | .sweeping => p.censusAbort.answer .ok (posBytes p.cen.pos)
    | _ => p.refuse .notActive) = _
  rw [st]

theorem Part.doCensusAbort_notActive {f : Frame} {tag : Byte} (hpay : f.payload = [tag]) (st : p.cen.state ≠ .sweeping) :
    p.doCensusAbort f = p.refuse .notActive := by
  unfold Part.doCensusAbort
  rw [hpay]
  dsimp only [parseNone, List.length_singleton]
  cases h : p.cen.state with
  | idle => rfl
  | aborted => rfl
  | sweeping => exact absurd h st

/-- The record of a census that is aborted. -/
def Part.abortedCen (p : Part) (st : CenState) (read : Option ReadOut) : Cen :=
  { p.cen with state := st, outcome := some .aborted, endMin := some p.now, pos := none, read := read, deferred := false }

theorem Part.censusAbort_sent (h : p.cen.read = some .sent) :
    p.censusAbort = p.censusOver (p.abortedCen .aborted (some .sent)) := by
  unfold Part.censusAbort Part.abortedCen
  rw [h]
  dsimp only
  rw [Part.cenEnd_over, ← h]

theorem Part.censusAbort_none (h : p.cen.read = none) : p.censusAbort = p.censusOver (p.abortedCen .idle none) := by
  unfold Part.censusAbort Part.abortedCen
  rw [h]
  dsimp only
  rw [Part.cenEnd_over, ← h]

theorem Part.censusAbort_notSent {c : Chan} {a : Nat} (h : p.cen.read = some .notSent) (pos : p.cen.pos = some (c, a)) :
    p.censusAbort = (p.onChan c (fun ch => { ch with queue := ch.queue.filter (fun b => !b.isReadTags) })).censusOver
      (p.abortedCen .idle none) := by
  unfold Part.censusAbort Part.abortedCen
  rw [h]
  dsimp only
  unfold Part.readWithdrawn
  rw [pos]
  dsimp only
  rw [Part.cenEnd_over]
  cases c <;> rfl

end Abort

/-! ## The obligation -/

/-- What a hang makes of the census (R123, R132). -/
theorem State.census_loses {s : State} {c : Chan} {ms : Nat} (run : (s.part.chan c).state = .running) (long : 50 < ms)
    (noPulse : (s.part.chan c).pulse = none) :
    let left (a : Nat) : List Nat :=
      ((List.range 30).map (· + 1)).filter (fun x => decide (a ≤ x) && !(s.part.moduleSlots c x).isEmpty)
    let swept (a : Nat) (n : Cen) : Prop := n.read = none ∧ n.counts.read = s.part.cen.counts.read
      ∧ n.counts.unverified = (left a).foldl (fun k _ => satUp k) s.part.cen.counts.unverified
      ∧ n.lostA = (s.part.cen.lostA || c == .A) ∧ n.lostB = (s.part.cen.lostB || c == .B)
      ∧ n.state = .idle ∧ n.outcome = some .complete ∧ n.endMin = some s.part.now ∧ n.pos = none
    (s.part.cen.state = .sweeping → ∀ sc d a, s.part.cen.scope = some sc → s.part.cen.pos = some (d, a) →
      (d, a) ∈ scopeSweep sc →
      (d = c → (c = .B ∨ sc = .A) → s.CensusAfterHang c ms (swept a))
      ∧ (d = c → c = .A → sc = .both → s.part.cen.pendB = false → ∀ b, 1 ≤ b → b ≤ 30 →
        (∀ x, x < b → s.part.moduleSlots .B x = []) → s.part.moduleSlots .B b ≠ [] → s.part.moduleActive .B b = true →
        s.CensusAfterHang c ms (fun n => n.state = .sweeping ∧ n.pos = some (.B, b) ∧ n.read = some .notSent ∧ n.lostA = true
          ∧ n.lostB = s.part.cen.lostB
          ∧ n.counts.unverified = (left a).foldl (fun k _ => satUp k) s.part.cen.counts.unverified))
      ∧ (d = .A → c = .B → sc = .both → s.CensusAfterHang c ms (fun n => n = { s.part.cen with pendB := true }))
      ∧ (d = .B → c = .A → s.CensusAfterHang c ms (fun n => n = s.part.cen)))
    ∧ (s.part.cen.state = .aborted → ∀ a, (s.part.chan c).onLine = some (.queued (.readTags a)) →
      s.CensusAfterHang c ms (fun n => n = { s.part.cen with state := .idle, read := none })) := by
  refine ⟨fun st sc d a scope pos mem => ⟨fun here last => ?_, fun here hc both kept b blow bhigh before slots active => ?_,
    fun hd hc both => ?_, fun hd hc => ?_⟩, fun st a line => ?_⟩
  · subst here
    refine State.becomes_hangs run long noPulse fun y sees => ?_
    obtain ⟨list, recorded, lost, w, link, gone⟩ := sees.lost_last st scope pos mem last
    have cen := (congrArg Part.cen gone).trans (w.censusOver_cen _)
    rw [cen]
    exact ⟨⟨rfl, rfl, rfl, rfl, rfl, rfl, rfl, rfl, rfl⟩, Or.inr ⟨w, _, link, gone⟩⟩
  · subst here both
    refine State.becomes_hangs run long noPulse fun y sees => ?_
    have both' : (Chan.A, a) ∈ chanSweep .A ++ chanSweep .B := by
      rw [hc] at mem
      exact mem
    have inA : (Chan.A, a) ∈ chanSweep .A := (List.mem_append.mp both').resolve_right fun h => nomatch (mem_chanSweep.mp h).1
    obtain ⟨-, low, high⟩ := mem_chanSweep.mp inA
    obtain ⟨list, recorded, lost, deferred, gone⟩ := sees.lost_first (sent := (s.part.chan d).readOnLine) hc st scope (hc ▸ pos)
      low high kept blow bhigh before slots active
    rw [gone]
    exact ⟨⟨st, rfl, rfl, rfl, rfl, rfl⟩, Or.inl rfl⟩
  · subst hd hc both
    refine State.becomes_hangs run long noPulse fun y sees => ?_
    have inA := (List.mem_append.mp mem).resolve_right fun h => nomatch (mem_chanSweep.mp h).1
    obtain ⟨-, low, high⟩ := mem_chanSweep.mp inA
    obtain ⟨post, -, after⟩ := Part.sweepAfter_both scope low high
    have reaches : (y.sweepAfter .A a).any (fun x => x.1 == .B) = true := by
      rw [sees.sweepAfter, after, List.any_eq_true]
      exact ⟨(.B, 1), List.mem_append_right _ (mem_chanSweep.mpr ⟨rfl, by decide, by decide⟩), rfl⟩
    rw [Part.cenChannelLost_later (c := .B) (d := .A) (by rw [sees.cen]; exact st) (by rw [sees.cen]; exact pos) nofun, if_pos reaches]
    have pending : (y.onCen (fun n => { n with pendA := n.pendA || Chan.B == .A, pendB := n.pendB || Chan.B == .B })).cen
        = { s.part.cen with pendB := true } := by
      have pendA : (s.part.cen.pendA || Chan.B == .A) = s.part.cen.pendA := Bool.or_false _
      have pendB : (s.part.cen.pendB || Chan.B == .B) = true := Bool.or_true _
      show ({ y.cen with pendA := y.cen.pendA || Chan.B == .A, pendB := y.cen.pendB || Chan.B == .B } : Cen) = _
      rw [sees.cen, pendA, pendB]
    rw [pending]
    exact ⟨rfl, Or.inl rfl⟩
  · subst hd hc
    refine State.becomes_hangs run long noPulse fun y sees => ?_
    have never : ¬ (y.sweepAfter .B a).any (fun x => x.1 == .A) = true := by
      rw [List.any_eq_true, sees.sweepAfter]
      rintro ⟨x, hx, isA⟩
      rw [Part.sweepAfter_last scope mem (Or.inl rfl) x hx] at isA
      cases isA
    rw [Part.cenChannelLost_later (c := .A) (d := .B) (by rw [sees.cen]; exact st) (by rw [sees.cen]; exact pos) nofun, if_neg never, sees.cen]
    exact ⟨rfl, Or.inl rfl⟩
  · refine State.becomes_hangs run long noPulse fun y sees => ?_
    have reading : (s.part.chan c).readOnLine = true := by
      unfold Channel.readOnLine
      rw [line]
    rw [reading, Part.cenChannelLost_aborted (by rw [sees.cen]; exact st)]
    unfold Part.onCen
    rw [sees.cen]
    exact ⟨rfl, Or.inl rfl⟩

theorem Part.unverified_read (p : Part) (c : Chan) (a : Nat) : (p.moduleUnverified c a).cen.counts.read = p.cen.counts.read := by
  obtain ⟨_, _, _, eq⟩ := p.noted_moduleUnverified c a
  rw [eq]

theorem Part.reachLost_read (p : Part) (c : Chan) : (p.reachLost c).cen.counts.read = p.cen.counts.read := by
  unfold Part.reachLost
  cases c <;> dsimp only <;> split <;> rfl

/-- A sweep that goes on counts no module read. -/
theorem sweepOn_read (as : List (Chan × Nat)) (p : Part) : (sweepOn as p).cen.counts.read = p.cen.counts.read := by
  induction as generalizing p with
  | nil => rw [sweepOn, Part.cenEnd_over, Part.censusOver_cen]
  | cons x as ih =>
    obtain ⟨c, a⟩ := x
    rw [sweepOn]
    split
    · exact (ih _).trans (p.reachLost_read c)
    · split
      · rw [Part.offerRead_cen]
        exact p.reachLost_read c
      · exact ((ih _).trans (Part.unverified_read _ c a)).trans (p.reachLost_read c)

/-- An aborted census: its record, and the READ_TAGS withdrawn (R132). -/
theorem Part.censusAbort_over {p : Part} {c : Chan} {a : Nat} (pos : p.cen.pos = some (c, a)) :
    ∃ q : Part, ∃ st : CenState, ∃ read : Option ReadOut,
    p.censusAbort = q.censusOver (p.abortedCen st read) ∧ q.keys = p.keys
      ∧ (p.cen.read = some .notSent → st = .idle ∧ read = none ∧ ∀ b, BusCmd.readTags b ∉ (q.chan c).queue)
      ∧ (p.cen.read = some .sent → st = .aborted ∧ read = some .sent) := by
  cases h : p.cen.read with
  | none => exact ⟨p, .idle, none, Part.censusAbort_none h, rfl, nofun, nofun⟩
  | some read =>
    cases read with
    | sent => exact ⟨p, .aborted, some .sent, Part.censusAbort_sent h, rfl, nofun, fun _ => ⟨rfl, rfl⟩⟩
    | notSent =>
      refine ⟨_, .idle, none, Part.censusAbort_notSent h pos, by cases c <;> rfl, fun _ => ⟨rfl, rfl, fun b mem => ?_⟩, nofun⟩
      rw [Part.chan_onChan] at mem
      exact absurd (List.mem_filter.mp mem).2 nofun

/-- Settles O49. -/
theorem censusReadsAndAborts : Obligations.CensusReadsAndAborts := by
  unfold Obligations.CensusReadsAndAborts
  refine ⟨fun s c ms run long noPulse => State.census_loses run long noPulse, fun s a y vs good line st pos low high scope lost slotless => ?_,
    fun s c a sc pre post line free active st pos scope hsweep slotless => ⟨fun y vs good => ?_, ?_⟩,
    fun s f rest tag hasks hpay => ⟨fun st c a pos => ?_, fun st room => ?_⟩,
    fun s c a line => ⟨fun y vs good => ⟨fun st => ?_, fun st pos => ?_⟩, fun y vs bad => ?_, ?_, fun free active st => ?_⟩,
    fun s c a chosen kept => ?_⟩
  · have good' := Part.readTagsAnswer_good (p := s.part) (c := .A) line good vs
    obtain ⟨f, ks, answered, shape⟩ := (s.part.lineFree .A).goodAnswer_onChan .A a
    have same : ((s.part.lineFree .A).goodAnswer .A a false).cen = s.part.cen := by rw [answered]; rfl
    have slots : ((s.part.lineFree .A).goodAnswer .A a false).moduleSlots = s.part.moduleSlots := by rw [answered]; rfl
    generalize (s.part.lineFree .A).goodAnswer .A a false = q at *
    obtain ⟨post, own, after⟩ := Part.sweepAfter_both (p := q) (by rw [same]; exact scope) low high
    rw [Part.cenAnswer_read (by rw [same]; exact st) (by rw [same]; exact pos), after] at good'
    have compared := (q.cenCount (fun n => { n with read := satUp n.read })).cenCompare_restJ .A a vs
    generalize hz : (q.cenCount (fun n => { n with read := satUp n.read })).cenCompare .A a vs = z at *
    have zslots : z.moduleSlots = s.part.moduleSlots := (congrArg Part.moduleSlots compared :).trans slots
    have zlost : z.cen.pendB = true := (congrArg (·.cen.pendB) compared :).trans ((congrArg Cen.pendB same).trans lost)
    have zcount : z.cen.counts.unverified = s.part.cen.counts.unverified :=
      (congrArg (·.cen.counts.unverified) compared :).trans (congrArg (·.counts.unverified) same)
    obtain ⟨w, n, over', idle, complete, lostB, count⟩ := Part.sweep_lostB
      (p := z.onCen (fun n => { n with read := none, deferred := false })) (post := post)
      (fun x hx => ⟨(own x hx).1, by
        show z.moduleSlots x.1 x.2 = []
        rw [zslots, (own x hx).1]
        exact slotless _ (own x hx).2⟩) zlost
    obtain ⟨u, hu, -, hunlit⟩ := State.becomes_of_eq (s := s) (good'.trans over')
    have cen : u.part.cen = n := (congrArg Part.cen hunlit :).trans (w.censusOver_cen n)
    refine ⟨u, hu, cen ▸ idle, cen ▸ complete, cen ▸ lostB, ?_⟩
    rw [cen, count]
    show List.foldl _ z.cen.counts.unverified (List.filter (fun x => !(z.moduleSlots .B x).isEmpty) _) = _
    rw [zslots, zcount]
  · have answered : (s.part.lineFree c).goodAnswer c a false = (s.part.lineFree c).onModule c a (fun m => { m with misses := 0 }) := by
      have act : ((s.part.lineFree c).chan c).modState a = .active := by
        unfold Part.lineFree
        rw [Part.chan_onChan]
        exact active
      unfold Part.goodAnswer
      rw [act]
    have good' := Part.readTagsAnswer_good line good vs
    have counted : ((s.part.lineFree c).onModule c a (fun m => { m with misses := 0 })).cenCount (fun n => { n with read := satUp n.read })
        = ({ s.part with cen := { s.part.cen with
            counts := { s.part.cen.counts with read := satUp s.part.cen.counts.read } } } : Part).onChan c (fun ch => { ch with
          onLine := none, misses := id ch.misses, modules := Table.modify ch.modules a (fun m => { m with misses := 0 }) }) := by
      cases c <;> rfl
    have same : ((s.part.lineFree c).onModule c a (fun m => { m with misses := 0 })).cen = s.part.cen := by cases c <;> rfl
    rw [answered, Part.cenAnswer_read (by rw [same]; exact st) (by rw [same]; exact pos),
      Part.sweepAfter_split (by rw [same]; exact scope) hsweep, counted] at good'
    have compared := (({ s.part with cen := { s.part.cen with
            counts := { s.part.cen.counts with read := satUp s.part.cen.counts.read } } } : Part).onChan c (fun ch => { ch with
          onLine := none, misses := id ch.misses, modules := Table.modify ch.modules a (fun m => { m with misses := 0 }) })
      ).cenCompare_restJ c a vs
    refine State.becomes_of_eq (good'.trans ?_)
    generalize hz : Part.cenCompare _ c a vs = z at *
    have slots : z.moduleSlots = s.part.moduleSlots := (congrArg Part.moduleSlots compared :).trans (by cases c <;> rfl)
    have now : z.now = s.part.now := (congrArg Part.now compared :).trans (by cases c <;> rfl)
    rw [Part.sweep_over (fun x hx => by rw [slots]; exact slotless x hx), now]
  · have missed := Part.readTags_missed line free
    have act : ((s.part.lineFree c).chan c).modState a = .active := by
      unfold Part.lineFree
      rw [Part.chan_onChan]
      exact active
    have charged : (s.part.lineFree c).chargeMiss c a
        = s.part.onChan c (fun ch => { ch with
          onLine := none, misses := satUp ch.misses
          modules := Table.modify ch.modules a (fun m => { m with misses := 1, state := .silent }) }) := by
      rw [Part.chargeMiss_active act]
      cases c <;> rfl
    have same : (s.part.onChan c (fun ch => { ch with
          onLine := none, misses := satUp ch.misses
          modules := Table.modify ch.modules a (fun m => { m with misses := 1, state := .silent }) })).cen = s.part.cen := by
      cases c <;> rfl
    rw [charged, Part.cenAnswer_missed (by rw [same]; exact st) (by rw [same]; exact pos),
      Part.sweepAfter_split (by rw [same]; exact scope) hsweep] at missed
    refine State.becomes_of_eq (missed.trans ?_)
    have noted := Part.noted_moduleUnverified (s.part.onChan c (fun ch => { ch with
          onLine := none, misses := satUp ch.misses
          modules := Table.modify ch.modules a (fun m => { m with misses := 1, state := .silent }) })) c a
    generalize hz : Part.moduleUnverified _ c a = z at *
    have slots : z.moduleSlots = s.part.moduleSlots := by
      obtain ⟨_, _, _, eq⟩ := noted
      rw [eq]
      cases c <;> rfl
    have now : z.now = s.part.now := by
      obtain ⟨_, _, _, eq⟩ := noted
      rw [eq]
      cases c <;> rfl
    rw [Part.sweep_over (fun x hx => by rw [slots]; exact slotless x hx), now]
  · have answer := Part.doCensusAbort_sweeping (p := s.part.asked f rest) hpay st
    have spelt : posBytes (s.part.asked f rest).cen.pos = beBytes 1 c.code ++ beBytes 1 a := by
      rw [show (s.part.asked f rest).cen.pos = some (c, a) from pos]
      rfl
    rw [spelt] at answer
    refine ⟨fun notSent room => ?_, fun sent room => ?_, fun none room => ?_, ?_⟩
    · rw [Part.censusAbort_notSent (p := s.part.asked f rest) notSent pos] at answer
      exact State.replies Part.doCensusAbort hasks answer rfl room
    · rw [Part.censusAbort_sent (p := s.part.asked f rest) sent] at answer
      exact State.replies Part.doCensusAbort hasks answer rfl room
    · rw [Part.censusAbort_none (p := s.part.asked f rest) none] at answer
      exact State.replies Part.doCensusAbort hasks answer rfl room
    · obtain ⟨tfl, link, u, hu, hunlit, last⟩ := State.answersLast Part.doCensusAbort hasks answer
      obtain ⟨q, state, read, aborted, keys, notSent, sent⟩ := Part.censusAbort_over (p := s.part.asked f rest) pos
      rw [aborted] at hunlit
      have cen : u.part.cen = (s.part.asked f rest).abortedCen state read := (congrArg Part.cen hunlit :).trans (q.censusOver_cen _)
      have rest' := q.censusOver_restA ((s.part.asked f rest).abortedCen state read)
      refine ⟨u, hu, by rw [cen]; rfl, by rw [cen]; rfl, by rw [cen]; rfl, by rw [cen]; rfl, by rw [cen]; rfl,
        ((congrArg Part.keys hunlit :).trans (congrArg Part.keys rest' :)).trans keys, fun h => ?_, fun h => ?_, last⟩
      · obtain ⟨rfl, rfl, gone⟩ := notSent h
        refine ⟨by rw [cen]; rfl, by rw [cen]; rfl, fun b mem => gone b ?_⟩
        have inQ := (Part.mem_queue_of_unlit hunlit c rfl).mp mem
        have same : (q.censusOver ((s.part.asked f rest).abortedCen .idle none)).chan c = q.chan c := by
          cases c
          · exact (congrArg Part.chanA rest' :)
          · exact (congrArg Part.chanB rest' :)
        rw [← same]
        exact inQ
      · obtain ⟨rfl, rfl⟩ := sent h
        exact ⟨by rw [cen]; rfl, by rw [cen]; rfl⟩
  · exact State.refuses Part.doCensusAbort hasks room (Part.doCensusAbort_notActive (p := s.part.asked f rest) hpay st)
  · have answered := Part.readTagsAnswer_good line good vs
    obtain ⟨g, ks, good', shape⟩ := (s.part.lineFree c).goodAnswer_onChan c a
    have same : ((s.part.lineFree c).goodAnswer c a false).cen = s.part.cen := by rw [good']; cases c <;> rfl
    rw [Part.cenAnswer_aborted (by rw [same]; exact st)] at answered
    obtain ⟨u, hu, -, hunlit⟩ := State.becomes_of_eq (s := s) answered
    refine ⟨u, hu, (congrArg Part.cen hunlit :).trans ?_, ?_⟩
    · show ({ ((s.part.lineFree c).goodAnswer c a false).cen with state := .idle, read := none } : Cen) = _
      rw [same]
    · refine (congrArg Channel.onLine (Part.chan_of_unlit hunlit c) :).trans ?_
      obtain ⟨ms, mods⟩ := shape ((s.part.lineFree c).chan c)
      have line' : (((s.part.lineFree c).onChan c g).chan c).onLine = none := by
        rw [Part.chan_onChan, mods, Part.lineFree, Part.chan_onChan]
      rw [good']
      cases c <;> exact line'
  · have answered := Part.readTagsAnswer_good line good vs
    obtain ⟨g, ks, good', shape⟩ := (s.part.lineFree c).goodAnswer_onChan c a
    have same : ((s.part.lineFree c).goodAnswer c a false).cen = s.part.cen := by rw [good']; cases c <;> rfl
    have line' : (((s.part.lineFree c).goodAnswer c a false).chan c).onLine = none := by
      obtain ⟨ms, mods⟩ := shape ((s.part.lineFree c).chan c)
      have freed : (((s.part.lineFree c).onChan c g).chan c).onLine = none := by
        rw [Part.chan_onChan, mods, Part.lineFree, Part.chan_onChan]
      rw [good']
      cases c <;> exact freed
    have kept : ((s.part.lineFree c).goodAnswer c a false).rows = s.part.rows
        ∧ ((s.part.lineFree c).goodAnswer c a false).rentals = s.part.rentals := by
      rw [good']
      cases c <;> exact ⟨rfl, rfl⟩
    rw [Part.cenAnswer_read (by rw [same]; exact st) (by rw [same]; exact pos)] at answered
    generalize (s.part.lineFree c).goodAnswer c a false = q at *
    have compared := (q.cenCount (fun n => { n with read := satUp n.read })).cenCompare_restJ c a vs
    generalize (q.cenCount (fun n => { n with read := satUp n.read })).cenCompare c a vs = z at *
    obtain ⟨swept, -⟩ := sweepOn_leaves (q.sweepAfter c a) (z.onCen (fun n => { n with read := none, deferred := false }))
    have read := sweepOn_read (q.sweepAfter c a) (z.onCen (fun n => { n with read := none, deferred := false }))
    obtain ⟨u, hu, -, hunlit⟩ := State.becomes_of_eq (s := s) answered
    generalize sweepOn (q.sweepAfter c a) _ = w at *
    refine ⟨u, hu, ?_, ?_, ?_, ?_⟩
    · have lineW : (w.chan c).onLine = (z.chan c).onLine := by
        cases c
        · exact (congrArg (·.chanA.onLine) swept :)
        · exact (congrArg (·.chanB.onLine) swept :)
      have lineZ : (z.chan c).onLine = (q.chan c).onLine := by
        cases c
        · exact (congrArg (·.chanA.onLine) compared :)
        · exact (congrArg (·.chanB.onLine) compared :)
      exact ((congrArg Channel.onLine (Part.chan_of_unlit hunlit c) :).trans lineW).trans (lineZ.trans line')
    · exact ((congrArg Part.rows hunlit :).trans (congrArg Part.rows swept :)).trans ((congrArg Part.rows compared :).trans kept.1)
    · exact ((congrArg (·.cen.counts.read) hunlit :).trans read).trans ((congrArg (·.cen.counts.read) compared :).trans
        (congrArg (fun n : Cen => satUp n.counts.read) same :))
    · exact ((congrArg Part.rentals hunlit :).trans (congrArg Part.rentals swept :)).trans
        ((congrArg Part.rentals compared :).trans kept.2)
  · exact congrArg (fun p => Host.Outcome.next { s with part := p.lampRun }) (Part.readTagsAnswer_bad line bad vs)
  · exact congrArg (fun p => Host.Outcome.next { s with part := p.lampRun }) (Part.readTagsAnswer_none line)
  · have act : ((s.part.lineFree c).chan c).modState a = .active := by
      unfold Part.lineFree
      rw [Part.chan_onChan]
      exact active
    have missed := Part.readTags_missed line free
    rw [Part.chargeMiss_active act, Part.cenAnswer_aborted (by cases c <;> exact st)] at missed
    obtain ⟨u, hu, -, hunlit⟩ := State.becomes_of_eq (s := s) missed
    have chan := Part.chan_of_unlit hunlit c
    obtain ⟨m, found, -⟩ := Channel.look_of_modState act nofun
    refine ⟨u, hu, (congrArg Part.cen hunlit :).trans (by cases c <;> rfl), (congrArg Channel.onLine chan :).trans (by cases c <;> rfl),
      (congrArg (·.modState a) chan :).trans ?_, (congrArg Channel.misses chan :).trans (by cases c <;> rfl)⟩
    have silent : ((Table.look (Table.modify ((s.part.lineFree c).chan c).modules a
        (fun m => { m with misses := 1, state := .silent })) a).map (·.state)).getD .absent = ModState.silent := by
      rw [Table.look_modify_same, found]
      rfl
    cases c <;> exact silent
  · have sends : s.part.sendReadTags c = ((({ s.part with cen := { s.part.cen with read := some .sent } } : Part).onChan c (fun ch =>
      { ch with
        queue := ch.queue.erase (.readTags a), onLine := some (.queued (.readTags a))
        sent := [[BitVec.ofNat 8 a, 0x02#8, crc8 [BitVec.ofNat 8 a, 0x02#8]]] })).reofferRead c).reofferLamps c := by
      unfold Part.sendReadTags
      rw [chosen]
      dsimp only
      unfold Part.sendQueued
      cases c <;> rfl
    refine State.becomes_of_unlit ((congrArg Part.unlit sends).trans ?_)
    rw [Part.reofferLamps_unlit]
    refine congrArg Part.unlit ?_
    unfold Part.reofferRead
    split
    · have off : (({ s.part with cen := { s.part.cen with read := some .sent } } : Part).onChan c (fun ch =>
        { ch with
          queue := ch.queue.erase (.readTags a), onLine := some (.queued (.readTags a))
          sent := [[BitVec.ofNat 8 a, 0x02#8, crc8 [BitVec.ofNat 8 a, 0x02#8]]] })).cen.deferred = false := by
        cases c <;> exact kept
      rw [off]
      rfl
    · rfl

end Sys2Proof.Machine
end

section
/-! PROOFS. RESTART LOGIC and RESTART ALL (R171, R198 to R200). -/

namespace Sys2Proof.Machine
open Sys2Proof

/-! ## The rows of the Slot Table stay in their places -/

/-- q has a row for every slot that p has one for. -/
def Part.SameSlots (p q : Part) : Prop := q.rows.map (·.1) = p.rows.map (·.1)

theorem Part.SameSlots.of_rows {p q : Part} (h : q.rows = p.rows) : p.SameSlots q := by
  unfold Part.SameSlots
  rw [h]

theorem Part.SameSlots.trans {p q r : Part} (h : p.SameSlots q) (k : q.SameSlots r) : p.SameSlots r := Eq.trans k h

theorem Part.SameSlots.of_restA {p q : Part} (h : q.restA = p.restA) : p.SameSlots q := .of_rows (congrArg Part.rows h :)

theorem Part.sameSlots_onRow (p : Part) (n : Nat) (f : SlotRow → SlotRow) : p.SameSlots (p.onRow n f) :=
  Table.map_fst_modify _ _ _

theorem Part.sameSlots_onChan (p : Part) (c : Chan) (f : Channel → Channel) : p.SameSlots (p.onChan c f) :=
  .of_rows (p.onChan_rest c f).1

theorem Part.sameSlots_setKey (p : Part) (h : Nat) (k : KeyRec) : p.SameSlots (p.setKey h k) := by
  obtain ⟨ks, hks⟩ := p.setKey_touch h k
  rw [hks]
  rfl

theorem Part.sameSlots_authBack (p : Part) (q : RelReq) : p.SameSlots (p.authBack q) := by
  unfold Part.authBack
  repeat' split
  all_goals first
    | rfl
    | exact Part.SameSlots.trans (q := p.delAuth _) rfl (.of_restA (Part.offerOrd_restA _ _))

theorem Part.sameSlots_returnKey (p : Part) (c : Ctx) : p.SameSlots (p.returnKey c) := by
  unfold Part.returnKey
  repeat' split
  all_goals first
    | rfl
    | exact p.sameSlots_setKey _ _

theorem Part.sameSlots_unbind (p : Part) (i : Nat) (c : Ctx) : p.SameSlots (p.unbind i c) := by
  unfold Part.unbind
  split
  · exact p.sameSlots_onRow _ _
  · rfl

theorem Part.SameSlots.bind {p q : Part} (hq : p.SameSlots q) {i n : Nat} {x : Ctx} {f : SlotRow → SlotRow}
    {g : Channel → Channel} {d : Chan} :
    p.SameSlots (((({ q with ctxs := Table.put q.ctxs i x } : Part).onRow n f).onChan d g).touchSlot n) := by
  have bound : p.SameSlots (({ q with ctxs := Table.put q.ctxs i x } : Part).onRow n f) :=
    hq.trans (Part.sameSlots_onRow { q with ctxs := Table.put q.ctxs i x } n f)
  generalize ({ q with ctxs := Table.put q.ctxs i x } : Part).onRow n f = z at *
  exact bound.trans (z.sameSlots_onChan d g)

theorem Part.sameSlots_startCtx (p : Part) (i : Nat) (x : RelReq) (g : Grant) : p.SameSlots (p.startCtx i x g) := by
  unfold Part.startCtx
  dsimp only
  split
  · split
    · exact Part.SameSlots.bind (Part.sameSlots_setKey (p.onAuth _ _) _ _)
    · exact Part.SameSlots.bind (p.sameSlots_setKey _ _)
  · split
    · exact Part.SameSlots.bind (show p.SameSlots (p.onAuth _ _) from rfl)
    · exact Part.SameSlots.bind (show p.SameSlots p from rfl)

theorem Part.endEntry_rows (p : Part) (w : WaitEntry) (r : Result) : (p.endEntry w r).rows = p.rows := by
  unfold Part.endEntry
  dsimp only
  split <;> rfl

theorem sameSlots_takeQueueFrom (n i : Nat) (p : Part) : p.SameSlots (takeQueueFrom n i p) := by
  induction n generalizing p with
  | zero => rfl
  | succ n ih =>
    unfold takeQueueFrom
    split
    · rfl
    · split
      · exact Part.sameSlots_startCtx { p with waitQ := _ } _ _ _
      · exact (Part.SameSlots.of_rows (p.endEntry_rows _ _)).trans (ih _)

theorem Part.sameSlots_freeCtx (p : Part) (i : Nat) : p.SameSlots (p.freeCtx i) := by
  unfold Part.freeCtx
  split
  · rfl
  · next c _ =>
    have unbound := Part.sameSlots_unbind { p with ctxs := Table.del p.ctxs i } i c
    have left := (Part.sameSlots_onChan (Part.unbind { p with ctxs := Table.del p.ctxs i } i c) .A (·.leaveClose i)).trans
      (Part.sameSlots_onChan _ .B (·.leaveClose i))
    exact (unbound.trans left).trans (sameSlots_takeQueueFrom _ _ _)

theorem Part.sameSlots_ctxFinalUnbound (p : Part) (i : Nat) : p.SameSlots (p.ctxFinalUnbound i) := by
  unfold Part.ctxFinalUnbound
  split
  · rfl
  · next c _ =>
    dsimp only
    split
    · exact (p.sameSlots_unbind i c).trans (Part.sameSlots_freeCtx (Part.onCtx _ i _) i)
    · exact p.sameSlots_unbind i c

theorem Part.sameSlots_ctxEnd (p : Part) (i : Nat) (r : CtxResult) : p.SameSlots (p.ctxEnd i r) := by
  unfold Part.ctxEnd
  split
  · rfl
  · next c _ =>
    split
    · exact p.sameSlots_unbind i c
    · split
      · exact p.sameSlots_ctxFinalUnbound i
      · exact Part.sameSlots_ctxFinalUnbound (p.setResult i r) i
    · refine Part.SameSlots.trans ?_ (Part.sameSlots_ctxFinalUnbound _ i)
      exact (Part.sameSlots_authBack (p.setResult i r) _).trans (Part.sameSlots_returnKey _ _)

theorem Part.SameSlots.foldl {α : Type} {f : Part → α → Part} (h : ∀ q a, Part.SameSlots q (f q a)) (l : List α) (p : Part) :
    p.SameSlots (l.foldl f p) := by
  induction l generalizing p with
  | nil => rfl
  | cons a l ih => exact (h p a).trans (ih _)

theorem Part.sameSlots_relRestart (p : Part) : p.SameSlots p.relRestart := by
  unfold Part.relRestart Part.endAllEntries
  refine Part.SameSlots.trans ?_ (Part.SameSlots.foldl (fun q i => q.sameSlots_ctxEnd i _) _ _)
  exact Part.SameSlots.foldl (fun q w => .of_rows (q.endEntry_rows w _)) _ p

/-! ## The releases end (R58) -/

theorem Part.relRestart_restK (p : Part) : p.relRestart.restK = p.restK := by
  unfold Part.relRestart Part.endAllEntries
  refine (Part.foldl_restK (fun q i => q.ctxEnd_restK i _) _ _).trans ?_
  exact Part.foldl_restK (fun q w => q.endEntry_restK w _) _ p

/-- With no release and no queued request nothing ends. -/
theorem Part.relRestart_idle {p : Part} (noCtx : p.ctxs = []) (noEntry : p.waitQ = []) : p.relRestart = p := by
  have stay (l : List Nat) : l.foldl (fun q i => q.ctxEnd i .restart) p = p := by
    induction l with
    | nil => rfl
    | cons i l ih =>
      have gone : p.ctxEnd i .restart = p := by
        unfold Part.ctxEnd
        rw [noCtx]
        rfl
      rw [List.foldl_cons, gone]
      exact ih
  unfold Part.relRestart Part.endAllEntries
  rw [noEntry]
  exact stay _

theorem Table.mem_modify {α : Type} {t : Table α} {i : Nat} {f : α → α} {e : Nat × α} (h : e ∈ Table.modify t i f) :
    e ∈ t ∨ ∃ w, (i, w) ∈ t ∧ e = (i, f w) := by
  induction t with
  | nil => exact absurd h List.not_mem_nil
  | cons a t ih =>
    obtain ⟨k, w⟩ := a
    rw [Table.modify] at h
    split at h
    · next same =>
      subst same
      rcases List.mem_cons.mp h with rfl | tail
      · exact .inr ⟨w, List.mem_cons_self, rfl⟩
      · exact .inl (List.mem_cons_of_mem _ tail)
    · rcases List.mem_cons.mp h with rfl | tail
      · exact .inl List.mem_cons_self
      · exact (ih tail).imp (List.mem_cons_of_mem _) fun ⟨v, mem, eq⟩ => ⟨v, List.mem_cons_of_mem _ mem, eq⟩

theorem Part.rowsUnknown_guides (p : Part) (slots : List Nat) (h : ∀ e ∈ p.rows, e.2.guide = none) :
    ∀ e ∈ (p.rowsUnknown slots).rows, e.2.guide = none := by
  unfold Part.rowsUnknown
  induction slots generalizing p with
  | nil => exact h
  | cons n slots ih =>
    refine ih _ fun e he => ?_
    rcases Table.mem_modify he with before | ⟨w, mem, rfl⟩
    · exact h e before
    · have unset := h _ mem
      exact unset

/-! ## A channel restarts (R170, R171) -/

theorem Part.lampChannelLost_queue (p : Part) (c : Chan) : ∃ images behind queue,
    p.lampChannelLost c = ({ p with lmp := { p.lmp with images := images, behind := behind } } : Part).onChan c
      (fun ch => { ch with queue := queue }) := by
  unfold Part.lampChannelLost
  generalize (List.range Config.modules).map (· + 1) = as
  induction as using List.reverseRecOn with
  | nil => exact ⟨p.lmp.images, p.lmp.behind, (p.chan c).queue, by cases c <;> rfl⟩
  | append_singleton as a ih =>
    obtain ⟨images, behind, queue, eq⟩ := ih
    rw [List.foldl_append, eq]
    refine ⟨Table.del images (lampKey c a), behind.filter (· != lampKey c a), queue.filter (fun b => !BusCmd.isLamp a b), ?_⟩
    cases c <;> rfl

theorem Part.restartChannel_off {p : Part} {c : Chan} (h : (p.chan c).state = .off) : p.restartChannel c = p := if_pos h

/-- A channel not OFF enters STARTING; its rows are UNKNOWN, its Lamp Images unknown. -/
theorem Part.restartChannel_starts {p : Part} {c : Chan} (h : (p.chan c).state ≠ .off) :
    ∃ rows lmp, p.restartChannel c = ({ p with rows := rows, lmp := lmp } : Part).onChan c
        (fun ch => { ch.enterStarting p.mono with history := [] })
      ∧ (lmp.overrides = p.lmp.overrides ∧ lmp.test = p.lmp.test ∧ lmp.blank = p.lmp.blank)
      ∧ (∀ n r, Table.look p.rows n = some r → Table.look rows n
        = some (if n ∈ p.chanSlots c then { r with occ := none, lock := none, settle := none, ctx := none } else r))
      ∧ ((∀ e ∈ p.rows, e.2.guide = none) → ∀ e ∈ rows, e.2.guide = none) := by
  obtain ⟨rows, ks, dark, looks⟩ := p.rowsUnknown_eq (p.chanSlots c)
  have guides : (∀ e ∈ p.rows, e.2.guide = none) → ∀ e ∈ rows, e.2.guide = none := by
    have same : (p.rowsUnknown (p.chanSlots c)).rows = rows := by rw [dark]; rfl
    rw [← same]
    exact p.rowsUnknown_guides _
  obtain ⟨images, behind, queue, lost⟩ := (p.rowsUnknown (p.chanSlots c)).lampChannelLost_queue c
  unfold Part.restartChannel
  rw [if_neg h]
  dsimp only
  rw [lost, dark]
  refine ⟨rows, { p.lmp with images := images, behind := behind, touched := p.lmp.touched ++ ks }, ?_, ⟨rfl, rfl, rfl⟩, looks, guides⟩
  cases c <;> rfl

theorem Part.restartChannel_other (p : Part) {c d : Chan} (h : d ≠ c) : (p.restartChannel c).chan d = p.chan d := by
  by_cases off : (p.chan c).state = .off
  · rw [Part.restartChannel_off off]
  · obtain ⟨rows, lmp, eq, -⟩ := Part.restartChannel_starts off
    rw [eq, Part.chan_onChan_other _ h]
    cases d <;> rfl

theorem Part.restartChannel_chan {p : Part} {c : Chan} (h : (p.chan c).state ≠ .off) :
    (p.restartChannel c).chan c = { (p.chan c).enterStarting p.mono with history := [] } := by
  obtain ⟨rows, lmp, eq, -⟩ := Part.restartChannel_starts h
  rw [eq, Part.chan_onChan]
  rfl

theorem Part.restartChannel_row (p : Part) (c : Chan) {n : Nat} {r : SlotRow} (found : Table.look p.rows n = some r)
    (unguided : r.guide = none) : ∃ r', Table.look (p.restartChannel c).rows n = some r' ∧ r'.guide = none
      ∧ ((p.chan c).state ≠ .off → n ∈ p.chanSlots c → r' = ⟨none, none, none, none, none⟩)
      ∧ (r = ⟨none, none, none, none, none⟩ → r' = ⟨none, none, none, none, none⟩) := by
  obtain ⟨occ, settle, lock, ctx, guide⟩ := r
  subst unguided
  by_cases off : (p.chan c).state = .off
  · rw [Part.restartChannel_off off]
    exact ⟨_, found, rfl, fun on => absurd off on, id⟩
  · obtain ⟨rows, lmp, eq, -, looks, -⟩ := Part.restartChannel_starts off
    have here := looks n _ found
    have same : (p.restartChannel c).rows = rows := by rw [eq]; exact (Part.onChan_rest _ c _).1
    rw [same]
    refine ⟨_, here, ?_, fun _ mem => ?_, fun fresh => ?_⟩
    · split <;> rfl
    · rw [if_pos mem]
    · rw [fresh]
      split <;> rfl

theorem Part.restartChannel_leaves (p : Part) (c : Chan) : ∃ rows lmp A B,
    p.restartChannel c = { p with rows := rows, lmp := lmp, chanA := A, chanB := B }
      ∧ (lmp.overrides = p.lmp.overrides ∧ lmp.test = p.lmp.test ∧ lmp.blank = p.lmp.blank)
      ∧ (A.map = p.chanA.map ∧ A.misses = p.chanA.misses ∧ B.map = p.chanB.map ∧ B.misses = p.chanB.misses)
      ∧ ((∀ e ∈ p.rows, e.2.guide = none) → ∀ e ∈ rows, e.2.guide = none) := by
  by_cases off : (p.chan c).state = .off
  · exact ⟨p.rows, p.lmp, p.chanA, p.chanB, Part.restartChannel_off off, ⟨rfl, rfl, rfl⟩, ⟨rfl, rfl, rfl, rfl⟩, id⟩
  · obtain ⟨rows, lmp, eq, lamps, -, guides⟩ := Part.restartChannel_starts off
    cases c with
    | A => exact ⟨rows, lmp, _, p.chanB, eq, lamps, ⟨rfl, rfl, rfl, rfl⟩, guides⟩
    | B => exact ⟨rows, lmp, p.chanA, _, eq, lamps, ⟨rfl, rfl, rfl, rfl⟩, guides⟩

/-! ## RESTART LOGIC (R198) -/

/-- The part but for what RESTART LOGIC writes. -/
def Part.restR (p : Part) : Part := { p.restK with
  holdSeq := .idle, filters := [], tfl := { p.tfl with tracking := [], held := none }, lmp := ⟨[], [], [], p.lmp.blank, none, []⟩
  chanA := { Channel.powerOn with map := p.chanA.map, misses := p.chanA.misses }
  chanB := { Channel.powerOn with map := p.chanB.map, misses := p.chanB.misses }
  cen := { State.reset.part.cen with skipped := p.cen.skipped, nextStart := p.cen.nextStart } }

/-- What RESTART LOGIC does after its releases have ended and before its channels restart. -/
def Part.quieted (p : Part) : Part := ({ p with holdSeq := .idle } : Part).guidesAbsent.trackDropAll

theorem Part.quieted_restR (p : Part) : p.quieted.restR = p.restR := rfl

theorem Part.quieted_kept (p : Part) : (p.quieted.keys = p.keys ∧ p.quieted.auths = p.auths ∧ p.quieted.alt = p.alt)
    ∧ p.quieted.holdSeq = .idle ∧ p.quieted.tfl.tracking = [] ∧ p.quieted.lmp.overrides = p.lmp.overrides :=
  ⟨⟨rfl, rfl, rfl⟩, rfl, rfl, rfl⟩

theorem Part.quieted_state (p : Part) (c : Chan) : (p.quieted.chan c).state = (p.chan c).state := by
  cases c <;> rfl

theorem Part.quieted_rows (p : Part) : p.quieted.rows = p.rows.map (fun e => (e.1, { e.2 with guide := none })) := rfl

theorem Part.quieted_guides (p : Part) : ∀ e ∈ p.quieted.rows, e.2.guide = none := by
  intro e he
  rw [Part.quieted_rows] at he
  obtain ⟨d, -, rfl⟩ := List.mem_map.mp he
  rfl

/-- RESTART LOGIC before its channels restart. -/
def Part.restartBegun (p : Part) : Part := p.relRestart.quieted

theorem Part.restartLogic_eq (p : Part) : p.restartLogic
    = (((((p.restartBegun.restartChannel .A).restartChannel .B).cenRestart.testEnd).clearOverrides allModules).restartEmpties).watchAfresh := by
  unfold Part.restartLogic Part.restartBegun Part.quieted
  rfl

theorem Part.restR_of_restK {p q : Part} (h : q.restK = p.restK) : q.restR = p.restR := (congrArg Part.restR h :)

theorem Part.restartBegun_restR (p : Part) : p.restartBegun.restR = p.restR :=
  p.relRestart.quieted_restR.trans (Part.restR_of_restK p.relRestart_restK)

theorem Part.restartBegun_state (p : Part) (c : Chan) : (p.restartBegun.chan c).state = (p.chan c).state := by
  have same := congrArg (fun q : Part => (q.chan c).state) p.relRestart_restK
  have kept := p.relRestart.quieted_state c
  unfold Part.restartBegun
  rw [kept]
  generalize p.relRestart = q at *
  cases c <;> exact same

theorem Part.restartBegun_row (p : Part) {n : Nat} {r : SlotRow} (h : Table.look p.rows n = some r) :
    ∃ r', Table.look p.restartBegun.rows n = some r' ∧ r'.guide = none := by
  have slots : p.restartBegun.rows.map (·.1) = p.rows.map (·.1) := by
    unfold Part.restartBegun
    rw [Part.quieted_rows]
    exact (Table.fst_mapRec (fun e : Nat × SlotRow => { e.2 with guide := none }) p.relRestart.rows).trans p.sameSlots_relRestart
  have found : (Table.look p.restartBegun.rows n).isSome := by
    rw [Table.look_isSome_iff, slots, ← Table.look_isSome_iff, h]
    rfl
  obtain ⟨r', hr'⟩ := Option.isSome_iff_exists.mp found
  exact ⟨r', hr', p.relRestart.quieted_guides _ (Table.mem_of_look hr')⟩

/-- RESTART LOGIC after its channels restart. -/
def Part.emptied (p : Part) : Part := (((p.cenRestart.testEnd).clearOverrides allModules).restartEmpties).watchAfresh

theorem Part.clearOverrides_eq (p : Part) (ks : List Nat) : p.clearOverrides ks = { p with lmp := { p.lmp with
    overrides := p.lmp.overrides.filter (fun e => !ks.contains e.1), touched := p.lmp.touched ++ ks } } := rfl

theorem Part.testEnd_eq (p : Part) : ∃ touched, p.testEnd = { p with lmp := { p.lmp with test := none, touched := touched } } := by
  unfold Part.testEnd
  split
  · exact ⟨_, rfl⟩
  · next off =>
    have none := Option.not_isSome_iff_eq_none.mp off
    exact ⟨p.lmp.touched, by rw [← none]⟩

theorem Part.emptied_eq (p : Part) : ∃ touched, p.emptied = { p with
    cen := { State.reset.part.cen with skipped := p.cen.skipped, nextStart := p.cen.nextStart }, filters := []
    lmp := { p.lmp with
      overrides := p.lmp.overrides.filter (fun e => !allModules.contains e.1), test := none, touched := touched }
    link := { p.link with
      inbound := [], watch := if p.policy.linkWatch = 0 then .off else .watching (p.mono + 1000 * p.policy.linkWatch) } } := by
  obtain ⟨touched, ended⟩ := p.cenRestart.testEnd_eq
  refine ⟨touched ++ allModules, ?_⟩
  unfold Part.emptied
  rw [ended, Part.clearOverrides_eq]
  rfl

theorem Part.emptied_restR (p : Part) : p.emptied.restR = p.restR := by
  obtain ⟨touched, eq⟩ := p.emptied_eq
  rw [eq]
  rfl

theorem Part.emptied_kept (p : Part) (c : Chan) : p.emptied.holdSeq = p.holdSeq ∧ p.emptied.tfl = p.tfl ∧ p.emptied.rows = p.rows
    ∧ p.emptied.keys = p.keys ∧ p.emptied.auths = p.auths ∧ p.emptied.alt = p.alt ∧ p.emptied.chan c = p.chan c := by
  obtain ⟨touched, eq⟩ := p.emptied_eq
  rw [eq]
  exact ⟨rfl, rfl, rfl, rfl, rfl, rfl, rfl⟩

theorem Part.emptied_clears {p : Part} (mapped : ∀ o ∈ p.lmp.overrides, o.1 ∈ allModules) :
    p.emptied.link.inbound = [] ∧ p.emptied.filters = [] ∧ p.emptied.lmp.overrides = [] ∧ p.emptied.lmp.test = none
    ∧ (p.emptied.cen.state = .idle ∧ p.emptied.cen.list = [])
    ∧ p.emptied.link.watch = if p.policy.linkWatch = 0 then .off else .watching (p.mono + 1000 * p.policy.linkWatch) := by
  have none_left : p.lmp.overrides.filter (fun e => !allModules.contains e.1) = [] := by
    rw [List.filter_eq_nil_iff]
    intro e he
    simpa using mapped e he
  obtain ⟨touched, eq⟩ := p.emptied_eq
  rw [eq, none_left]
  exact ⟨rfl, rfl, rfl, rfl, ⟨rfl, rfl⟩, rfl⟩

/-- What RESTART LOGIC makes of the part. -/
structure Part.Restarted (p q : Part) : Prop where
  holdSeq : q.holdSeq = .idle
  inbound : q.link.inbound = []
  filters : q.filters = []
  tracking : q.tfl.tracking = []
  overrides : q.lmp.overrides = []
  test : q.lmp.test = none
  census : q.cen.state = .idle ∧ q.cen.list = []
  watch : q.link.watch = if p.policy.linkWatch = 0 then .off else .watching (p.mono + 1000 * p.policy.linkWatch)
  guides : ∀ e ∈ q.rows, e.2.guide = none
  off : ∀ c, (p.chan c).state = .off → (q.chan c).state = .off
  starts : ∀ c, (p.chan c).state ≠ .off → (q.chan c).state = .starting .pulse ∧ (q.chan c).history = []
    ∧ (q.chan c).queue = [] ∧ (q.chan c).pulse = some (p.mono + 20)
  dark : ∀ c, (p.chan c).state ≠ .off → ∀ n ∈ p.chanSlots c, ∀ r, Table.look p.rows n = some r →
    Table.look q.rows n = some ⟨none, none, none, none, none⟩
  rest : q.restR = p.restR
  idle : p.ctxs = [] → p.waitQ = [] → q.keys = p.keys ∧ q.auths = p.auths ∧ q.alt = p.alt

/-- Both channels restart. -/
def Part.channelsRestart (p : Part) : Part := (p.restartChannel .A).restartChannel .B

theorem Part.channelsRestart_leaves (p : Part) : ∃ rows lmp A B,
    p.channelsRestart = { p with rows := rows, lmp := lmp, chanA := A, chanB := B }
      ∧ (lmp.overrides = p.lmp.overrides ∧ lmp.test = p.lmp.test ∧ lmp.blank = p.lmp.blank)
      ∧ (A.map = p.chanA.map ∧ A.misses = p.chanA.misses ∧ B.map = p.chanB.map ∧ B.misses = p.chanB.misses)
      ∧ ((∀ e ∈ p.rows, e.2.guide = none) → ∀ e ∈ rows, e.2.guide = none) := by
  obtain ⟨rows, lmp, A, B, eqA, ⟨ovr, test, blank⟩, ⟨mapA, missA, mapB, missB⟩, guides⟩ := p.restartChannel_leaves .A
  obtain ⟨rows', lmp', A', B', eqB, ⟨ovr', test', blank'⟩, ⟨mapA', missA', mapB', missB'⟩, guides'⟩ :=
    (p.restartChannel .A).restartChannel_leaves .B
  rw [eqA] at eqB ovr' test' blank' mapA' missA' mapB' missB' guides'
  refine ⟨rows', lmp', A', B', ?_, ⟨ovr'.trans ovr, test'.trans test, blank'.trans blank⟩,
    ⟨mapA'.trans mapA, missA'.trans missA, mapB'.trans mapB, missB'.trans missB⟩, fun h => guides' (guides h)⟩
  unfold Part.channelsRestart
  rw [eqA, eqB]

theorem Part.channelsRestart_restR (p : Part) : p.channelsRestart.restR = p.restR := by
  obtain ⟨rows, lmp, A, B, eq, ⟨-, -, blank⟩, ⟨mapA, missA, mapB, missB⟩, -⟩ := p.channelsRestart_leaves
  rw [eq]
  unfold Part.restR
  rw [blank, mapA, missA, mapB, missB]
  rfl

theorem Part.channelsRestart_chan (p : Part) (c : Chan) : ((p.chan c).state = .off → p.channelsRestart.chan c = p.chan c)
    ∧ ((p.chan c).state ≠ .off → p.channelsRestart.chan c = { (p.chan c).enterStarting p.mono with history := [] }) := by
  have mono : (p.restartChannel .A).mono = p.mono := by
    obtain ⟨rows, lmp, A, B, eq, -⟩ := p.restartChannel_leaves .A
    rw [eq]
  unfold Part.channelsRestart
  cases c with
  | A =>
    rw [Part.restartChannel_other (c := .B) (d := .A) _ nofun]
    exact ⟨fun off => by rw [Part.restartChannel_off off], fun on => Part.restartChannel_chan on⟩
  | B =>
    have first : (p.restartChannel .A).chan .B = p.chan .B := Part.restartChannel_other _ nofun
    refine ⟨fun off => ?_, fun on => ?_⟩
    · rw [Part.restartChannel_off (by rw [first]; exact off), first]
    · rw [Part.restartChannel_chan (by rw [first]; exact on), first, mono]

theorem Part.channelsRestart_row (p : Part) {c : Chan} (on : (p.chan c).state ≠ .off) {n : Nat} (mem : n ∈ p.chanSlots c)
    {r : SlotRow} (h : Table.look p.rows n = some r) (unguided : r.guide = none) :
    Table.look p.channelsRestart.rows n = some ⟨none, none, none, none, none⟩ := by
  have first : (p.restartChannel .A).chan .B = p.chan .B := Part.restartChannel_other _ nofun
  have slots : (p.restartChannel .A).chanSlots = p.chanSlots := by
    obtain ⟨rows, lmp, A, B, eq, -⟩ := p.restartChannel_leaves .A
    rw [eq]
    rfl
  obtain ⟨r₂, h₂, g₂, darkA, -⟩ := p.restartChannel_row .A h unguided
  obtain ⟨r₃, h₃, -, darkB, keep⟩ := (p.restartChannel .A).restartChannel_row .B h₂ g₂
  unfold Part.channelsRestart
  rw [h₃]
  cases c with
  | A => rw [keep (darkA on mem)]
  | B => rw [darkB (by rw [first]; exact on) (by rw [slots]; exact mem)]

theorem Part.restarted {p : Part} (mapped : ∀ o ∈ p.lmp.overrides, o.1 ∈ allModules) : p.Restarted p.restartLogic := by
  have start : p.restartLogic = p.restartBegun.channelsRestart.emptied := p.restartLogic_eq
  have begunR := p.restartBegun_restR
  have begunState := p.restartBegun_state
  have begunRow {n : Nat} {r : SlotRow} := p.restartBegun_row (n := n) (r := r)
  obtain ⟨begunKept, hold, track, ovr⟩ := p.relRestart.quieted_kept
  have begunOver := ovr.trans (congrArg (·.lmp.overrides) p.relRestart_restK :)
  have begunIdle : p.ctxs = [] → p.waitQ = [] → p.restartBegun.keys = p.keys ∧ p.restartBegun.auths = p.auths
      ∧ p.restartBegun.alt = p.alt := fun noCtx noEntry => by
    rw [Part.relRestart_idle noCtx noEntry] at begunKept
    unfold Part.restartBegun
    rw [Part.relRestart_idle noCtx noEntry]
    exact begunKept
  have guides : ∀ e ∈ p.restartBegun.rows, e.2.guide = none := p.relRestart.quieted_guides
  change p.restartBegun.holdSeq = _ at hold
  change p.restartBegun.tfl.tracking = _ at track
  change p.restartBegun.lmp.overrides = _ at begunOver
  rw [start]
  generalize p.restartBegun = y at *
  have begunMono : y.mono = p.mono := (congrArg Part.mono begunR :)
  have begunPolicy : y.policy = p.policy := (congrArg Part.policy begunR :)
  have begunSlots : y.chanSlots = p.chanSlots := (congrArg Part.chanSlots begunR :)
  have chans := y.channelsRestart_chan
  have row {c : Chan} := y.channelsRestart_row (c := c)
  have restR := y.channelsRestart_restR
  obtain ⟨rows, lmp, A, B, eq, ⟨overs, -, -⟩, -, unguided⟩ := y.channelsRestart_leaves
  have same := y.channelsRestart.emptied_kept
  obtain ⟨inbound, filters, overrides, test, census, watch⟩ := Part.emptied_clears (p := y.channelsRestart)
    (by rw [eq]; show ∀ o ∈ lmp.overrides, _; rw [overs, begunOver]; exact mapped)
  obtain ⟨holdE, tflE, rowsE, keysE, authsE, altE, -⟩ := same .A
  have kept : y.channelsRestart.holdSeq = y.holdSeq ∧ y.channelsRestart.tfl = y.tfl ∧ y.channelsRestart.keys = y.keys
      ∧ y.channelsRestart.auths = y.auths ∧ y.channelsRestart.alt = y.alt ∧ y.channelsRestart.mono = y.mono
      ∧ y.channelsRestart.policy = y.policy ∧ y.channelsRestart.rows = rows := by
    rw [eq]
    exact ⟨rfl, rfl, rfl, rfl, rfl, rfl, rfl, rfl⟩
  obtain ⟨holdC, tflC, keysC, authsC, altC, monoC, policyC, rowsC⟩ := kept
  rw [policyC, monoC, begunMono, begunPolicy] at watch
  refine ⟨(holdE.trans holdC).trans hold, inbound, filters, (congrArg Tfl.tracking (tflE.trans tflC)).trans track, overrides, test,
    census, watch, fun e he => ?_, fun c off => ?_, fun c on => ?_, fun c on n mem r h => ?_,
    (y.channelsRestart.emptied_restR.trans restR).trans begunR, fun noCtx noEntry => ?_⟩
  · rw [rowsE, rowsC] at he
    exact unguided guides e he
  · obtain ⟨-, -, -, -, -, -, chanE⟩ := same c
    rw [chanE, (chans c).1 (by rw [begunState]; exact off), begunState]
    exact off
  · obtain ⟨-, -, -, -, -, -, chanE⟩ := same c
    rw [chanE, (chans c).2 (by rw [begunState]; exact on), begunMono]
    exact ⟨rfl, rfl, rfl, rfl⟩
  · obtain ⟨r', h', unset⟩ := begunRow h
    rw [rowsE]
    exact row (by rw [begunState]; exact on) (by rw [begunSlots]; exact mem) h' unset
  · obtain ⟨keys, auths, alt⟩ := begunIdle noCtx noEntry
    exact ⟨(keysE.trans keysC).trans keys, (authsE.trans authsC).trans auths, (altE.trans altC).trans alt⟩

/-- A request that is answered: the response held, or queued last. -/
theorem State.requestRun_answered {s : State} {row : Instr} {f : Frame} {rest : List Frame} (owner : Part → Frame → Answer)
    {q : Part} {r : Result} {fields : List Byte} (h : s.Asks row f rest) (ho : owner (s.part.asked f rest) f = q.answer r fields) :
    ∃ held reports waiters, s.part.requestRun row owner = { q with
        tfl := { q.tfl with held := held }, link := { q.link with reports := reports, waiters := waiters } }
      ∧ (held = some (s.part.replyTo f r fields) ∨ reports.getLast? = some (s.part.replyTo f r fields)) := by
  have response : responseReport f.origin (reqTag f.payload) f.kind r (bit (s.part.sequenceReset f) + 2 * bit false) fields
      = s.part.replyTo f r fields := by
    simp [Part.replyTo, responseReport, bit]
  have sent : s.part.requestRun row owner = q.respond (s.part.replyTo f r fields) := by
    rw [Part.requestRun_asks s row f rest owner h, ho]
    simp only [Answer.send, Part.answer]
    rw [response]
  rw [sent]
  unfold Part.respond
  split
  · exact ⟨q.tfl.held, q.link.reports ++ [s.part.replyTo f r fields], q.link.waiters, rfl, .inr (List.getLast?_concat ..)⟩
  · refine ⟨some (s.part.replyTo f r fields), q.link.reports,
      if q.link.waiters.contains .tfl then q.link.waiters else q.link.waiters ++ [.tfl], ?_, .inl rfl⟩
    unfold Part.await Link.await
    dsimp only
    split <;> rfl

/-- Settles O60: RESTART ALL by its equation, RESTART LOGIC by `Part.restarted`. -/
theorem restartsBringAKnownState : Obligations.RestartsBringAKnownState := by
  unfold Obligations.RestartsBringAKnownState
  refine fun s f rest tag => ⟨fun hasks hpay => State.replies Part.doRestartAll hasks rfl rfl rfl, fun hasks hpay mapped => ?_⟩
  have ho : (s.part.asked f rest).doRestartLogic f = (s.part.asked f rest).restartLogic.answer .ok [] := by
    unfold Part.doRestartLogic
    rw [hpay]
    rfl
  have restarted := Part.restarted (p := s.part.asked f rest) mapped
  obtain ⟨held, reports, waiters, run, last⟩ := State.requestRun_answered Part.doRestartLogic hasks ho
  have restR := restarted.rest
  generalize (s.part.asked f rest).restartLogic = q at *
  have hu : exec .restartLogic s = .next { s with part := (s.part.requestRun .restartLogic Part.doRestartLogic).lampRun } := rfl
  rw [run] at hu
  generalize hz : ({ q with
        tfl := { q.tfl with held := held }, link := { q.link with reports := reports, waiters := waiters } } : Part) = z at hu
  have unlit := z.lampRun_unlit
  have link : z.lampRun.link = { q.link with reports := reports, waiters := waiters } := (congrArg Part.link unlit :).trans (by rw [← hz]; rfl)
  have tfl : z.lampRun.tfl = { q.tfl with held := held } := (congrArg Part.tfl unlit :).trans (by rw [← hz]; rfl)
  have rows : z.lampRun.rows = q.rows := (congrArg Part.rows unlit :).trans (by rw [← hz]; rfl)
  have cen : z.lampRun.cen = q.cen := (congrArg Part.cen unlit :).trans (by rw [← hz]; rfl)
  have zchan (c : Chan) : z.chan c = q.chan c := by rw [← hz]; cases c <;> rfl
  have kept : z.lampRun.restR = s.part.restR := ((congrArg Part.restR unlit :).trans (by rw [← hz]; rfl)).trans restR
  have lit (c : Chan) : (z.lampRun.chan c).unlit = (q.chan c).unlit := by
    rw [← zchan c]
    exact Part.chan_of_unlit unlit c
  refine ⟨_, hu, (congrArg Part.holdSeq unlit :).trans (by rw [← hz]; exact restarted.holdSeq),
    (congrArg Link.inbound link).trans restarted.inbound, (congrArg Part.filters unlit :).trans (by rw [← hz]; exact restarted.filters),
    (congrArg Tfl.tracking tfl).trans restarted.tracking,
    (congrArg (·.lmp.overrides) unlit :).trans (by rw [← hz]; exact restarted.overrides),
    (congrArg (·.lmp.test) unlit :).trans (by rw [← hz]; exact restarted.test),
    (congrArg Cen.state cen).trans restarted.census.1, (congrArg Cen.list cen).trans restarted.census.2,
    (congrArg (·.cen.nextStart) kept :), (congrArg (·.cen.skipped) kept :), (congrArg Link.watch link).trans restarted.watch,
    fun c => ⟨fun off => ?_, fun on => ?_, ?_, ?_⟩, fun e he => restarted.guides e (rows ▸ he),
    (congrArg Part.mono kept :), (congrArg Part.clock kept :), (congrArg Part.zone kept :), (congrArg Part.policy kept :),
    (congrArg Part.slotMap kept :), (congrArg Part.groups kept :), (congrArg (·.tfl.terminals) kept :),
    (congrArg (·.tfl.passTable) kept :), (congrArg Part.schedule kept :), (congrArg Part.rentals kept :),
    (congrArg Part.due kept :), (congrArg Part.dropBin kept :), (congrArg Part.dupCounts kept :), (congrArg (·.lmp.blank) kept :),
    fun noCtx noEntry => ?_, ?_⟩
  · exact (congrArg Channel.state (lit c) :).trans (restarted.off c off)
  · obtain ⟨state, history, queue, pulse⟩ := restarted.starts c on
    have chan : z.lampRun.chan c = q.chan c :=
      (Part.lampRun_chan_idle (by rw [zchan, state]; nofun)).trans (zchan c)
    rw [show State.part { s with part := z.lampRun } = z.lampRun from rfl, chan, rows]
    exact ⟨state, history, queue, pulse, restarted.dark c on⟩
  · refine (congrArg Channel.map (lit c) :).trans ?_
    cases c
    · exact (congrArg (·.chanA.map) restR :)
    · exact (congrArg (·.chanB.map) restR :)
  · refine (congrArg Channel.misses (lit c) :).trans ?_
    cases c
    · exact (congrArg (·.chanA.misses) restR :)
    · exact (congrArg (·.chanB.misses) restR :)
  · obtain ⟨keys, auths, alt⟩ := restarted.idle noCtx noEntry
    refine ⟨(congrArg Part.keys unlit :).trans ?_, (congrArg Part.auths unlit :).trans ?_, (congrArg Part.alt unlit :).trans ?_⟩
    · rw [← hz]; exact keys
    · rw [← hz]; exact auths
    · rw [← hz]; exact alt
  · show z.lampRun.tfl.held = _ ∨ z.lampRun.link.reports.getLast? = _
    rw [link, tfl]
    exact last

end Sys2Proof.Machine
end

section
/-! PROOFS. TABLE_READ (R192). -/

namespace Sys2Proof.Machine
open Sys2Proof

/-- The head of a table request: table, first index, count. -/
theorem tableHead_payload {bs rest : List Byte} {tag : Byte} {t i n : Nat}
    (h : bs = tag :: (beBytes 1 t ++ (beBytes 2 i ++ (beBytes 1 n ++ rest)))) (ht : t < 256) (hi : i < 65536) (hn : n < 256) :
    byteAt bs 1 = t ∧ field bs 2 2 = i ∧ byteAt bs 4 = n :=
  ⟨field_after [tag] (beBytes 2 i ++ (beBytes 1 n ++ rest)) rfl ht h,
    field_after (tag :: beBytes 1 t) (beBytes 1 n ++ rest) rfl hi (by rw [h]; simp),
    field_after (tag :: (beBytes 1 t ++ beBytes 2 i)) rest (by simp) hn (by rw [h]; simp)⟩

section Read
variable {p : Part} {f : Frame} {tag : Byte} {t i n : Nat} (hpay : f.payload = tag :: (beBytes 1 t ++ (beBytes 2 i ++ beBytes 1 n)))
  (ht : t < 256) (hi : i < 65536) (hn : n < 256)
include hpay ht hi hn

/-- The read of a table: its places, or BAD_ARGUMENT for places it has not. -/
theorem Part.doTableRead_known {lo places w cap most : Nat} (shape : tableShape t = some (lo, places, w, cap, most)) :
    p.doTableRead f = if 1 ≤ n ∧ n ≤ most ∧ lo ≤ i ∧ i + n ≤ lo + places then
      p.answer .ok (tableHead t i n ++ (List.range n).flatMap (fun j => p.tableEntry t (i + j)))
    else p.refuse .badArgument := by
  obtain ⟨table, index, count⟩ := tableHead_payload (rest := []) (hpay.trans (by rw [List.append_nil])) ht hi hn
  have length : f.payload.length = 5 := by rw [hpay]; simp
  unfold Part.doTableRead
  dsimp only
  rw [table, index, count, shape]
  dsimp only
  rw [length]
  unfold rangeOk
  by_cases fits : 1 ≤ n ∧ n ≤ most ∧ lo ≤ i ∧ i + n ≤ lo + places
  · rw [if_pos fits, decide_eq_true fits, if_neg (by simp)]
  · rw [if_neg fits, decide_eq_false fits, if_pos (by simp)]

theorem Part.doTableRead_unknown (shape : tableShape t = none) : p.doTableRead f = p.refuse .badArgument := by
  obtain ⟨table, -, -⟩ := tableHead_payload (rest := []) (hpay.trans (by rw [List.append_nil])) ht hi hn
  unfold Part.doTableRead
  dsimp only
  rw [table, shape]

/-- A read of a known table, answered. -/
theorem State.becomes_tableRead {s : State} {rest : List Frame} (hasks : s.Asks .tableRead f rest) (room : s.part.essRoom = true)
    {lo places w cap most : Nat} (shape : tableShape t = some (lo, places, w, cap, most)) {entry : Nat → List Byte}
    (entries : (s.part.asked f rest).tableEntry t = entry) :
    ((1 ≤ n ∧ n ≤ most ∧ lo ≤ i ∧ i + n ≤ lo + places) → s.Becomes (exec .tableRead s) ((s.part.asked f rest).queued
        (s.part.replyTo f .ok (beBytes 1 t ++ beBytes 2 i ++ beBytes 1 n ++ (List.range n).flatMap (fun j => entry (i + j))))))
      ∧ (¬ (1 ≤ n ∧ n ≤ most ∧ lo ≤ i ∧ i + n ≤ lo + places) →
        s.Becomes (exec .tableRead s) ((s.part.asked f rest).queued (s.part.replyTo f .badArgument []))) := by
  have read := Part.doTableRead_known (p := s.part.asked f rest) hpay ht hi hn shape
  rw [entries] at read
  refine ⟨fun fits => ?_, fun misfit => ?_⟩
  · rw [if_pos fits] at read
    exact State.replies Part.doTableRead hasks read rfl room
  · rw [if_neg misfit] at read
    exact State.refuses Part.doTableRead hasks room read

end Read

theorem tableShape_unknown {t : Nat} (h : 6 < t) : tableShape t = none := by
  obtain ⟨k, rfl⟩ := Nat.exists_eq_add_of_lt h
  rw [show 6 + k + 1 = k + 7 by omega]
  rfl

/-- Settles O58. -/
theorem tableReadGivesThePlaces : Obligations.TableReadGivesThePlaces := by
  unfold Obligations.TableReadGivesThePlaces
  intro s f rest tag t i n hasks hpay ht hi hn room
  refine ⟨?_, ?_, ?_, ?_, ?_, ?_, ?_, fun unknown => State.refuses Part.doTableRead hasks room
    (Part.doTableRead_unknown hpay ht hi hn (tableShape_unknown unknown))⟩
  · rintro rfl
    exact State.becomes_tableRead (lo := 1) (places := 480) (most := 46) hpay ht hi hn hasks room rfl
      (entry := fun j => (s.part.slotEntry j).bytes) rfl
  · rintro rfl
    exact State.becomes_tableRead (lo := 0) (places := 30) (most := 30) hpay ht hi hn hasks room rfl
      (entry := fun j => mapEntryBytes (Table.look s.part.chanA.map j)) rfl
  · rintro rfl
    exact State.becomes_tableRead (lo := 0) (places := 30) (most := 30) hpay ht hi hn hasks room rfl
      (entry := fun j => mapEntryBytes (Table.look s.part.chanB.map j)) rfl
  · rintro rfl
    exact State.becomes_tableRead (lo := 1) (places := 62) (most := 62) hpay ht hi hn hasks room rfl
      (entry := fun j => (s.part.terminal j).bytes) rfl
  · rintro rfl
    exact State.becomes_tableRead (lo := 0) (places := 16) (most := 16) hpay ht hi hn hasks room rfl
      (entry := fun j => (s.part.group j).bytes) rfl
  · rintro rfl
    exact State.becomes_tableRead (lo := 0) (places := 8) (most := 8) hpay ht hi hn hasks room rfl
      (entry := fun j => pointBytes (Table.look s.part.schedule j)) rfl
  · rintro rfl
    exact State.becomes_tableRead (lo := 0) (places := 16) (most := 16) hpay ht hi hn hasks room rfl
      (entry := fun j => passBytes (Table.look s.part.tfl.passTable j)) rfl

end Sys2Proof.Machine
end

section
/-! PROOFS. The lock limit of a closing context (R49, R53). -/

namespace Sys2Proof.Machine
open Sys2Proof

/-! ## Reports that enter with no owner waiting -/

/-- No owner waits, and at most n reports are queued. -/
structure Part.Unwaited (p : Part) (n : Nat) : Prop where
  waiters : p.link.waiters = []
  reports : p.link.reports.length ≤ n

section Unwaited
variable {p : Part} {n : Nat}

theorem Part.Unwaited.room (h : p.Unwaited n) (hn : n < 64) : p.essRoom = true :=
  p.essRoom_iff.mpr ⟨Nat.lt_of_le_of_lt h.reports hn, h.waiters⟩

theorem Part.Unwaited.of_link {q : Part} (h : p.Unwaited n) (same : q.link = p.link) : q.Unwaited n :=
  ⟨same ▸ h.waiters, same ▸ h.reports⟩

theorem Part.Unwaited.mono {m : Nat} (h : p.Unwaited n) (le : n ≤ m) : p.Unwaited m := ⟨h.waiters, h.reports.trans le⟩

theorem Part.Unwaited.enter (h : p.Unwaited n) (r : Report) : (p.enter r).Unwaited (n + 1) :=
  ⟨h.waiters, by
    show (p.link.reports ++ [r]).length ≤ n + 1
    rw [List.length_append]
    exact Nat.succ_le_succ h.reports⟩

theorem Part.Unwaited.offerAlert (h : p.Unwaited n) (hn : n < 64) (i : Nat) (f : AlertFlags) : (p.offerAlert i f).Unwaited (n + 1) := by
  unfold Part.offerAlert
  split
  · exact h.mono n.le_succ
  · split
    · exact ⟨h.waiters, Nat.le_succ_of_le h.reports⟩
    · rw [if_pos (h.room hn)]
      exact h.enter _

theorem Part.Unwaited.gaveWay (h : p.Unwaited n) (hn : n < 64) (e : AlertEntry) :
    (if e.pending.isSome then p.giveUpAlert e.place else p.offerNotice e.place e.droppedReport).Unwaited (n + 1) := by
  split
  · unfold Part.giveUpAlert
    split
    · exact h.mono n.le_succ
    · refine ⟨?_, Nat.le_succ_of_le h.reports⟩
      show p.link.waiters.filter (fun x => x != .alertPlace e.place) = []
      rw [h.waiters]
      rfl
  · unfold Part.offerNotice
    rw [if_pos (h.room hn)]
    exact h.enter _

theorem Part.Unwaited.register (h : p.Unwaited n) (hn : n < 64) (i : Nat) (k : AlertKind) (s : Subject) (d : Option Detail) :
    (p.register i k s d).Unwaited (n + 1) := by
  refine Part.Unwaited.offerAlert ?_ hn i _
  exact ⟨h.waiters, h.reports⟩

/-- An alert that is raised sends at most two reports. -/
theorem Part.Unwaited.raise (h : p.Unwaited n) (hn : n + 1 < 64) (k : AlertKind) (s : Subject) (d : Option Detail) :
    (p.raise k s d).Unwaited (n + 2) := by
  have lt : n < 64 := by omega
  have set (i : Nat) : (p.setFlag i).Unwaited n := ⟨h.waiters, h.reports⟩
  cases find : p.alt.find k s with
  | some e =>
    cases hack : e.acked with
    | false =>
      rw [p.raise_unacked k s d find hack]
      exact ⟨h.waiters, by exact h.reports.trans (by omega)⟩
    | true =>
      rw [p.raise_acked k s d find hack]
      refine Part.Unwaited.mono (n := n + 1) (Part.Unwaited.offerAlert ?_ lt _ _) (Nat.le_succ _)
      exact ⟨h.waiters, h.reports⟩
  | none =>
    cases free : p.alt.freePlace with
    | some i =>
      rw [p.raise_free k s d find free]
      exact ((set _).register lt _ _ _ _).mono (by omega)
    | none =>
      cases gone : p.alt.displaceable with
      | some e =>
        rw [p.raise_displaces k s d find free gone]
        exact (Part.Unwaited.gaveWay (p := { p.setFlag k.code with alt := (p.setFlag k.code).alt.drop e.place })
          ⟨h.waiters, h.reports⟩ lt e).register (by omega) _ _ _ _
      | none =>
        rw [p.raise_full k s d find free gone]
        exact ⟨h.waiters, by exact h.reports.trans (by omega)⟩

end Unwaited

/-- The context that fails its closing, its result standing. -/
def Ctx.faulted (c : Ctx) : Ctx := { c with closeFault := true }

/-- A completed release whose closing fails: the jam is raised, the report enters, the context is freed. -/
theorem Part.closeFail_unlit {p : Part} {i n : Nat} {c : Ctx} (hc : Table.look p.ctxs i = some c) (hslot : c.slot = some n)
    (hres : c.result = some .released) (ended : ∀ w ∈ p.waitQ, w.ended ≠ none) (quiet : p.link.waiters = [])
    (few : p.link.reports.length < 62) : ∃ q : Part, (p.closeFail i c).unlit = q.unlit ∧ q.ctxs = Table.del p.ctxs i
      ∧ q.rows = Table.modify (Table.modify p.rows n (fun r => { r with lock := some .jammed })) n
        (fun y => if y.ctx = some i then { y with ctx := none } else y)
      ∧ q.alt.flags.getLsbD 5 = true ∧ (∀ d, q.chan d = (p.chan d).leaveClose i)
      ∧ q.link.reports.getLast? = some c.faulted.report := by
  obtain ⟨lmp, jammed⟩ := p.markJam_restA n
  have flag := p.markJam_flag n
  have unwaited : (p.markJam n).Unwaited 63 := by
    obtain ⟨ks, eq⟩ := p.markJam_eq n
    rw [eq]
    refine Part.Unwaited.raise (n := 61) ?_ (by decide) _ _ _
    exact ⟨quiet, Nat.le_of_lt_succ few⟩
  have step : p.closeFail i c = ((p.markJam n).onCtx i (fun c =>
    match c.result with
    | some .released => { c with closeFault := true }
    | some .lateTake => { c with closeFault := true }
    | some .notTaken => { c with result := some .lockFault }
    | some .cancelled => { c with result := some .lockFault }
    | _ => c)).ctxFinal i := by
    unfold Part.closeFail
    rw [hslot]
    rfl
  rw [step]
  generalize p.markJam n = z at *
  have ctxs : z.ctxs = p.ctxs := (congrArg Part.ctxs jammed :)
  have waitQ : z.waitQ = p.waitQ := (congrArg Part.waitQ jammed :)
  have rows : z.rows = Table.modify p.rows n (fun r => { r with lock := some .jammed }) := (congrArg Part.rows jammed :)
  have chan (d : Chan) : z.chan d = p.chan d := by
    cases d
    · exact (congrArg Part.chanA jammed :)
    · exact (congrArg Part.chanB jammed :)
  generalize hx : z.onCtx i _ = x
  have found : Table.look x.ctxs i = some c.faulted := by
    rw [← hx]
    show Table.look (Table.modify z.ctxs i _) i = _
    unfold Ctx.faulted
    rw [Table.look_modify_same, ctxs, hc, Option.map_some, hres]
  have same : x.link = z.link := by rw [← hx]; rfl
  have entered : x.ctxFinal i = (x.enter c.faulted.report).freeCtx i := by
    unfold Part.ctxFinal
    rw [found]
    dsimp only
    rw [if_pos ((unwaited.of_link same).room (by decide))]
  have freed := Part.freeCtx_unlit (p := x.enter c.faulted.report) found (by
    show ∀ w ∈ x.waitQ, w.ended ≠ none
    rw [← hx]
    show ∀ w ∈ z.waitQ, w.ended ≠ none
    rw [waitQ]
    exact ended)
  have slot : c.faulted.slot = some n := hslot
  rw [slot] at freed
  refine ⟨_, (congrArg Part.unlit entered).trans freed, ?_, ?_, ?_, fun d => ?_, List.getLast?_concat ..⟩
  · show Table.del x.ctxs i = _
    rw [← hx, ← ctxs]
    exact Table.del_modify _ _ _
  · show Table.modify x.rows n _ = _
    rw [← hx]
    show Table.modify z.rows n _ = _
    rw [rows]
  · show x.alt.flags.getLsbD 5 = true
    rw [← hx]
    exact flag
  · rw [← chan, ← hx]
    cases d <;> rfl

/-- Settles O39. -/
theorem lockLimitFailsTheClosing : Obligations.LockLimitFailsTheClosing := by
  unfold Obligations.LockLimitFailsTheClosing
  intro s i n w num place c r hc closing limit due hslot hrow hctx ended quiet few hsub hrental hres
  obtain ⟨q, fails, ctxs, rows, flag, chans, last⟩ := Part.closeFail_unlit hc hslot hres ended quiet few
  have expires : s.part.lockLimitClosing i = s.part.closeFail i c := by
    unfold Part.lockLimitClosing
    rw [hc]
    dsimp only
    rw [limit]
    exact if_pos ⟨closing, by simpa using due⟩
  obtain ⟨u, hu, -, hunlit⟩ := State.becomes_of_unlit (s := s) ((congrArg Part.unlit expires).trans fails)
  refine ⟨u, hu, (congrArg Part.ctxs hunlit :).trans ctxs, ?_, (congrArg (·.alt.flags.getLsbD 5) hunlit :).trans flag, fun d => ?_, ?_⟩
  · refine (congrArg (fun p => Table.look (Part.rows p) n) hunlit :).trans ?_
    show Table.look q.rows n = _
    rw [rows, Table.look_modify_same, Table.look_modify_same, hrow]
    exact congrArg some (if_pos hctx)
  · refine (congrArg Channel.queue (Part.chan_of_unlit hunlit d) :).trans ?_
    show (q.chan d).queue.filter _ = _
    rw [chans]
    exact congrArg (fun ch : Channel => ch.queue.filter (fun b => !b.isLampAny)) (Channel.leaveClose_eq _ _)
  · refine (congrArg (·.link.reports.getLast?) hunlit :).trans (last.trans (congrArg some ?_))
    exact Ctx.report_done (c := c.faulted) hsub hslot hrental hres (.inl rfl)

end Sys2Proof.Machine
end

section
/-! PROOFS. SETTLE_EXPIRY: what a settled removal or arrival is handed to (R10, R48, R163). -/

namespace Sys2Proof.Machine
open Sys2Proof

/-! ## Lamps that are touched before an alert -/

theorem Part.eq_graft_of_restA {p q : Part} (h : q.restA = p.restA) : q = q.graft p :=
  calc q = { q.restA with alt := q.alt, link := q.link } := rfl
    _ = { p.restA with alt := q.alt, link := q.link } := by rw [h]
    _ = q.graft p := by
      have clock : p.clock = q.clock := (congrArg Part.clock h :).symm
      have zone : p.zone = q.zone := (congrArg Part.zone h :).symm
      have policy : p.policy = q.policy := (congrArg Part.policy h :).symm
      unfold Part.graft
      rw [← clock, ← zone, ← policy]
      rfl

theorem Part.graft_touch {p q : Part} (h : q.restA = p.restA) (ks : List Nat) : q.graft (p.touch ks) = q.touch ks := by
  have shape : q.touch ks = (q.graft p).touch ks := by rw [← Part.eq_graft_of_restA h]
  rw [shape]
  rfl

theorem Part.raise_touch (p : Part) (ks : List Nat) (k : AlertKind) (s : Subject) (d : Option Detail) :
    (p.touch ks).raise k s d = (p.raise k s d).touch ks :=
  (p.raise_graft (p.touch ks) k s d).trans (Part.graft_touch (p.raise_restA k s d) ks)

theorem Part.offerOrd_touch (p : Part) (ks : List Nat) (r : Report) : (p.touch ks).offerOrd r = (p.offerOrd r).touch ks :=
  (p.offerOrd_graft (p.touch ks) r).trans (Part.graft_touch (p.offerOrd_restA r) ks)

/-! ## The settle that expires (R163) -/

/-- The row of slot n has settled to v. -/
def Part.settledTo (p : Part) (n : Nat) (v : Occ) : Part :=
  { p with rows := Table.modify p.rows n (fun r => { r with occ := some v, settle := none }) }

section Expire
variable {p : Part} {n m x : Nat} {r : SlotRow} (hrow : Table.look p.rows n = some r) (due : x ≤ p.mono)
include hrow due

theorem Part.settleExpire_departs {old : Occ} (hocc : r.occ = some old) (hsettle : r.settle = some ⟨.empty, m, x⟩)
    (full : old ≠ .empty) : ∃ ks, p.settleExpire n = ((p.settledTo n .empty).touch ks).keyLeft n old m := by
  refine ⟨[lampKey (p.slotEntry n).chan (p.slotEntry n).addr], ?_⟩
  unfold Part.settleExpire
  rw [show p.row n = some r from hrow]
  dsimp only
  rw [hsettle, hocc]
  dsimp only
  rw [if_neg (Nat.not_lt.mpr due), if_pos rfl, if_neg full]
  rfl

theorem Part.settleExpire_arrives {v : Occ} (hocc : r.occ = some .empty) (hsettle : r.settle = some ⟨v, m, x⟩)
    (full : v ≠ .empty) : ∃ ks, p.settleExpire n = ((p.settledTo n v).touch ks).keyArrived n v m false := by
  refine ⟨[lampKey (p.slotEntry n).chan (p.slotEntry n).addr], ?_⟩
  unfold Part.settleExpire
  rw [show p.row n = some r from hrow]
  dsimp only
  rw [hsettle, hocc]
  dsimp only
  rw [if_neg (Nat.not_lt.mpr due), if_pos rfl, if_neg full]
  rfl

end Expire

theorem Part.settledTo_row {p : Part} {n : Nat} {r : SlotRow} (hrow : Table.look p.rows n = some r) (v : Occ) :
    Table.look (p.settledTo n v).rows n = some { r with occ := some v, settle := none } := by
  unfold Part.settledTo
  rw [Table.look_modify_same, hrow]
  rfl

/-! ## The key that has left (R10, R11) -/

section Left
variable {p : Part} {n m : Nat} {r : SlotRow} {old : Occ} (hrow : Table.look p.rows n = some r)
include hrow

theorem Part.keyLeft_ctx {i : Nat} (hctx : r.ctx = some i) : p.keyLeft n old m = p.ctxKeyLeft i n old m := by
  have bound : (p.row n).bind (·.ctx) = some i := by
    rw [show p.row n = some r from hrow]
    exact hctx
  unfold Part.keyLeft
  rw [bound]

theorem Part.keyLeft_unknown (hctx : r.ctx = none) (unknown : p.keyOfOcc old = none) :
    p.keyLeft n old m = p.remove .foreign (.slot n) := by
  have bound : (p.row n).bind (·.ctx) = none := by
    rw [show p.row n = some r from hrow]
    exact hctx
  unfold Part.keyLeft
  rw [bound]
  dsimp only
  rw [unknown]

theorem Part.keyLeft_known (hctx : r.ctx = none) {h : Nat} {k : KeyRec} (known : p.keyOfOcc old = some (h, k)) :
    p.keyLeft n old m = if k.loc = some n then p.keyTaken h k else p := by
  have bound : (p.row n).bind (·.ctx) = none := by
    rw [show p.row n = some r from hrow]
    exact hctx
  unfold Part.keyLeft
  rw [bound]
  dsimp only
  rw [known]

end Left

/-! ## A removal at a context's slot (R48, R50, R51) -/

/-- The key that an occupancy named, where it is located at slot n. -/
def Part.locatedAt (p : Part) (old : Occ) (n : Nat) : Option (Nat × KeyRec) :=
  (p.keyOfOcc old).filter (fun e => e.2.loc == some n)

theorem Part.locatedAt_some {p : Part} {old : Occ} {n h : Nat} {k : KeyRec} (known : p.keyOfOcc old = some (h, k))
    (loc : k.loc = some n) : p.locatedAt old n = some (h, k) := by
  unfold Part.locatedAt
  rw [known, Option.filter_some, if_pos (by simpa using loc)]

theorem Part.locatedAt_none {p : Part} {old : Occ} {n : Nat} (h : ∀ j k, p.keyOfOcc old = some (j, k) → k.loc ≠ some n) :
    p.locatedAt old n = none := by
  unfold Part.locatedAt
  cases known : p.keyOfOcc old with
  | none => rfl
  | some e =>
    obtain ⟨j, k⟩ := e
    rw [Option.filter_some, if_neg (by simpa using h j k known)]

section Removal
variable {p : Part} {i n m : Nat} {c : Ctx} {old : Occ} (hc : Table.look p.ctxs i = some c)
include hc

/-- The removal that a rental's context waits for. -/
theorem Part.ctxKeyLeft_own {num h : Nat} {k : KeyRec} {a : Auth} (releasing : c.state.releasing = true)
    (hsub : c.req.subject = .rental num) (located : p.locatedAt old n = some (h, k)) (hkey : c.key = some h)
    (hauth : p.auth num = some a) : p.ctxKeyLeft i n old m = p.relComplete i c h k a m false := by
  have own : (p.locatedAt old n).filter (fun e => c.key == some e.1) = some (h, k) := by
    rw [located, Option.filter_some, if_pos (by simpa using hkey)]
  unfold Part.locatedAt at located own
  unfold Part.ctxKeyLeft
  rw [hc]
  dsimp only
  rw [releasing, if_pos rfl, hsub]
  dsimp only
  rw [own, hauth]

theorem Part.ctxKeyLeft_late {num h : Nat} {k : KeyRec} {a : Auth} (closing : c.state = .closing) (hres : c.result = some .notTaken)
    (hsub : c.req.subject = .rental num) (located : p.locatedAt old n = some (h, k)) (hauth : p.auth num = some a)
    (ok : lateOk a h k = true) : p.ctxKeyLeft i n old m = p.relComplete i c h k a m true := by
  unfold Part.locatedAt at located
  unfold Part.ctxKeyLeft
  rw [hc]
  dsimp only
  rw [closing, show CtxState.closing.releasing = false from rfl, if_neg nofun, if_pos ⟨rfl, hres⟩, hsub]
  dsimp only
  rw [located, hauth]
  dsimp only
  rw [if_pos ok]

/-- The removal of another key, or of none located there, at a context that no longer waits for one. -/
theorem Part.ctxKeyLeft_plain (over' : c.state = .closing ∨ c.state = .donePending) (early : ¬ (c.state = .closing
      ∧ c.result = some .notTaken ∧ match c.req.subject with
        | .rental num => ∃ h k a, p.locatedAt old n = some (h, k) ∧ p.auth num = some a ∧ lateOk a h k = true
        | .tag _ => ∃ (h : Nat) (k : KeyRec), p.locatedAt old n = some (h, k) ∧ c.key = some h ∧ (k.state = .inn ∨ k.state = .misplaced)
        | .slot _ => False)) :
    p.ctxKeyLeft i n old m = p.removalPlain n (p.locatedAt old n)
      ∨ p.ctxKeyLeft i n old m = (p.remove .foreign (.slot n)).removalPlain n (p.locatedAt old n) := by
  have idle : c.state.releasing = false := by rcases over' with h | h <;> rw [h] <;> rfl
  unfold Part.ctxKeyLeft
  rw [hc]
  dsimp only
  rw [idle, if_neg nofun]
  change (if c.state = .closing ∧ c.result = some .notTaken then _ else _) = _ ∨ (if _ then _ else _) = _
  by_cases late : c.state = .closing ∧ c.result = some .notTaken
  · rw [if_pos late]
    cases hsub : c.req.subject with
    | rental num =>
      rw [hsub] at early
      left
      dsimp only
      split
      · next h k a located hauth =>
        have notOk : lateOk a h k ≠ true := fun ok => early ⟨late.1, late.2, h, k, a, located, hauth, ok⟩
        exact if_neg notOk
      · rfl
    | tag y =>
      rw [hsub] at early
      left
      dsimp only
      split
      · next h k own =>
        obtain ⟨located, isOwn⟩ := Option.filter_eq_some_iff.mp own
        have away : ¬ (k.state = .inn ∨ k.state = .misplaced) := fun st =>
          early ⟨late.1, late.2, h, k, located, by simpa using isOwn, st⟩
        exact if_neg away
      · rfl
    | slot y => exact .inr rfl
  · rw [if_neg late]
    split
    · exact .inr rfl
    · exact .inl rfl

end Removal

/-! ## A release completes (R48) -/

/-- The rental that a release makes. -/
def Part.rentalMade (p : Part) (c : Ctx) (a : Auth) (h m : Nat) : Rental :=
  ⟨a.rental, h, m, a.due, a.grace.getD p.policy.graceDefault,
    tierOf p.policy.dueSoon p.policy.escalation a.due (a.grace.getD p.policy.graceDefault) p.now, 0,
    if c.req.kind = .pickup then .kiosk else .counter, none⟩

/-- The record of a context whose release is complete. -/
def Ctx.completes (c : Ctx) (place h m : Nat) (res : CtxResult) : Ctx :=
  { c with reservation := none, rental := some place, out := m, key := some h, result := some res }

/-- What a release that completes writes besides its rental. -/
def Part.keyOut (p : Part) (i place h : Nat) (k : KeyRec) (a : Auth) (m : Nat) (res : CtxResult) : Part :=
  { p with
    ctxs := Table.modify p.ctxs i (·.completes place h m res), auths := p.auths.filter (fun y => y.rental != a.rental)
    keys := Table.put p.keys h (k.gone .out (some place) none) }

theorem insertBy_mem (before : Nat → Nat → Bool) (i : Nat) (l : List Nat) : i ∈ insertBy before i l := by
  induction l with
  | nil => exact List.mem_singleton.mpr rfl
  | cons j l ih =>
    rw [insertBy]
    split
    · exact List.mem_cons_self
    · exact List.mem_cons_of_mem _ ih

/-- A record is created: its place, its tier, the Due List. -/
theorem Part.createRental_leaves (p : Part) (i number key out due grace : Nat) (kind : RentalKind) :
    Table.look (p.createRental i number key out due grace kind).rentals i
        = some ⟨number, key, out, due, grace, tierOf p.policy.dueSoon p.policy.escalation due grace p.now, 0, kind, none⟩
      ∧ i ∈ (p.createRental i number key out due grace kind).due
      ∧ (p.createRental i number key out due grace kind).restT
        = ({ p with due := (p.createRental i number key out due grace kind).due } : Part).restT := by
  let r : Rental := ⟨number, key, out, due, grace, .onTime, 0, kind, none⟩
  obtain ⟨ks, touched⟩ := Part.touchSlotO_touch { p with rentals := Table.put p.rentals i r } (p.homeOf key)
  have made : p.createRental i number key out due grace kind
      = (((({ p with rentals := Table.put p.rentals i r } : Part).touch ks).dueInsert i).recomputeTier i) := by
    unfold Part.createRental
    dsimp only
    rw [touched]
  rw [made]
  have rest := ((({ p with rentals := Table.put p.rentals i r } : Part).touch ks).dueInsert i).recomputeTier_restT i
  have look := ((({ p with rentals := Table.put p.rentals i r } : Part).touch ks).dueInsert i).recomputeTier_look i i
  have dues : ((((({ p with rentals := Table.put p.rentals i r } : Part).touch ks).dueInsert i).recomputeTier i)).due
      = ((({ p with rentals := Table.put p.rentals i r } : Part).touch ks).dueInsert i).due := (congrArg Part.due rest :)
  refine ⟨?_, ?_, ?_⟩
  · rw [look, if_pos rfl]
    show (Table.look (Table.put p.rentals i r) i).map _ = _
    rw [Table.look_put_same]
    rfl
  · rw [dues]
    exact insertBy_mem _ _ _
  · rw [rest, dues]
    rfl

/-- What a release that completes makes of the part, its context not yet asked to close. -/
structure Part.Completed (p q : Part) (i place h : Nat) (c : Ctx) (k : KeyRec) (a : Auth) (m : Nat) (res : CtxResult) : Prop where
  rental : Table.look q.rentals place = some (p.rentalMade c a h m)
  due : place ∈ q.due
  rest : q.restT = ({ p.keyOut i place h k a m res with due := q.due } : Part).restT

theorem Part.relComplete_late {p : Part} {i place h : Nat} {c : Ctx} (hres : c.reservation = some place) (k : KeyRec) (a : Auth)
    (m : Nat) : p.Completed (p.relComplete i c h k a m true) i place h c k a m .lateTake := by
  obtain ⟨ks, hks⟩ := Part.setKey_touch { p with
    ctxs := Table.modify p.ctxs i (·.completes place h m .lateTake)
    auths := p.auths.filter (fun y => y.rental != a.rental) } h (k.gone .out (some place) none)
  have complete : p.relComplete i c h k a m true = ((p.keyOut i place h k a m .lateTake).touch ks).createRental place a.rental h m a.due
      (a.grace.getD p.policy.graceDefault) (if c.req.kind = .pickup then .kiosk else .counter) := by
    unfold Part.relComplete
    rw [hres]
    dsimp only
    rw [if_pos rfl]
    exact congrArg (fun q : Part => q.createRental place a.rental h m a.due (a.grace.getD q.policy.graceDefault)
      (if c.req.kind = .pickup then .kiosk else .counter)) hks
  obtain ⟨rental, due, rest⟩ := ((p.keyOut i place h k a m .lateTake).touch ks).createRental_leaves place a.rental h m a.due
    (a.grace.getD p.policy.graceDefault) (if c.req.kind = .pickup then .kiosk else .counter)
  rw [complete]
  exact ⟨rental, due, rest⟩

theorem Part.relComplete_closes {p : Part} {i n place h : Nat} {c : Ctx} (hslot : c.slot = some n) (hres : c.reservation = some place)
    (k : KeyRec) (a : Auth) (m : Nat) : ∃ q ks, p.relComplete i c h k a m false = (q.closesAt i n).touch ks
      ∧ p.Completed q i place h c k a m .released := by
  obtain ⟨ks, hks⟩ := Part.setKey_touch { p with
    ctxs := Table.modify p.ctxs i (·.completes place h m .released)
    auths := p.auths.filter (fun y => y.rental != a.rental) } h (k.gone .out (some place) none)
  have complete : p.relComplete i c h k a m false = (((p.keyOut i place h k a m .released).touch ks).createRental place a.rental h m
      a.due (a.grace.getD p.policy.graceDefault) (if c.req.kind = .pickup then .kiosk else .counter)).beginClose i c := by
    unfold Part.relComplete
    rw [hres]
    dsimp only
    rw [if_neg nofun]
    exact congrArg (fun q : Part => (q.createRental place a.rental h m a.due (a.grace.getD q.policy.graceDefault)
      (if c.req.kind = .pickup then .kiosk else .counter)).beginClose i c) hks
  obtain ⟨rental, due, rest⟩ := ((p.keyOut i place h k a m .released).touch ks).createRental_leaves place a.rental h m a.due
    (a.grace.getD p.policy.graceDefault) (if c.req.kind = .pickup then .kiosk else .counter)
  obtain ⟨ls, closed⟩ := Part.beginClose_touch (((p.keyOut i place h k a m .released).touch ks).createRental place a.rental h m
      a.due (a.grace.getD p.policy.graceDefault) (if c.req.kind = .pickup then .kiosk else .counter)) i hslot
  exact ⟨_, ls, complete.trans closed, rental, due, rest⟩

end Sys2Proof.Machine
end

section
/-! PROOFS. SETTLE_EXPIRY of a removal (R11, R33, R48, R50). -/

namespace Sys2Proof.Machine
open Sys2Proof

/-! ## A key that is taken, an occupant that goes -/

/-- A new alert stands youngest in the register. -/
theorem Part.raise_listed {p : Part} {k : AlertKind} {s : Subject} {d : Option Detail} {i : Nat} (hnone : p.alt.find k s = none)
    (hfree : p.alt.freePlace = some i) : (p.raise k s d).alt.entries.map (fun e => (e.kind, e.subject))
      = p.alt.entries.map (fun e => (e.kind, e.subject)) ++ [(k, s)] := by
  obtain ⟨g, alt⟩ := (p.setFlag k.code).register_alt i k s d
  have others : p.alt.entries.filter (fun x => x.place != i) = p.alt.entries := by
    rw [List.filter_eq_self]
    intro e he
    exact bne_iff_ne.mpr ((Alt.freePlace_free hfree).1 e he)
  rw [p.raise_free k s d hnone hfree, alt]
  show ((p.alt.entries.filter (fun x : AlertEntry => x.place != i)) ++ [_]).map _ = _
  rw [others, List.map_append]
  rfl

theorem Part.remove_entries {p : Part} {k : AlertKind} {s : Subject} {e : AlertEntry} (he : p.alt.find k s = some e) :
    (p.remove k s).alt.entries = p.alt.entries.filter (fun x => x.place != e.place) := by
  rw [Part.remove_found he]
  dsimp only
  split
  · unfold Part.giveUpAlert
    split <;> rfl
  · unfold Part.offerNotice
    split <;> rfl

/-- Where each kind and subject has one entry, an alert removed is gone. -/
theorem Part.remove_gone {p : Part} (distinct : (p.alt.entries.map (fun e => (e.kind, e.subject))).Nodup) (k : AlertKind)
    (s : Subject) : (p.remove k s).alt.find k s = none := by
  cases find : p.alt.find k s with
  | none => rw [Part.remove_none find]; exact find
  | some e =>
    unfold Alt.find
    rw [Part.remove_entries find, List.find?_eq_none]
    intro x hx isSame
    obtain ⟨mem, place⟩ := List.mem_filter.mp hx
    have named := List.find?_some find
    have inList := List.mem_of_find?_eq_some find
    simp only [Bool.and_eq_true, beq_iff_eq] at isSame named
    have same : x = e := List.inj_on_of_nodup_map distinct mem inList (Prod.ext (isSame.1.trans named.1.symm) (isSame.2.trans named.2.symm))
    rw [same] at place
    exact absurd place (by simp)

/-- What a key that is taken makes of a part that has lost at most an alert before. -/
theorem Part.keyTaken_of_restA {p q : Part} (h : q.restA = p.restA) (j : Nat) (k : KeyRec) : ∃ lmp,
    (q.keyTaken j k).restA = ({ p with
      keys := Table.put p.keys j k.taken, lmp := lmp
      auths := if k.state = .assigned then p.retargeted j k.cls else p.auths } : Part).restA := by
  obtain ⟨lmp, taken⟩ := q.keyTaken_leaves j k
  have keys : q.keys = p.keys := (congrArg Part.keys h :)
  have auths : q.auths = p.auths := (congrArg Part.auths h :)
  have same : q.retargeted j k.cls = p.retargeted j k.cls := by
    unfold Part.retargeted
    rw [auths]
  refine ⟨lmp, taken.trans ?_⟩
  rw [keys, auths, same]
  exact congrArg (fun x : Part => ({ x with
    keys := Table.put p.keys j k.taken, lmp := lmp
    auths := if k.state = .assigned then p.retargeted j k.cls else p.auths } : Part)) h

/-! ## The removal that a rental's context waits for (R48, R50) -/

section Settled
variable {s : State} {n m x : Nat} {r : SlotRow} (hrow : Table.look s.part.rows n = some r) (due : x ≤ s.part.mono)
include hrow due

/-- The removal at a context's slot. -/
theorem State.removal_at {i : Nat} {old : Occ} (hctx : r.ctx = some i) (hocc : r.occ = some old) (full : old ≠ .empty)
    (hsettle : r.settle = some ⟨.empty, m, x⟩) : ∃ ks, s.part.settleExpire n
      = ((s.part.settledTo n .empty).touch ks).ctxKeyLeft i n old m := by
  obtain ⟨ks, departs⟩ := Part.settleExpire_departs hrow due hocc hsettle full
  have row : Table.look ((s.part.settledTo n .empty).touch ks).rows n = some { r with occ := some .empty, settle := none } :=
    Part.settledTo_row hrow .empty
  exact ⟨ks, departs.trans (Part.keyLeft_ctx row hctx)⟩

theorem State.removal_completes {i h t place : Nat} {c : Ctx} {a : Auth} {k : KeyRec} (carries : s.part.Carries i n c a h k)
    (settling : c.state = .removedSettling) (hres : c.reservation = some place) (hctx : r.ctx = some i)
    (hocc : r.occ = some (.tag t)) (hsettle : r.settle = some ⟨.empty, m, x⟩) (tagged : s.part.keyByTag t = some (h, k)) :
    ∃ u, exec (.settleExpiry n) s = .next u
      ∧ Table.look u.part.rows n = some { r with occ := some .empty, settle := none }
      ∧ Table.look u.part.rentals place = some (s.part.rentalMade c a h m)
      ∧ Table.look u.part.keys h = some (k.gone .out (some place) none)
      ∧ u.part.auths = s.part.auths.filter (fun y => y.rental != a.rental)
      ∧ Table.look u.part.ctxs i = some { c with
          state := .closing, reservation := none, rental := some place, out := m, result := some .released
          lockLimit := some (s.part.mono + 2000), window := none, lockSent := false }
      ∧ place ∈ u.part.due := by
  obtain ⟨hc, hslot, hkey, hsub, hauth, -, -, -, -, hloc, -⟩ := carries
  obtain ⟨ks, departs⟩ := State.removal_at hrow due hctx hocc nofun hsettle
  have own := Part.ctxKeyLeft_own (p := (s.part.settledTo n .empty).touch ks) (m := m) (old := .tag t) hc
    (by rw [settling]; rfl) hsub (Part.locatedAt_some tagged hloc) hkey hauth
  obtain ⟨q, ls, complete, done⟩ := Part.relComplete_closes (p := (s.part.settledTo n .empty).touch ks) (i := i) (h := h) hslot hres k a m
  obtain ⟨A, B, closed⟩ := q.closesAt_leaves i n
  obtain ⟨u, hu, -, hunlit⟩ := State.becomes_of_unlit (s := s) (congrArg Part.unlit ((departs.trans own).trans complete))
  rw [Part.touch_unlit, closed] at hunlit
  have rest := done.rest
  refine ⟨u, hu, ?_, ?_, ?_, ?_, ?_, ?_⟩
  · refine (congrArg (fun p => Table.look (Part.rows p) n) hunlit :).trans ((congrArg (fun p => Table.look (Part.rows p) n) rest :).trans ?_)
    exact Part.settledTo_row hrow .empty
  · exact (congrArg (fun p => Table.look (Part.rentals p) place) hunlit :).trans done.rental
  · refine (congrArg (fun p => Table.look (Part.keys p) h) hunlit :).trans ((congrArg (fun p => Table.look (Part.keys p) h) rest :).trans ?_)
    exact Table.look_put_same _ _ _
  · exact (congrArg Part.auths hunlit :).trans (congrArg Part.auths rest :)
  · have ctxs : q.ctxs = Table.modify s.part.ctxs i (·.completes place h m .released) := (congrArg Part.ctxs rest :)
    have mono : q.mono = s.part.mono := (congrArg Part.mono rest :)
    refine (congrArg (fun p => Table.look (Part.ctxs p) i) hunlit :).trans ?_
    show Table.look (Table.modify q.ctxs i (·.closes q.mono)) i = _
    rw [Table.look_modify_same, ctxs, Table.look_modify_same, hc, mono]
    show some ((c.completes place h m .released).closes s.part.mono) = _
    unfold Ctx.closes Ctx.completes
    rw [← hkey]
  · have dues : u.part.due = q.due := (congrArg Part.due hunlit :)
    rw [dues]
    exact done.due

theorem State.removal_late {i h t place : Nat} {c : Ctx} {a : Auth} {k : KeyRec} (hctx : r.ctx = some i)
    (hocc : r.occ = some (.tag t)) (hsettle : r.settle = some ⟨.empty, m, x⟩) (tagged : s.part.keyByTag t = some (h, k))
    (hloc : k.loc = some n) (hc : Table.look s.part.ctxs i = some c) (closing : c.state = .closing) (early : c.result = some .notTaken)
    (hres : c.reservation = some place) (hsub : c.req.subject = .rental a.rental) (hauth : s.part.auth a.rental = some a)
    (ok : lateOk a h k = true) : ∃ u, exec (.settleExpiry n) s = .next u
      ∧ Table.look u.part.rentals place = some (s.part.rentalMade c a h m)
      ∧ Table.look u.part.keys h = some (k.gone .out (some place) none)
      ∧ u.part.auths = s.part.auths.filter (fun y => y.rental != a.rental)
      ∧ Table.look u.part.ctxs i = some (c.completes place h m .lateTake)
      ∧ (∀ d, (u.part.chan d).queue.filter (fun b => !b.isLampAny) = (s.part.chan d).queue.filter (fun b => !b.isLampAny))
      ∧ place ∈ u.part.due := by
  obtain ⟨ks, departs⟩ := State.removal_at hrow due hctx hocc nofun hsettle
  have late := Part.ctxKeyLeft_late (p := (s.part.settledTo n .empty).touch ks) (m := m) (old := .tag t) hc closing early hsub
    (Part.locatedAt_some tagged hloc) hauth ok
  have done := Part.relComplete_late (p := (s.part.settledTo n .empty).touch ks) (i := i) (h := h) hres k a m
  obtain ⟨u, hu, -, hunlit⟩ := State.becomes_of_eq (s := s) (departs.trans late)
  have rest := done.rest
  generalize ((s.part.settledTo n .empty).touch ks).relComplete i c h k a m true = q at *
  refine ⟨u, hu, (congrArg (fun p => Table.look (Part.rentals p) place) hunlit :).trans done.rental, ?_,
    (congrArg Part.auths hunlit :).trans (congrArg Part.auths rest :), ?_, fun d => ?_, ?_⟩
  · refine (congrArg (fun p => Table.look (Part.keys p) h) hunlit :).trans ((congrArg (fun p => Table.look (Part.keys p) h) rest :).trans ?_)
    exact Table.look_put_same _ _ _
  · refine (congrArg (fun p => Table.look (Part.ctxs p) i) hunlit :).trans ((congrArg (fun p => Table.look (Part.ctxs p) i) rest :).trans ?_)
    show Table.look (Table.modify s.part.ctxs i _) i = _
    rw [Table.look_modify_same, hc]
    rfl
  · have chan : q.chan d = s.part.chan d := by
      cases d
      · exact (congrArg Part.chanA rest :)
      · exact (congrArg Part.chanB rest :)
    rw [← chan]
    exact (congrArg Channel.queue (Part.chan_of_unlit hunlit d) :)
  · have dues : u.part.due = q.due := (congrArg Part.due hunlit :)
    rw [dues]
    exact done.due

end Settled

/-! ## A removal that is no release (R11, R33, R50) -/

theorem lateOk_iff {a : Auth} {h : Nat} {k : KeyRec} : lateOk a h k = true
    ↔ a.state = .waiting ∧ (a.target = .key h ∨ (a.target = .cls k.cls ∧ k.state ≠ .assigned)) := by
  unfold lateOk
  simp only [Bool.and_eq_true, Bool.or_eq_true, beq_iff_eq, bne_iff_ne]
  constructor
  · rintro ⟨⟨waiting, target⟩, free⟩
    refine ⟨waiting, ?_⟩
    rcases target with key | cls
    · exact .inl key
    · exact free.elim (fun free => .inr ⟨cls, free⟩) .inl
  · rintro ⟨waiting, key | ⟨cls, free⟩⟩
    · exact ⟨⟨waiting, .inl key⟩, .inr key⟩
    · exact ⟨⟨waiting, .inr cls⟩, .inl free⟩

/-- A key is taken from slot n, as the part u shows. -/
structure Part.TakenFrom (p u : Part) (n h : Nat) (k : KeyRec) : Prop where
  rows : u.rows = (p.settledTo n .empty).rows
  ctxs : u.ctxs = p.ctxs
  key : Table.look u.keys h = some k.taken
  flag : u.alt.flags.getLsbD 2 = true
  rentals : u.rentals = p.rentals
  kept : k.state ≠ .assigned → u.auths = p.auths
  named : ∀ pre y post, k.state = .assigned → p.auths = pre ++ y :: post → y.state ≠ .active → y.target = .key h →
    (∀ z ∈ pre, ¬ (z.state ≠ .active ∧ z.target = .key h)) →
    u.auths = p.auths.map (fun z => if z.rental = y.rental then { z with target := .cls k.cls } else z)

theorem Part.takenFrom {p u q : Part} {n h : Nat} {k : KeyRec} {ks : List Nat}
    (same : q.restA = ((p.settledTo n .empty).touch ks).restA) (hu : u.unlit = (q.keyTaken h k).unlit) : p.TakenFrom u n h k := by
  obtain ⟨lmp, taken⟩ := Part.keyTaken_of_restA same h k
  have auths : u.auths = if k.state = .assigned then p.retargeted h k.cls else p.auths :=
    (congrArg Part.auths hu :).trans (congrArg Part.auths taken :)
  refine ⟨(congrArg Part.rows hu :).trans (congrArg Part.rows taken :), (congrArg Part.ctxs hu :).trans (congrArg Part.ctxs taken :), ?_,
    (congrArg (·.alt.flags.getLsbD 2) hu :).trans (q.keyTaken_flag h k),
    (congrArg Part.rentals hu :).trans (congrArg Part.rentals taken :), fun free => ?_, fun pre y post assigned split idle names before => ?_⟩
  · have keys : u.keys = Table.put p.keys h k.taken := (congrArg Part.keys hu :).trans (congrArg Part.keys taken :)
    rw [keys]
    exact Table.look_put_same _ _ _
  · rw [auths, if_neg free]
  · rw [auths, if_pos assigned]
    exact Part.retargeted_first k.cls split idle names before

section Settled
variable {s : State} {n m x : Nat} {r : SlotRow} (hrow : Table.look s.part.rows n = some r) (due : x ≤ s.part.mono)
include hrow due

/-- A key located at the slot of a context that waits for none is taken. -/
theorem State.removal_takes {i t h : Nat} {c : Ctx} {k : KeyRec} (hctx : r.ctx = some i) (hocc : r.occ = some (.tag t))
    (hsettle : r.settle = some ⟨.empty, m, x⟩) (hc : Table.look s.part.ctxs i = some c)
    (ended : c.state = .closing ∨ c.state = .donePending) (tagged : s.part.keyByTag t = some (h, k)) (hloc : k.loc = some n)
    (early : ¬ (c.state = .closing ∧ c.result = some .notTaken ∧ match c.req.subject with
        | .rental num => ∃ a, s.part.auth num = some a ∧ a.state = .waiting
            ∧ (a.target = .key h ∨ (a.target = .cls k.cls ∧ k.state ≠ .assigned))
        | .tag _ => c.key = some h ∧ (k.state = .inn ∨ k.state = .misplaced)
        | .slot _ => False)) :
    ∃ u, exec (.settleExpiry n) s = .next u ∧ s.part.TakenFrom u.part n h k := by
  obtain ⟨ks, departs⟩ := State.removal_at hrow due hctx hocc nofun hsettle
  have located := Part.locatedAt_some (p := (s.part.settledTo n .empty).touch ks) (old := .tag t) tagged hloc
  have plain := Part.ctxKeyLeft_plain (p := (s.part.settledTo n .empty).touch ks) (n := n) (m := m) (old := .tag t) hc ended (by
    rintro ⟨closing, res, late⟩
    refine early ⟨closing, res, ?_⟩
    cases hsub : c.req.subject with
    | rental num =>
      rw [hsub] at late
      obtain ⟨h', k', a, located', hauth, ok⟩ := late
      rw [located] at located'
      obtain ⟨rfl, rfl⟩ : h = h' ∧ k = k' := by simpa using located'
      exact ⟨a, hauth, lateOk_iff.mp ok⟩
    | tag y =>
      rw [hsub] at late
      obtain ⟨h', k', located', own, st⟩ := late
      rw [located] at located'
      obtain ⟨rfl, rfl⟩ : h = h' ∧ k = k' := by simpa using located'
      exact ⟨own, st⟩
    | slot y =>
      rw [hsub] at late
      exact late)
  rw [located] at plain
  rcases plain with plain | plain
  · obtain ⟨u, hu, -, hunlit⟩ := State.becomes_of_eq (s := s) (departs.trans plain)
    exact ⟨u, hu, Part.takenFrom rfl hunlit⟩
  · obtain ⟨u, hu, -, hunlit⟩ := State.becomes_of_eq (s := s) (departs.trans plain)
    exact ⟨u, hu, Part.takenFrom (Part.remove_restA _ _ _) hunlit⟩

/-- An occupant that is no key located there takes its FOREIGN entry along. -/
theorem State.removal_foreign {i : Nat} {old : Occ} {c : Ctx} (hctx : r.ctx = some i) (hocc : r.occ = some old) (full : old ≠ .empty)
    (hsettle : r.settle = some ⟨.empty, m, x⟩) (hc : Table.look s.part.ctxs i = some c)
    (ended : c.state = .closing ∨ c.state = .donePending)
    (stranger : old = .unread ∨ (∃ t, old = .tag t ∧ ∀ h k, s.part.keyByTag t = some (h, k) → k.loc ≠ some n))
    (distinct : (s.part.alt.entries.map (fun e => (e.kind, e.subject))).Nodup) :
    s.Becomes (exec (.settleExpiry n) s) ((s.part.settledTo n .empty).remove .foreign (.slot n)) := by
  obtain ⟨ks, departs⟩ := State.removal_at hrow due hctx hocc full hsettle
  have none : ((s.part.settledTo n .empty).touch ks).locatedAt old n = none := by
    refine Part.locatedAt_none fun h k known => ?_
    rcases stranger with rfl | ⟨t, rfl, elsewhere⟩
    · cases known
    · exact elsewhere h k known
  have plain := Part.ctxKeyLeft_plain (p := (s.part.settledTo n .empty).touch ks) (n := n) (m := m) (old := old) hc ended (by
    rintro ⟨-, -, late⟩
    cases hsub : c.req.subject with
    | rental num =>
      rw [hsub] at late
      obtain ⟨h', k', a, located', -⟩ := late
      rw [none] at located'
      cases located'
    | tag y =>
      rw [hsub] at late
      obtain ⟨h', k', located', -⟩ := late
      rw [none] at located'
      cases located'
    | slot y =>
      rw [hsub] at late
      exact late)
  rw [none] at plain
  have once : ((s.part.settledTo n .empty).touch ks).remove .foreign (.slot n)
      = ((s.part.settledTo n .empty).remove .foreign (.slot n)).touch ks := Part.remove_touch _ _ _ _
  refine State.becomes_of_unlit ?_
  show (s.part.settleExpire n).unlit = _
  rw [departs]
  rcases plain with plain | plain
  · rw [plain]
    show (((s.part.settledTo n .empty).touch ks).remove .foreign (.slot n)).unlit = _
    rw [once]
    rfl
  · rw [plain]
    show ((((s.part.settledTo n .empty).touch ks).remove .foreign (.slot n)).remove .foreign (.slot n)).unlit = _
    rw [Part.remove_none (Part.remove_gone (p := (s.part.settledTo n .empty).touch ks) distinct .foreign (.slot n)), once]
    rfl

end Settled

end Sys2Proof.Machine
end

section
/-! PROOFS. SETTLE_EXPIRY of a removal where no context waits, and of an arrival (R11, R60 to R69). -/

namespace Sys2Proof.Machine
open Sys2Proof

/-! ## A key that is taken where no context waits (R11) -/

/-- The TAKEN alert of a key that no authorization names stands youngest. -/
theorem Part.keyTaken_listed {p : Part} {h y : Nat} {k : KeyRec} (hnone : p.alt.find .taken (.key h) = none)
    (hfree : p.alt.freePlace = some y) (free : k.state ≠ .assigned) : (p.keyTaken h k).alt.entries.map (fun e => (e.kind, e.subject))
      = p.alt.entries.map (fun e => (e.kind, e.subject)) ++ [(.taken, .key h)] := by
  obtain ⟨ks, hks⟩ := p.setKey_touch h (k.gone .missing none none)
  unfold Part.keyTaken
  dsimp only
  rw [if_neg free, hks]
  exact Part.raise_listed (by exact hnone) (by exact hfree)

section Settled
variable {s : State} {n m x : Nat} {r : SlotRow} (hrow : Table.look s.part.rows n = some r) (due : x ≤ s.part.mono)
include hrow due

theorem State.removal_noCtx {old : Occ} (hctx : r.ctx = none) (hocc : r.occ = some old) (hsettle : r.settle = some ⟨.empty, m, x⟩)
    (full : old ≠ .empty) :
    (∀ t h k, old = .tag t → s.part.keyByTag t = some (h, k) →
      (k.loc ≠ some n → s.Becomes (exec (.settleExpiry n) s) (s.part.settledTo n .empty))
      ∧ (k.loc = some n → ∃ u, exec (.settleExpiry n) s = .next u ∧ s.part.TakenFrom u.part n h k
        ∧ ∀ y, s.part.alt.find .taken (.key h) = none → s.part.alt.freePlace = some y → k.state ≠ .assigned →
          u.part.alt.entries.map (fun e => (e.kind, e.subject))
            = s.part.alt.entries.map (fun e => (e.kind, e.subject)) ++ [(.taken, .key h)]))
    ∧ (old = .unread ∨ (∃ t, old = .tag t ∧ s.part.keyByTag t = none) →
      s.Becomes (exec (.settleExpiry n) s) ((s.part.settledTo n .empty).remove .foreign (.slot n))) := by
  obtain ⟨ks, departs⟩ := Part.settleExpire_departs hrow due hocc hsettle full
  have row : Table.look ((s.part.settledTo n .empty).touch ks).rows n = some { r with occ := some .empty, settle := none } :=
    Part.settledTo_row hrow .empty
  refine ⟨?_, fun stranger => ?_⟩
  · rintro t h k rfl tagged
    have left := Part.keyLeft_known (m := m) (old := .tag t) row hctx (h := h) (k := k) (by exact tagged)
    refine ⟨fun elsewhere => ?_, fun here => ?_⟩
    · rw [if_neg elsewhere] at left
      refine State.becomes_of_unlit ?_
      exact (congrArg Part.unlit (departs.trans left)).trans (Part.touch_unlit _ _)
    · rw [if_pos here] at left
      obtain ⟨u, hu, -, hunlit⟩ := State.becomes_of_eq (s := s) (departs.trans left)
      refine ⟨u, hu, Part.takenFrom rfl hunlit, fun y hnone hfree free => ?_⟩
      exact (congrArg (·.alt.entries.map (fun e => (e.kind, e.subject))) hunlit :).trans
        (Part.keyTaken_listed (by exact hnone) (by exact hfree) free)
  · have unknown : ((s.part.settledTo n .empty).touch ks).keyOfOcc old = none := by
      rcases stranger with rfl | ⟨t, rfl, none⟩
      · rfl
      · exact none
    refine State.becomes_of_unlit (congrArg Part.unlit (departs.trans (Part.keyLeft_unknown row hctx unknown)) |>.trans ?_)
    rw [Part.remove_touch]
    rfl

end Settled

/-! ## A key that arrives (R10, R60 to R69) -/


/-- A key record is written over lamps marked before. -/
theorem Part.setKey_marked (p : Part) (ks : List Nat) (h : Nat) (k : KeyRec) : ∃ ls,
    (p.touch ks).setKey h k = ({ p with keys := Table.put p.keys h k } : Part).touch ls := by
  obtain ⟨ls, hls⟩ := (p.touch ks).setKey_touch h k
  exact ⟨ks ++ ls, hls.trans (Part.touch_touch { p with keys := Table.put p.keys h k } ks ls)⟩

/-- An ordinary report that finds place enters. -/
theorem Part.offerOrd_entered {p : Part} (ks : List Nat) (r : Report) (room : p.link.reports.length < 48) :
    ((p.touch ks).offerOrd r).unlit = (p.queued r).unlit := by
  rw [Part.offerOrd_room r (by exact room)]
  rfl

/-- A key leaves the Drop Bin list where no DROP_FULL stands. -/
theorem Part.dropOut_quiet {p : Part} (quiet : ∀ d ∈ p.dropSlots, p.alt.find .dropFull (.slot d) = none) (h : Nat) :
    ∃ ks, p.dropOut h = ({ p with dropBin := p.dropBin.filter (fun e => e.key != h) } : Part).touch ks := by
  have unchanged : ∀ (l : List Nat) (q : Part), (∀ d ∈ l, q.alt.find .dropFull (.slot d) = none) →
      l.foldl (fun q d => q.remove .dropFull (.slot d)) q = q := by
    intro l q
    induction l with
    | nil => exact fun _ => rfl
    | cons d l ih =>
      intro quiet
      rw [List.foldl_cons, Part.remove_none (quiet d List.mem_cons_self)]
      exact ih fun e he => quiet e (List.mem_cons_of_mem _ he)
  unfold Part.dropOut Part.dropRoom
  split
  · exact ⟨_, congrArg (Part.touch · _) (unchanged _ _ quiet)⟩
  · exact ⟨[], by unfold Part.touch; rw [List.append_nil]⟩

section Arrived
variable {p : Part} {n m h t : Nat} {k : KeyRec} (ks : List Nat) (tagged : p.keyByTag t = some (h, k))
include tagged

theorem Part.keyArrived_away {cause : AwayCause} (away : k.state = .away) (hcause : k.away = some cause)
    (room : p.link.reports.length < 48) : ((p.touch ks).keyArrived n (.tag t) m false).unlit
      = (({ p with keys := Table.put p.keys h (k.placed n m) } : Part).queued (keyBackReport h n cause.code)).unlit := by
  obtain ⟨ls, placed⟩ := p.setKey_marked ks h (k.placed n m)
  have known : (p.touch ks).keyOfOcc (.tag t) = some (h, k) := tagged
  unfold Part.keyArrived
  rw [known]
  dsimp only
  rw [away, hcause]
  dsimp only
  rw [placed]
  exact Part.offerOrd_entered ls _ room

theorem Part.keyArrived_missing (missing : k.state = .missing)
    (room : (({ p with keys := Table.put p.keys h (k.placed n m) } : Part).remove .taken (.key h)).link.reports.length < 48) :
    ((p.touch ks).keyArrived n (.tag t) m false).unlit
      = ((({ p with keys := Table.put p.keys h (k.placed n m) } : Part).remove .taken (.key h)).queued
        ⟨.keyFound, 255, beBytes 2 h ++ beBytes 2 n⟩).unlit := by
  obtain ⟨ls, placed⟩ := p.setKey_marked ks h (k.placed n m)
  have known : (p.touch ks).keyOfOcc (.tag t) = some (h, k) := tagged
  unfold Part.keyArrived
  rw [known]
  dsimp only
  rw [missing]
  dsimp only
  rw [placed, Part.remove_touch]
  exact Part.offerOrd_entered ls _ room

theorem Part.keyArrived_dropped (dropped : k.state = .dropped) (room : p.link.reports.length < 48)
    (quiet : ∀ d ∈ p.dropSlots, p.alt.find .dropFull (.slot d) = none) :
    ((p.touch ks).keyArrived n (.tag t) m false).unlit
      = (({ p with
          keys := Table.put p.keys h (k.placed n m)
          dropBin := p.dropBin.filter (fun e => e.key != h) } : Part).queued (keyBackReport h n 4)).unlit := by
  obtain ⟨js, out⟩ := Part.dropOut_quiet (p := p.touch ks) (by exact quiet) h
  obtain ⟨ls, placed⟩ := Part.setKey_marked
    (({ p.touch ks with dropBin := p.dropBin.filter (fun e => e.key != h) } : Part)) js h (k.placed n m)
  have known : (p.touch ks).keyOfOcc (.tag t) = some (h, k) := tagged
  unfold Part.keyArrived
  rw [known]
  dsimp only
  rw [dropped]
  dsimp only
  rw [out]
  refine (congrArg (fun q : Part => (q.offerOrd (keyBackReport h n 4)).unlit) placed).trans ?_
  exact Part.offerOrd_entered ls _ room

theorem Part.keyArrived_stays (located : k.state = .inn ∨ k.state = .misplaced ∨ k.state = .assigned) (here : k.loc = some n) :
    (p.touch ks).keyArrived n (.tag t) m false = p.touch ks := by
  have known : (p.touch ks).keyOfOcc (.tag t) = some (h, k) := tagged
  unfold Part.keyArrived
  rw [known]
  rcases located with hst | hst | hst <;> (dsimp only; rw [hst]; exact if_pos here)

theorem Part.keyArrived_elsewhere {o : Nat}
    (located : k.state = .inn ∨ k.state = .misplaced ∨ k.state = .assigned ∨ k.state = .releasing) (loc : k.loc = some o)
    (moves : o ≠ n) : (p.touch ks).keyArrived n (.tag t) m false
      = ((p.touch ks).relocate h k n m).offerOrd (relocatedReport h o n) := by
  have known : (p.touch ks).keyOfOcc (.tag t) = some (h, k) := tagged
  have away : k.loc ≠ some n := fun here => moves (Option.some.inj (loc.symm.trans here))
  have old : k.loc.getD 0 = o := by rw [loc]; rfl
  unfold Part.keyArrived
  rw [known]
  dsimp only
  rw [old]
  rcases located with hst | hst | hst | hst <;> (rw [hst]; exact if_neg away)

theorem Part.keyArrived_moves {o : Nat} (located : k.state = .inn ∨ k.state = .misplaced ∨ k.state = .assigned)
    (loc : k.loc = some o) (moves : o ≠ n) (room : p.link.reports.length < 48) :
    ((p.touch ks).keyArrived n (.tag t) m false).unlit
      = (({ p with keys := Table.put p.keys h (k.placedAs (if k.state = .assigned then .assigned else k.stateAt n) n m) } : Part).queued
        (relocatedReport h o n)).unlit := by
  have moved : (p.touch ks).relocate h k n m
      = (p.touch ks).setKey h (k.placedAs (if k.state = .assigned then .assigned else k.stateAt n) n m) := by
    unfold Part.relocate
    rcases located with hst | hst | hst <;> (rw [hst]; rfl)
  obtain ⟨ls, placed⟩ := p.setKey_marked ks h (k.placedAs (if k.state = .assigned then .assigned else k.stateAt n) n m)
  have spread : k.state = .inn ∨ k.state = .misplaced ∨ k.state = .assigned ∨ k.state = .releasing :=
    located.imp_right (Or.imp_right .inl)
  rw [Part.keyArrived_elsewhere ks tagged spread loc moves, moved, placed]
  exact Part.offerOrd_entered ls _ room

theorem Part.keyArrived_out {i : Nat} {y : Rental} {late : Bool} (out : k.state = .out) (hrental : k.rental = some i)
    (hy : Table.look p.rentals i = some y) (hkey : y.key = h) (room : p.essRoom = true)
    (overdue : p.alt.find .overdue (.rental y.number) = none) (escalated : p.alt.find .escalated (.rental y.number) = none) :
    ((p.touch ks).keyArrived n (.tag t) m late).unlit = (({ p with
        keys := Table.put p.keys h (k.placed n m)
        rentals := Table.del p.rentals i, due := p.due.filter (fun j => j != i) } : Part).queued
      (({ p with keys := Table.put p.keys h (k.placed n m) } : Part).returnReport i y
        (y.assess m p.policy.blockLen p.policy.blocksCap (some n) (k.stateAt n) late false false))).unlit := by
  obtain ⟨ls, placed⟩ := p.setKey_marked ks h (k.placed n m)
  have known : (p.touch ks).keyOfOcc (.tag t) = some (h, k) := tagged
  have rental : (p.touch ks).rentalOf k = some (i, y) := by
    unfold Part.rentalOf
    rw [hrental, Option.bind_some, show (p.touch ks).rentals = p.rentals from rfl, hy]
    rfl
  unfold Part.keyArrived
  rw [known]
  dsimp only
  rw [out]
  dsimp only
  unfold Part.returnToSlot
  rw [rental]
  dsimp only
  rw [placed, Part.closeRental_entered (by exact overdue) (by exact escalated) (by exact room)]
  rfl

end Arrived

end Sys2Proof.Machine
end

section
/-! PROOFS. The key of a release that is seen elsewhere, and SETTLE_EXPIRY as a whole (R48, R56, R68). -/

namespace Sys2Proof.Machine
open Sys2Proof

section Arrival
variable {s : State} {n m x : Nat} {r : SlotRow} {v : Occ} (hrow : Table.look s.part.rows n = some r) (due : x ≤ s.part.mono)
  (hocc : r.occ = some .empty) (hsettle : r.settle = some ⟨v, m, x⟩)
include hrow due hocc hsettle

/-- An arrival is what the Key Directory makes of it. -/
theorem State.becomes_arrives {q : Part} (full : v ≠ .empty)
    (h : ∀ ks, (((s.part.settledTo n v).touch ks).keyArrived n v m false).unlit = q.unlit) :
    s.Becomes (exec (.settleExpiry n) s) q := by
  obtain ⟨ks, arrives⟩ := Part.settleExpire_arrives hrow due hocc hsettle full
  exact State.becomes_of_unlit ((congrArg Part.unlit arrives).trans (h ks))

theorem State.arrival_foreign (stranger : v = .unread ∨ ∃ t, v = .tag t ∧ s.part.keyByTag t = none) :
    s.Becomes (exec (.settleExpiry n) s) ((s.part.settledTo n v).foreign n v) := by
  have full : v ≠ .empty := by rcases stranger with rfl | ⟨t, rfl, -⟩ <;> nofun
  refine State.becomes_arrives hrow due hocc hsettle full fun ks => ?_
  have unknown : ((s.part.settledTo n v).touch ks).keyOfOcc v = none := by
    rcases stranger with rfl | ⟨t, rfl, none⟩
    · rfl
    · exact none
  unfold Part.keyArrived
  rw [unknown]
  dsimp only
  unfold Part.foreign
  rw [Part.raise_touch]
  rfl

/-- The key of a release that settles at another slot ends its context (R56). -/
theorem State.arrival_relocates {t h i o : Nat} {k : KeyRec} {c : Ctx} {a : Auth} {y : SlotRow} (hv : v = .tag t)
    (tagged : s.part.keyByTag t = some (h, k)) (carries : s.part.Carries i o c a h k) (moves : o ≠ n)
    (hold : Table.look s.part.rows o = some y) (only : ∀ e ∈ s.part.ctxs, e.2.key = some h → e.1 = i)
    (rising : Table.rising s.part.ctxs = true) (running : c.state = .opening ∨ c.state = .opened ∨ c.state = .removedSettling) :
    ∃ u, exec (.settleExpiry n) s = .next u
      ∧ Table.look u.part.ctxs i = some { c with
          state := .closing, result := some (movedResult y.lock)
          lockLimit := some (s.part.mono + 2000), window := none, lockSent := false }
      ∧ Table.look u.part.keys h = some (k.placedAs (if a.target = .key h then .assigned else k.stateAt n) n m)
      ∧ u.part.auths = s.part.auths.map (fun z => if z.rental = a.rental then { z with state := .waiting } else z)
      ∧ BusCmd.lockClose (s.part.slotEntry o).addr (s.part.slotEntry o).pos (.ctx i)
          ∈ (u.part.chan (s.part.slotEntry o).chan).queue
      ∧ u.part.rentals = s.part.rentals := by
  subst hv
  obtain ⟨ks, arrives⟩ := Part.settleExpire_arrives hrow due hocc hsettle nofun
  let q : Part := (s.part.settledTo n (.tag t)).touch ks
  have qcarries : q.Carries i o c a h k := carries
  have qrow : Table.look q.rows o = some y := (Table.look_modify_other _ _ _ _ moves).trans hold
  have releasing : c.state.releasing = true := by rcases running with h | h | h <;> rw [h] <;> rfl
  obtain ⟨ls, moved⟩ := Part.relocateReleasing_touch qcarries qrow rising only releasing n m
  obtain ⟨hc, -, -, -, -, -, -, -, state, loc, room⟩ := carries
  have elsewhere := Part.keyArrived_elsewhere (p := s.part.settledTo n (.tag t)) (m := m) ks tagged
    (.inr (.inr (.inr state))) loc moves
  have relocate : q.relocate h k n m = q.relocateReleasing h k n m := by
    unfold Part.relocate
    rw [state]
  have whole : s.part.settleExpire n
      = ((q.relocated i o a h k n m (movedResult y.lock)).touch ls).offerOrd (relocatedReport h o n) := by
    rw [arrives, elsewhere]
    exact congrArg (Part.offerOrd · (relocatedReport h o n)) (relocate.trans moved)
  obtain ⟨u, hu, -, hunlit⟩ := State.becomes_of_eq (s := s) whole
  have rest := ((q.relocated i o a h k n m (movedResult y.lock)).touch ls).offerOrd_restA (relocatedReport h o n)
  have queue := Part.closesAt_queue (n := o) (p := { q with
    ctxs := Table.modify q.ctxs i (fun c => { c with result := some (movedResult y.lock) })
    auths := q.auths.map (fun x => if x.rental = a.rental then { x with state := .waiting } else x) }) room i
  obtain ⟨A, B, closed⟩ := Part.closesAt_leaves { q with
    ctxs := Table.modify q.ctxs i (fun c => { c with result := some (movedResult y.lock) })
    auths := q.auths.map (fun x => if x.rental = a.rental then { x with state := .waiting } else x) } i o
  unfold Part.relocated at rest hunlit
  rw [closed] at queue rest hunlit
  generalize Part.offerOrd _ _ = w at rest hunlit
  refine ⟨u, hu, ?_, ?_, ?_, ?_, ?_⟩
  · refine (congrArg (fun p => Table.look (Part.ctxs p) i) hunlit :).trans
      ((congrArg (fun p => Table.look (Part.ctxs p) i) rest :).trans ?_)
    show Table.look (Table.modify (Table.modify s.part.ctxs i _) i _) i = _
    rw [Table.modify_modify, Table.look_modify_same, hc]
    rfl
  · refine (congrArg (fun p => Table.look (Part.keys p) h) hunlit :).trans
      ((congrArg (fun p => Table.look (Part.keys p) h) rest :).trans ?_)
    refine (Table.look_put_same _ _ _).trans (congrArg some ?_)
    split <;> rfl
  · exact (congrArg Part.auths hunlit :).trans (congrArg Part.auths rest :)
  · refine Part.mem_queue_of_unlit hunlit (s.part.slotEntry o).chan rfl |>.mpr ?_
    rw [(Part.chan_of_restA rest _ :)]
    exact queue
  · exact (congrArg Part.rentals hunlit :).trans (congrArg Part.rentals rest :)

end Arrival

/-- The flags of a return that is neither late-sighted nor closed by hand nor past the Drop Bin (R61). -/
theorem RetFlags.byte_slot {f : RetFlags} (late : f.lateSighting = false) (manual : f.manual = false) (bin : f.dropOverflow = false) :
    f.byte = (if f.quick then 1 else 0) + (if f.saturated then 8 else 0) + (if f.clockAnomaly then 16 else 0) := by
  unfold RetFlags.byte
  rw [late, manual, bin]
  cases f.quick <;> cases f.saturated <;> cases f.clockAnomaly <;> rfl

/-- The flags of a return that a sighting brings (R12, R61). -/
theorem RetFlags.byte_sighted {f : RetFlags} (late : f.lateSighting = true) (manual : f.manual = false) (bin : f.dropOverflow = false) :
    f.byte = 2 + (if f.quick then 1 else 0) + (if f.saturated then 8 else 0) + (if f.clockAnomaly then 16 else 0) := by
  unfold RetFlags.byte
  rw [late, manual, bin]
  cases f.quick <;> cases f.saturated <;> cases f.clockAnomaly <;> rfl

/-- The RETURN of a rental whose key comes back to slot n at minute m, with flags b (R61 to R63). -/
theorem Part.returnReport_flags {p : Part} {r : Rental} {k : KeyRec} (hk : Table.look p.keys r.key = some k) (i : Nat) {m n L C b : Nat}
    {st : KeyState} {late : Bool} (flags : (r.assess m L C (some n) st late false false).flags.byte = b) :
    p.returnReport i r (r.assess m L C (some n) st late false false)
      = let z := r.assess m L C (some n) st late false false
        ⟨.ret, 255, beBytes 4 r.number ++ beBytes 2 i ++ beBytes 2 r.key ++ beBytes 4 k.tag ++ beBytes 3 r.out ++ beBytes 3 r.due
          ++ beBytes 1 r.grace ++ beBytes 3 m ++ beBytes 2 n ++ beBytes 1 z.cls.code ++ beBytes 3 z.lateMinutes
          ++ beBytes 1 z.lateDays ++ beBytes 1 z.lateBlocks ++ beBytes 1 z.daysInUse ++ beBytes 1 st.code ++ beBytes 1 b⟩ := by
  unfold Part.returnReport
  rw [hk, flags]
  rfl

/-- The RETURN of a rental whose key comes back to slot n at minute m. -/
theorem Part.returnReport_slot {p : Part} {r : Rental} {k : KeyRec} (hk : Table.look p.keys r.key = some k) (i m n L C : Nat)
    (st : KeyState) : p.returnReport i r (r.assess m L C (some n) st false false false)
      = let z := r.assess m L C (some n) st false false false
        ⟨.ret, 255, beBytes 4 r.number ++ beBytes 2 i ++ beBytes 2 r.key ++ beBytes 4 k.tag ++ beBytes 3 r.out ++ beBytes 3 r.due
          ++ beBytes 1 r.grace ++ beBytes 3 m ++ beBytes 2 n ++ beBytes 1 z.cls.code ++ beBytes 3 z.lateMinutes
          ++ beBytes 1 z.lateDays ++ beBytes 1 z.lateBlocks ++ beBytes 1 z.daysInUse ++ beBytes 1 st.code
          ++ beBytes 1 ((if z.flags.quick then 1 else 0) + (if z.flags.saturated then 8 else 0)
            + (if z.flags.clockAnomaly then 16 else 0))⟩ :=
  Part.returnReport_flags hk i (RetFlags.byte_slot rfl rfl rfl)

/-- The RETURN of a rental whose key is sighted at slot n (R12). -/
theorem Part.returnReport_sighted {p : Part} {r : Rental} {k : KeyRec} (hk : Table.look p.keys r.key = some k) (i m n L C : Nat)
    (st : KeyState) : p.returnReport i r (r.assess m L C (some n) st true false false)
      = let z := r.assess m L C (some n) st true false false
        ⟨.ret, 255, beBytes 4 r.number ++ beBytes 2 i ++ beBytes 2 r.key ++ beBytes 4 k.tag ++ beBytes 3 r.out ++ beBytes 3 r.due
          ++ beBytes 1 r.grace ++ beBytes 3 m ++ beBytes 2 n ++ beBytes 1 z.cls.code ++ beBytes 3 z.lateMinutes
          ++ beBytes 1 z.lateDays ++ beBytes 1 z.lateBlocks ++ beBytes 1 z.daysInUse ++ beBytes 1 st.code
          ++ beBytes 1 (2 + (if z.flags.quick then 1 else 0) + (if z.flags.saturated then 8 else 0)
            + (if z.flags.clockAnomaly then 16 else 0))⟩ :=
  Part.returnReport_flags hk i (RetFlags.byte_sighted rfl rfl rfl)

/-- Settles O40: what a settled removal or arrival is handed to, by the context at the slot and by the state of its key. -/
theorem settledRemovalMakesTheRental : Obligations.SettledRemovalMakesTheRental := by
  refine ⟨?_, ?_, ?_, ?_, ?_⟩
  · intro s i n h t m x place c a k r carries settling hres hrow hctx hocc hsettle due tagged
    exact State.removal_completes hrow due carries settling hres hctx hocc hsettle tagged
  · intro s i n h t m x place c a k r hrow hctx hocc hsettle due tagged hloc hc closing early hres hsub hauth waiting target
    exact State.removal_late hrow due hctx hocc hsettle tagged hloc hc closing early hres hsub hauth (lateOk_iff.mpr ⟨waiting, target⟩)
  · intro s i n m x c r old hrow hctx hocc full hsettle due hc ended q
    refine ⟨?_, fun stranger distinct => State.removal_foreign hrow due hctx hocc full hsettle hc ended stranger distinct⟩
    rintro t h k rfl tagged hloc late early
    obtain ⟨u, hu, taken⟩ := State.removal_takes hrow due hctx hocc hsettle hc ended tagged hloc early
    exact ⟨u, hu, taken.rows, taken.ctxs, taken.key, taken.flag, taken.rentals, taken.kept, taken.named⟩
  · intro s n m x r old hrow hctx hocc hsettle due full q
    obtain ⟨known, stranger⟩ := State.removal_noCtx hrow due hctx hocc hsettle full
    refine ⟨fun t h k hold tagged => ⟨(known t h k hold tagged).1, fun hloc => ?_⟩, stranger⟩
    obtain ⟨u, hu, taken, listed⟩ := (known t h k hold tagged).2 hloc
    exact ⟨u, hu, taken.rows, taken.key, taken.flag, taken.rentals, taken.ctxs, listed, taken.kept, taken.named⟩
  · intro s n m x r v hrow hocc hsettle due full q
    refine ⟨?_, ?_, ?_⟩
    · rintro rfl
      exact State.arrival_foreign hrow due hocc hsettle (.inl rfl)
    · rintro t rfl unknown
      exact State.arrival_foreign hrow due hocc hsettle (.inr ⟨t, rfl, unknown⟩)
    · rintro t h k rfl tagged st here moved back
      have placed (st' : KeyState) : here st' = k.placedAs st' n m := rfl
      have stateAt : k.stateAt n = st := k.stateAt_eq n
      have atHome : k.placed n m = here st := k.placed_eq n m
      refine ⟨fun cause away hcause room => ?_, fun missing room => ?_, fun dropped room quiet => ?_, fun o located loc => ⟨?_, ?_⟩, ?_, ?_⟩
      · refine State.becomes_arrives hrow due hocc hsettle full fun ks => ?_
        rw [Part.keyArrived_away (p := s.part.settledTo n (.tag t)) ks tagged away hcause room, atHome]
        cases cause <;> rfl
      · refine State.becomes_arrives hrow due hocc hsettle full fun ks => ?_
        have key := Part.keyArrived_missing (p := s.part.settledTo n (.tag t)) (n := n) (m := m) ks tagged missing
        rw [atHome] at key
        exact key room
      · refine State.becomes_arrives hrow due hocc hsettle full fun ks => ?_
        rw [Part.keyArrived_dropped (p := s.part.settledTo n (.tag t)) ks tagged dropped room quiet, atHome]
        rfl
      · rintro rfl
        refine State.becomes_arrives hrow due hocc hsettle full fun ks => ?_
        rw [Part.keyArrived_stays (p := s.part.settledTo o (.tag t)) ks tagged located loc, Part.touch_unlit]
        rfl
      · intro moves room
        refine State.becomes_arrives hrow due hocc hsettle full fun ks => ?_
        rw [Part.keyArrived_moves (p := s.part.settledTo n (.tag t)) ks tagged located loc moves room, stateAt]
        rfl
      · intro i o c a y carries moves hold only rising running
        obtain ⟨u, hu, ctx, key, auths, queue, rentals⟩ :=
          State.arrival_relocates hrow due hocc hsettle rfl tagged carries moves hold only rising running
        rw [stateAt] at key
        exact ⟨u, hu, ctx, key, auths, queue, rentals⟩
      · intro i y out hrental hy hkey waiters reports overdue escalated z
        refine State.becomes_arrives hrow due hocc hsettle full fun ks => ?_
        have room : (s.part.settledTo n (.tag t)).essRoom = true := (Part.essRoom_iff _).2 ⟨reports, waiters⟩
        rw [Part.keyArrived_out (p := s.part.settledTo n (.tag t)) ks tagged out hrental hy hkey room overdue escalated, atHome, stateAt]
        have tag : Table.look (Table.put s.part.keys y.key (here st)) y.key = some (here st) := Table.look_put_same _ _ _
        have report := Part.returnReport_slot (p := { s.part.settledTo n (.tag t) with keys := Table.put s.part.keys h (here st) })
          (r := y) (k := here st) (by rw [← hkey]; exact tag) i m n s.part.policy.blockLen s.part.policy.blocksCap st
        rw [hkey] at report
        exact congrArg (fun r => (Part.queued { s.part.settledTo n (.tag t) with
          keys := Table.put s.part.keys h (here st)
          rentals := Table.del s.part.rentals i
          due := s.part.due.filter (fun j => j != i) } r).unlit) report

end Sys2Proof.Machine
end

section
/-! PROOFS. SERVICE_RELEASE: its start (R41, R43) and the removal that completes it (R50, R51). -/

namespace Sys2Proof.Machine
open Sys2Proof

/-! ## The start (R41) -/

section Grant
variable {p : Part} {slot : Nat} {r : SlotRow} (hrow : Table.look p.rows slot = some r) (unbound : r.ctx = none)
  (steady : r.settle = none) (active : p.moduleActive (p.slotEntry slot).chan (p.slotEntry slot).addr = true)
include hrow unbound steady active

theorem Part.serviceSlot_free : p.serviceSlot slot = none := by
  unfold Part.serviceSlot
  rw [show p.row slot = some r from hrow]
  simp [unbound, steady, active]

theorem Part.serviceGrant_tag {t h : Nat} {k : KeyRec} (tagged : p.keyByTag t = some (h, k))
    (located : k.state = .inn ∨ k.state = .misplaced) (loc : k.loc = some slot) :
    p.serviceGrant (.tag t) = .ok (slot, some h, none) := by
  have free := Part.serviceSlot_free hrow unbound steady active
  unfold Part.serviceGrant
  dsimp only
  rw [tagged]
  dsimp only
  rw [loc, Option.getD_some, free]
  rcases located with hst | hst <;> rw [hst]

theorem Part.serviceGrant_slot (low : 1 ≤ slot) (high : slot ≤ 480) (standard : (p.slotEntry slot).kind = .standard)
    (foreign : r.occ = some .unread ∨ ∃ t, r.occ = some (.tag t) ∧ p.keyByTag t = none) :
    p.serviceGrant (.slot slot) = .ok (slot, none, none) := by
  have free := Part.serviceSlot_free hrow unbound steady active
  have arg : slotArg slot = some slot := by
    unfold slotArg
    exact if_pos ⟨low, high⟩
  have occ : p.occOf slot = r.occ := by
    unfold Part.occOf
    rw [show p.row slot = some r from hrow]
    rfl
  unfold Part.serviceGrant
  dsimp only
  rw [arg, standard, free, occ]
  rcases foreign with hocc | ⟨t, hocc, unknown⟩
  · rw [hocc]
    rfl
  · rw [hocc]
    exact if_pos (Option.isNone_iff_eq_none.mpr unknown)

end Grant

section Start
variable {p : Part} {i s : Nat} {q : RelReq}
  (hroom : (p.chan (p.slotEntry s).chan).queue.length < 16)
include hroom

theorem Part.startCtx_tag {t h : Nat} {k : KeyRec} (hsub : q.subject = .tag t) (hk : Table.look p.keys h = some k) :
    (p.startCtx i q (s, some h, none)).unlit = (({ p with keys := Table.put p.keys h { k with state := .releasing } } : Part).ctxOpens i
        (p.ctxNew s (some h) q none) s).unlit := by
  obtain ⟨ks, hks⟩ := p.setKey_touch h { k with state := .releasing }
  have found : (Option.map (fun k : KeyRec => (h, k)) (Table.look p.keys h)) = some (h, k) := by
    rw [hk]
    rfl
  unfold Part.startCtx
  rw [hsub]
  dsimp only
  rw [Option.bind_some, found]
  dsimp only
  have mono : (p.setKey h { k with state := .releasing }).mono = p.mono := by
    rw [hks]
    rfl
  generalize p.setKey h { k with state := .releasing } = x at *
  rw [show p.ctxNew s (some h) q none = x.ctxNew s (some h) q none by unfold Part.ctxNew; rw [mono]]
  exact Part.pushOpen_unlit (p := { p with keys := Table.put p.keys h { k with state := .releasing } }) hroom ks hks
    (x.ctxNew s (some h) q none)

theorem Part.startCtx_slot {n : Nat} (hsub : q.subject = .slot n) :
    (p.startCtx i q (s, none, none)).unlit = (p.ctxOpens i (p.ctxNew s none q none) s).unlit := by
  unfold Part.startCtx
  rw [hsub]
  dsimp only
  rw [Option.bind_none]
  dsimp only
  exact Part.pushOpen_unlit hroom [] (by unfold Part.touch; rw [List.append_nil]) (p.ctxNew s none q none)

end Start

theorem Part.doServiceRelease_granted {p : Part} {f : Frame} {bySlot : Bool} {n : Nat} {g : Grant}
    (hparse : parseForm f.payload = some (bySlot, n)) (grant : p.serviceGrant (if bySlot then .slot n else .tag n) = .ok g) :
    p.doServiceRelease f = p.startRelease (p.relReq f .service (if bySlot then .slot n else .tag n)) g := by
  unfold Part.doServiceRelease
  rw [hparse]
  dsimp only
  rw [grant]

/-! ## The removal that completes it (R50, R51) -/

/-- A key goes AWAY with cause SERVICE. -/
def KeyRec.serviced (k : KeyRec) : KeyRec :=
  { k with state := .away, loc := none, inSince := none, rental := none, away := some .service }

theorem Part.keyService_touch (p : Part) (h : Nat) {k : KeyRec} (free : k.state ≠ .assigned) :
    ∃ ks, p.keyService h k = ({ p with keys := Table.put p.keys h k.serviced } : Part).touch ks := by
  obtain ⟨ks, hks⟩ := p.setKey_touch h k.serviced
  refine ⟨ks, Eq.trans ?_ hks⟩
  unfold Part.keyService
  exact if_neg free

section Completes
variable {p : Part} {i n m : Nat} {c : Ctx} {old : Occ} (hc : Table.look p.ctxs i = some c)
include hc

theorem Part.ctxKeyLeft_tag {y h : Nat} {k : KeyRec} (hsub : c.req.subject = .tag y) (located : p.locatedAt old n = some (h, k))
    (hkey : c.key = some h) : (c.state.releasing = true → p.ctxKeyLeft i n old m = ((p.keyService h k).setResult i .released).beginClose i c)
      ∧ (c.state = .closing → c.result = some .notTaken → k.state = .inn ∨ k.state = .misplaced →
        p.ctxKeyLeft i n old m = ((p.keyService h k).setResult i .lateTake).beginClose i c) := by
  have own : (p.locatedAt old n).filter (fun e => c.key == some e.1) = some (h, k) := by
    rw [located, Option.filter_some, if_pos (by simpa using hkey)]
  unfold Part.locatedAt at located own
  unfold Part.ctxKeyLeft
  rw [hc]
  dsimp only
  refine ⟨fun releasing => ?_, fun closing hres back => ?_⟩
  · rw [if_pos releasing, hsub]
    dsimp only
    rw [own]
  · rw [closing, show CtxState.closing.releasing = false from rfl, if_neg nofun, if_pos ⟨rfl, hres⟩, hsub]
    dsimp only
    rw [own]
    exact if_pos back

theorem Part.ctxKeyLeft_slot {y : Nat} (hsub : c.req.subject = .slot y) (releasing : c.state.releasing = true) :
    (p.locatedAt old n = none → p.ctxKeyLeft i n old m = ((p.remove .foreign (.slot n)).setResult i .released).beginClose i c)
      ∧ ∀ h k, p.locatedAt old n = some (h, k) →
        p.ctxKeyLeft i n old m = (((p.remove .foreign (.slot n)).keyService h k).setResult i .released).beginClose i c := by
  unfold Part.locatedAt Part.ctxKeyLeft
  rw [hc]
  dsimp only
  rw [if_pos releasing, hsub]
  refine ⟨fun located => ?_, fun h k located => ?_⟩
  · rw [located]
  · rw [located]

end Completes

/-- Context i has closed with a result at the settled slot n. -/
structure Part.ServiceEnds (p u : Part) (i n : Nat) (c : Ctx) (r : SlotRow) (res : CtxResult) : Prop where
  ctx : Table.look u.ctxs i = some { c with
    state := .closing, result := some res, lockLimit := some (p.mono + 2000), window := none, lockSent := false }
  queue : BusCmd.lockClose (p.slotEntry n).addr (p.slotEntry n).pos (.ctx i) ∈ (u.chan (p.slotEntry n).chan).queue
  rentals : u.rentals = p.rentals
  auths : u.auths = p.auths
  row : Table.look u.rows n = some { r with occ := some .empty, settle := none }

section Settled
variable {s : State} {n m x i : Nat} {r : SlotRow} {c : Ctx} (hrow : Table.look s.part.rows n = some r)
  (hc : Table.look s.part.ctxs i = some c) (hslot : c.slot = some n)
  (room : (s.part.chan (s.part.slotEntry n).chan).queue.length < 16)
include hrow hc hslot room

/-- A settled removal that closes the context, after y has become of the part but for alerts and lamps. -/
theorem State.service_ends {y : Part} {keys : Table KeyRec} {lmp : Lmp} {res : CtxResult}
    (settles : s.part.settleExpire n = (y.setResult i res).beginClose i c)
    (same : y.restA = ({ s.part.settledTo n .empty with keys := keys, lmp := lmp } : Part).restA) :
    ∃ u, exec (.settleExpiry n) s = .next u ∧ s.part.ServiceEnds u.part i n c r res ∧ u.part.keys = keys ∧ u.part.alt = y.alt
      ∧ u.part.link = y.link := by
  obtain ⟨ks, closed⟩ := Part.beginClose_touch (y.setResult i res) i hslot
  obtain ⟨u, hu, -, hunlit⟩ := State.becomes_of_eq (s := s) (settles.trans closed)
  have slot : y.slotEntry n = s.part.slotEntry n := by
    unfold Part.slotEntry
    rw [show y.slotMap = s.part.slotMap from (congrArg Part.slotMap same :)]
  have chan (d : Chan) : y.chan d = s.part.chan d := by
    cases d
    · exact (congrArg Part.chanA same :)
    · exact (congrArg Part.chanB same :)
  have queue := Part.closesAt_queue (p := y.setResult i res) (n := n) (by
    show (y.chan (y.slotEntry n).chan).queue.length < 16
    rw [slot, chan]
    exact room) i
  obtain ⟨A, B, leaves⟩ := (y.setResult i res).closesAt_leaves i n
  have slot' : (y.setResult i res).slotEntry n = s.part.slotEntry n := slot
  rw [slot', leaves] at queue
  rw [leaves] at hunlit
  have ctxs : y.ctxs = s.part.ctxs := (congrArg Part.ctxs same :)
  have mono : y.mono = s.part.mono := (congrArg Part.mono same :)
  refine ⟨u, hu, ⟨?_, ?_, ?_, ?_, ?_⟩, (congrArg Part.keys hunlit :).trans (congrArg Part.keys same :), (congrArg Part.alt hunlit :),
    (congrArg Part.link hunlit :)⟩
  · refine (congrArg (fun p => Table.look (Part.ctxs p) i) hunlit :).trans ?_
    show Table.look (Table.modify (Table.modify y.ctxs i _) i (·.closes y.mono)) i = _
    rw [Table.modify_modify, Table.look_modify_same, ctxs, hc, mono]
    rfl
  · exact (Part.mem_queue_of_unlit hunlit (s.part.slotEntry n).chan rfl).mpr queue
  · exact (congrArg Part.rentals hunlit :).trans (congrArg Part.rentals same :)
  · exact (congrArg Part.auths hunlit :).trans (congrArg Part.auths same :)
  · refine (congrArg (fun p => Table.look (Part.rows p) n) hunlit :).trans ((congrArg (fun p => Table.look (Part.rows p) n) same :).trans ?_)
    exact Part.settledTo_row hrow .empty

end Settled

/-- An alert removed over a settled row is the alert removed before. -/
theorem Part.remove_settled (p : Part) (n : Nat) (v : Occ) (ks : List Nat) (k : AlertKind) (s : Subject) :
    (((p.settledTo n v).touch ks).remove k s).alt = (p.remove k s).alt :=
  (congrArg Part.alt (p.remove_graft ((p.settledTo n v).touch ks) k s) :)

/-- Settles O35: the removal through the branches of the context's subject, the start through its grant. -/
theorem serviceReleaseStartsAContext : Obligations.ServiceReleaseStartsAContext := by
  refine ⟨?_, ?_⟩
  · intro s n i m x r c old hrow hctx hocc full hsettle due hc hslot room running completes away
    obtain ⟨ks, departs⟩ := State.removal_at hrow due hctx hocc full hsettle
    have releasing : running → c.state.releasing = true := by rintro (h | h | h) <;> rw [h] <;> rfl
    have ends {res : CtxResult} {u : State} (e : s.part.ServiceEnds u.part i n c r res) : completes res u :=
      ⟨e.ctx, e.queue, e.rentals, e.auths, e.row⟩
    refine ⟨?_, fun y hsub run => ⟨fun stranger => ?_, ?_⟩⟩
    · rintro t h k y hsub rfl tagged hkey hloc
      have left := Part.ctxKeyLeft_tag (p := (s.part.settledTo n .empty).touch ks) (m := m) (old := .tag t) hc hsub
        (Part.locatedAt_some tagged hloc) hkey
      have done {res : CtxResult} (free : k.state ≠ .assigned) (h' : ((s.part.settledTo n .empty).touch ks).ctxKeyLeft i n (.tag t) m
          = ((((s.part.settledTo n .empty).touch ks).keyService h k).setResult i res).beginClose i c) :
          ∃ u, exec (.settleExpiry n) s = .next u ∧ completes res u ∧ Table.look u.part.keys h = some (away k)
            ∧ u.part.alt = s.part.alt ∧ u.part.link = s.part.link := by
        obtain ⟨ls, hls⟩ := ((s.part.settledTo n .empty).touch ks).keyService_touch h free
        obtain ⟨u, hu, e, keys, alt, link⟩ := State.service_ends (keys := Table.put s.part.keys h k.serviced) hrow hc hslot room
          (departs.trans h') (congrArg Part.restA hls)
        refine ⟨u, hu, ends e, ?_, alt.trans (congrArg Part.alt hls :), link.trans (congrArg Part.link hls :)⟩
        rw [keys]
        exact Table.look_put_same _ _ _
      refine ⟨fun run hst => done (by rw [hst]; nofun) (left.1 (releasing run)), fun closing early back => ?_⟩
      exact done (by rcases back with hst | hst <;> rw [hst] <;> nofun) (left.2 closing early back)
    · have none : ((s.part.settledTo n .empty).touch ks).locatedAt old n = none := by
        refine Part.locatedAt_none fun h k known => ?_
        rcases stranger with rfl | ⟨t, rfl, unknown⟩
        · cases known
        · exact absurd (unknown.symm.trans known) nofun
      have left := (Part.ctxKeyLeft_slot (p := (s.part.settledTo n .empty).touch ks) (m := m) hc hsub (releasing run)).1 none
      obtain ⟨u, hu, e, keys, alt, -⟩ := State.service_ends hrow hc hslot room (departs.trans left) (Part.remove_restA _ _ _)
      exact ⟨u, hu, ends e, keys, alt.trans (s.part.remove_settled n .empty ks .foreign (.slot n))⟩
    · rintro t h k rfl tagged hloc back
      have left := (Part.ctxKeyLeft_slot (p := (s.part.settledTo n .empty).touch ks) (m := m) hc hsub (releasing run)).2 h k
        (Part.locatedAt_some (old := .tag t) tagged hloc)
      obtain ⟨ls, hls⟩ := (((s.part.settledTo n .empty).touch ks).remove .foreign (.slot n)).keyService_touch h (k := k)
        (by rcases back with hst | hst <;> rw [hst] <;> nofun)
      have rest := ((s.part.settledTo n .empty).touch ks).remove_restA .foreign (.slot n)
      have keys' : (((s.part.settledTo n .empty).touch ks).remove .foreign (.slot n)).keys = s.part.keys := (congrArg Part.keys rest :)
      have lmp' : (((s.part.settledTo n .empty).touch ks).remove .foreign (.slot n)).lmp
        = ((s.part.settledTo n .empty).touch ks).lmp := (congrArg Part.lmp rest :)
      rw [keys'] at hls
      obtain ⟨u, hu, e, keys, alt, -⟩ := State.service_ends (keys := Table.put s.part.keys h k.serviced) hrow hc hslot room
        (departs.trans left) ((congrArg Part.restA hls).trans
          (congrArg (fun q : Part => ({ q with keys := Table.put s.part.keys h k.serviced } : Part).touch ls) rest))
      refine ⟨u, hu, ends e, ?_, (alt.trans (congrArg Part.alt hls :)).trans (s.part.remove_settled n .empty ks .foreign (.slot n))⟩
      rw [keys]
      exact Table.look_put_same _ _ _
  · intro s f rest tag slot i r hasks hi hfree hleast hrow unbound steady active room ess p e ctx run reply
    have free := Part.freeContext_eq (p := p) hi hfree hleast
    have fresh {bs : List Byte} (hpay : f.payload = tag :: bs) (key : Option Nat) (sub : RelSubject) :
        p.ctxNew slot key (p.relReq f .service sub) none = ctx key sub := by
      unfold Part.ctxNew Part.relReq
      rw [hpay, reqTag_cons]
      rfl
    refine ⟨fun t h k hpay ht tagged hk back hloc => ?_, fun hpay low high standard foreign => ?_⟩
    · have answer := Part.doServiceRelease_granted (p := p) (parseForm_number hpay ht)
        (Part.serviceGrant_tag (p := p) hrow unbound steady active tagged back hloc)
      rw [Part.startRelease_service free rfl] at answer
      have started := Part.startCtx_tag (p := p) (i := i) (q := p.relReq f .service (.tag t)) room rfl hk
      refine State.replies Part.doServiceRelease hasks answer (started.trans ?_) ?_
      · rw [fresh hpay]
        rfl
      · rw [Part.essRoom_onChan]
        exact ess
    · have answer := Part.doServiceRelease_granted (p := p) (parseForm_place hpay (by omega))
        (Part.serviceGrant_slot (p := p) hrow unbound steady active low high standard foreign)
      rw [Part.startRelease_service free rfl] at answer
      have started := Part.startCtx_slot (p := p) (i := i) (q := p.relReq f .service (.slot slot)) room rfl
      refine State.replies Part.doServiceRelease hasks answer (started.trans ?_) ?_
      · rw [fresh hpay]
        rfl
      · rw [Part.essRoom_onChan]
        exact ess

end Sys2Proof.Machine
end

section
/-! PROOFS. The answer to a lock command: the module heard, the row's lock, the context told (R44, R45, R52, R165). -/

namespace Sys2Proof.Machine
open Sys2Proof

/-! ## The answer to a lock command (R165, R167) -/

/-- The command on the line of channel c is answered by module a, whose entry takes f. -/
def Part.heard (p : Part) (c : Chan) (a : Nat) (f : ModEntry → ModEntry) : Part :=
  p.onChan c (fun ch => { ch with onLine := none, modules := Table.modify ch.modules a f })

theorem Part.heard_queue (p : Part) (c : Chan) (a : Nat) (f : ModEntry → ModEntry) (d : Chan) :
    ((p.heard c a f).chan d).queue = (p.chan d).queue := by
  cases c <;> cases d <;> rfl

theorem Part.heard_line (p : Part) (c : Chan) (a : Nat) (f : ModEntry → ModEntry) : ((p.heard c a f).chan c).onLine = none := by
  cases c <;> rfl

/-- Nothing but its channel changes. -/
theorem Part.heard_leaves (p : Part) (c : Chan) (a : Nat) (f : ModEntry → ModEntry) : ∃ A B,
    p.heard c a f = { p with chanA := A, chanB := B } := by
  cases c
  · exact ⟨_, p.chanB, rfl⟩
  · exact ⟨p.chanA, _, rfl⟩

theorem Part.heard_modules (p : Part) (c : Chan) (a : Nat) (f : ModEntry → ModEntry) :
    (p.lineFree c).onModule c a f = p.heard c a f := by
  cases c <;> rfl

/-- A served module is heard; an ACTIVE one stays so. -/
theorem Part.goodAnswer_heard {p : Part} {c : Chan} {a : Nat}
    (served : (p.chan c).modState a = .active ∨ (p.chan c).modState a = .silent) :
    ∃ f ks, ((p.chan c).modState a = .active → ∀ m, (f m).state = m.state)
      ∧ (p.lineFree c).goodAnswer c a false = (p.heard c a f).touch ks := by
  have state : ((p.lineFree c).chan c).modState a = (p.chan c).modState a := by cases c <;> rfl
  by_cases active : (p.chan c).modState a = .active
  · refine ⟨fun m => { m with misses := 0 }, [], fun _ _ => rfl, ?_⟩
    have kept : (p.lineFree c).goodAnswer c a false = p.heard c a (fun m => { m with misses := 0 }) := by
      unfold Part.goodAnswer
      rw [state, active]
      exact Part.heard_modules p c a _
    rw [kept]
    unfold Part.touch
    rw [List.append_nil]
  · obtain ⟨f, ks, good⟩ := Part.goodAnswer_served (p := p.lineFree c) (a := a) (state ▸ served) false
    exact ⟨f, ks, fun h => absurd h active, good.trans (congrArg (Part.touch · ks) (Part.heard_modules p c a f))⟩

/-- A lock state that a served module answers. -/
theorem Part.lockAnswered_heard {p : Part} {c : Chan} {a pos n : Nat} (l : LockState)
    (served : (p.chan c).modState a = .active ∨ (p.chan c).modState a = .silent) (slot : p.slotAt c a pos = some n) :
    ∃ f ks, ((p.chan c).modState a = .active → ∀ m, (f m).state = m.state)
      ∧ (p.lineFree c).lockAnswered c a pos l = ((p.heard c a f).touch ks).lockReport n l := by
  obtain ⟨f, ks, stays, good⟩ := Part.goodAnswer_heard served
  have found : ((p.heard c a f).touch ks).slotAt c a pos = some n := by
    cases c <;> exact slot
  refine ⟨f, ks, stays, ?_⟩
  unfold Part.lockAnswered
  rw [good]
  dsimp only
  rw [found]

section Answered
variable {p : Part} {c : Chan} {a pos n : Nat} {y : Reply} (good : GoodReply y a) (slot : p.slotAt c a pos = some n)
  (served : (p.chan c).modState a = .active ∨ (p.chan c).modState a = .silent) (l : LockState)
include good slot served

theorem Part.lockOpenAnswer_heard {i : Nat} (line : (p.chan c).onLine = some (.queued (.lockOpen a pos i))) :
    ∃ f ks, p.lockOpenAnswer c y l = ((p.heard c a f).touch ks).lockReport n l := by
  obtain ⟨f, ks, -, heard⟩ := Part.lockAnswered_heard l served slot
  refine ⟨f, ks, Eq.trans ?_ heard⟩
  unfold Part.lockOpenAnswer
  rw [line]
  exact Part.judged_good p c a y _ good

theorem Part.lockCloseAnswer_heard {o : LockOwner} (line : (p.chan c).onLine = some (.queued (.lockClose a pos o))) :
    ∃ f ks, ((p.chan c).modState a = .active → ∀ m, (f m).state = m.state)
      ∧ p.lockCloseAnswer c y l = ((p.heard c a f).touch ks).lockReport n l := by
  obtain ⟨f, ks, stays, heard⟩ := Part.lockAnswered_heard l served slot
  refine ⟨f, ks, stays, Eq.trans ?_ heard⟩
  unfold Part.lockCloseAnswer
  rw [line]
  exact Part.judged_good p c a y _ good

end Answered

/-! ## The report of a lock (R165) -/

/-- The row of slot n takes a lock state. -/
def Part.locks (p : Part) (n : Nat) (l : LockState) : Part :=
  { p with rows := Table.modify p.rows n (fun r => { r with lock := some l }) }

/-- The lock of a slot is reported to the context that has sent it a command. -/
theorem Part.lockReport_told {p : Part} {n i : Nat} {r : SlotRow} {c : Ctx} (hrow : Table.look p.rows n = some r)
    (hctx : r.ctx = some i) (hc : Table.look p.ctxs i = some c) (sent : c.lockSent = true) (live : c.state ≠ .donePending)
    (l : LockState) : ∃ ks, p.lockReport n l = (if l = .locked ∧ r.lock ≠ some .locked then
      ((p.locks n l).remove .lockJam (.slot n)).touch ks else (p.locks n l).touch ks).ctxLock i l := by
  refine ⟨[lampKey (p.slotEntry n).chan (p.slotEntry n).addr], ?_⟩
  have found : r.ctx.bind (fun i => (Table.look p.ctxs i).map (fun c => (i, c))) = some (i, c) := by
    rw [hctx, Option.bind_some, hc]
    rfl
  unfold Part.lockReport
  rw [show p.row n = some r from hrow]
  dsimp only
  rw [found]
  dsimp only
  rw [if_neg live, if_pos sent, ← Part.remove_touch]
  rfl

theorem Part.ctxLock_opens {p : Part} {i : Nat} {c : Ctx} (hc : Table.look p.ctxs i = some c) (opening : c.state = .opening) :
    ∃ ks, p.ctxLock i .opened = (p.openWindow i).touch ks := by
  obtain ⟨ks, hks⟩ := (p.openWindow i).touchSlotO_touch c.slot
  refine ⟨ks, Eq.trans ?_ hks⟩
  unfold Part.ctxLock
  rw [hc]
  dsimp only
  rw [opening]

theorem Part.ctxLock_jams {p : Part} {i : Nat} {c : Ctx} (hc : Table.look p.ctxs i = some c) (opening : c.state = .opening) :
    p.ctxLock i .jammed = p.ctxFault i c := by
  unfold Part.ctxLock
  rw [hc]
  dsimp only
  rw [opening]

/-- A lock state does not move a context that is open: JAMMED raises LOCK_JAM (R52). -/
theorem Part.ctxLock_stays {p : Part} {i n : Nat} {c : Ctx} (hc : Table.look p.ctxs i = some c) (hslot : c.slot = some n)
    (open' : c.state = .opened ∨ c.state = .removedSettling) (l : LockState) :
    p.ctxLock i l = if l = .jammed then p.raise .lockJam (.slot n) none else p := by
  unfold Part.ctxLock
  rw [hc]
  dsimp only
  rw [hslot]
  rcases open' with state | state <;> rw [state] <;> cases l <;> rfl

theorem Part.ctxLock_closes {p : Part} {i : Nat} {c : Ctx} (hc : Table.look p.ctxs i = some c) (closing : c.state = .closing) :
    p.ctxLock i .locked = (p.onCtx i (fun c => { c with lockLimit := none })).ctxFinal i := by
  unfold Part.ctxLock
  rw [hc]
  dsimp only
  rw [closing]

/-- A close that is asked for is not on the line. -/
theorem Part.closesAt_line (p : Part) (i n : Nat) (d : Chan) : ((p.closesAt i n).chan d).onLine = (p.chan d).onLine := by
  have push (ch : Channel) (a pos : Nat) : (ch.pushClose i a pos).onLine = ch.onLine := by
    unfold Channel.pushClose Channel.pushLock Channel.push
    repeat' split
    all_goals rfl
  unfold Part.closesAt
  cases (p.slotEntry n).chan <;> cases d
  · exact push _ _ _
  · rfl
  · rfl
  · exact push _ _ _

section Opening
variable {s : State} {ch : Chan} {adr pos n i j : Nat} {r : SlotRow} {c : Ctx} {y : Reply} (good : GoodReply y adr)
  (line : (s.part.chan ch).onLine = some (.queued (.lockOpen adr pos j))) (slot : s.part.slotAt ch adr pos = some n)
  (served : (s.part.chan ch).modState adr = .active ∨ (s.part.chan ch).modState adr = .silent)
  (hrow : Table.look s.part.rows n = some r) (hctx : r.ctx = some i) (opening : c.state = .opening) (sent : c.lockSent = true)
include good line slot served hrow hctx opening sent

/-- The lock has opened: the removal window starts (R44). -/
theorem State.lock_opens (hc : Table.look s.part.ctxs i = some c) : ∃ u, exec (.lockOpenAnswer ch ⟨y, .opened⟩) s = .next u
      ∧ Table.look u.part.ctxs i = some { c with
          state := .opened, lockLimit := none, window := some (s.part.mono + 1000 * s.part.policy.removalWindow) }
      ∧ Table.look u.part.rows n = some { r with lock := some .opened } ∧ (u.part.chan ch).onLine = none
      ∧ u.part.keys = s.part.keys ∧ u.part.auths = s.part.auths ∧ u.part.link = s.part.link ∧ u.part.alt = s.part.alt := by
  obtain ⟨f, ks, heard⟩ := Part.lockOpenAnswer_heard good slot served .opened line
  obtain ⟨A, B, leaves⟩ := s.part.heard_leaves ch adr f
  have hearsLine := s.part.heard_line ch adr f
  rw [leaves] at heard hearsLine
  obtain ⟨ls, told⟩ := Part.lockReport_told (p := ({ s.part with chanA := A, chanB := B } : Part).touch ks) hrow hctx hc sent
    (by rw [opening]; nofun) .opened
  rw [if_neg (by nofun)] at told
  obtain ⟨ms, opens⟩ := Part.ctxLock_opens (p := Part.touch (Part.locks (Part.touch { s.part with chanA := A, chanB := B } ks) n .opened) ls)
    hc opening
  obtain ⟨u, hu, -, hunlit⟩ := State.becomes_of_eq (s := s) (heard.trans (told.trans opens))
  refine ⟨u, hu, (congrArg (fun p => Table.look (Part.ctxs p) i) hunlit :).trans ?_,
    (congrArg (fun p => Table.look (Part.rows p) n) hunlit :).trans ?_,
    (congrArg Channel.onLine (Part.chan_of_unlit hunlit ch) :).trans hearsLine,
    (congrArg Part.keys hunlit :), (congrArg Part.auths hunlit :), (congrArg Part.link hunlit :), (congrArg Part.alt hunlit :)⟩
  · show Table.look (Table.modify s.part.ctxs i _) i = _
    rw [Table.look_modify_same, hc]
    rfl
  · show Table.look (Table.modify s.part.rows n _) n = _
    rw [Table.look_modify_same, hrow]
    rfl

/-- The lock is jammed: the context gives up (R45). -/
theorem State.lock_jams {h : Nat} {a : Auth} {k : KeyRec} (carries : s.part.Carries i n c a h k) :
    ∃ u, exec (.lockOpenAnswer ch ⟨y, .jammed⟩) s = .next u ∧ s.part.GaveUp u.part i n c a h k .lockFault
      ∧ Table.look u.part.rows n = some { r with lock := some .jammed } ∧ u.part.alt.flags.getLsbD 5 = true
      ∧ (u.part.chan ch).onLine = none := by
  obtain ⟨f, ks, heard⟩ := Part.lockOpenAnswer_heard good slot served .jammed line
  obtain ⟨A, B, leaves⟩ := s.part.heard_leaves ch adr f
  have hearsLine := s.part.heard_line ch adr f
  have queues := s.part.heard_queue ch adr f
  rw [leaves] at heard hearsLine queues
  obtain ⟨hc, hslot, hkey, hsub, hauth, active, valid, hk, releasing, hloc, room⟩ := carries
  obtain ⟨ls, told⟩ := Part.lockReport_told (p := ({ s.part with chanA := A, chanB := B } : Part).touch ks) hrow hctx hc sent
    (by rw [opening]; nofun) .jammed
  rw [if_neg (by nofun)] at told
  let q : Part := Part.touch (Part.locks (Part.touch { s.part with chanA := A, chanB := B } ks) n .jammed) ls
  have jams : q.ctxLock i .jammed = q.ctxFault i c := Part.ctxLock_jams hc opening
  have qcarries : q.Carries i n c a h k := ⟨hc, hslot, hkey, hsub, hauth, active, valid, hk, releasing, hloc, by
    show ((Part.chan { s.part with chanA := A, chanB := B } (s.part.slotEntry n).chan)).queue.length < _
    rw [queues]
    exact room⟩
  obtain ⟨ms, fault, gave⟩ := Part.ctxFault_touch qcarries
  obtain ⟨lmp, jamRest⟩ := q.markJam_restA n
  have jamFlag := q.markJam_flag n
  obtain ⟨u, hu, -, hunlit⟩ := State.becomes_of_eq (s := s) (heard.trans (told.trans (jams.trans fault)))
  obtain ⟨ctxs, C, D, leaves⟩ := (q.markJam n).givenUp_leaves i n a h k .lockFault
  refine ⟨u, hu, (gave.of_unlit (tfl := Part.tfl _) (link := Part.link _) hunlit :), ?_, ?_, ?_⟩
  · rw [leaves] at hunlit
    refine (congrArg (fun p => Table.look (Part.rows p) n) hunlit :).trans
      ((congrArg (fun p => Table.look (Part.rows p) n) jamRest :).trans ?_)
    show Table.look (Table.modify (Table.modify s.part.rows n _) n _) n = _
    rw [Table.modify_modify, Table.look_modify_same, hrow]
    rfl
  · rw [leaves] at hunlit
    exact (congrArg (·.alt.flags.getLsbD 5) hunlit :).trans jamFlag
  · refine (congrArg Channel.onLine (Part.chan_of_unlit hunlit ch) :).trans ?_
    unfold Part.givenUp
    refine (Part.closesAt_line _ i n ch).trans ?_
    have chan : (q.markJam n).chan ch = q.chan ch := Part.chan_of_restA jamRest ch
    refine (congrArg Channel.onLine (?_ : _ = (q.markJam n).chan ch)).trans ((congrArg Channel.onLine chan).trans hearsLine)
    cases ch <;> rfl

end Opening

end Sys2Proof.Machine
end

section
/-! PROOFS. A POLL answer that reports one position (R52, R161). -/

namespace Sys2Proof.Machine
open Sys2Proof

/-! ## One position of a POLL answer (R161) -/

/-- Where a module has a slot at one position only, its reports are the report of that position. -/
theorem Part.takeReports_one {p : Part} {c : Chan} {a pos : Nat} {rs : List PosReport} {r : PosReport} (hr : rs[pos]? = some r)
    (others : ∀ x, x ≠ pos → p.slotAt c a x = none) (map : (p.takePosition c a pos r).slotMap = p.slotMap) :
    p.takeReports c a rs = p.takePosition c a pos r := by
  have skips : ∀ (l : List PosReport) (k : Nat) (q : Part), q.slotMap = p.slotMap → (∀ x, k ≤ x → x < k + l.length → x ≠ pos) →
      (l.zipIdx k).foldl (fun q x => q.takePosition c a x.2 x.1) q = q := by
    intro l
    induction l with
    | nil => exact fun _ _ _ _ => rfl
    | cons y l ih =>
      intro k q same apart
      have none : q.slotAt c a k = none := by
        rw [show q.slotAt c a k = p.slotAt c a k by unfold Part.slotAt; rw [same]]
        exact others k (apart k (Nat.le_refl k) (by simp))
      have stays : q.takePosition c a k y = q := by
        unfold Part.takePosition
        rw [none]
      rw [List.zipIdx_cons, List.foldl_cons, stays]
      refine ih (k + 1) q same fun x low high => apart x (by omega) ?_
      rw [List.length_cons]
      omega
  obtain ⟨hlt, hget⟩ := List.getElem?_eq_some_iff.mp hr
  have split : rs = rs.take pos ++ r :: rs.drop (pos + 1) := by
    rw [← hget, List.getElem_cons_drop, List.take_append_drop]
  have taken : (rs.take pos).length = pos := List.length_take_of_le (Nat.le_of_lt hlt)
  unfold Part.takeReports
  rw [split, List.zipIdx_append, List.foldl_append, skips _ 0 p rfl (by intro x _ high; omega), taken, Nat.zero_add, List.zipIdx_cons,
    List.foldl_cons]
  exact skips _ _ _ map (by intro x low _; omega)

theorem Part.takePosition_standard {p : Part} {c : Chan} {a pos n : Nat} (slot : p.slotAt c a pos = some n)
    (standard : (p.slotEntry n).kind = .standard) (r : PosReport) :
    p.takePosition c a pos r = (p.lockReport n r.lock).occReport c n r.occ := by
  unfold Part.takePosition
  rw [slot]
  dsimp only
  rw [standard]

/-- An occupancy that the row or its candidate has already. -/
theorem Part.occReport_same {p : Part} {n : Nat} {r : SlotRow} {v : Occ} (hrow : Table.look p.rows n = some r)
    (same : r.occ = some v ∧ r.settle = none ∨ r.occ ≠ none ∧ ∃ st, r.settle = some st ∧ st.cand = v) (c : Chan) :
    p.occReport c n v = p := by
  unfold Part.occReport
  rw [show p.row n = some r from hrow]
  dsimp only
  rcases same with ⟨hocc, steady⟩ | ⟨known, st, settling, cand⟩
  · rw [hocc, steady]
    exact if_pos rfl
  · obtain ⟨o, hocc⟩ := Option.ne_none_iff_exists'.mp known
    rw [hocc, settling]
    exact if_pos cand.symm

theorem Part.pollAnswer_running {p : Part} {c : Chan} {a : Nat} {ack : Bool} {y : Reply} (good : GoodReply y a)
    (line : (p.chan c).onLine = some (.poll a ack)) (running : (p.chan c).state = .running) (rs : List PosReport) :
    p.pollAnswer c y rs = (((p.lineFree c).goodAnswer c a true).onModule c a (fun m => { m with ack := true })).takeReports c a rs := by
  unfold Part.pollAnswer
  rw [line]
  refine (Part.judged_good p c a y _ good).trans ?_
  dsimp only
  rw [running]

/-- An ACTIVE module is heard at its poll: no miss, and an acknowledge owed. -/
theorem Part.poll_heard {p : Part} {c : Chan} {a : Nat} (active : (p.chan c).modState a = .active) :
    ((p.lineFree c).goodAnswer c a true).onModule c a (fun m => { m with ack := true })
      = p.heard c a (fun m => { m with misses := 0, ack := true }) := by
  have state : ((p.lineFree c).chan c).modState a = .active := by cases c <;> exact active
  unfold Part.goodAnswer
  rw [state]
  dsimp only
  rw [Part.heard_modules]
  have twice (ch : Channel) : Table.modify (Table.modify ch.modules a (fun m => { m with misses := 0 })) a (fun m => { m with ack := true })
      = Table.modify ch.modules a (fun m => { m with misses := 0, ack := true }) := Table.modify_modify _ _ _ _
  cases c
  · exact congrArg (fun t => { p with chanA := { p.chanA with onLine := none, modules := t } }) (twice p.chanA)
  · exact congrArg (fun t => { p with chanB := { p.chanB with onLine := none, modules := t } }) (twice p.chanB)

/-- LOCK_JAM after a lock state that an open context does not take (R52, R165). -/
def Part.lockSeen (p : Part) (n : Nat) (was : Option LockState) : LockState → Part
  | .jammed => p.raise .lockJam (.slot n) none
  | .locked => if was = some .locked then p else p.remove .lockJam (.slot n)
  | .opened => p

theorem Part.lockSeen_restA (p : Part) (n : Nat) (was : Option LockState) (l : LockState) : (p.lockSeen n was l).restA = p.restA := by
  cases l with
  | jammed => exact Part.raise_restA _ _ _ _
  | locked =>
    show (if was = some .locked then p else p.remove .lockJam (.slot n)).restA = p.restA
    split
    · rfl
    · exact Part.remove_restA _ _ _
  | opened => rfl

/-- A lock that is reported to an open context: the row, and LOCK_JAM (R52). -/
theorem Part.lockReport_open {p : Part} {n i : Nat} {r : SlotRow} {c : Ctx} (hrow : Table.look p.rows n = some r)
    (hctx : r.ctx = some i) (hc : Table.look p.ctxs i = some c) (hslot : c.slot = some n) (sent : c.lockSent = true)
    (opened : c.state = .opened ∨ c.state = .removedSettling) (l : LockState) : ∃ ks, p.lockReport n l = ((p.locks n l).lockSeen n r.lock l).touch ks := by
  obtain ⟨ks, told⟩ := Part.lockReport_told hrow hctx hc sent (by rcases opened with h | h <;> rw [h] <;> nofun) l
  refine ⟨ks, told.trans ?_⟩
  cases l with
  | locked =>
    by_cases was : r.lock = some .locked
    · rw [if_neg (fun h => h.2 was), Part.ctxLock_stays (p := Part.touch (p.locks n .locked) ks) hc hslot opened, if_neg nofun]
      exact congrArg (Part.touch · ks) (if_pos was).symm
    · have ctxs : (((p.locks n .locked).remove .lockJam (.slot n)).touch ks).ctxs = p.ctxs :=
        (congrArg Part.ctxs ((p.locks n .locked).remove_restA .lockJam (.slot n)) :)
      rw [if_pos (And.intro rfl was), Part.ctxLock_stays (by rw [ctxs]; exact hc) hslot opened, if_neg nofun]
      exact congrArg (Part.touch · ks) (if_neg was).symm
  | jammed =>
    rw [if_neg (fun h => nomatch h.1), Part.ctxLock_stays (p := Part.touch (p.locks n .jammed) ks) hc hslot opened, if_pos rfl,
      Part.raise_touch]
    rfl
  | opened =>
    rw [if_neg (fun h => nomatch h.1), Part.ctxLock_stays (p := Part.touch (p.locks n .opened) ks) hc hslot opened, if_neg nofun]
    rfl

/-- A poll reports the lock of an open context, its occupancy being known (R52). -/
theorem State.poll_locks {s : State} {ch : Chan} {a pos n i g : Nat} {ack : Bool} {y : Reply} {rs : List PosReport} {v : Occ}
    {l : LockState} {r : SlotRow} {c : Ctx} (good : GoodReply y a) (line : (s.part.chan ch).onLine = some (.poll a ack))
    (running : (s.part.chan ch).state = .running) (active : (s.part.chan ch).modState a = .active)
    (hr : rs[pos]? = some ⟨v, l, none⟩) (slot : s.part.slotAt ch a pos = some n)
    (others : ∀ x, x ≠ pos → s.part.slotAt ch a x = none) (entry : s.part.slotEntry n = ⟨ch, a, pos, .standard, g⟩)
    (hrow : Table.look s.part.rows n = some r) (hctx : r.ctx = some i)
    (same : r.occ = some v ∧ r.settle = none ∨ r.occ ≠ none ∧ ∃ st, r.settle = some st ∧ st.cand = v)
    (hc : Table.look s.part.ctxs i = some c) (hslot : c.slot = some n) (sent : c.lockSent = true)
    (opened : c.state = .opened ∨ c.state = .removedSettling) : s.Becomes (exec (.pollAnswer ch ⟨y, rs⟩) s)
      (((s.part.locks n l).heard ch a (fun m => { m with misses := 0, ack := true })).lockSeen n r.lock l) := by
  let f : ModEntry → ModEntry := fun m => { m with misses := 0, ack := true }
  let q := s.part.heard ch a f
  have rest : q.rows = s.part.rows ∧ q.ctxs = s.part.ctxs ∧ q.slotMap = s.part.slotMap := by
    cases ch <;> exact ⟨rfl, rfl, rfl⟩
  obtain ⟨qrows, qctxs, qmap⟩ := rest
  have sameSlot (x : Nat) : q.slotAt ch a x = s.part.slotAt ch a x := by unfold Part.slotAt; rw [qmap]
  have sameEntry : q.slotEntry n = s.part.slotEntry n := by unfold Part.slotEntry; rw [qmap]
  have swap : q.locks n l = (s.part.locks n l).heard ch a f := by cases ch <;> rfl
  obtain ⟨ks, reported⟩ := Part.lockReport_open (p := q) (qrows ▸ hrow) hctx (qctxs ▸ hc) hslot sent opened l
  rw [swap] at reported
  have position : q.takePosition ch a pos ⟨v, l, none⟩ = (q.lockReport n l).occReport ch n v :=
    Part.takePosition_standard ((sameSlot pos).trans slot) (by rw [sameEntry, entry]) _
  have settled : ∃ restJ : Part, restJ.rows = Table.modify s.part.rows n (fun r => { r with lock := some l })
      ∧ restJ.slotMap = s.part.slotMap ∧ (q.lockReport n l).restA = restJ.restA := by
    obtain ⟨A, B, leaves⟩ := (s.part.locks n l).heard_leaves ch a f
    refine ⟨((s.part.locks n l).heard ch a f).touch ks, ?_, ?_, ?_⟩
    · rw [leaves]; rfl
    · rw [leaves]; rfl
    · rw [reported]
      exact congrArg (Part.touch · ks) (Part.lockSeen_restA _ _ _ _)
  obtain ⟨w, wrows, wmap, wrest⟩ := settled
  have row : Table.look (q.lockReport n l).rows n = some { r with lock := some l } := by
    rw [show (q.lockReport n l).rows = w.rows from (congrArg Part.rows wrest :), wrows, Table.look_modify_same, hrow]
    rfl
  have known := Part.occReport_same row (v := v) same ch
  have whole : s.part.pollAnswer ch y rs = q.lockReport n l := by
    rw [Part.pollAnswer_running good line running, Part.poll_heard active]
    refine (Part.takeReports_one (p := q) hr (fun x hx => (sameSlot x).trans (others x hx)) ?_).trans (position.trans known)
    rw [position, known, qmap]
    exact (congrArg Part.slotMap wrest :).trans wmap
  refine State.becomes_of_unlit ?_
  show (s.part.pollAnswer ch y rs).unlit = _
  rw [whole, reported, Part.touch_unlit]

end Sys2Proof.Machine
end

section
/-! PROOFS. LOCK_CLOSE_ANSWER of LOCKED: the final report, the freed context, the oldest request (R40, R49, R53). -/

namespace Sys2Proof.Machine
open Sys2Proof

/-! ## What is read of the modules and rows -/

theorem Table.modify_congr {α : Type} {t : Table α} {i : Nat} {r : α} (hr : Table.look t i = some r) {f g : α → α} (h : f r = g r) :
    Table.modify t i f = Table.modify t i g := by
  induction t with
  | nil => rfl
  | cons e t ih =>
    obtain ⟨k, w⟩ := e
    unfold Table.look at hr
    unfold Table.modify
    by_cases hk : k = i
    · rw [if_pos hk] at hr
      rw [if_pos hk, if_pos hk, Option.some.inj hr, h]
    · rw [if_neg hk] at hr
      rw [if_neg hk, if_neg hk, ih hr]

theorem Part.moduleActive_heard (p : Part) (c : Chan) (a : Nat) {f : ModEntry → ModEntry} (hf : ∀ m, (f m).state = m.state)
    (d : Chan) (x : Nat) : (p.heard c a f).moduleActive d x = p.moduleActive d x := by
  have state (ch : Channel) : Channel.modState { ch with onLine := none, modules := Table.modify ch.modules a f } x = ch.modState x := by
    unfold Channel.modState
    dsimp only
    by_cases hx : x = a
    · subst hx
      rw [Table.look_modify_same]
      cases Table.look ch.modules x with
      | none => rfl
      | some m => exact hf m
    · rw [Table.look_modify_other _ _ _ _ hx]
  have line : ((p.heard c a f).chan d).state = (p.chan d).state ∧ ((p.heard c a f).chan d).modState x = (p.chan d).modState x := by
    cases c <;> cases d
    · exact ⟨rfl, state _⟩
    · exact ⟨rfl, rfl⟩
    · exact ⟨rfl, rfl⟩
    · exact ⟨rfl, state _⟩
  unfold Part.moduleActive
  rw [line.1, line.2]

/-- The conditions of a key's slot look at the modules of a part, and at nothing else of its channels. -/
theorem Part.keyFails_chans {p : Part} {A B : Channel} {link : Link} {lmp : Lmp}
    (active : ∀ d x, Part.moduleActive { p with chanA := A, chanB := B, link := link, lmp := lmp } d x = p.moduleActive d x)
    (k : KeyRec) (role : Role) :
    Part.keyFails { p with chanA := A, chanB := B, link := link, lmp := lmp } k role = p.keyFails k role := by
  unfold Part.keyFails
  dsimp only
  rw [active]
  rfl

theorem Part.chooseKey_congr {p q : Part} (keys : q.keys = p.keys) (fails : ∀ k role, q.keyFails k role = p.keyFails k role)
    (t : Target) (role : Role) : q.chooseKey t role = p.chooseKey t role := by
  unfold Part.chooseKey
  rw [keys]
  simp only [fails]

/-! ## A context that is freed (R49, R53) -/

/-- Context i has closed at slot n with its final report. -/
def Part.closedFree (p : Part) (i n : Nat) (rep : Report) : Part :=
  { p with
    rows := Table.modify p.rows n (fun r => { r with lock := some .locked, ctx := none }), ctxs := Table.del p.ctxs i
    chanA := p.chanA.leaveClose i, chanB := p.chanB.leaveClose i
    link := { p.link with reports := p.link.reports ++ [rep] } }

/-- A context in CLOSING hears LOCKED: its final report enters, and it is free for the oldest request. -/
theorem Part.lockReport_frees {p : Part} {n i : Nat} {r : SlotRow} {c : Ctx} (hrow : Table.look p.rows n = some r)
    (hctx : r.ctx = some i) (hc : Table.look p.ctxs i = some c) (closing : c.state = .closing) (sent : c.lockSent = true)
    (hslot : c.slot = some n) (quiet : p.alt.find .lockJam (.slot n) = none) (room : p.essRoom = true) :
    ∃ ks, p.lockReport n .locked = ((p.closedFree i n c.report).touch ks).takeQueue i := by
  obtain ⟨ks, told⟩ := Part.lockReport_told hrow hctx hc sent (by rw [closing]; nofun) .locked
  have calm : (p.locks n .locked).remove .lockJam (.slot n) = p.locks n .locked := Part.remove_none (by exact quiet)
  rw [calm, ite_self] at told
  have closes := Part.ctxLock_closes (p := Part.touch (p.locks n .locked) ks) hc closing
  have found : Table.look (Table.modify p.ctxs i (fun c => { c with lockLimit := none })) i = some { c with lockLimit := none } := by
    rw [Table.look_modify_same, hc]
    rfl
  have final : ((Part.touch (p.locks n .locked) ks).onCtx i (fun c => { c with lockLimit := none })).ctxFinal i
      = (((Part.touch (p.locks n .locked) ks).onCtx i (fun c => { c with lockLimit := none })).enter c.report).freeCtx i := by
    unfold Part.ctxFinal
    rw [show Table.look ((Part.touch (p.locks n .locked) ks).onCtx i (fun c => { c with lockLimit := none })).ctxs i
      = some { c with lockLimit := none } from found]
    exact if_pos room
  have rows : Table.modify (Table.modify p.rows n (fun r => { r with lock := some .locked })) n
      (fun r => if r.ctx = some i then { r with ctx := none } else r)
      = Table.modify p.rows n (fun r => { r with lock := some .locked, ctx := none }) := by
    rw [Table.modify_modify]
    exact Table.modify_congr hrow (if_pos hctx)
  have freed : ∃ ls, (((Part.touch (p.locks n .locked) ks).onCtx i (fun c => { c with lockLimit := none })).enter c.report).freeCtx i
      = ((p.closedFree i n c.report).touch ls).takeQueue i := by
    refine ⟨ks ++ [lampKey (p.slotEntry n).chan (p.slotEntry n).addr], ?_⟩
    unfold Part.freeCtx
    rw [show Table.look (((Part.touch (p.locks n .locked) ks).onCtx i (fun c => { c with lockLimit := none })).enter c.report).ctxs i
      = some { c with lockLimit := none } from found]
    dsimp only
    refine congrArg (Part.takeQueue · i) ?_
    unfold Part.unbind
    dsimp only
    rw [hslot]
    unfold Part.closedFree
    rw [← rows, ← Table.del_modify p.ctxs i (fun c => { c with lockLimit := none }), ← Part.touch_touch]
    rfl
  obtain ⟨ls, freed⟩ := freed
  exact ⟨ls, ((told.trans closes).trans final).trans freed⟩

/-! ## The oldest request of the queue (R40) -/

section Oldest
variable {p : Part} {pre post : List WaitEntry} {w : WaitEntry} (hq : p.waitQ = pre ++ w :: post)
  (before : ∀ x ∈ pre, x.ended ≠ none) (live : w.ended = none)
include hq before live

theorem Part.liveEntry_first : p.liveEntry = some w := by
  unfold Part.liveEntry
  rw [hq, List.find?_append, List.find?_eq_none.2, Option.none_or, List.find?_cons_of_pos (by rw [live]; rfl)]
  exact fun x hx is => before x hx (Option.isNone_iff_eq_none.1 is)

variable (ids : (p.waitQ.map (·.id)).Nodup)
include ids

/-- The oldest request starts on the freed context. -/
theorem Part.takeQueue_starts {g : Grant} (grant : p.recheck w.req = .ok g) (i : Nat) :
    p.takeQueue i = ({ p with waitQ := pre ++ post } : Part).startCtx i w.req g := by
  have others := filter_others (fun x : WaitEntry => x.id) (hq ▸ ids)
  have long : p.waitQ.length = (pre.length + post.length) + 1 := by rw [hq, List.length_append, List.length_cons]; omega
  unfold Part.takeQueue
  rw [long]
  unfold takeQueueFrom
  rw [Part.liveEntry_first hq before live]
  dsimp only
  rw [grant]
  dsimp only
  rw [hq, others]

/-- The oldest request ends, and no other is live. -/
theorem Part.takeQueue_ends {x : Result} (refused : p.recheck w.req = .error x) (after : ∀ y ∈ post, y.ended ≠ none)
    (room : p.essRoom = true) (i : Nat) :
    p.takeQueue i = { p.queued (failedReport w.req none none x) with waitQ := pre ++ post } := by
  have others := filter_others (fun x : WaitEntry => x.id) (hq ▸ ids)
  have ended : p.endEntry w x = { p.queued (failedReport w.req none none x) with waitQ := pre ++ post } := by
    unfold Part.endEntry
    dsimp only
    rw [if_pos room, hq, others]
    rfl
  have long : p.waitQ.length = (pre.length + post.length) + 1 := by rw [hq, List.length_append, List.length_cons]; omega
  have none : Part.liveEntry { p.queued (failedReport w.req none none x) with waitQ := pre ++ post } = none :=
    List.find?_eq_none.2 fun y hy is => (List.mem_append.1 hy).elim (before y · (Option.isNone_iff_eq_none.1 is))
      (after y · (Option.isNone_iff_eq_none.1 is))
  unfold Part.takeQueue
  rw [long]
  unfold takeQueueFrom
  rw [Part.liveEntry_first hq before live]
  dsimp only
  rw [refused]
  dsimp only
  rw [ended]
  unfold takeQueueFrom
  split
  · rfl
  · rw [none]

end Oldest

/-- A queued request for a rental whose checks pass (R40). -/
theorem Part.recheck_rental {p : Part} {q : RelReq} {num place h slot : Nat} {a : Auth} {k : KeyRec} (hsub : q.subject = .rental num)
    (ha : p.auth num = some a) (waiting : a.state = .waiting) (valid : a.validFrom ≤ p.now) (hplace : p.freeRentalPlace = some place)
    (hkey : p.chooseKey a.target q.role = .ok (h, k)) (loc : k.loc = some slot) : p.recheck q = .ok (slot, some h, some place) := by
  have auth : p.relAuth num false = .ok a := by
    unfold Part.relAuth
    rw [ha]
    dsimp only
    rw [waiting]
    rfl
  unfold Part.recheck
  rw [hsub]
  dsimp only
  rw [auth]
  dsimp only
  rw [Part.relGrant_ok valid hplace hkey, loc]
  rfl

theorem Part.recheck_noAuth {p : Part} {q : RelReq} {num : Nat} (hsub : q.subject = .rental num) (ha : p.auth num = none) :
    p.recheck q = .error .notFound := by
  unfold Part.recheck
  rw [hsub]
  dsimp only
  unfold Part.relAuth
  rw [ha]

theorem Part.recheck_noTag {p : Part} {q : RelReq} {t : Nat} (hsub : q.subject = .tag t) (unknown : p.keyByTag t = none) :
    p.recheck q = .error .notFound := by
  unfold Part.recheck
  rw [hsub]
  dsimp only
  unfold Part.serviceGrant
  dsimp only
  rw [unknown]

theorem Part.recheck_busySlot {p : Part} {q : RelReq} {x : Nat} {z : SlotRow} (hsub : q.subject = .slot x) (low : 1 ≤ x)
    (high : x ≤ 480) (standard : (p.slotEntry x).kind = .standard) (hz : Table.look p.rows x = some z) (settling : z.settle ≠ none) :
    p.recheck q = .error .slotBusy := by
  have arg : slotArg x = some x := if_pos ⟨low, high⟩
  have busy : p.serviceSlot x = some .slotBusy := by
    unfold Part.serviceSlot
    rw [show p.row x = some z from hz]
    exact if_pos (by rw [Option.getD_some, Option.isSome_iff_ne_none.mpr settling, Bool.or_true])
  unfold Part.recheck
  rw [hsub]
  dsimp only
  unfold Part.serviceGrant
  dsimp only
  rw [arg, standard, busy]
  rfl

end Sys2Proof.Machine
end

section
/-! PROOFS. LOCK_CLOSE_ANSWER of LOCKED as a whole (R40, R49, R53), and the statement about lock answers. -/

namespace Sys2Proof.Machine
open Sys2Proof

/-- A context that opens a slot changes contexts, rows and queues. -/
theorem Part.ctxOpens_leaves (p : Part) (i : Nat) (c : Ctx) (n : Nat) : ∃ A B, p.ctxOpens i c n = { p with
    ctxs := Table.put p.ctxs i c, rows := Table.modify p.rows n (fun r => { r with ctx := some i }), chanA := A, chanB := B } := by
  unfold Part.ctxOpens
  cases (p.slotEntry n).chan
  · exact ⟨_, p.chanB, rfl⟩
  · exact ⟨p.chanA, _, rfl⟩

theorem Part.ctxOpens_queue (p : Part) (i : Nat) (c : Ctx) (n : Nat) :
    BusCmd.lockOpen (p.slotEntry n).addr (p.slotEntry n).pos i ∈ ((p.ctxOpens i c n).chan (p.slotEntry n).chan).queue := by
  unfold Part.ctxOpens
  rw [Part.chan_onChan]
  exact List.mem_append_right _ (List.mem_singleton.mpr rfl)

theorem Part.freeRentalPlace_congr {p q : Part} (rentals : q.rentals = p.rentals) (ctxs : q.ctxs = p.ctxs) :
    q.freeRentalPlace = p.freeRentalPlace := by
  unfold Part.freeRentalPlace Part.reserved
  rw [rentals, ctxs]

/-- RELEASE_FAILED of a service request that never started (R205; log 13). -/
theorem failedReport_service {q : RelReq} (h : ∀ n, q.subject ≠ .rental n) (r : Result) : failedReport q none none r
    = ⟨.releaseFailed, q.origin, [BitVec.ofNat 8 q.tag, BitVec.ofNat 8 q.kind.code] ++ beBytes 4 0
      ++ [0xFF#8, 0xFF#8] ++ beBytes 2 0 ++ beBytes 4 (match q.subject with
        | .tag t => t
        | _ => 0) ++ [BitVec.ofNat 8 r.code]⟩ := by
  unfold failedReport
  rw [beBytes_one, beBytes_one, beBytes_one]
  cases hsub : q.subject with
  | rental n => exact absurd hsub (h n)
  | tag t => rfl
  | slot x => rfl

/-- Context i is gone, and slot n is LOCKED and free. -/
def Part.freedFor (p : Part) (n i : Nat) : Part :=
  { p with
    rows := Table.modify p.rows n (fun r => { r with lock := some .locked, ctx := none })
    ctxs := Table.del p.ctxs i }

/-- The channels and the lamps of a part that has answered aside, a context has closed with its final report. -/
structure Part.Closed (p q : Part) (n i : Nat) (c : Ctx) : Prop where
  chans : ∃ A B lmp, q = { p.freedFor n i with
    chanA := A, chanB := B, lmp := lmp, link := { p.link with reports := p.link.reports ++ [c.report] } }
  queues : ∀ d, (q.chan d).queue.length = (p.chan d).queue.length

theorem Part.closed_heard (p : Part) (ch : Chan) (a : Nat) (f : ModEntry → ModEntry) (n i : Nat) (c : Ctx) (ks : List Nat) :
    p.Closed (((p.heard ch a f).closedFree i n c.report).touch ks) n i c := by
  constructor
  · cases ch <;> exact ⟨_, _, _, rfl⟩
  · intro d
    cases ch <;> cases d <;> exact List.length_map _

theorem Part.closed_active (p : Part) (ch : Chan) (a : Nat) {f : ModEntry → ModEntry} (hf : ∀ m, (f m).state = m.state) (n i : Nat)
    (c : Ctx) (ks : List Nat) (d : Chan) (x : Nat) :
    (((p.heard ch a f).closedFree i n c.report).touch ks).moduleActive d x = p.moduleActive d x := by
  refine Eq.trans ?_ (p.moduleActive_heard ch a hf d x)
  cases d <;> rfl

section Closing
variable {s : State} {ch : Chan} {a pos n i : Nat} {o : LockOwner} {r : SlotRow} {c : Ctx} {y : Reply} (good : GoodReply y a)
  (line : (s.part.chan ch).onLine = some (.queued (.lockClose a pos o))) (slot : s.part.slotAt ch a pos = some n)
  (served : (s.part.chan ch).modState a = .active ∨ (s.part.chan ch).modState a = .silent)
  (hrow : Table.look s.part.rows n = some r) (hctx : r.ctx = some i) (hc : Table.look s.part.ctxs i = some c)
  (closing : c.state = .closing) (sent : c.lockSent = true) (hslot : c.slot = some n)
  (quiet : s.part.alt.find .lockJam (.slot n) = none) (room : s.part.essRoom = true)

include good line slot served hrow hctx hc closing sent hslot quiet room

theorem State.close_answered : ∃ q, s.part.lockCloseAnswer ch y .locked = q.takeQueue i ∧ s.part.Closed q n i c
    ∧ ((s.part.chan ch).modState a = .active → ∀ d x, q.moduleActive d x = s.part.moduleActive d x) := by
  obtain ⟨f, ks, stays, heard⟩ := Part.lockCloseAnswer_heard good slot served .locked line
  have same : (s.part.heard ch a f).rows = s.part.rows ∧ (s.part.heard ch a f).ctxs = s.part.ctxs
      ∧ (s.part.heard ch a f).alt = s.part.alt ∧ (s.part.heard ch a f).essRoom = s.part.essRoom := by
    cases ch <;> exact ⟨rfl, rfl, rfl, rfl⟩
  obtain ⟨rows, ctxs, alt, ess⟩ := same
  obtain ⟨ls, frees⟩ := Part.lockReport_frees (p := (s.part.heard ch a f).touch ks) (rows ▸ hrow) hctx (ctxs ▸ hc) closing sent hslot
    (alt ▸ quiet) (ess ▸ room)
  have over' : (((s.part.heard ch a f).touch ks).closedFree i n c.report).touch ls
      = ((s.part.heard ch a f).closedFree i n c.report).touch (ks ++ ls) := by
    rw [← Part.touch_touch]
    rfl
  rw [over'] at frees
  exact ⟨_, heard.trans frees, s.part.closed_heard ch a f n i c _, fun active => s.part.closed_active ch a (stays active) n i c _⟩

/-- No request waits: the context and its slot are free (R49, R53). -/
theorem State.close_frees (ended : ∀ w ∈ s.part.waitQ, w.ended ≠ none) : ∃ u, exec (.lockCloseAnswer ch ⟨y, .locked⟩) s = .next u
    ∧ u.part.ctxs = Table.del s.part.ctxs i ∧ Table.look u.part.rows n = some { r with lock := some .locked, ctx := none }
    ∧ u.part.keys = s.part.keys ∧ u.part.auths = s.part.auths ∧ u.part.rentals = s.part.rentals
    ∧ u.part.link.reports = s.part.link.reports ++ [c.report] := by
  obtain ⟨q, answered, ⟨⟨A, B, lmp, rfl⟩, -⟩, -⟩ :=
    State.close_answered good line slot served hrow hctx hc closing sent hslot quiet room
  rw [Part.takeQueue_none (by exact ended)] at answered
  obtain ⟨u, hu, -, hunlit⟩ := State.becomes_of_eq (s := s) answered
  refine ⟨u, hu, (congrArg Part.ctxs hunlit :), (congrArg (fun p => Table.look (Part.rows p) n) hunlit :).trans ?_,
    (congrArg Part.keys hunlit :), (congrArg Part.auths hunlit :), (congrArg Part.rentals hunlit :), (congrArg (·.link.reports) hunlit :)⟩
  show Table.look (Table.modify s.part.rows n _) n = _
  rw [Table.look_modify_same, hrow]
  rfl

variable {pre post : List WaitEntry} {w : WaitEntry} (hq : s.part.waitQ = pre ++ w :: post)
  (before : ∀ x ∈ pre, x.ended ≠ none) (live : w.ended = none) (ids : (s.part.waitQ.map (·.id)).Nodup)
include hq before live ids

/-- The oldest request starts on the freed context, as RELEASE would (R40). -/
theorem State.close_starts {num h k' place : Nat} {x : Auth} {k : KeyRec} (active : (s.part.chan ch).modState a = .active)
    (hsub : w.req.subject = .rental num) (hx : s.part.auth num = some x) (waiting : x.state = .waiting)
    (valid : x.validFrom ≤ s.part.now)
    (hplace : (s.part.freedFor n i).freeRentalPlace = some place)
    (hkey : (s.part.freedFor n i).chooseKey x.target w.req.role = .ok (h, k))
    (hk : Table.look s.part.keys h = some k) (loc : k.loc = some k')
    (space : (s.part.chan (s.part.slotEntry k').chan).queue.length < 16) : ∃ u, exec (.lockCloseAnswer ch ⟨y, .locked⟩) s = .next u
      ∧ u.part.waitQ = pre ++ post
      ∧ Table.look u.part.ctxs i = some ⟨.opening, some k', some h, w.req, some (s.part.mono + 2000), none, some place,
          none, none, false, false, 0, none⟩
      ∧ u.part.auths = s.part.auths.map (fun z => if z.rental = num then { z with state := .active } else z)
      ∧ Table.look u.part.keys h = some { k with state := .releasing }
      ∧ BusCmd.lockOpen (s.part.slotEntry k').addr (s.part.slotEntry k').pos i
          ∈ (u.part.chan (s.part.slotEntry k').chan).queue
      ∧ u.part.link.reports.length = s.part.link.reports.length + 1 := by
  obtain ⟨q, answered, ⟨⟨A, B, lmp, eq⟩, queues⟩, actives⟩ :=
    State.close_answered good line slot served hrow hctx hc closing sent hslot quiet room
  have fails (k : KeyRec) (role : Role) : q.keyFails k role = (s.part.freedFor n i).keyFails k role := by
    have calm := actives active
    rw [eq] at calm ⊢
    exact Part.keyFails_chans (p := s.part.freedFor n i) calm k role
  have keys : q.keys = s.part.keys := by rw [eq]; rfl
  have waitQ : q.waitQ = s.part.waitQ := by rw [eq]; rfl
  have auth : q.auth num = s.part.auth num := by rw [eq]; rfl
  have entry : q.slotEntry k' = s.part.slotEntry k' := by rw [eq]; rfl
  have chosen := (Part.chooseKey_congr (p := s.part.freedFor n i) keys fails x.target w.req.role).trans hkey
  have reserve := (Part.freeRentalPlace_congr (p := s.part.freedFor n i) (q := q) (by rw [eq]) (by rw [eq])).trans hplace
  have grant := Part.recheck_rental hsub (auth.trans hx) waiting (by rw [eq]; exact valid) reserve chosen loc
  have starts := Part.takeQueue_starts (waitQ.trans hq) before live (waitQ ▸ ids) grant i
  have start := Part.startCtx_rental (i := i) (q := w.req) (s := k') (reservation := some place)
    (p := ({ q with waitQ := pre ++ post } : Part)) (by
      show (q.chan (q.slotEntry k').chan).queue.length < 16
      rw [entry, queues]
      exact space) hsub (keys ▸ hk)
  obtain ⟨u, hu, -, hunlit⟩ := State.becomes_of_unlit (s := s) ((congrArg Part.unlit (answered.trans starts)).trans start)
  let granted : Part := { q with
    waitQ := pre ++ post, auths := q.auths.map (fun x => if x.rental = num then { x with state := .active } else x)
    keys := Table.put q.keys h { k with state := .releasing } }
  have asks := granted.ctxOpens_queue i (granted.ctxNew k' (some h) w.req (some place)) k'
  rw [show granted.slotEntry k' = s.part.slotEntry k' from entry] at asks
  have queue := (Part.mem_queue_of_unlit hunlit (s.part.slotEntry k').chan rfl).mpr asks
  obtain ⟨C, D, opens⟩ := granted.ctxOpens_leaves i (granted.ctxNew k' (some h) w.req (some place)) k'
  have spelt := hunlit.trans (congrArg Part.unlit opens)
  simp only [granted, eq] at spelt
  refine ⟨u, hu, (congrArg Part.waitQ spelt :), ?_, (congrArg Part.auths spelt :), ?_, queue, ?_⟩
  · refine (congrArg (fun p => Table.look (Part.ctxs p) i) spelt :).trans ?_
    exact Table.look_put_same _ _ _
  · refine (congrArg (fun p => Table.look (Part.keys p) h) spelt :).trans ?_
    exact Table.look_put_same _ _ _
  · refine (congrArg (·.link.reports.length) spelt :).trans ?_
    exact List.length_append

/-- The oldest request ends with its report, and no other starts (R39, R40). -/
theorem State.close_ends {x : Result} (after : ∀ z ∈ post, z.ended ≠ none) (few : s.part.link.reports.length < 63)
    (refused : ∀ A B link lmp, Part.recheck { s.part.freedFor n i with chanA := A, chanB := B, lmp := lmp, link := link } w.req
      = .error x) : ∃ u, exec (.lockCloseAnswer ch ⟨y, .locked⟩) s = .next u
      ∧ u.part.waitQ = pre ++ post ∧ u.part.ctxs = Table.del s.part.ctxs i ∧ u.part.keys = s.part.keys
      ∧ ∃ last, u.part.link.reports = s.part.link.reports ++ [last, failedReport w.req none none x] := by
  obtain ⟨-, waiters⟩ := (Part.essRoom_iff _).1 room
  obtain ⟨q, answered, ⟨⟨A, B, lmp, rfl⟩, -⟩, -⟩ :=
    State.close_answered good line slot served hrow hctx hc closing sent hslot quiet room
  have ends := Part.takeQueue_ends (p := { s.part.freedFor n i with
    chanA := A, chanB := B, lmp := lmp, link := { s.part.link with reports := s.part.link.reports ++ [c.report] } })
    hq before live ids (refused _ _ _ _) after ((Part.essRoom_iff _).2 ⟨by
      show (s.part.link.reports ++ [c.report]).length < 64
      rw [List.length_append]
      exact Nat.succ_lt_succ few, waiters⟩) i
  obtain ⟨u, hu, -, hunlit⟩ := State.becomes_of_eq (s := s) (answered.trans ends)
  refine ⟨u, hu, (congrArg Part.waitQ hunlit :), (congrArg Part.ctxs hunlit :), (congrArg Part.keys hunlit :), c.report, ?_⟩
  refine (congrArg (·.link.reports) hunlit :).trans ?_
  exact List.append_assoc s.part.link.reports [c.report] [failedReport w.req none none x]

end Closing

/-- Settles O38: what the answer makes of the row and of the context, and what a freed context takes on. -/
theorem lockAnswersMoveTheContext : Obligations.LockAnswersMoveTheContext := by
  refine ⟨?_, ?_, ?_, ?_⟩
  · intro s ch a pos n i r c y good line slot served hrow hctx hc opening sent
    exact State.lock_opens good line slot served hrow hctx opening sent hc
  · intro s ch adr pos n i j h r c a k y good line slot served hrow hctx carries opening sent
    exact State.lock_jams good line slot served hrow hctx opening sent carries
  · intro s ch a pos n i g ack y rs v l r c good line running active hr slot others entry hrow hctx same hc hslot sent opened seen
    have locks := State.poll_locks good line running active hr slot others entry hrow hctx same hc hslot sent opened
    cases l <;> exact locks
  · intro s ch a pos n i o r c y good line slot hrow hctx hc closing sent hslot quiet room
    refine ⟨fun served ended => ?_, ?_, ?_⟩
    · obtain ⟨u, hu, ctxs, row, keys, auths, rentals, reports⟩ :=
        State.close_frees good line slot served hrow hctx hc closing sent hslot quiet room ended
      refine ⟨u, hu, ctxs, row, keys, auths, rentals, fun num place hsub hplace hres whole => ?_, fun num hsub hres => ?_⟩
      · rw [reports, Ctx.report_done hsub hslot hplace hres (.inl rfl), whole]
        rfl
      · rw [reports, Ctx.report_failed hsub hslot hres ⟨nofun, nofun⟩]
        rfl
    · intro pre w post num active hq before live ids hsub freed
      refine ⟨fun x h k k' place hx waiting valid hplace hkey hk loc space => ?_, fun noAuth after few => ?_⟩
      · exact State.close_starts good line slot (.inl active) hrow hctx hc closing sent hslot quiet room hq before live ids active hsub
          hx waiting valid hplace hkey hk loc space
      · obtain ⟨u, hu, waitQ, ctxs, -, last, reports⟩ := State.close_ends good line slot (.inl active) hrow hctx hc closing sent hslot
          quiet room hq before live ids after few (x := .notFound) fun A B link lmp => Part.recheck_noAuth hsub (by exact noAuth)
        rw [failedReport_rental hsub] at reports
        exact ⟨u, hu, waitQ, ctxs, last, reports⟩
    · intro pre w post active hq others live ids few ends
      have ended (x : Result) (refused : ∀ A B link lmp,
          Part.recheck { s.part.freedFor n i with chanA := A, chanB := B, lmp := lmp, link := link } w.req = .error x) :=
        State.close_ends good line slot (.inl active) hrow hctx hc closing sent hslot quiet room hq
          (fun z hz => others z (List.mem_append_left _ hz)) live ids (fun z hz => others z (List.mem_append_right _ hz)) few refused
      refine ⟨fun t hsub unknown => ?_, fun x z hsub low high standard apart hz settling => ?_⟩
      · obtain ⟨u, hu, waitQ, ctxs, keys, last, reports⟩ := ended .notFound fun A B link lmp =>
          Part.recheck_noTag hsub (by exact unknown)
        rw [failedReport_service (by rw [hsub]; nofun), hsub] at reports
        exact ⟨u, hu, waitQ, ctxs, keys, last, reports⟩
      · obtain ⟨u, hu, waitQ, ctxs, keys, last, reports⟩ := ended .slotBusy fun A B link lmp =>
          Part.recheck_busySlot (z := z) hsub low high (by exact standard)
            ((Table.look_modify_other _ _ _ _ apart).trans hz) settling
        rw [failedReport_service (by rw [hsub]; nofun), hsub] at reports
        exact ⟨u, hu, waitQ, ctxs, keys, last, reports⟩

end Sys2Proof.Machine
end

section
/-! PROOFS. The entries of the loadable tables read back (R206), and a TABLE_WRITE of one entry (R191). -/

namespace Sys2Proof.Machine
open Sys2Proof

/-! ## Entries read back (R206) -/

theorem byteAt_cons_zero (b : Byte) (bs : List Byte) : byteAt (b :: bs) 0 = b.toNat := by rw [byteAt_eq]; rfl

theorem byteAt_cons_succ (b : Byte) (bs : List Byte) (i : Nat) : byteAt (b :: bs) (i + 1) = byteAt bs i := by
  rw [byteAt_eq, byteAt_eq]
  rfl

theorem toNat_ofNat_byte {n : Nat} (h : n < 256) : (BitVec.ofNat 8 n).toNat = n := Nat.mod_eq_of_lt h

theorem parseGroup_bytes (g : GroupEntry) : parseGroup g.bytes = some g := by
  obtain ⟨⟨a, b, c⟩, ⟨d, e, f⟩⟩ := g
  revert a b c d e f
  decide

theorem parseTerminal_bytes (e : Terminal) : parseTerminal e.bytes = some e := by
  obtain ⟨r, l, m⟩ := e
  cases r <;> revert l m <;> decide

theorem parseSlotEntry_bytes {e : SlotEntry} (low : 1 ≤ e.addr) (high : e.addr ≤ 30) (pos : e.pos ≤ 7) (group : e.group ≤ 15) :
    parseSlotEntry e.bytes = some e := by
  obtain ⟨c, a, q, k, g⟩ := e
  dsimp only at low high pos group
  have bytes : (⟨c, a, q, k, g⟩ : SlotEntry).bytes
      = [BitVec.ofNat 8 c.code, BitVec.ofNat 8 a, BitVec.ofNat 8 q, BitVec.ofNat 8 k.code, BitVec.ofNat 8 g] := by
    unfold SlotEntry.bytes
    simp only [beBytes_one]
    rfl
  have chan : parseChan (BitVec.ofNat 8 c.code).toNat = some c := by cases c <;> rfl
  unfold parseSlotEntry
  rw [bytes]
  simp only [byteAt_cons_zero, byteAt_cons_succ, toNat_ofNat_byte (show a < 256 by omega), toNat_ofNat_byte (show q < 256 by omega),
    toNat_ofNat_byte (show g < 256 by omega), chan, Option.bind_some]
  have fits : 1 ≤ a ∧ a ≤ Config.modules ∧ q ≤ 7 ∧ g ≤ 15 := ⟨low, high, pos, group⟩
  cases k <;> exact if_pos fits

/-- A place that holds an entry. -/
theorem parsePresent_some {α : Type} (bs : List Byte) (v : Option α) : parsePresent (1#8 :: bs) v = v.map some := by
  unfold parsePresent
  rw [byteAt_cons_zero]
  rfl

theorem parsePresent_none {α : Type} (bs : List Byte) (v : Option α) : parsePresent (0#8 :: bs) v = some none := by
  unfold parsePresent
  rw [byteAt_cons_zero]
  rfl

theorem parseMapEntry_bytes {e : MapEntry} (serial : e.serial < 4294967296) (low : 1 ≤ e.addr) (high : e.addr ≤ 30) :
    parseMapEntry (mapEntryBytes (some e)) = some (some e) := by
  have bytes : mapEntryBytes (some e) = 1#8 :: (beBytes 4 e.serial ++ beBytes 1 e.addr) := rfl
  have number : field (mapEntryBytes (some e)) 1 4 = e.serial := field_after [1#8] (beBytes 1 e.addr) rfl serial bytes
  have address : byteAt (mapEntryBytes (some e)) 5 = e.addr :=
    field_after (1#8 :: beBytes 4 e.serial) [] (by simp) (show e.addr < 256 by omega) (by rw [bytes]; simp)
  have fits : 1 ≤ e.addr ∧ e.addr ≤ Config.modules := ⟨low, high⟩
  unfold parseMapEntry
  rw [number, address, if_pos fits]
  exact parsePresent_some _ _

theorem parsePoint_bytes {z : Option ZonePoint} (h : ∀ x, z = some x → x.minuteOfDay ≤ 1439) :
    parsePoint (pointBytes z) = some z := by
  cases z with
  | none => exact parsePresent_none _ _
  | some x =>
    obtain ⟨m, zone⟩ := x
    have below : m ≤ 1439 := h _ rfl
    have bytes : pointBytes (some ⟨m, zone⟩) = 1#8 :: (beBytes 2 m ++ beBytes 1 zone.code) := rfl
    have minute : field (pointBytes (some ⟨m, zone⟩)) 1 2 = m :=
      field_after [1#8] (beBytes 1 zone.code) rfl (by omega) bytes
    have code : byteAt (pointBytes (some ⟨m, zone⟩)) 3 = zone.code :=
      field_after (1#8 :: beBytes 2 m) [] (by simp) (by cases zone <;> decide) (by rw [bytes]; simp)
    unfold parsePoint
    dsimp only
    rw [minute, code, if_pos below, bytes]
    refine (parsePresent_some _ _).trans ?_
    cases zone <;> rfl

theorem parsePass_some {x : PassEntry} (role : x.role ≠ some .none) : parsePass (passBytes (some x)) = some (some x) := by
  obtain ⟨r, c, a⟩ := x
  rcases r with - | (- | - | - | -)
  case some.none => exact absurd rfl role
  all_goals rcases c with - | (- | - | - | -) <;> cases a <;> decide

theorem parsePass_none : parsePass (passBytes none) = some none := parsePresent_none _ _

/-- The Pass Table takes no entry of LOCK_RAW (R186). -/
theorem parsePass_lockRaw (role act : Byte) : parsePass [1#8, role, 0x44#8, act] = none := by
  unfold parsePass
  refine (parsePresent_some _ _).trans ?_
  have cls : byteAt [1#8, role, 0x44#8, act] 2 = 0x44 := by rw [byteAt_eq]; rfl
  have barred : (if (0x44 : Nat) = 255 then (some none : Option (Option ModClass)) else (parseClass 0x44).map some) = none := rfl
  dsimp only
  rw [cls, barred]
  simp only [Option.bind_none, Option.bind_fun_none, Option.map_none]

/-! ## A write of one entry (R191) -/

section One
variable {p : Part} {f : Frame} {tag : Byte} {t i : Nat} {entry : List Byte}
  (hpay : f.payload = tag :: (beBytes 1 t ++ (beBytes 2 i ++ (beBytes 1 1 ++ entry))))
  {lo places w most cap : Nat} (shape : tableShape t = some (lo, places, w, most, cap)) (len : entry.length = w)
  (some' : 1 ≤ most) (low : lo ≤ i) (high : i < lo + places)
include hpay shape len some' low high

theorem Part.doTableWrite_one (ht : t < 256) (hi : i < 65536) : p.doTableWrite f = match p.tableWrite t i [entry] with
    | .error r => p.refuse r
    | .ok q => q.answer .ok (beBytes 1 t ++ beBytes 2 i ++ [1#8]) := by
  obtain ⟨table, index, count⟩ := tableHead_payload hpay ht hi (show 1 < 256 by omega)
  have length : f.payload.length = 5 + 1 * w := by
    rw [hpay]
    simp only [List.length_cons, List.length_append, beBytes_length, len]
    omega
  have rest : f.payload.drop 5 = entry := by rw [hpay]; rfl
  have fits : rangeOk lo places most i 1 = true := decide_eq_true ⟨Nat.le_refl 1, some', low, by omega⟩
  have single : splitEntries w 1 entry = [entry] := by
    show [entry.take w] = [entry]
    rw [← len, List.take_length]
  unfold Part.doTableWrite
  dsimp only
  rw [table, index, count, shape]
  dsimp only
  rw [length, rest, fits, single, if_neg (by simp)]
  rfl

end One

theorem writeWith_one {α : Type} {parse : List Byte → Option α} {b : List Byte} {x : α} (h : parse b = some x)
    (w : List α → Except Result Part) : writeWith parse [b] w = w [x] := by
  unfold writeWith parseAll parseAll
  rw [h]
  rfl

theorem writeWith_malformed {α : Type} {parse : List Byte → Option α} {b : List Byte} (h : parse b = none)
    (w : List α → Except Result Part) : writeWith parse [b] w = .error .badArgument := by
  unfold writeWith parseAll parseAll
  rw [h]
  rfl

section Answers
variable {s : State} {f : Frame} {rest : List Frame} {tag : Byte} {t i : Nat} {entry : List Byte} (hasks : s.Asks .tableWrite f rest)
  (hpay : f.payload = tag :: (beBytes 1 t ++ (beBytes 2 i ++ (beBytes 1 1 ++ entry))))
  {lo places w most cap : Nat} (shape : tableShape t = some (lo, places, w, most, cap)) (len : entry.length = w)
  (some' : 1 ≤ most) (low : lo ≤ i) (high : i < lo + places) (ht : t < 256) (hi : i < 65536)
include hasks hpay shape len some' low high ht hi

/-- A write that is made is answered OK with its table, index and count. -/
theorem State.tableWritten {q q' : Part} (writes : (s.part.asked f rest).tableWrite t i [entry] = .ok q) (same : q.unlit = q'.unlit)
    (room : q'.essRoom = true) :
    s.Becomes (exec .tableWrite s) (q'.queued (s.part.replyTo f .ok (beBytes 1 t ++ beBytes 2 i ++ [1#8]))) := by
  have owner := Part.doTableWrite_one (p := s.part.asked f rest) hpay shape len some' low high ht hi
  rw [writes] at owner
  exact State.replies Part.doTableWrite hasks owner same room

theorem State.tableRefused {x : Result} (room : s.part.essRoom = true)
    (refuses : (s.part.asked f rest).tableWrite t i [entry] = .error x) :
    s.Becomes (exec .tableWrite s) ((s.part.asked f rest).queued (s.part.replyTo f x [])) := by
  have owner := Part.doTableWrite_one (p := s.part.asked f rest) hpay shape len some' low high ht hi
  rw [refuses] at owner
  exact State.refuses Part.doTableWrite hasks room owner

end Answers

end Sys2Proof.Machine
end

section
/-! PROOFS. TABLE_WRITE of one entry, table by table (R5, R71, R90, R155, R184, R186, R191). -/

namespace Sys2Proof.Machine
open Sys2Proof

/-! ## The tables but the Slot Map (R90, R155, R184, R186) -/

section Tables
variable (p : Part) (i : Nat)

theorem Part.tableWrite_group (g : GroupEntry) : p.tableWrite 4 i [g.bytes]
    = .ok { p with groups := if g = GroupEntry.powerOn then Table.del p.groups i else Table.put p.groups i g } :=
  (writeWith_one (parseGroup_bytes g) (fun xs => .ok { p with groups := writeDefault GroupEntry.powerOn p.groups i xs })).trans rfl

theorem Part.tableWrite_terminal (e : Terminal) : p.tableWrite 3 i [e.bytes]
    = if officeHasLoad (if e = Terminal.powerOn then Table.del p.tfl.terminals i else Table.put p.tfl.terminals i e) then
        .ok { p with tfl := { p.tfl with
          terminals := if e = Terminal.powerOn then Table.del p.tfl.terminals i else Table.put p.tfl.terminals i e } }
      else .error .badArgument :=
  writeWith_one (parseTerminal_bytes e) _

theorem officeHasLoad_iff (t : Table Terminal) : officeHasLoad t = true ↔ ∃ x ∈ t, x.2.role = .office ∧ x.2.load = true := by
  unfold officeHasLoad
  simp [List.any_eq_true]

theorem Part.tableWrite_pass {b : List Byte} {x : Option PassEntry} (h : parsePass b = some x) : p.tableWrite 6 i [b]
    = .ok { p with tfl := { p.tfl with passTable := Table.putO p.tfl.passTable i x } } := writeWith_one h _

theorem Part.tableWrite_passMalformed {b : List Byte} (h : parsePass b = none) : p.tableWrite 6 i [b] = .error .badArgument :=
  writeWith_malformed h _

theorem Part.tableWrite_point {z : Option ZonePoint} (h : ∀ x, z = some x → x.minuteOfDay ≤ 1439) : p.tableWrite 5 i [pointBytes z]
    = if ((Table.putO p.schedule i z).map (·.2.minuteOfDay)).Nodup then .ok ({ p with schedule := Table.putO p.schedule i z } : Part).zoneRun
      else .error .badArgument := by
  refine (writeWith_one (parsePoint_bytes h) _).trans ?_
  unfold Part.writeSchedule
  exact if_congr decide_eq_true_iff rfl rfl

/-- The first module of an empty map, on a channel that is OFF. -/
theorem Part.tableWrite_module (c : Chan) {e : MapEntry} (serial : e.serial < 4294967296) (low : 1 ≤ e.addr) (high : e.addr ≤ 30)
    (empty : (p.chan c).map = []) : p.tableWrite (1 + c.code) i [mapEntryBytes (some e)]
      = if (p.chan c).state ≠ .off then .error .inUse else .ok (p.onChan c (fun ch => { ch with
        map := [(i, e)], modules := [(e.addr, (Table.look ch.modules e.addr).getD ModEntry.fresh)] })) := by
  have places : writePlaces (p.chan c).map i [some e] = [(i, e)] := by rw [empty]; rfl
  have write : p.tableWrite (1 + c.code) i [mapEntryBytes (some e)] = p.writeModules c i [some e] := by
    cases c <;> exact writeWith_one (parseMapEntry_bytes serial low high) _
  have ok : moduleMapOk [(i, e)] = true := by simp [moduleMapOk]
  have kept : unmapped (p.chan c).map [(i, e)] = [] := by
    unfold unmapped
    rw [empty]
    exact List.filter_eq_nil_iff.2 fun a _ h => by simp at h
  rw [write]
  unfold Part.writeModules
  dsimp only
  rw [places, ok, kept, if_neg nofun]
  rfl

end Tables

theorem Part.zoneRun_link (p : Part) : p.zoneRun.link = p.link := by
  have interval (q : Part) (n : Nat) : (q.intervalChanged n).link = q.link := by
    unfold Part.intervalChanged
    repeat' split
    all_goals rfl
  unfold Part.zoneRun
  split
  · rfl
  · obtain ⟨ks, hks⟩ := (({ p with zone := p.zoneEval } : Part).intervalChanged p.interval).blankingChanged_touch p
    dsimp only
    rw [hks]
    exact interval _ _

/-! ## The Slot Map (R4, R5) -/

theorem slotMapOk_iff (t : Table SlotEntry) : slotMapOk t = true
    ↔ ((((t.map (·.2)).filter (fun x => x.kind != .disabled)).filter (fun x => x.kind == .drop)).length ≤ 2
      ∧ (((t.map (·.2)).filter (fun x => x.kind != .disabled)).map (fun x => (x.chan, x.addr, x.pos))).Nodup) := by
  unfold slotMapOk
  simp only [Bool.and_eq_true, decide_eq_true_eq]

/-- The constraints of the Slot Map look at no group. -/
theorem slotMapOk_regroup {t : Table SlotEntry} {i : Nat} {e : SlotEntry} (rising : Table.rising t = true)
    (he : Table.look t i = some e) (g : Nat) : slotMapOk (Table.put t i { e with group := g }) = slotMapOk t := by
  have stripped (t : Table SlotEntry) : slotMapOk t = (
      let live := (t.map (fun e => (e.2.kind, e.2.chan, e.2.addr, e.2.pos))).filter (fun e => e.1 != .disabled)
      decide ((live.filter (fun e => e.1 == .drop)).length ≤ 2) && decide ((live.map (fun e => e.2)).Nodup)) := by
    unfold slotMapOk
    simp only [List.filter_map, List.length_map, List.map_map, Function.comp_def]
  have same : (Table.put t i { e with group := g }).map (fun e => (e.2.kind, e.2.chan, e.2.addr, e.2.pos))
      = t.map (fun e => (e.2.kind, e.2.chan, e.2.addr, e.2.pos)) := by
    rw [Table.put_over rising he, List.map_map]
    refine List.map_congr_left fun x hx => ?_
    dsimp only [Function.comp_apply]
    split
    · next here =>
      have found := Table.look_of_mem rising hx
      rw [here, he] at found
      rw [Option.some.inj found]
    · rfl
  rw [stripped, stripped, same]

theorem Part.removeSubject_none {p : Part} {s : Subject} (h : ∀ x ∈ p.alt.entries, x.subject ≠ s) : p.removeSubject s = p := by
  have none (k : AlertKind) : p.alt.find k s = none := List.find?_eq_none.2 fun x hx is => by
    rw [Bool.and_eq_true, beq_iff_eq, beq_iff_eq] at is
    exact h x hx is.2
  have stays : ∀ ks : List AlertKind, ks.foldl (fun q k => q.remove k s) p = p := by
    intro ks
    induction ks with
    | nil => rfl
    | cons k ks ih => rw [List.foldl_cons, Part.remove_none (none k), ih]
  exact stays _

section Slots
variable {p : Part} {i : Nat} {e : SlotEntry}

theorem Part.tableWrite_slot (low : 1 ≤ e.addr) (high : e.addr ≤ 30) (pos : e.pos ≤ 7) (group : e.group ≤ 15) :
    p.tableWrite 0 i [e.bytes]
      = if slotMapOk (Table.putD SlotEntry.powerOn p.slotMap i e) = false then .error .badArgument
        else if p.slotFree i e = false then .error .inUse
        else .ok (({ p with slotMap := Table.putD SlotEntry.powerOn p.slotMap i e } : Part).slotWritten i (p.slotEntry i) e) := by
  refine (writeWith_one (parseSlotEntry_bytes low high pos group) _).trans ?_
  unfold Part.writeSlots
  have single : writeDefault SlotEntry.powerOn p.slotMap i [e] = Table.putD SlotEntry.powerOn p.slotMap i e := rfl
  have all : ([e].zipIdx i).all (fun x => p.slotFree x.2 x.1) = p.slotFree i e := by simp
  dsimp only
  rw [single, all]
  simp only [Bool.not_eq_true']
  rfl

/-- An entry whose group alone changes writes nothing else but lamps. -/
theorem Part.slotWritten_regrouped {old : SlotEntry} (same : old.changed e = false) : (p.slotWritten i old e).unlit = p.unlit := by
  unfold Part.slotWritten
  dsimp only
  rw [same, if_neg Bool.false_ne_true]
  split
  · rfl
  · rfl

/-- An entry that changes in more gives its slot a row anew or none, and empties its filter. -/
theorem Part.slotWritten_changed {old : SlotEntry} (changes : old.changed e = true) (quiet : ∀ x ∈ p.alt.entries, x.subject ≠ .slot i) :
    (p.slotWritten i old e).unlit = ({ p with
      rows := if e.kind = .standard then Table.put p.rows i ⟨none, none, none, none, none⟩ else Table.del p.rows i
      filters := Table.del p.filters i } : Part).unlit := by
  have calm : Part.removeSubject { p with rows := slotRowAfter p.rows i e, filters := Table.del p.filters i } (.slot i)
      = { p with rows := slotRowAfter p.rows i e, filters := Table.del p.filters i } := Part.removeSubject_none quiet
  unfold Part.slotWritten
  dsimp only
  rw [changes, if_pos rfl, calm]
  split
  · rfl
  · rfl

theorem Part.slotFree_unchanged (same : (p.slotEntry i).changed e = false) : p.slotFree i e = true := by
  unfold Part.slotFree
  dsimp only
  rw [same]
  rfl

theorem Part.slotFree_iff (changes : (p.slotEntry i).changed e = true) : p.slotFree i e = true
    ↔ (p.chan (p.slotEntry i).chan).state = .off ∧ (p.chan e.chan).state = .off ∧ p.keyAt i = none := by
  unfold Part.slotFree
  dsimp only
  rw [changes]
  simp [and_assoc]

end Slots

end Sys2Proof.Machine
end

section
/-! PROOFS. The zone that a schedule gives (R91), and POLICY_SET of one value (R193 to R195). -/

namespace Sys2Proof.Machine
open Sys2Proof

/-! ## The zone of a schedule (R91) -/

/-- The later of the point found so far and the next. -/
def laterPoint (a : Option ZonePoint) (z : ZonePoint) : Option ZonePoint :=
  match a with
  | none => some z
  | some b => if b.minuteOfDay < z.minuteOfDay then some z else some b

theorem laterPoint_spec (a : Option ZonePoint) (z : ZonePoint) : ∃ b, laterPoint a z = some b ∧ (a = some b ∨ b = z)
    ∧ z.minuteOfDay ≤ b.minuteOfDay ∧ ∀ c, a = some c → c.minuteOfDay ≤ b.minuteOfDay := by
  cases a with
  | none => exact ⟨z, rfl, .inr rfl, Nat.le_refl _, nofun⟩
  | some b =>
    by_cases later : b.minuteOfDay < z.minuteOfDay
    · refine ⟨z, if_pos later, .inr rfl, Nat.le_refl _, ?_⟩
      rintro c ⟨⟩
      exact Nat.le_of_lt later
    · refine ⟨b, if_neg later, .inl rfl, Nat.not_lt.mp later, ?_⟩
      rintro c ⟨⟩
      exact Nat.le_refl _

/-- A fold over points gives one of them that none is later than. -/
theorem foldl_laterPoint (zs : List ZonePoint) (a : Option ZonePoint) :
    (zs.foldl laterPoint a = none → a = none ∧ zs = []) ∧ ∀ z, zs.foldl laterPoint a = some z → (a = some z ∨ z ∈ zs)
      ∧ (∀ b, a = some b → b.minuteOfDay ≤ z.minuteOfDay) ∧ ∀ y ∈ zs, y.minuteOfDay ≤ z.minuteOfDay := by
  induction zs generalizing a with
  | nil =>
    refine ⟨fun h => ⟨h, rfl⟩, fun z h => ⟨.inl h, fun b hb => ?_, nofun⟩⟩
    rw [Option.some.inj (hb.symm.trans h)]
  | cons y zs ih =>
    obtain ⟨b, later, source, over', above⟩ := laterPoint_spec a y
    rw [List.foldl_cons, later]
    obtain ⟨none, found⟩ := ih (some b)
    refine ⟨fun h => absurd (none h).1 nofun, fun z h => ?_⟩
    obtain ⟨mem, first, most⟩ := found z h
    have top := first b rfl
    refine ⟨?_, fun c hc => (above c hc).trans top, fun x hx => ?_⟩
    · rcases mem with eq | mem
      · rcases source with h | rfl
        · exact .inl (h.trans eq)
        · exact .inr (Option.some.inj eq ▸ List.mem_cons_self)
      · exact .inr (List.mem_cons_of_mem _ mem)
    · rcases List.mem_cons.mp hx with rfl | hx
      · exact over'.trans top
      · exact most x hx

/-- Of points of distinct minutes, the latest. -/
theorem latestPoint_eq {zs : List ZonePoint} (distinct : (zs.map (·.minuteOfDay)).Nodup) {x : ZonePoint} (hx : x ∈ zs)
    (latest : ∀ y ∈ zs, y.minuteOfDay ≤ x.minuteOfDay) : latestPoint zs = some x := by
  obtain ⟨none, found⟩ := foldl_laterPoint zs none
  change zs.foldl laterPoint .none = some x
  cases h : zs.foldl laterPoint .none with
  | none =>
    rw [(none h).2] at hx
    cases hx
  | some z =>
    obtain ⟨mem, -, most⟩ := found z h
    have mem : z ∈ zs := mem.resolve_left nofun
    rw [List.inj_on_of_nodup_map distinct mem hx (Nat.le_antisymm (latest z mem) (most x hx))]

section Zone
variable {p : Part}

theorem Part.zoneEval_unset (h : p.clock.set = false ∨ p.schedule = []) : p.zoneEval = .staffed := by
  unfold Part.zoneEval
  rcases h with h | h
  · rw [h]
    rfl
  · rw [h]
    split <;> rfl

variable (hset : p.clock.set = true) (distinct : (p.schedule.map (·.2.minuteOfDay)).Nodup) {x : Nat × ZonePoint} (hx : x ∈ p.schedule)
include hset distinct hx

theorem Part.zoneEval_latest (below : x.2.minuteOfDay ≤ p.clock.minuteOfDay)
    (latest : ∀ y ∈ p.schedule, y.2.minuteOfDay ≤ p.clock.minuteOfDay → y.2.minuteOfDay ≤ x.2.minuteOfDay) : p.zoneEval = x.2.zone := by
  have points : ((p.schedule.map (·.2)).map (·.minuteOfDay)).Nodup := by rw [List.map_map]; exact distinct
  have found := latestPoint_eq (zs := (p.schedule.map (·.2)).filter (fun z => decide (z.minuteOfDay ≤ p.clock.minuteOfDay))) (x := x.2)
    (points.sublist (List.filter_sublist.map _)) (List.mem_filter.2 ⟨List.mem_map_of_mem hx, decide_eq_true below⟩) (by
      intro y hy
      obtain ⟨mem, early⟩ := List.mem_filter.1 hy
      obtain ⟨e, he, rfl⟩ := List.mem_map.1 mem
      exact latest e he (of_decide_eq_true early))
  unfold Part.zoneEval
  rw [hset, if_pos rfl]
  dsimp only
  rw [found]

/-- Before the first point of the day the last point of the day before holds. -/
theorem Part.zoneEval_wraps (early : ∀ y ∈ p.schedule, p.clock.minuteOfDay < y.2.minuteOfDay)
    (latest : ∀ y ∈ p.schedule, y.2.minuteOfDay ≤ x.2.minuteOfDay) : p.zoneEval = x.2.zone := by
  have points : ((p.schedule.map (·.2)).map (·.minuteOfDay)).Nodup := by rw [List.map_map]; exact distinct
  have none : (p.schedule.map (·.2)).filter (fun z => decide (z.minuteOfDay ≤ p.clock.minuteOfDay)) = [] :=
    List.filter_eq_nil_iff.2 fun y hy is => by
      obtain ⟨e, he, rfl⟩ := List.mem_map.1 hy
      exact absurd (of_decide_eq_true is) (Nat.not_le.2 (early e he))
  have found := latestPoint_eq points (List.mem_map_of_mem hx) (by
    intro y hy
    obtain ⟨e, he, rfl⟩ := List.mem_map.1 hy
    exact latest e he)
  unfold Part.zoneEval
  rw [hset, if_pos rfl]
  dsimp only
  rw [none, found]
  rfl

end Zone

/-! ## The values of the policy (R193, R194) -/

theorem policyWidth_field {fld : Nat} (h : fld < 12) : policyWidth fld = some (if fld = 4 ∨ fld = 7 ∨ fld = 10 then 2 else 1) := by
  revert fld
  decide

/-- A POLICY_SET that carries one value is read back. -/
theorem parsePolicy_one {fld v : Nat} (h : fld < 12) (hv : v < (if fld = 4 ∨ fld = 7 ∨ fld = 10 then 65536 else 256)) (n : Nat) :
    parsePolicy (n + 2) (beBytes 1 fld ++ policyBytes fld v) = some [(fld, v)] := by
  have width := policyWidth_field h
  have code : (BitVec.ofNat 8 fld).toNat = fld := toNat_ofNat_byte (by omega)
  have bytes : policyBytes fld v = beBytes (if fld = 4 ∨ fld = 7 ∨ fld = 10 then 2 else 1) v := by
    unfold policyBytes
    rw [width]
    rfl
  have value : field (policyBytes fld v) 0 (if fld = 4 ∨ fld = 7 ∨ fld = 10 then 2 else 1) = v := by
    refine field_after [] [] rfl ?_ (by rw [bytes]; simp)
    split at hv <;> split <;> simp_all
  rw [beBytes_one]
  show parsePolicy (n + 2) (BitVec.ofNat 8 fld :: policyBytes fld v) = _
  unfold parsePolicy
  rw [code, width]
  dsimp only
  rw [value, if_neg (by rw [bytes, beBytes_length]; exact Nat.lt_irrefl _)]
  have rest : (policyBytes fld v).drop (if fld = 4 ∨ fld = 7 ∨ fld = 10 then 2 else 1) = [] := by
    rw [bytes]
    exact List.drop_eq_nil_of_le (Nat.le_of_eq (beBytes_length _ _))
  rw [rest]
  rfl

theorem nearestWatch_spec (v : Nat) : nearestWatch v ∈ [0, 10, 20, 40, 80, 160] ∧ (nearestWatch v = 0 ↔ v = 0)
    ∧ (v ≠ 0 → ∀ w ∈ [10, 20, 40, 80, 160], (v - nearestWatch v) + (nearestWatch v - v) ≤ (v - w) + (w - v)
      ∧ ((v - nearestWatch v) + (nearestWatch v - v) = (v - w) + (w - v) → w ≤ nearestWatch v)) := by
  unfold nearestWatch
  simp only [List.mem_cons, List.not_mem_nil, or_false]
  refine ⟨?_, ?_, fun nonzero w hw => ?_⟩
  · repeat' split
    all_goals omega
  · repeat' split
    all_goals omega
  · rcases hw with rfl | rfl | rfl | rfl | rfl
    all_goals
      repeat' split
      all_goals omega

/-- The ranges of the values (R194). -/
theorem policyClamp_ranges (v : Nat) : policyClamp 0 v = min 120 v ∧ policyClamp 1 v = max 15 (min 240 v)
    ∧ policyClamp 2 v = max 1 (min 24 v) ∧ policyClamp 3 v = min 240 v ∧ policyClamp 4 v = max 30 (min 2880 v)
    ∧ policyClamp 5 v = (if v = 0 then 0 else max 15 (min 240 v)) ∧ policyClamp 6 v = max 5 (min 120 v)
    ∧ policyClamp 8 v = max 1 (min 9 v) ∧ policyClamp 10 v = (if v = 0 then 0 else max 30 (min 1440 v))
    ∧ policyClamp 11 v = min 1 v :=
  ⟨Nat.zero_max _, rfl, rfl, Nat.zero_max _, rfl, rfl, rfl, rfl, rfl, rfl⟩

theorem policyClamp_settle (v : Nat) : policyClamp 7 v % 100 = 0 ∧ 100 ≤ policyClamp 7 v ∧ policyClamp 7 v ≤ 2000
    ∧ (100 ≤ v → v ≤ 2000 → policyClamp 7 v ≤ v + 50 ∧ v < policyClamp 7 v + 50) := by
  have spelt : policyClamp 7 v = (max 100 (min 2000 v) + 50) / 100 * 100 := rfl
  rw [spelt]
  omega

end Sys2Proof.Machine
end

section
/-! PROOFS. What the owners do with a changed value of the policy (R97, R113, R121, R141, R181, R195). -/

namespace Sys2Proof.Machine
open Sys2Proof

/-! ## The owners of the values (R195) -/

theorem Part.tierAsks_restA (p : Part) (r : Rental) (new : Tier) (report : Report) : (p.tierAsks r new report).restA = p.restA := by
  unfold Part.tierAsks
  split
  · exact (Part.offerOrd_restA _ _).trans (Part.tierAlert_restA _ _ _ _)
  · exact Part.tierAlert_restA _ _ _ _

theorem Part.tierAsks_touch (p : Part) (ks : List Nat) (r : Rental) (new : Tier) (report : Report) :
    (p.touch ks).tierAsks r new report = (p.tierAsks r new report).touch ks :=
  (p.tierAsks_graft r new report (p.touch ks)).trans (Part.graft_touch (p.tierAsks_restA r new report) ks)

/-- The tiers worked out where one record is open. -/
theorem Part.recomputeTiers_one {p : Part} {i : Nat} {r : Rental} (due : p.due = [i]) (hr : Table.look p.rentals i = some r)
    (hopen : r.snap = none) : (p.tierNow r = r.tier → p.recomputeTiers = p)
      ∧ (p.tierNow r ≠ r.tier → p.recomputeTiers.unlit
        = (({ p with rentals := Table.put p.rentals i { r with tier := p.tierNow r } } : Part).tierAsks r (p.tierNow r)
          ⟨.dueSoon, 255, beBytes 4 r.number ++ beBytes 2 r.key ++ beBytes 3 r.due ++ beBytes 1 (r.due - p.now)⟩).unlit) := by
  have one : p.recomputeTiers = p.recomputeTier i := by
    unfold Part.recomputeTiers
    rw [due]
    rfl
  refine ⟨fun same => ?_, fun differs => ?_⟩
  · rw [one]
    unfold Part.recomputeTier
    rw [hr]
    exact if_pos (.inr same)
  · have change : p.recomputeTier i = p.tierChange i r r.tier (p.tierNow r) := by
      unfold Part.recomputeTier
      rw [hr]
      exact if_neg (not_or.2 ⟨by rw [hopen]; nofun, differs⟩)
    obtain ⟨ks, hks⟩ := ({ p with rentals := Table.put p.rentals i { r with tier := p.tierNow r } } : Part).touchSlotO_touch
      (p.homeOf r.key)
    rw [one, change, Part.tierChange_asks differs, hks, Part.tierAsks_touch, Part.touch_unlit]

theorem Policy.set_get (y : Policy) {fld : Nat} (h : fld < 12) : y.set fld (y.get fld) = y := by
  obtain ⟨g, b, c, d, e, r, w, t, a, l, n, z⟩ := y
  match fld, h with
  | 0, _ => rfl
  | 1, _ => rfl
  | 2, _ => rfl
  | 3, _ => rfl
  | 4, _ => rfl
  | 5, _ => rfl
  | 6, _ => rfl
  | 7, _ => rfl
  | 8, _ => rfl
  | 9, _ => rfl
  | 10, _ => rfl
  | 11, _ => cases z <;> rfl

section Acts
variable (p : Part) (x v : Nat)

/-- A value as it was asks nothing of its owner, but of the watch. -/
theorem Part.policyActs_same {fld : Nat} (h : fld ≠ 9) : p.policyActs p.policy [(fld, v)] = p := by
  have watch : [(fld, v)].any (fun y => y.1 == 9) = false := by simp [h]
  unfold Part.policyActs
  dsimp only
  rw [watch]
  simp only [ne_eq, not_true_eq_false, or_false, if_false, Bool.false_eq_true]

/-- The values that no owner acts on. -/
theorem Part.policyActs_plain {fld : Nat} (h : fld ∈ [0, 1, 2, 6, 7, 8]) :
    p.policyActs (p.policy.set fld x) [(fld, v)] = { p with policy := p.policy.set fld x } := by
  simp only [List.mem_cons, List.not_mem_nil, or_false] at h
  rcases h with rfl | rfl | rfl | rfl | rfl | rfl <;> simp [Part.policyActs, Policy.set]

theorem Part.policyActs_tiers {fld : Nat} (h : fld = 3 ∨ fld = 4) (changes : x ≠ p.policy.get fld) :
    p.policyActs (p.policy.set fld x) [(fld, v)] = ({ p with policy := p.policy.set fld x } : Part).recomputeTiers := by
  rcases h with rfl | rfl
  · have differs : p.policy.dueSoon ≠ x := fun same => changes same.symm
    simp [Part.policyActs, Policy.set, differs]
  · have differs : p.policy.escalation ≠ x := fun same => changes same.symm
    simp [Part.policyActs, Policy.set, differs]

theorem Part.policyActs_interval (changes : x ≠ p.policy.get 5) :
    p.policyActs (p.policy.set 5 x) [(5, v)] = ({ p with policy := p.policy.set 5 x } : Part).intervalChanged p.interval := by
  have differs : p.policy.reAlert ≠ x := fun same => changes same.symm
  simp [Part.policyActs, Policy.set, differs]

theorem Part.policyActs_watch : p.policyActs (p.policy.set 9 x) [(9, v)]
    = ({ p with policy := p.policy.set 9 x } : Part).watchAfresh := by
  simp [Part.policyActs, Policy.set]

theorem Part.policyActs_census (changes : x ≠ p.policy.get 10) :
    p.policyActs (p.policy.set 10 x) [(10, v)] = ({ p with policy := p.policy.set 10 x } : Part).cenPolicy := by
  have differs : p.policy.censusInterval ≠ x := fun same => changes same.symm
  simp [Part.policyActs, Policy.set, differs]

theorem Part.policyActs_blank : ∃ ks,
    p.policyActs (p.policy.set 11 x) [(11, v)] = ({ p with policy := p.policy.set 11 x } : Part).touch ks := by
  obtain ⟨ks, hks⟩ := ({ p with policy := p.policy.set 11 x } : Part).blankingChanged_touch p
  have acts : p.policyActs (p.policy.set 11 x) [(11, v)] = if p.policy.blankUnstaffed ≠ (x != 0) then
      ({ p with policy := p.policy.set 11 x } : Part).blankingChanged p else { p with policy := p.policy.set 11 x } := by
    simp [Part.policyActs, Policy.set]
  rw [acts]
  split
  · exact ⟨ks, hks⟩
  · exact ⟨[], by unfold Part.touch; rw [List.append_nil]⟩

/-- Whatever the owners do, the policy is as written. -/
theorem Part.policyActs_policy {fld : Nat} (h : fld < 12) : (p.policyActs (p.policy.set fld x) [(fld, v)]).policy = p.policy.set fld x := by
  by_cases plain : fld ∈ [0, 1, 2, 6, 7, 8]
  · rw [Part.policyActs_plain p x v plain]
  · by_cases watch : fld = 9
    · subst watch
      rw [Part.policyActs_watch]
      rfl
    · by_cases changes : x = p.policy.get fld
      · rw [changes, Policy.set_get _ h, Part.policyActs_same p v watch]
      · have left : fld = 3 ∨ fld = 4 ∨ fld = 5 ∨ fld = 10 ∨ fld = 11 := by
          simp only [List.mem_cons, List.not_mem_nil, or_false] at plain
          omega
        rcases left with rfl | rfl | rfl | rfl | rfl
        · rw [Part.policyActs_tiers p x v (.inl rfl) changes]
          exact (congrArg Part.policy (Part.recomputeTiers_restT _) :)
        · rw [Part.policyActs_tiers p x v (.inr rfl) changes]
          exact (congrArg Part.policy (Part.recomputeTiers_restT _) :)
        · rw [Part.policyActs_interval p x v changes]
          exact (congrArg Part.policy (Part.intervalChanged_restA _ _) :)
        · rw [Part.policyActs_census p x v changes]
          rfl
        · obtain ⟨ks, hks⟩ := Part.policyActs_blank p x v
          rw [hks]
          rfl

end Acts

/-! ## A POLICY_SET of one value (R193 to R195) -/

/-- The result of a value that is brought into its range, and the fields of the answer. -/
def policyResult (fld v : Nat) : Result := if policyClamp fld v = v then .ok else .okClamped

def policyFields (new : Policy) (fld v : Nat) : List Byte :=
  if policyClamp fld v = v then new.bytes
  else beBytes 1 1 ++ (beBytes 1 fld ++ policyBytes fld (policyClamp fld v)) ++ new.bytes

theorem Part.doPolicySet_one {p : Part} {f : Frame} {tag : Byte} {fld v : Nat} (h : fld < 12)
    (hv : v < (if fld = 4 ∨ fld = 7 ∨ fld = 10 then 65536 else 256)) (hpay : f.payload = tag :: (beBytes 1 fld ++ policyBytes fld v)) :
    p.doPolicySet f = (p.policyActs (p.policy.set fld (policyClamp fld v)) [(fld, v)]).answer (policyResult fld v)
      (policyFields (p.policy.set fld (policyClamp fld v)) fld v) := by
  have long : ∃ n, f.payload.length = n + 2 := ⟨(policyBytes fld v).length, by
    rw [hpay]
    simp only [List.length_cons, List.length_append, beBytes_length]
    omega⟩
  obtain ⟨n, long⟩ := long
  have full : f.payload.isEmpty = false := by rw [hpay]; rfl
  have rest : f.payload.drop 1 = beBytes 1 fld ++ policyBytes fld v := by rw [hpay]; rfl
  unfold Part.doPolicySet
  rw [full, if_neg Bool.false_ne_true, long, rest, parsePolicy_one h hv n]
  dsimp only
  rw [if_neg (by simp)]
  unfold policyResult policyFields
  by_cases inRange : policyClamp fld v = v
  · rw [if_pos inRange, if_pos inRange]
    have none : [(fld, v)].filter (fun x => policyClamp x.1 x.2 != x.2) = [] := by simp [inRange]
    rw [none]
    rfl
  · rw [if_neg inRange, if_neg inRange]
    have clamped : [(fld, v)].filter (fun x => policyClamp x.1 x.2 != x.2) = [(fld, v)] := by simp [inRange]
    rw [clamped]
    have single : [(fld, v)].flatMap (fun x => beBytes 1 x.1 ++ policyBytes x.1 (policyClamp x.1 x.2))
      = beBytes 1 fld ++ policyBytes fld (policyClamp fld v) := by simp
    rw [single]
    rfl

end Sys2Proof.Machine
end

section
/-! PROOFS. The statement about tables and policy (R5, R90, R91, R184, R186, R191, R193 to R195). -/

namespace Sys2Proof.Machine
open Sys2Proof

/-! ## TABLE_WRITE (R191) -/

/-- A write of the Slot Map that changes a group alone. -/
theorem Part.regroup_writes {p : Part} {i : Nat} {e : SlotEntry} (he : Table.look p.slotMap i = some e)
    (rising : Table.rising p.slotMap = true) (ok : slotMapOk p.slotMap = true) (standard : e.kind = .standard)
    (low : 1 ≤ e.addr) (high : e.addr ≤ 30) (pos : e.pos ≤ 7) {g : Nat} (group : g ≤ 15) :
    p.tableWrite 0 i [({ e with group := g } : SlotEntry).bytes]
      = .ok (({ p with slotMap := Table.put p.slotMap i { e with group := g } } : Part).slotWritten i e { e with group := g }) := by
  have entry : p.slotEntry i = e := by
    unfold Part.slotEntry
    rw [he]
    rfl
  have listed : Table.putD SlotEntry.powerOn p.slotMap i { e with group := g } = Table.put p.slotMap i { e with group := g } := by
    refine if_neg fun same => ?_
    have kind : e.kind = .disabled := congrArg SlotEntry.kind same
    rw [standard] at kind
    cases kind
  have same : (p.slotEntry i).changed { e with group := g } = false := by
    rw [entry]
    exact decide_eq_false (not_not.2 rfl)
  have still : slotMapOk (Table.put p.slotMap i { e with group := g }) = true := by
    rw [slotMapOk_regroup rising he]
    exact ok
  have write := Part.tableWrite_slot (p := p) (i := i) (e := { e with group := g }) low high pos group
  rw [listed, still, Part.slotFree_unchanged same, if_neg (show ¬ true = false from nofun), if_neg (show ¬ true = false from nofun),
    entry] at write
  exact write

section Write
variable {s : State} {f : Frame} {rest : List Frame} {tag : Byte} {i : Nat} (hasks : s.Asks .tableWrite f rest)
  (room : s.part.essRoom = true)
include hasks room

/-- A write of the Slot Map that changes more than a group. -/
theorem State.slotWrite {e : SlotEntry} (hlow : 1 ≤ i) (hhigh : i ≤ 480) (low : 1 ≤ e.addr) (high : e.addr ≤ 30) (pos : e.pos ≤ 7)
    (group : e.group ≤ 15) (hpay : f.payload = tag :: (beBytes 1 0 ++ (beBytes 2 i ++ (beBytes 1 1 ++ e.bytes)))) :
    (slotMapOk (Table.putD SlotEntry.powerOn s.part.slotMap i e) = false →
      s.Becomes (exec .tableWrite s) ((s.part.asked f rest).queued (s.part.replyTo f .badArgument [])))
    ∧ (slotMapOk (Table.putD SlotEntry.powerOn s.part.slotMap i e) = true → (s.part.slotEntry i).changed e = true →
      (s.part.slotFree i e = false →
        s.Becomes (exec .tableWrite s) ((s.part.asked f rest).queued (s.part.replyTo f .inUse [])))
      ∧ (s.part.slotFree i e = true → (∀ x ∈ s.part.alt.entries, x.subject ≠ .slot i) →
        s.Becomes (exec .tableWrite s) (({ s.part.asked f rest with
          slotMap := Table.putD SlotEntry.powerOn s.part.slotMap i e, filters := Table.del s.part.filters i
          rows := if e.kind = .standard then Table.put s.part.rows i ⟨none, none, none, none, none⟩
            else Table.del s.part.rows i } : Part).queued (s.part.replyTo f .ok (beBytes 1 0 ++ beBytes 2 i ++ [1#8]))))) := by
  have write := Part.tableWrite_slot (p := s.part.asked f rest) (i := i) low high pos group
  have shape : tableShape 0 = some (1, 480, 5, 47, 46) := rfl
  have len : e.bytes.length = 5 := by simp [SlotEntry.bytes]
  refine ⟨fun bad => ?_, fun ok changes => ⟨fun used => ?_, fun free quiet => ?_⟩⟩
  · exact State.tableRefused hasks hpay shape len (by omega) hlow (by omega) (by omega) (by omega) room (write.trans (if_pos bad))
  · exact State.tableRefused hasks hpay shape len (by omega) hlow (by omega) (by omega) (by omega) room
      (write.trans ((if_neg (by rw [show slotMapOk (Table.putD SlotEntry.powerOn (s.part.asked f rest).slotMap i e) = true from ok]; nofun)).trans
        (if_pos used)))
  · refine State.tableWritten hasks hpay shape len (by omega) hlow (by omega) (by omega) (by omega)
      (write.trans ((if_neg (by rw [show slotMapOk (Table.putD SlotEntry.powerOn (s.part.asked f rest).slotMap i e) = true from ok]; nofun)).trans
        (if_neg (by rw [show (s.part.asked f rest).slotFree i e = true from free]; nofun)))) ?_ room
    exact Part.slotWritten_changed changes quiet

theorem State.slotRegroup {e : SlotEntry} (hlow : 1 ≤ i) (hhigh : i ≤ 480) (he : Table.look s.part.slotMap i = some e)
    (rising : Table.rising s.part.slotMap = true) (ok : slotMapOk s.part.slotMap = true) (standard : e.kind = .standard)
    (low : 1 ≤ e.addr) (high : e.addr ≤ 30) (pos : e.pos ≤ 7) {g : Nat} (group : g ≤ 15)
    (hpay : f.payload = tag :: (beBytes 1 0 ++ (beBytes 2 i ++ (beBytes 1 1 ++ ({ e with group := g } : SlotEntry).bytes)))) :
    s.Becomes (exec .tableWrite s) (({ s.part.asked f rest with slotMap := Table.put s.part.slotMap i { e with group := g } } : Part).queued
      (s.part.replyTo f .ok (beBytes 1 0 ++ beBytes 2 i ++ [1#8]))) := by
  have write := Part.regroup_writes (p := s.part.asked f rest) he rising ok standard low high pos group
  exact State.tableWritten hasks hpay (w := 5) rfl (by simp [SlotEntry.bytes]) (by omega) hlow (by omega) (by omega) (by omega) write
    (Part.slotWritten_regrouped (decide_eq_false (not_not.2 rfl))) room

/-- A write of the Zone Schedule. -/
theorem State.pointWrite {z : Option ZonePoint} (high : i ≤ 7) (minutes : ∀ x, z = some x → x.minuteOfDay ≤ 1439)
    (hpay : f.payload = tag :: (beBytes 1 5 ++ (beBytes 2 i ++ (beBytes 1 1 ++ pointBytes z)))) :
    (¬ ((Table.putO s.part.schedule i z).map (·.2.minuteOfDay)).Nodup →
      s.Becomes (exec .tableWrite s) ((s.part.asked f rest).queued (s.part.replyTo f .badArgument [])))
    ∧ (((Table.putO s.part.schedule i z).map (·.2.minuteOfDay)).Nodup →
      s.Becomes (exec .tableWrite s) (({ s.part.asked f rest with schedule := Table.putO s.part.schedule i z } : Part).zoneRun.queued
        (s.part.replyTo f .ok (beBytes 1 5 ++ beBytes 2 i ++ [1#8])))) := by
  have write := Part.tableWrite_point (s.part.asked f rest) i minutes
  have len : (pointBytes z).length = 4 := by cases z <;> simp [pointBytes]
  refine ⟨fun double => ?_, fun distinct => ?_⟩
  · exact State.tableRefused hasks hpay (w := 4) rfl len (by omega) (Nat.zero_le _) (by omega) (by omega) (by omega) room
      (write.trans (if_neg double))
  · refine State.tableWritten hasks hpay (w := 4) rfl len (by omega) (Nat.zero_le _) (by omega) (by omega) (by omega)
      (write.trans (if_pos distinct)) rfl ?_
    unfold Part.essRoom
    rw [Part.zoneRun_link]
    exact room

end Write

/-! ## POLICY_SET (R193 to R195) -/

section Policy
variable {s : State} {f : Frame} {rest : List Frame} {tag : Byte} {fld v : Nat} (hasks : s.Asks .policySet f rest) (h : fld < 12)
  (hv : v < (if fld = 4 ∨ fld = 7 ∨ fld = 10 then 65536 else 256)) (hpay : f.payload = tag :: (beBytes 1 fld ++ policyBytes fld v))
include hasks h hv hpay

/-- A POLICY_SET is answered over what the owners have made of the part. -/
theorem State.policyWritten {q : Part} (acts : ((s.part.asked f rest).policyActs (s.part.policy.set fld (policyClamp fld v)) [(fld, v)]).unlit
    = q.unlit) (room : q.essRoom = true) : s.Becomes (exec .policySet s) (q.queued (s.part.replyTo f (policyResult fld v)
      (policyFields (s.part.policy.set fld (policyClamp fld v)) fld v))) :=
  State.replies Part.doPolicySet hasks (Part.doPolicySet_one (p := s.part.asked f rest) h hv hpay) acts room

/-- Whatever place the response finds, the policy is written, and the tiers stand by it. -/
theorem State.policyStands : ∃ u tfl link, exec .policySet s = .next u
    ∧ u.part.unlit = ({ (s.part.asked f rest).policyActs (s.part.policy.set fld (policyClamp fld v)) [(fld, v)] with
        tfl := tfl, link := link } : Part).unlit
    ∧ link.watch = ((s.part.asked f rest).policyActs (s.part.policy.set fld (policyClamp fld v)) [(fld, v)]).link.watch
    ∧ (u.part.tfl.held = some (s.part.replyTo f (policyResult fld v) (policyFields (s.part.policy.set fld (policyClamp fld v)) fld v))
      ∨ u.part.link.reports.getLast? = some (s.part.replyTo f (policyResult fld v)
        (policyFields (s.part.policy.set fld (policyClamp fld v)) fld v))) := by
  obtain ⟨held, reports, waiters, run, last⟩ := State.requestRun_answered Part.doPolicySet hasks
    (Part.doPolicySet_one (p := s.part.asked f rest) h hv hpay)
  obtain ⟨u, hu, -, hunlit⟩ := State.becomes_of_eq (s := s) run
  refine ⟨u, _, _, hu, hunlit, rfl, ?_⟩
  rcases last with held' | queued
  · exact .inl ((congrArg (·.tfl.held) hunlit :).trans held')
  · exact .inr ((congrArg (·.link.reports.getLast?) hunlit :).trans queued)

end Policy

theorem policyReply (s : State) (f : Frame) (new : Policy) (fld v : Nat) :
    s.part.replyTo f (policyResult fld v) (policyFields new fld v) = if policyClamp fld v = v then s.part.replyTo f .ok new.bytes
      else s.part.replyTo f .okClamped (beBytes 1 1 ++ (beBytes 1 fld ++ policyBytes fld (policyClamp fld v)) ++ new.bytes) := by
  unfold policyResult policyFields
  split <;> rfl

/-- The next re-alerts go with the interval. -/
theorem Part.intervalChanged_off {p : Part} (off : p.interval = 0) (old : Nat) : p.intervalChanged old
    = { p with alt := { p.alt with entries := p.alt.entries.map (fun e => { e with next := none }) } } := by
  unfold Part.intervalChanged
  rw [if_pos off]

theorem Part.intervalChanged_on {p : Part} (on : p.interval ≠ 0) : p.intervalChanged 0
    = { p with alt := { p.alt with
        entries := p.alt.entries.map (fun e => { e with next := if e.acked then e.next else some (p.now + p.interval) }) } } := by
  have next : p.nextAlert = some (p.now + p.interval) := if_neg on
  have entries : p.alt.entries.map (fun e => if e.acked then e else { e with next := p.nextAlert })
      = p.alt.entries.map (fun e => { e with next := if e.acked then e.next else some (p.now + p.interval) }) := by
    refine List.map_congr_left fun e _ => ?_
    rw [next]
    split <;> rfl
  unfold Part.intervalChanged
  rw [if_neg on, if_pos rfl, entries]

theorem Part.intervalChanged_stays {p : Part} (on : p.interval ≠ 0) {old : Nat} (was : old ≠ 0) : p.intervalChanged old = p := by
  unfold Part.intervalChanged
  rw [if_neg on, if_neg was]

theorem Part.interval_zero_iff (p : Part) : p.interval = 0 ↔ p.policy.reAlert = 0 := by
  unfold Part.interval
  cases p.zone with
  | staffed => exact Iff.rfl
  | unstaffed => dsimp only; omega

/-- The next census start after a change of the interval (R121). -/
theorem Part.cenPolicy_eq (p : Part) : p.cenPolicy = { p with cen := { p.cen with
    nextStart := if p.policy.censusInterval = 0 ∨ p.clock.set = false then none
      else some (p.cen.startMin.getD p.now + p.policy.censusInterval) } } := by
  have next : (if p.policy.censusInterval = 0 then none else if !p.clock.set then none
      else some (p.cen.startMin.getD p.now + p.policy.censusInterval))
      = if p.policy.censusInterval = 0 ∨ p.clock.set = false then none
        else some (p.cen.startMin.getD p.now + p.policy.censusInterval) := by
    by_cases off : p.policy.censusInterval = 0 <;> cases p.clock.set <;> simp [off]
  exact congrArg (fun n => ({ p with cen := { p.cen with nextStart := n } } : Part)) next

/-- Settles O59: TABLE_WRITE table by table, the zone by the latest point, POLICY_SET by what each owner does. -/
theorem tablesAndPolicyAreWritten : Obligations.TablesAndPolicyAreWritten := by
  refine ⟨?_, ?_, ?_, ?_, ?_⟩
  · intro s f rest tag i hasks room p written one
    refine ⟨?_, ?_, ?_, ?_, ?_, ?_, ?_⟩
    · intro g high hpay
      exact State.tableWritten hasks hpay (w := 2) rfl rfl (by omega) (Nat.zero_le _) (by omega) (by omega) (by omega)
        (Part.tableWrite_group p i g) rfl room
    · intro e low high hpay table
      have write := Part.tableWrite_terminal p i e
      refine ⟨fun office => ?_, fun none => ?_⟩
      · rw [if_pos ((officeHasLoad_iff _).2 office)] at write
        exact State.tableWritten hasks hpay (w := 2) rfl rfl (by omega) low (by omega) (by omega) (by omega) write rfl room
      · rw [if_neg (fun office => by
          obtain ⟨x, hx, role, load⟩ := (officeHasLoad_iff _).1 office
          rw [none x hx role] at load
          cases load)] at write
        exact State.tableRefused hasks hpay (w := 2) rfl rfl (by omega) low (by omega) (by omega) (by omega) room write
    · intro e c high hpay serial low addr empty
      have write := Part.tableWrite_module p i c serial low addr (by cases c <;> exact empty)
      have shape : tableShape (1 + c.code) = some (0, 30, 6, 30, 30) := by cases c <;> rfl
      have small : 1 + c.code < 256 := by cases c <;> decide
      have len : (mapEntryBytes (some e)).length = 6 := by simp [mapEntryBytes]
      refine ⟨fun off => ?_, fun on => ?_⟩
      · rw [if_neg (fun on => on off)] at write
        exact State.tableWritten hasks hpay shape len (by omega) (Nat.zero_le _) (by omega) small (by omega) write rfl
          ((Part.essRoom_onChan _ _ _).trans room)
      · exact State.tableRefused hasks hpay shape len (by omega) (Nat.zero_le _) (by omega) small (by omega) room
          (write.trans (if_pos (by cases c <;> exact on)))
    · intro e hlow hhigh he rising ok standard low high pos g group hpay
      exact State.slotRegroup hasks room hlow hhigh he rising ok standard low high pos group hpay
    · intro e hlow hhigh low high pos group hpay old table live ok free
      obtain ⟨bad, good⟩ := State.slotWrite hasks room hlow hhigh low high pos group hpay
      have fits : ok ↔ slotMapOk table = true := (slotMapOk_iff table).symm
      refine ⟨fun misfit => bad (Bool.eq_false_iff.2 fun h => misfit (fits.2 h)), fun fit changes => ?_⟩
      have changed : (s.part.slotEntry i).changed e = true := decide_eq_true changes
      obtain ⟨used, unused⟩ := good (fits.1 fit) changed
      have freed := Part.slotFree_iff (p := s.part) changed
      exact ⟨fun held => used (Bool.eq_false_iff.2 fun h => held (freed.1 h)), fun empty quiet => unused (freed.2 empty) quiet⟩
    · intro z high minutes hpay table
      obtain ⟨double, distinct⟩ := State.pointWrite hasks room high minutes hpay
      have places : table = Table.putO s.part.schedule i z := by cases z <;> rfl
      rw [places]
      refine ⟨double, fun once => ?_⟩
      have becomes := distinct once
      refine ⟨fun same => ?_, ?_⟩
      · rw [show ({ p with schedule := Table.putO s.part.schedule i z } : Part).zoneRun
          = { p with schedule := Table.putO s.part.schedule i z } from if_pos same] at becomes
        exact becomes
      · obtain ⟨u, hu, -, hunlit⟩ := becomes
        obtain ⟨left, -, -⟩ := ({ p with schedule := Table.putO s.part.schedule i z } : Part).zoneRun_leaves
        have link := ({ p with schedule := Table.putO s.part.schedule i z } : Part).zoneRun_link
        refine ⟨u, hu, (congrArg Part.schedule hunlit :).trans (congrArg Part.schedule left :),
          (congrArg Part.zone hunlit :).trans (congrArg Part.zone left :), (congrArg (·.link.reports) hunlit :).trans ?_⟩
        exact (congrArg (fun l : Link => l.reports ++ [s.part.replyTo f .ok (beBytes 1 5 ++ beBytes 2 i ++ [1#8])]) link :)
    · intro high
      refine ⟨fun x role hpay => ?_, fun hpay => ?_, fun role act hpay => ?_⟩
      · exact State.tableWritten hasks hpay (w := 4) rfl (by simp [passBytes]) (by omega) (Nat.zero_le _) (by omega) (by omega) (by omega)
          (Part.tableWrite_pass p i (parsePass_some role)) rfl room
      · exact State.tableWritten hasks hpay (w := 4) rfl (by simp [passBytes]) (by omega) (Nat.zero_le _) (by omega) (by omega) (by omega)
          (Part.tableWrite_pass p i parsePass_none) rfl room
      · exact State.tableRefused hasks hpay (w := 4) rfl rfl (by omega) (Nat.zero_le _) (by omega) (by omega) (by omega) room
          (Part.tableWrite_passMalformed p i (parsePass_lockRaw role act))
  · intro p M
    refine ⟨Part.zoneEval_unset, fun hset distinct x hx => ⟨fun below latest => ?_, fun early latest => ?_⟩⟩
    · exact Part.zoneEval_latest hset distinct hx below latest
    · exact Part.zoneEval_wraps hset distinct hx early latest
  · intro s f rest tag fld v hasks h hv hpay x new reply
    obtain ⟨u, tfl, link, hu, hunlit, watch, last⟩ := State.policyStands hasks h hv hpay
    rw [policyReply] at last
    have policy := Part.policyActs_policy (s.part.asked f rest) x v h
    refine ⟨u, hu, (congrArg Part.policy hunlit :).trans policy, last, fun plain => ?_, fun isWatch => ?_,
      fun isTier changes i r hi hr hopen => ?_⟩
    · have acts := Part.policyActs_plain (s.part.asked f rest) x v plain
      rw [show (s.part.asked f rest).policyActs (s.part.policy.set fld (policyClamp fld v)) [(fld, v)] = _ from acts] at hunlit watch
      exact ⟨(congrArg Part.alt hunlit :), (congrArg Part.rentals hunlit :), (congrArg Part.cen hunlit :),
        (congrArg (·.link.watch) hunlit :).trans watch⟩
    · subst isWatch
      have acts := Part.policyActs_watch (s.part.asked f rest) x v
      rw [show (s.part.asked f rest).policyActs (s.part.policy.set 9 (policyClamp 9 v)) [(9, v)] = _ from acts] at hunlit watch
      exact (congrArg (·.link.watch) hunlit :).trans watch
    · have acts := Part.policyActs_tiers (s.part.asked f rest) x v isTier changes
      rw [show (s.part.asked f rest).policyActs (s.part.policy.set fld (policyClamp fld v)) [(fld, v)] = _ from acts] at hunlit
      have kept := ({ s.part.asked f rest with policy := new } : Part).recomputeTiers_restT
      have due : u.part.due = s.part.due := (congrArg Part.due hunlit :).trans (congrArg Part.due kept :)
      have rentals : u.part.rentals = ({ s.part.asked f rest with policy := new } : Part).recomputeTiers.rentals :=
        (congrArg Part.rentals hunlit :)
      rw [due] at hi
      rw [rentals] at hr
      exact ({ s.part.asked f rest with policy := new } : Part).recomputeTiers_tier (i := i) hi hr hopen
  · intro s f rest tag fld v hasks h hv hpay x new reply changes p becomes
    have written {q : Part} (acts : ((s.part.asked f rest).policyActs (s.part.policy.set fld (policyClamp fld v)) [(fld, v)]).unlit
        = q.unlit) : becomes q := fun room => by
      have done := State.policyWritten hasks h hv hpay acts room
      rw [policyReply] at done
      exact done
    refine ⟨fun notWatch same => ?_, fun plain => ?_, fun isTier differs i r due hr hopen => ?_, ?_, ?_, ?_⟩
    · have still : x = s.part.policy.get fld := not_not.1 same
      have set : new = s.part.policy := by
        show s.part.policy.set fld x = _
        rw [still]
        exact Policy.set_get _ h
      refine written ?_
      have acts := Part.policyActs_same (s.part.asked f rest) v notWatch
      rw [show s.part.policy.set fld (policyClamp fld v) = s.part.policy from set]
      refine (congrArg Part.unlit (acts :)).trans ?_
      show _ = Part.unlit { s.part.asked f rest with policy := new }
      rw [set]
      rfl
    · exact written (congrArg Part.unlit (Part.policyActs_plain (s.part.asked f rest) x v plain :))
    · obtain ⟨stays, moves⟩ := Part.recomputeTiers_one (p := p) due hr hopen
      have acts := Part.policyActs_tiers (s.part.asked f rest) x v isTier differs
      refine ⟨fun same => ?_, fun moved => ?_⟩
      · exact written (congrArg Part.unlit (acts.trans (stays same) :))
      · exact Part.tierTold_of_asks moved (written ((congrArg Part.unlit (acts :)).trans (moves moved)))
    · rintro rfl differs nexts interval
      have acts := Part.policyActs_interval (s.part.asked f rest) x v differs
      have off : p.interval = 0 ↔ x = 0 := p.interval_zero_iff
      have was : (s.part.asked f rest).interval = 0 ↔ s.part.policy.reAlert = 0 := (s.part.asked f rest).interval_zero_iff
      refine ⟨fun zero => ?_, fun on first => ?_, fun on set => ?_⟩
      · exact written (congrArg Part.unlit (acts.trans (Part.intervalChanged_off (off.2 zero) _) :))
      · refine written ((congrArg Part.unlit (acts :)).trans ?_)
        rw [was.2 first]
        refine congrArg Part.unlit ((Part.intervalChanged_on (p := p) (fun zero => on (off.1 zero))).trans ?_)
        rfl
      · exact written (congrArg Part.unlit
          (acts.trans (Part.intervalChanged_stays (fun zero => on (off.1 zero)) (fun zero => set (was.1 zero))) :))
    · rintro rfl differs
      exact written (congrArg Part.unlit ((Part.policyActs_census (s.part.asked f rest) x v differs).trans (Part.cenPolicy_eq p)))
    · rintro rfl -
      obtain ⟨ks, acts⟩ := Part.policyActs_blank (s.part.asked f rest) x v
      exact written ((congrArg Part.unlit acts).trans (Part.touch_unlit _ _))
  · intro v
    obtain ⟨zero, one, two, three, four, five, six, eight, ten, eleven⟩ := policyClamp_ranges v
    obtain ⟨hundreds, low, high, near⟩ := policyClamp_settle v
    obtain ⟨listed, off, nearest⟩ := nearestWatch_spec v
    exact ⟨zero, one, two, three, four, five, six, eight, ten, eleven, hundreds, low, high, near, listed, off, nearest⟩

end Sys2Proof.Machine
end

section
/-! PROOFS. The choice of the arbiter and the turn of a POLL (R152, R154, R160, R161). -/

namespace Sys2Proof.Machine
open Sys2Proof

/-! ## The choice (R160) -/

/-- The oldest command of a kind stands in the queue behind none of its kind. -/
theorem Channel.oldest_split {ch : Channel} {f : BusCmd → Bool} {b : BusCmd} (h : ch.oldest f = some b) :
    f b = true ∧ ∃ pre post, ch.queue = pre ++ b :: post ∧ ∀ x ∈ pre, f x = false := by
  obtain ⟨hb, pre, post, split, before⟩ := List.find?_eq_some_iff_append.mp h
  exact ⟨hb, pre, post, split, fun x hx => by simpa using before x hx⟩

theorem Channel.oldest_none {ch : Channel} {f : BusCmd → Bool} (h : ch.oldest f = none) : ∀ x ∈ ch.queue, f x = false :=
  fun x hx => by simpa using List.find?_eq_none.mp h x hx

theorem Channel.free_iff (ch : Channel) : ch.free = true ↔ ch.onLine = none ∧ ch.held = false := by
  unfold Channel.free
  simp [Option.isNone_iff_eq_none]

/-- A command is of one kind: a lock command, a frame, a READ_TAGS or a LAMP. -/
theorem BusCmd.kind_cases (b : BusCmd) : b.isLampAny = (!b.isLock && !b.isFrame && !b.isReadTags)
    ∧ (b.isLock = true → b.isFrame = false ∧ b.isReadTags = false) ∧ (b.isFrame = true → b.isReadTags = false) := by
  cases b <;> simp [BusCmd.isLampAny, BusCmd.isLock, BusCmd.isFrame, BusCmd.isReadTags]

/-- What the arbiter takes: a lock command; or with no lock command and no pass due a frame, a READ_TAGS, a LAMP. -/
theorem Channel.choice_cases {ch : Channel} {mono : Nat} {b : BusCmd} (h : ch.choice mono = some b) :
    ch.free = true ∧ ch.state = .running ∧ (ch.oldest BusCmd.isLock = some b
      ∨ (ch.oldest BusCmd.isLock = none ∧ ch.passDue mono = false ∧ (ch.oldest BusCmd.isFrame = some b
        ∨ (ch.oldest BusCmd.isFrame = none ∧ (ch.oldest BusCmd.isReadTags = some b
          ∨ (ch.oldest BusCmd.isReadTags = none ∧ ch.oldest BusCmd.isLampAny = some b)))))) := by
  unfold Channel.choice at h
  split at h
  · cases h
  · next idle =>
    have ready : ch.free = true ∧ ch.state = .running := by simpa using idle
    refine ⟨ready.1, ready.2, ?_⟩
    split at h
    · next x lock =>
      cases h
      exact .inl lock
    · next lock =>
      split at h
      · cases h
      · next due =>
        refine .inr ⟨lock, Bool.eq_false_iff.mpr due, ?_⟩
        cases frame : ch.oldest BusCmd.isFrame with
        | some x => exact .inl (by rw [frame] at h; exact h)
        | none =>
          refine .inr ⟨rfl, ?_⟩
          cases read : ch.oldest BusCmd.isReadTags with
          | some x => exact .inl (by rw [frame, read] at h; exact h)
          | none => exact .inr ⟨rfl, by rw [frame, read] at h; exact h⟩

/-- The choice is the oldest of its kind, and no kind before its own waits. -/
theorem Channel.choice_order {ch : Channel} {mono : Nat} {b : BusCmd} (h : ch.choice mono = some b) :
    (∃ pre post, ch.queue = pre ++ b :: post
      ∧ ∀ x ∈ pre, ¬ (x.isLock = b.isLock ∧ x.isFrame = b.isFrame ∧ x.isReadTags = b.isReadTags))
    ∧ (∀ x ∈ ch.queue, x.isLock = true → b.isLock = true)
    ∧ (b.isLock = false → ch.passDue mono = false ∧ (∀ x ∈ ch.queue, x.isFrame = true → b.isFrame = true)
      ∧ (b.isFrame = false → ∀ x ∈ ch.queue, x.isReadTags = true → b.isReadTags = true)) := by
  obtain ⟨-, -, found⟩ := Channel.choice_cases h
  obtain ⟨kind, lockOnly, frameOnly⟩ := b.kind_cases
  rcases found with lock | ⟨noLock, due, frame | ⟨noFrame, read | ⟨noRead, lamp⟩⟩⟩
  · obtain ⟨is, pre, post, split, before⟩ := Channel.oldest_split lock
    refine ⟨⟨pre, post, split, fun x hx same => ?_⟩, fun _ _ _ => is, fun not => absurd is (by rw [not]; nofun)⟩
    rw [before x hx, is] at same
    exact absurd same.1 nofun
  · obtain ⟨is, pre, post, split, before⟩ := Channel.oldest_split frame
    refine ⟨⟨pre, post, split, fun x hx same => ?_⟩, fun x hx lock => absurd lock (by rw [Channel.oldest_none noLock x hx]; nofun),
      fun _ => ⟨due, fun _ _ _ => is, fun not => absurd is (by rw [not]; nofun)⟩⟩
    rw [before x hx, is] at same
    exact absurd same.2.1 nofun
  · obtain ⟨is, pre, post, split, before⟩ := Channel.oldest_split read
    refine ⟨⟨pre, post, split, fun x hx same => ?_⟩, fun x hx lock => absurd lock (by rw [Channel.oldest_none noLock x hx]; nofun),
      fun _ => ⟨due, fun x hx frame => absurd frame (by rw [Channel.oldest_none noFrame x hx]; nofun), fun _ _ _ _ => is⟩⟩
    rw [before x hx, is] at same
    exact absurd same.2.2 nofun
  · obtain ⟨is, pre, post, split, before⟩ := Channel.oldest_split lamp
    refine ⟨⟨pre, post, split, fun x hx same => ?_⟩, fun x hx lock => absurd lock (by rw [Channel.oldest_none noLock x hx]; nofun),
      fun _ => ⟨due, fun x hx frame => absurd frame (by rw [Channel.oldest_none noFrame x hx]; nofun),
        fun _ x hx read => absurd read (by rw [Channel.oldest_none noRead x hx]; nofun)⟩⟩
    have notLamp := before x hx
    rw [x.kind_cases.1, same.1, same.2.1, same.2.2, ← kind, is] at notLamp
    cases notLamp

/-- Something is taken whenever a lock command waits, or any command with no pass due. -/
theorem Channel.choice_exists {ch : Channel} {mono : Nat} {b : BusCmd} (line : ch.onLine = none) (held : ch.held = false)
    (running : ch.state = .running) (hb : b ∈ ch.queue) (may : b.isLock = true ∨ ch.passDue mono = false) :
    ∃ x, ch.choice mono = some x ∧ (b.isLock = true → x.isLock = true) := by
  have free := (ch.free_iff).mpr ⟨line, held⟩
  have idle : (!ch.free || ch.state != .running) = false := by rw [free, running]; rfl
  have taken (f : BusCmd → Bool) (hf : f b = true) : ∃ x, ch.oldest f = some x := by
    cases h : ch.oldest f with
    | some x => exact ⟨x, rfl⟩
    | none => exact absurd hf (by rw [Channel.oldest_none h b hb]; nofun)
  unfold Channel.choice
  rw [idle, if_neg Bool.false_ne_true]
  cases lock : ch.oldest BusCmd.isLock with
  | some x => exact ⟨x, rfl, fun _ => (Channel.oldest_split lock).1⟩
  | none =>
    have notLock := Channel.oldest_none lock b hb
    have quiet := may.resolve_left (by rw [notLock]; nofun)
    have anyOf : ∃ x, ((ch.oldest BusCmd.isFrame).orElse (fun _ => ch.oldest BusCmd.isReadTags)).orElse
        (fun _ => ch.oldest BusCmd.isLampAny) = some x := by
      cases frame : ch.oldest BusCmd.isFrame with
      | some x => exact ⟨x, rfl⟩
      | none =>
        cases read : ch.oldest BusCmd.isReadTags with
        | some x => exact ⟨x, rfl⟩
        | none =>
          refine taken BusCmd.isLampAny ?_
          rw [b.kind_cases.1, notLock, Channel.oldest_none frame b hb, Channel.oldest_none read b hb]
          rfl
    obtain ⟨x, hx⟩ := anyOf
    dsimp only
    rw [quiet, if_neg Bool.false_ne_true]
    exact ⟨x, hx, fun is => absurd is (by rw [notLock]; nofun)⟩

/-! ## The turn of a POLL (R152, R154, R161) -/

theorem Channel.passDue_false_iff (ch : Channel) (mono : Nat) :
    ch.passDue mono = false ↔ ch.passOn = false ∧ ∀ t, ch.nextIdent = some t → mono < t := by
  unfold Channel.passDue
  cases ch.nextIdent <;> simp

theorem Channel.pollTurn_running {ch : Channel} (running : ch.state = .running) (mono : Nat) : ch.pollTurn mono = true
    ↔ (ch.onLine = none ∧ ch.held = false) ∧ ch.queue = [] ∧ ch.passOn = false ∧ ∀ t, ch.nextIdent = some t → mono < t := by
  unfold Channel.pollTurn
  rw [running]
  simp only [Bool.and_eq_true, Channel.free_iff, List.isEmpty_iff, Bool.not_eq_true', Channel.passDue_false_iff]

theorem Channel.pollTurn_firstPoll {ch : Channel} (starting : ch.state = .starting .firstPoll) (mono : Nat) :
    ch.pollTurn mono = true ↔ ch.onLine = none ∧ ch.held = false := by
  unfold Channel.pollTurn
  rw [starting]
  simp only [Bool.and_true, Channel.free_iff]

theorem Channel.pollTurn_other {ch : Channel} (h : ch.state ≠ .running) (h' : ch.state ≠ .starting .firstPoll) (mono : Nat) :
    ch.pollTurn mono = false := by
  unfold Channel.pollTurn
  split
  · next starting => exact absurd starting h'
  · next running => exact absurd running h
  · exact Bool.and_false _

/-- A module of the Module Table that meets a condition. -/
def Channel.Listed (ch : Channel) (f : ModEntry → Prop) (a : Nat) : Prop :=
  1 ≤ a ∧ a ≤ 30 ∧ ∃ m, Table.look ch.modules a = some m ∧ f m

/-- The least address above n that meets f. -/
def Next (f : Nat → Prop) (n a : Nat) : Prop := n < a ∧ f a ∧ ∀ b, n < b → f b → a ≤ b

section Addresses
variable {n : Nat} {g : Nat → Bool} {f : Nat → Prop} (spec : ∀ a, 1 ≤ a → a ≤ 30 → (g a = true ↔ f a)) (range : ∀ a, f a → 1 ≤ a ∧ a ≤ 30)
include spec range

theorem addrAfter_next {a : Nat} (h : Next f n a) : addrAfter n g = some a := by
  obtain ⟨above, fa, least⟩ := h
  obtain ⟨low, high⟩ := range a fa
  refine addrAfter_some.mpr ⟨above, low, high, (spec a low high).mpr fa, fun b hb low' high' gb => ?_⟩
  exact least b hb ((spec b low' high').mp gb)

theorem addrAfter_without (h : ∀ a, n < a → ¬ f a) : addrAfter n g = none :=
  addrAfter_none.mpr fun a above low high => Bool.eq_false_iff.mpr fun ga => h a above ((spec a low high).mp ga)

end Addresses

/-! ## The module that is polled (R154, R161) -/

section Polled
variable (ch : Channel)

abbrev Channel.isActive : Nat → Prop := ch.Listed (fun m => m.state = .active)
abbrev Channel.isServed : Nat → Prop := ch.Listed (fun m => m.state = .active ∨ m.state = .silent)
abbrev Channel.isDue (mono : Nat) : Nat → Prop := ch.Listed (fun m => ∃ t, m.reprobe = some t ∧ t ≤ mono)

theorem Channel.active_spec (a : Nat) (low : 1 ≤ a) (high : a ≤ 30) : (ch.modState a == .active) = true ↔ ch.isActive a := by
  unfold Channel.isActive Channel.Listed Channel.modState
  cases Table.look ch.modules a with
  | none => simp
  | some m => simp [low, high]

theorem Channel.served_spec (a : Nat) (low : 1 ≤ a) (high : a ≤ 30) :
    (ch.modState a == .active || ch.modState a == .silent) = true ↔ ch.isServed a := by
  unfold Channel.isServed Channel.Listed Channel.modState
  cases Table.look ch.modules a with
  | none => simp
  | some m => simp [low, high]

theorem Channel.due_spec (mono a : Nat) (low : 1 ≤ a) (high : a ≤ 30) :
    (Table.look ch.modules a).any (fun m => m.reprobe.any (fun t => decide (t ≤ mono))) = true ↔ ch.isDue mono a := by
  unfold Channel.isDue Channel.Listed
  cases Table.look ch.modules a with
  | none => simp
  | some m => simp [low, high, Option.any_eq_true]

theorem Channel.listed_range {f : ModEntry → Prop} (a : Nat) (h : ch.Listed f a) : 1 ≤ a ∧ a ≤ 30 := ⟨h.1, h.2.1⟩

variable {ch}

/-- STARTING polls the ACTIVE modules once, upwards. -/
theorem Channel.nextPoll_firstPoll (starting : ch.state = .starting .firstPoll) (mono : Nat) :
    (∀ a, Next ch.isActive ch.lastPolled a → ch.nextPoll mono = some (a, false))
    ∧ ((∀ a, ch.lastPolled < a → ¬ ch.isActive a) → ch.nextPoll mono = none) := by
  unfold Channel.nextPoll
  rw [starting]
  refine ⟨fun a next => ?_, fun none => ?_⟩ <;> dsimp only
  · rw [addrAfter_next ch.active_spec ch.listed_range next]
    rfl
  · rw [addrAfter_without ch.active_spec ch.listed_range none]
    rfl

/-- RUNNING polls the lowest module due, else the next of the round. -/
theorem Channel.nextPoll_running (running : ch.state = .running) (mono : Nat) :
    (∀ a, Next (ch.isDue mono) 0 a → ch.nextPoll mono = some (a, true))
    ∧ ((∀ a, ¬ ch.isDue mono a) →
      (∀ a, Next ch.isServed ch.lastPolled a → ch.nextPoll mono = some (a, false))
      ∧ (∀ a, (∀ b, ch.lastPolled < b → ¬ ch.isServed b) → Next ch.isServed 0 a → ch.nextPoll mono = some (a, false))
      ∧ ((∀ a, ¬ ch.isServed a) → ch.nextPoll mono = none)) := by
  unfold Channel.nextPoll
  rw [running]
  dsimp only
  refine ⟨fun a next => ?_, fun quiet => ?_⟩
  · rw [addrAfter_next (ch.due_spec mono) ch.listed_range next]
  · rw [addrAfter_without (ch.due_spec mono) ch.listed_range (fun a _ => quiet a)]
    dsimp only
    refine ⟨fun a next => ?_, fun a over' first => ?_, fun none => ?_⟩
    · rw [addrAfter_next ch.served_spec ch.listed_range next]
      rfl
    · rw [addrAfter_without ch.served_spec ch.listed_range over', addrAfter_next ch.served_spec ch.listed_range first]
      rfl
    · rw [addrAfter_without ch.served_spec ch.listed_range (fun a _ => none a),
        addrAfter_without ch.served_spec ch.listed_range (fun a _ => none a)]
      rfl

end Polled

end Sys2Proof.Machine
end

section
/-! PROOFS. A command leaves the queue (R124, R139, R143, R159, R165, R189). -/

namespace Sys2Proof.Machine
open Sys2Proof

/-! ## The row of a command -/

/-- What the owner of a command does as it is sent. -/
def BusCmd.told (c : Chan) : BusCmd → Part → Part
  | .lockOpen _ _ i => (·.ctxSent i)
  | .lockClose _ _ (.ctx i) => (·.ctxSent i)
  | .lockClose a pos .own => fun q => q.onModule c a (fun m => { m with ownClose := Table.put m.ownClose pos q.mono })
  | .lockClose _ _ .left => id
  | .passed a cls d e => fun q => if cls = .lampRaw then (q.trackSent e).rawSent c a d else q.trackSent e
  | .readTags _ => fun q => q.onCen (fun n => { n with read := some .sent })
  | .lamp a ls => (·.imageTakes (lampKey c a) ls)

/-- The command is on the line, and no longer waits. -/
def Part.takes (p : Part) (c : Chan) (b : BusCmd) : Part :=
  p.onChan c (fun ch => { ch with queue := ch.queue.erase b, onLine := some (.queued b), sent := [b.frame] })

theorem exec_sendRow {s : State} {c : Chan} {b : BusCmd} (h : (s.part.chan c).choice s.part.mono = some b) :
    exec (b.sendRow c) s
      = .next { s with part := (((b.told c (s.part.takes c b)).reofferRead c).reofferLamps c).lampRun } := by
  have sent (row : Part → Part) (hrow : row s.part = s.part.sendQueued c b (b.told c)) :
      (Host.Outcome.next { s with part := (row s.part).lampRun } : Host.Outcome State Fault Refusal)
        = .next { s with part := (((b.told c (s.part.takes c b)).reofferRead c).reofferLamps c).lampRun } := by
    rw [hrow]
    rfl
  cases b with
  | lockOpen a pos i => exact sent (·.sendLockOpen c) (by unfold Part.sendLockOpen; rw [h]; rfl)
  | lockClose a pos w =>
    cases w <;> exact sent (·.sendLockClose c) (by unfold Part.sendLockClose; rw [h]; rfl)
  | passed a cls d e => exact sent (·.sendPassed c) (by unfold Part.sendPassed; rw [h]; rfl)
  | readTags a => exact sent (·.sendReadTags c) (by unfold Part.sendReadTags; rw [h]; rfl)
  | lamp a ls => exact sent (·.sendLamp c) (by unfold Part.sendLamp; rw [h]; rfl)

/-! ## With no READ_TAGS deferred -/

theorem Part.reofferRead_none {p : Part} (h : p.cen.deferred = false) (c : Chan) : p.reofferRead c = p := by
  unfold Part.reofferRead
  split
  · rw [h]
    rfl
  · rfl

theorem Part.reofferRead_due {p : Part} {c : Chan} {a : Nat} (h : p.cen.deferred = true) (pos : p.cen.pos = some (c, a)) :
    p.reofferRead c = p.offerRead c a := by
  unfold Part.reofferRead
  rw [pos]
  simp [h]

theorem Part.rawSent_cen (p : Part) (c : Chan) (a : Nat) (d : List Byte) : (p.rawSent c a d).cen = p.cen := by
  unfold Part.rawSent
  split <;> rfl

/-- The owner of a command leaves the sweep of the census where it is. -/
theorem BusCmd.told_cen (b : BusCmd) (c : Chan) (p : Part) :
    (b.told c p).cen.deferred = p.cen.deferred ∧ (b.told c p).cen.pos = p.cen.pos
      ∧ ((∀ x, b ≠ .readTags x) → (b.told c p).cen = p.cen) := by
  have same {q : Part} (h : q.cen = p.cen) : q.cen.deferred = p.cen.deferred ∧ q.cen.pos = p.cen.pos
      ∧ ((∀ x, b ≠ .readTags x) → q.cen = p.cen) := ⟨by rw [h], by rw [h], fun _ => h⟩
  cases b with
  | lockOpen a pos i => exact same rfl
  | lockClose a pos w =>
    cases w
    · exact same rfl
    · exact same (by cases c <;> rfl)
    · exact same rfl
  | passed a cls d e =>
    refine same ?_
    dsimp only [BusCmd.told]
    split
    · exact (Part.rawSent_cen _ _ _ _)
    · rfl
  | readTags a => exact ⟨rfl, rfl, fun h => absurd rfl (h a)⟩
  | lamp a ls => exact same rfl

theorem Part.takes_cen (p : Part) (c : Chan) (b : BusCmd) : (p.takes c b).cen = p.cen := by cases c <;> rfl

/-- Up to the lamps, what a command sent with no READ_TAGS deferred comes to is what its owner does. -/
theorem State.sends {s : State} {c : Chan} {b : BusCmd} {q : Part} (h : (s.part.chan c).choice s.part.mono = some b)
    (kept : s.part.cen.deferred = false) (told : (b.told c (s.part.takes c b)).unlit = q.unlit) :
    s.Becomes (exec (b.sendRow c) s) q := by
  rw [exec_sendRow h]
  have quiet : (b.told c (s.part.takes c b)).cen.deferred = false := by rw [(b.told_cen c _).1, Part.takes_cen]; exact kept
  exact State.becomes_of_unlit (by rw [Part.reofferLamps_unlit, Part.reofferRead_none quiet, told])

/-- A raw lamp frame of eight lamps decodes to them. -/
theorem rawStates_lamps {d : List Byte} {ls : List Lamp} (len : d.length = 8) (dec : d.map lampOfByte = ls.map some) :
    rawDecodes d = true ∧ rawStates d = ls := by
  have len' : ls.length = 8 := by simpa [len] using (congrArg List.length dec).symm
  have at' (i : Nat) (hi : i < 8) : (d[i]?).bind lampOfByte = some (ls[i]'(by omega)) := by
    have e := congrArg (fun l => l[i]?) dec
    rw [List.getElem?_eq_getElem (by omega)]
    simpa [List.getElem?_eq_getElem, len, len', hi] using e
  constructor
  · unfold rawDecodes
    rw [List.all_eq_true]
    intro i hi
    rw [at' i (List.mem_range.mp hi)]
    rfl
  · unfold rawStates
    refine List.ext_getElem (by simp [len']) fun i hi _ => ?_
    rw [List.getElem_map, List.getElem_range, at' i (by simpa using hi)]
    rfl

/-- The Tracking entry of a frame that waits goes on to sent. -/
theorem Part.trackSent_queued {p : Part} {e : Nat} {t : Track} (ht : Table.look p.tfl.tracking e = some t)
    (queued : t.state = .queued) : p.trackSent e = { p with tfl := { p.tfl with
      tracking := Table.modify p.tfl.tracking e (fun t => { t with state := .sent }) } } := by
  exact congrArg (fun T => ({ p with tfl := { p.tfl with tracking := T } } : Part)) (Table.modify_congr ht (if_pos queued))

/-! ## What each row comes to (R43, R143, R165, R189, R207) -/

/-- The command is on the line with its bytes. -/
def Part.sentAs (p : Part) (c : Chan) (b : BusCmd) (body : List Byte) : Part :=
  p.onChan c (fun ch => { ch with
    queue := ch.queue.erase b, onLine := some (.queued b), sent := [body ++ [crc8 body]] })

section Sends
variable {s : State} {c : Chan} {a : Nat}

theorem State.sends_open {pos i : Nat} (kept : s.part.cen.deferred = false)
    (h : (s.part.chan c).choice s.part.mono = some (.lockOpen a pos i)) :
    s.Becomes (exec (.sendLockOpen c) s) (Part.sentAs { s.part with
      ctxs := Table.modify s.part.ctxs i (fun x => { x with lockSent := true }) } c (.lockOpen a pos i)
        [BitVec.ofNat 8 a, 0x10#8, BitVec.ofNat 8 pos]) :=
  State.sends h kept (by cases c <;> rfl)

theorem State.sends_close {pos i : Nat} (kept : s.part.cen.deferred = false)
    (h : (s.part.chan c).choice s.part.mono = some (.lockClose a pos (.ctx i))) :
    s.Becomes (exec (.sendLockClose c) s) (Part.sentAs { s.part with
      ctxs := Table.modify s.part.ctxs i (fun x => { x with lockSent := true }) } c (.lockClose a pos (.ctx i))
        [BitVec.ofNat 8 a, 0x11#8, BitVec.ofNat 8 pos]) :=
  State.sends h kept (by cases c <;> rfl)

theorem State.sends_own {pos : Nat} (kept : s.part.cen.deferred = false)
    (h : (s.part.chan c).choice s.part.mono = some (.lockClose a pos .own)) :
    s.Becomes (exec (.sendLockClose c) s) ((s.part.onChan c (fun ch => { ch with
      modules := Table.modify ch.modules a (fun m => { m with ownClose := Table.put m.ownClose pos s.part.mono }) })).sentAs c
        (.lockClose a pos .own) [BitVec.ofNat 8 a, 0x11#8, BitVec.ofNat 8 pos]) :=
  State.sends h kept (by cases c <;> rfl)

theorem State.sends_left {pos : Nat} (kept : s.part.cen.deferred = false)
    (h : (s.part.chan c).choice s.part.mono = some (.lockClose a pos .left)) :
    s.Becomes (exec (.sendLockClose c) s) (s.part.sentAs c (.lockClose a pos .left)
      [BitVec.ofNat 8 a, 0x11#8, BitVec.ofNat 8 pos]) :=
  State.sends h kept rfl

/-- The bytes of a passed frame before its CRC-8. -/
theorem BusCmd.passed_frame (cls : ModClass) (d : List Byte) (e : Nat) : (BusCmd.passed a cls d e).frame
    = framed ([BitVec.ofNat 8 a, match cls with
        | .query => 0x40#8
        | .config => 0x41#8
        | .lampRaw => 0x42#8
        | .opaqueClass => 0x43#8] ++ d) := by
  cases cls <;> rfl

variable {cls : ModClass} {d : List Byte} {e : Nat} {t : Track}

theorem Part.takes_passed (p : Part) (ht : Table.look p.tfl.tracking e = some t) (queued : t.state = .queued) (b : BusCmd)
    {body : List Byte} (frame : b.frame = framed body) :
    (p.takes c b).trackSent e = Part.sentAs { p with tfl := { p.tfl with
      tracking := Table.modify p.tfl.tracking e (fun t => { t with state := .sent }) } } c b body := by
  have ht' : Table.look (p.takes c b).tfl.tracking e = some t := by cases c <;> exact ht
  rw [Part.trackSent_queued ht' queued]
  unfold Part.takes Part.sentAs
  rw [frame]
  cases c <;> rfl

variable (kept : s.part.cen.deferred = false) (h : (s.part.chan c).choice s.part.mono = some (.passed a cls d e))
  (ht : Table.look s.part.tfl.tracking e = some t) (queued : t.state = .queued) {body : List Byte}
  (frame : (BusCmd.passed a cls d e).frame = framed body)
include kept h ht queued frame

theorem State.sends_passed (plain : cls ≠ .lampRaw) :
    s.Becomes (exec (.sendPassedFrame c) s) (Part.sentAs { s.part with tfl := { s.part.tfl with
      tracking := Table.modify s.part.tfl.tracking e (fun t => { t with state := .sent }) } } c (.passed a cls d e) body) := by
  refine State.sends h kept ?_
  dsimp only [BusCmd.told]
  rw [if_neg plain, Part.takes_passed _ ht queued _ frame]

/-- A raw lamp frame of eight lamps is what the module then shows. -/
theorem State.sends_raw {ls : List Lamp} (raw : cls = .lampRaw) (len : d.length = 8) (dec : d.map lampOfByte = ls.map some) :
    s.Becomes (exec (.sendPassedFrame c) s) (Part.sentAs { s.part with
      tfl := { s.part.tfl with tracking := Table.modify s.part.tfl.tracking e (fun t => { t with state := .sent }) }
      lmp := { s.part.lmp with images := Table.put s.part.lmp.images (lampKey c a) ls } } c (.passed a cls d e) body) := by
  refine State.sends h kept ?_
  dsimp only [BusCmd.told]
  rw [if_pos raw, Part.takes_passed _ ht queued _ frame]
  unfold Part.rawSent
  rw [(rawStates_lamps len dec).1, if_pos rfl, (rawStates_lamps len dec).2, Part.touch_unlit]
  cases c <;> rfl

end Sends

end Sys2Proof.Machine
end

section
/-! PROOFS. The deferred offers as a command leaves the queue, and the statement of the arbiter (R124, R139, R159, R160). -/

namespace Sys2Proof.Machine
open Sys2Proof

/-! ## What telling the owner leaves -/

theorem Table.map_look_modify {α β : Type} {t : Table α} {i : Nat} {f : α → α} {g : α → β} (h : ∀ x, g (f x) = g x) (j : Nat) :
    (Table.look (Table.modify t i f) j).map g = (Table.look t j).map g := by
  by_cases hj : j = i
  · rw [hj, Table.look_modify_same]
    cases Table.look t i with
    | none => rfl
    | some x => exact congrArg some (h x)
  · rw [Table.look_modify_other _ _ _ _ hj]

/-- What an offer to module d of channel c goes by, in two parts. -/
structure Part.SameLamp (p q : Part) (c : Chan) (d : Nat) : Prop where
  queue : (q.chan c).queue = (p.chan c).queue
  behind : q.lmp.behind = p.lmp.behind
  touched : q.lmp.touched = p.lmp.touched
  image : Table.look q.lmp.images (lampKey c d) = Table.look p.lmp.images (lampKey c d)
  lamps : q.eightLamps c d = p.eightLamps c d
  served : q.moduleServed c d = p.moduleServed c d

section Same
variable {p : Part} {c : Chan} {d : Nat}

/-- A lock command marked sent leaves its context in its state. -/
theorem Part.recordLamp_ctxSent (i n : Nat) : (p.ctxSent i).recordLamp n = p.recordLamp n := by
  have state (o : Option Nat) : (o.bind (Table.look (p.ctxSent i).ctxs)).any (fun c => c.state.releasing)
      = (o.bind (Table.look p.ctxs)).any (fun c => c.state.releasing) := by
    cases o with
    | none => rfl
    | some j =>
      have same : (Table.look (p.ctxSent i).ctxs j).map (·.state) = (Table.look p.ctxs j).map (·.state) :=
        Table.map_look_modify (f := fun c : Ctx => { c with lockSent := true }) (g := Ctx.state) (fun _ => rfl) j
      have any (x : Option Ctx) : x.any (fun c => c.state.releasing) = (x.map (·.state)).any CtxState.releasing := by
        cases x <;> rfl
      exact (any _).trans ((congrArg (fun o => Option.any CtxState.releasing o) same).trans (any _).symm)
  unfold Part.recordLamp
  dsimp only
  rw [state]
  rfl

theorem Part.SameLamp.ctxSent (i : Nat) : p.SameLamp (p.ctxSent i) c d where
  queue := by cases c <;> rfl
  behind := rfl
  touched := rfl
  image := rfl
  lamps := by
    refine List.map_congr_left fun pos _ => ?_
    have record : (p.ctxSent i).recordLamp = p.recordLamp := funext fun n => Part.recordLamp_ctxSent i n
    unfold Part.lampOf
    rw [record]
    rfl
  served := by cases c <;> rfl

/-- A module entry kept in its state. -/
theorem Part.SameLamp.onModule {a : Nat} {f : ModEntry → ModEntry} (h : ∀ m, (f m).state = m.state) :
    p.SameLamp (p.onModule c a f) c d where
  queue := by cases c <;> rfl
  behind := by cases c <;> rfl
  touched := by cases c <;> rfl
  image := by cases c <;> rfl
  lamps := by cases c <;> rfl
  served := by
    have state : ((p.onModule c a f).chan c).modState d = (p.chan c).modState d := by
      unfold Part.onModule Channel.modState
      rw [Part.onChan_chan_self]
      exact congrArg (fun o => o.getD ModState.absent) (Table.map_look_modify h d)
    have run : ((p.onModule c a f).chan c).state = (p.chan c).state := by cases c <;> rfl
    unfold Part.moduleServed
    rw [state, run]

theorem lampKey_inj {a b : Nat} (h : lampKey c a = lampKey c b) : a = b := by
  cases c <;> simpa [lampKey] using h

theorem Part.SameLamp.imageTakes {a : Nat} (ne : a ≠ d) (ls : List Lamp) : p.SameLamp (p.imageTakes (lampKey c a) ls) c d where
  queue := by cases c <;> rfl
  behind := rfl
  touched := rfl
  image := Table.look_put_other _ _ _ _ (fun h => ne (lampKey_inj h).symm)
  lamps := rfl
  served := by cases c <;> rfl

/-- The owner of a command, but for a raw lamp frame, leaves what an offer to a module with no LAMP sent goes by. -/
theorem BusCmd.told_same (b : BusCmd) (raw : ∀ x y z, b ≠ .passed x .lampRaw y z) (lamp : ∀ ls, b ≠ .lamp d ls) :
    p.SameLamp (b.told c p) c d := by
  cases b with
  | lockOpen a pos i => exact .ctxSent i
  | lockClose a pos w =>
    cases w with
    | ctx i => exact .ctxSent i
    | own => exact .onModule fun _ => rfl
    | left => exact ⟨rfl, rfl, rfl, rfl, rfl, rfl⟩
  | passed a cls x e =>
    have plain : (BusCmd.passed a cls x e).told c p = p.trackSent e := if_neg fun is => raw a x e (by rw [is])
    rw [plain]
    exact ⟨by cases c <;> rfl, rfl, rfl, rfl, rfl, by cases c <;> rfl⟩
  | readTags a => exact ⟨by cases c <;> rfl, rfl, rfl, rfl, rfl, by cases c <;> rfl⟩
  | lamp a ls => exact .imageTakes (fun is => lamp ls (by rw [is])) ls

theorem BusCmd.told_queue (b : BusCmd) : ((b.told c p).chan c).queue = (p.chan c).queue := by
  cases b with
  | lockClose a pos w => cases w <;> cases c <;> rfl
  | passed a cls x e =>
    dsimp only [BusCmd.told]
    split
    · unfold Part.rawSent
      split <;> cases c <;> rfl
    · cases c <;> rfl
  | _ => cases c <;> rfl

end Same

/-! ## The offers made again -/

section Offers
variable {p : Part} {c : Chan} {d : Nat}

theorem Part.offerLamp_behind (p : Part) (c : Chan) (a : Nat) :
    ∀ k ∈ (p.offerLamp c a).lmp.behind, k ∈ p.lmp.behind ∨ k = lampKey c a := by
  intro k hk
  unfold Part.offerLamp at hk
  split at hk
  · exact .inl (by rw [← Part.onChan_touched p c (·.push (.lamp a (p.lampsOf c a)))]; exact (List.mem_filter.mp hk).1)
  · rcases List.mem_append.mp hk with old | new
    · exact .inl (List.mem_filter.mp old).1
    · exact .inr (List.mem_singleton.mp new)

/-- What reofferLamps does for one module. -/
def Part.reofferOne (c : Chan) (p : Part) (a : Nat) : Part :=
  if p.lmp.behind.contains (lampKey c a) then
    if p.moduleServed c a && p.lampNeeded c a then p.offerLamp c a else p.clearBehind (lampKey c a)
  else p

theorem Part.reofferOne_skip {a : Nat} (h : lampKey c a ∉ p.lmp.behind) : p.reofferOne c a = p :=
  if_neg (by simpa using h)

theorem Part.reofferOne_foldl_skip {l : List Nat} (h : ∀ a ∈ l, lampKey c a ∉ p.lmp.behind) : l.foldl (Part.reofferOne c) p = p := by
  induction l with
  | nil => rfl
  | cons a l ih =>
    rw [List.foldl_cons, Part.reofferOne_skip (h a (List.mem_cons_self ..))]
    exact ih fun x hx => h x (List.mem_cons_of_mem _ hx)

/-- With one module marked behind its offer alone is made again. -/
theorem Part.reofferLamps_one (behind : p.lmp.behind = [lampKey c d]) (low : 1 ≤ d) (high : d ≤ 30) :
    p.reofferLamps c = if p.moduleServed c d && p.lampNeeded c d then p.offerLamp c d else p.clearBehind (lampKey c d) := by
  have listed : d ∈ (List.range Config.modules).map (· + 1) :=
    List.mem_map.mpr ⟨d - 1, List.mem_range.mpr (by show d - 1 < 30; omega), by omega⟩
  obtain ⟨pre, post, split⟩ := List.append_of_mem listed
  have nodup : (pre ++ d :: post).Nodup := split ▸ (List.nodup_range.map (fun _ _ h => Nat.succ.inj h))
  obtain ⟨-, right, apart⟩ := List.nodup_append.mp nodup
  have before (a : Nat) (ha : a ∈ pre) : lampKey c a ∉ p.lmp.behind := by
    rw [behind, List.mem_singleton]
    exact fun is => apart a ha d (List.mem_cons_self ..) (lampKey_inj is)
  have one : p.reofferOne c d
      = if p.moduleServed c d && p.lampNeeded c d then p.offerLamp c d else p.clearBehind (lampKey c d) :=
    if_pos (by rw [behind]; simp)
  have left : ∀ k ∈ (p.reofferOne c d).lmp.behind, k = lampKey c d := by
    intro k hk
    rw [one] at hk
    have old : ∀ x ∈ p.lmp.behind, x = lampKey c d := fun x hx => List.mem_singleton.mp (behind ▸ hx)
    split at hk
    · exact (Part.offerLamp_behind p c d k hk).elim (old k) id
    · exact old k (List.mem_filter.mp hk).1
  have after (a : Nat) (ha : a ∈ post) : lampKey c a ∉ (p.reofferOne c d).lmp.behind :=
    fun hk => (List.nodup_cons.mp right).1 (lampKey_inj (left _ hk) ▸ ha)
  have fold : p.reofferLamps c = ((List.range Config.modules).map (· + 1)).foldl (Part.reofferOne c) p := rfl
  rw [fold, split, List.foldl_append, Part.reofferOne_foldl_skip before, List.foldl_cons, Part.reofferOne_foldl_skip after, one]

/-- The offer is made or stays deferred (R139). -/
theorem Part.reofferLamps_served (behind : p.lmp.behind = [lampKey c d]) (low : 1 ≤ d) (high : d ≤ 30)
    (served : p.moduleServed c d = true) {ls : List Lamp} (lamps : p.eightLamps c d = ls) :
    (Table.look p.lmp.images (lampKey c d) ≠ some ls → (p.chan c).queue.length < 12 →
      ((p.reofferLamps c).chan c).queue = (p.chan c).queue ++ [.lamp d ls] ∧ (p.reofferLamps c).lmp.behind = [])
    ∧ (Table.look p.lmp.images (lampKey c d) ≠ some ls → 12 ≤ (p.chan c).queue.length →
      ((p.reofferLamps c).chan c).queue = (p.chan c).queue ∧ (p.reofferLamps c).lmp.behind = [lampKey c d])
    ∧ (¬ Table.look p.lmp.images (lampKey c d) ≠ some ls →
      ((p.reofferLamps c).chan c).queue = (p.chan c).queue ∧ (p.reofferLamps c).lmp.behind = []) := by
  rw [Part.reofferLamps_one behind low high, served, Bool.true_and, ← lamps, ← Part.lampNeeded_iff]
  have cleared (q : Part) (h : q.lmp.behind = [lampKey c d]) : (q.clearBehind (lampKey c d)).lmp.behind = [] := by
    simp [Part.clearBehind, h]
  refine ⟨fun needed room => ?_, fun needed full => ?_, fun same => ?_⟩
  · rw [if_pos needed]
    unfold Part.offerLamp
    rw [if_pos (show (p.chan c).otherRoom = true from decide_eq_true room), Part.clearBehind_chan, Part.onChan_chan_self]
    exact ⟨rfl, cleared _ (by rw [Part.onChan_touched, behind])⟩
  · rw [if_pos needed]
    unfold Part.offerLamp
    rw [if_neg (show ¬ (p.chan c).otherRoom = true from fun h => absurd (of_decide_eq_true h) (Nat.not_lt.mpr full)),
      Part.markBehind_chan]
    exact ⟨rfl, by simp [Part.markBehind, behind]⟩
  · rw [if_neg same, Part.clearBehind_chan]
    exact ⟨rfl, cleared p behind⟩

theorem Part.reofferLamps_touched (h : p.lmp.touched = []) (behind : p.lmp.behind = [lampKey c d]) (low : 1 ≤ d) (high : d ≤ 30) :
    (p.reofferLamps c).lmp.touched = [] := by
  rw [Part.reofferLamps_one behind low high, ← h]
  split
  · exact Part.offerLamp_touched _ _ _
  · rfl

theorem Part.offerRead_same (p : Part) (c : Chan) (a d : Nat) : (p.offerRead c a).lmp = p.lmp
    ∧ (p.offerRead c a).eightLamps c d = p.eightLamps c d ∧ (p.offerRead c a).moduleServed c d = p.moduleServed c d := by
  unfold Part.offerRead
  split <;> cases c <;> exact ⟨rfl, rfl, rfl⟩

/-- READ_TAGS waits, or stays deferred (R124). -/
theorem Part.offerRead_enters (a : Nat) (room : (p.chan c).queue.length < 12) :
    ((p.offerRead c a).chan c).queue = (p.chan c).queue ++ [.readTags a]
      ∧ (p.offerRead c a).cen = { p.cen with deferred := false } := by
  unfold Part.offerRead
  rw [if_pos (show (p.chan c).otherRoom = true from decide_eq_true room)]
  cases c <;> exact ⟨rfl, rfl⟩

theorem Part.offerRead_waits (a : Nat) (full : 12 ≤ (p.chan c).queue.length) :
    ((p.offerRead c a).chan c).queue = (p.chan c).queue ∧ (p.offerRead c a).cen = { p.cen with deferred := true } := by
  unfold Part.offerRead
  rw [if_neg (show ¬ (p.chan c).otherRoom = true from fun h => absurd (of_decide_eq_true h) (Nat.not_lt.mpr full))]
  cases c <;> exact ⟨rfl, rfl⟩

end Offers

/-! ## A command leaves with offers deferred -/

section Leaves
variable {s : State} {c : Chan} {b : BusCmd} (h : (s.part.chan c).choice s.part.mono = some b)

theorem Part.takes_queue (p : Part) (c : Chan) (b : BusCmd) : ((p.takes c b).chan c).queue = (p.chan c).queue.erase b := by
  cases c <;> rfl

theorem Part.cen_of_unlit {p q : Part} (h : q.unlit = p.unlit) : q.cen = p.cen := (congrArg Part.cen h :)

theorem Part.queue_of_unlit {p q : Part} (h : q.unlit = p.unlit) (c : Chan) :
    (q.chan c).queue.filter (fun x => !x.isLampAny) = (p.chan c).queue.filter (fun x => !x.isLampAny) := by
  cases c
  · exact (congrArg (fun p => p.chanA.queue) h :)
  · exact (congrArg (fun p => p.chanB.queue) h :)

/-- The READ_TAGS deferred, up to the lamps recomputed after it. -/
theorem Part.reads_offered {p : Part} {a : Nat} (due : p.cen.deferred = true) (pos : p.cen.pos = some (c, a)) :
    ((p.chan c).queue.length < 12 → ((p.reofferRead c).reofferLamps c).lampRun.cen = { p.cen with deferred := false }
      ∧ (((p.reofferRead c).reofferLamps c).lampRun.chan c).queue.filter (fun x => !x.isLampAny)
        = (p.chan c).queue.filter (fun x => !x.isLampAny) ++ [.readTags a])
    ∧ (12 ≤ (p.chan c).queue.length → ((p.reofferRead c).reofferLamps c).lampRun.cen = { p.cen with deferred := true }
      ∧ (((p.reofferRead c).reofferLamps c).lampRun.chan c).queue.filter (fun x => !x.isLampAny)
        = (p.chan c).queue.filter (fun x => !x.isLampAny)) := by
  have unlit : ((p.reofferRead c).reofferLamps c).lampRun.unlit = (p.offerRead c a).unlit := by
    rw [Part.lampRun_unlit, Part.reofferLamps_unlit, Part.reofferRead_due due pos]
  have cen := Part.cen_of_unlit unlit
  refine ⟨fun room => ?_, fun full => ?_⟩
  · obtain ⟨entered, offered⟩ := Part.offerRead_enters (p := p) a room
    refine ⟨cen.trans offered, (Part.queue_of_unlit unlit c).trans ?_⟩
    rw [entered, List.filter_append]
    rfl
  · obtain ⟨entered, offered⟩ := Part.offerRead_waits (p := p) a full
    exact ⟨cen.trans offered, (Part.queue_of_unlit unlit c).trans (by rw [entered])⟩

include h

/-- The READ_TAGS deferred is offered again as the command leaves (R124, R159). -/
theorem State.sends_reads {a : Nat} (due : s.part.cen.deferred = true) (pos : s.part.cen.pos = some (c, a))
    (other : ∀ x, b ≠ .readTags x) : ∃ u, exec (b.sendRow c) s = .next u
    ∧ (((s.part.chan c).queue.erase b).length < 12 → u.part.cen = { s.part.cen with deferred := false }
      ∧ (u.part.chan c).queue.filter (fun x => !x.isLampAny)
        = ((s.part.chan c).queue.erase b).filter (fun x => !x.isLampAny) ++ [.readTags a])
    ∧ (12 ≤ ((s.part.chan c).queue.erase b).length → u.part.cen = s.part.cen
      ∧ (u.part.chan c).queue.filter (fun x => !x.isLampAny)
        = ((s.part.chan c).queue.erase b).filter (fun x => !x.isLampAny)) := by
  obtain ⟨deferred, position, whole⟩ := b.told_cen c (s.part.takes c b)
  rw [Part.takes_cen] at deferred position whole
  have queue : ((b.told c (s.part.takes c b)).chan c).queue = (s.part.chan c).queue.erase b := by
    rw [b.told_queue, Part.takes_queue]
  have run := exec_sendRow h
  generalize b.told c (s.part.takes c b) = r at deferred position whole queue run
  obtain ⟨enters, waits⟩ := Part.reads_offered (p := r) (deferred.trans due) (position.trans pos)
  rw [queue, whole other] at enters waits
  refine ⟨_, run, ?_⟩
  dsimp only at waits ⊢
  exact ⟨enters, fun full => ⟨(waits full).1.trans (by rw [← due]), (waits full).2⟩⟩

variable {d : Nat} (raw : ∀ x y z, b ≠ .passed x .lampRaw y z) (quiet : s.part.lmp.touched = [])
  (behind : s.part.lmp.behind = [lampKey c d]) (low : 1 ≤ d) (high : d ≤ 30) (served : s.part.Served c d)
  (none : ∀ ls, BusCmd.lamp d ls ∉ (s.part.chan c).queue)

/-- With no module touched the row ends with the offers. -/
theorem exec_sendRow_quiet {r : Part} (hr : (b.told c (s.part.takes c b)).reofferRead c = r) (still : r.lmp.touched = [])
    (marked : r.lmp.behind = [lampKey c d]) (low : 1 ≤ d) (high : d ≤ 30) :
    exec (b.sendRow c) s = .next { s with part := r.reofferLamps c } := by
  rw [exec_sendRow h, hr, Part.lampRun_quiet _ (Part.reofferLamps_touched still marked low high)]

include raw none

omit raw in
theorem Channel.choice_other (ls : List Lamp) : b ≠ .lamp d ls := by
  obtain ⟨⟨pre, post, split, -⟩, -⟩ := Channel.choice_order h
  exact fun is => none ls (by rw [← is, split]; simp)

theorem State.told_sameLamp : s.part.eightLamps c d = (b.told c (s.part.takes c b)).eightLamps c d
    ∧ (b.told c (s.part.takes c b)).lmp.behind = s.part.lmp.behind
    ∧ (b.told c (s.part.takes c b)).lmp.touched = s.part.lmp.touched
    ∧ Table.look (b.told c (s.part.takes c b)).lmp.images (lampKey c d) = Table.look s.part.lmp.images (lampKey c d)
    ∧ (b.told c (s.part.takes c b)).moduleServed c d = s.part.moduleServed c d := by
  have told := b.told_same (p := s.part.takes c b) (c := c) (d := d) raw (Channel.choice_other h none)
  have lmp : (s.part.takes c b).lmp = s.part.lmp := Part.onChan_touched _ _ _
  have lamps : (s.part.takes c b).eightLamps c d = s.part.eightLamps c d := by cases c <;> rfl
  have kept : (s.part.takes c b).moduleServed c d = s.part.moduleServed c d := by cases c <;> rfl
  exact ⟨(told.lamps.trans lamps).symm, by rw [told.behind, lmp], by rw [told.touched, lmp], by rw [told.image, lmp],
    told.served.trans kept⟩

include quiet behind low high served

/-- With no READ_TAGS deferred the LAMP of the module marked behind is offered as the command leaves (R139, R159). -/
theorem State.sends_behind (kept : s.part.cen.deferred = false) {rest : List BusCmd} (hrest : (s.part.chan c).queue.erase b = rest)
    {ls : List Lamp} (hls : s.part.eightLamps c d = ls) :
    let needed := Table.look s.part.lmp.images (lampKey c d) ≠ some ls
    let becomes (queue : List BusCmd) (behind : List Nat) : Prop :=
      ∃ u, exec (b.sendRow c) s = .next u ∧ (u.part.chan c).queue = queue ∧ u.part.lmp.behind = behind
    (needed → rest.length < 12 → becomes (rest ++ [.lamp d ls]) [])
      ∧ (needed → 12 ≤ rest.length → becomes rest [lampKey c d])
      ∧ (¬ needed → becomes rest []) := by
  obtain ⟨lamps, marked, still, image, serving⟩ := State.told_sameLamp h raw none
  rw [hls] at lamps
  have queue : ((b.told c (s.part.takes c b)).chan c).queue = rest := by rw [b.told_queue, Part.takes_queue, hrest]
  have skip : (b.told c (s.part.takes c b)).reofferRead c = b.told c (s.part.takes c b) :=
    Part.reofferRead_none (by rw [(b.told_cen c _).1, Part.takes_cen]; exact kept) c
  have run := exec_sendRow_quiet h skip (still.trans quiet) (marked.trans behind) low high
  generalize b.told c (s.part.takes c b) = r at lamps marked image serving queue run
  have offers := Part.reofferLamps_served (c := c) (marked.trans behind) low high
    (serving.trans ((s.part.moduleServed_iff c d).mpr served)) lamps.symm
  rw [image, queue] at offers
  obtain ⟨enters, waits, clears⟩ := offers
  refine ⟨fun needed room => ⟨_, run, ?_⟩, fun needed full => ⟨_, run, ?_⟩, fun same => ⟨_, run, ?_⟩⟩ <;> dsimp only
  · exact enters needed room
  · exact waits needed full
  · exact clears same

/-- The deferred READ_TAGS goes before the LAMP of the module marked behind (R124, R139, R159). -/
theorem State.sends_both {a : Nat} (due : s.part.cen.deferred = true) (pos : s.part.cen.pos = some (c, a))
    {rest : List BusCmd} (hrest : (s.part.chan c).queue.erase b = rest)
    {ls : List Lamp} (hls : s.part.eightLamps c d = ls)
    (needed : Table.look s.part.lmp.images (lampKey c d) ≠ some ls) :
    let becomes (queue : List BusCmd) (behind : List Nat) : Prop :=
      ∃ u, exec (b.sendRow c) s = .next u ∧ (u.part.chan c).queue = queue ∧ u.part.lmp.behind = behind
    (rest.length < 11 → becomes (rest ++ [.readTags a, .lamp d ls]) [])
      ∧ (rest.length = 11 → becomes (rest ++ [.readTags a]) [lampKey c d])
      ∧ (12 ≤ rest.length → becomes rest [lampKey c d]) := by
  obtain ⟨lamps, marked, still, image, serving⟩ := State.told_sameLamp h raw none
  rw [hls] at lamps
  have queue : ((b.told c (s.part.takes c b)).chan c).queue = rest := by rw [b.told_queue, Part.takes_queue, hrest]
  obtain ⟨deferred, position, -⟩ := b.told_cen c (s.part.takes c b)
  rw [Part.takes_cen] at deferred position
  have offer : (b.told c (s.part.takes c b)).reofferRead c = (b.told c (s.part.takes c b)).offerRead c a :=
    Part.reofferRead_due (deferred.trans due) (position.trans pos)
  obtain ⟨lmp, lamps', serving'⟩ := (b.told c (s.part.takes c b)).offerRead_same c a d
  have run := exec_sendRow_quiet h offer (by rw [lmp, still, quiet]) (by rw [lmp, marked, behind]) low high
  generalize b.told c (s.part.takes c b) = r at *
  have offers := Part.reofferLamps_served (c := c) (p := r.offerRead c a)
    (by rw [lmp, marked, behind]) low high
    (serving'.trans (serving.trans ((s.part.moduleServed_iff c d).mpr served))) (lamps'.trans lamps.symm)
  rw [lmp, image] at offers
  obtain ⟨enters, waits, -⟩ := offers
  have entered (room : rest.length < 12) : ((r.offerRead c a).chan c).queue = rest ++ [.readTags a] := by
    rw [(Part.offerRead_enters a (by rw [queue]; exact room)).1, queue]
  have deferred' (full : 12 ≤ rest.length) : ((r.offerRead c a).chan c).queue = rest := by
    rw [(Part.offerRead_waits a (by rw [queue]; exact full)).1, queue]
  refine ⟨fun room => ⟨_, run, ?_⟩, fun room => ⟨_, run, ?_⟩, fun full => ⟨_, run, ?_⟩⟩ <;> dsimp only
  · rw [entered (by omega)] at enters
    obtain ⟨at', cleared⟩ := enters needed (by rw [List.length_append]; exact Nat.succ_lt_succ room)
    exact ⟨at'.trans (by rw [List.append_assoc]; rfl), cleared⟩
  · rw [entered (by omega)] at waits
    exact waits needed (by rw [List.length_append, room]; exact Nat.le_refl _)
  · rw [deferred' full] at waits
    exact waits needed full

end Leaves

/-! ## The statement -/

/-- Settles O57: what the arbiter takes, whose turn a POLL is, what each command sent comes to, and the deferred offers made
again as it leaves. -/
theorem arbiterSendsInOrder : Obligations.ArbiterSendsInOrder := by
  refine ⟨fun ch mono b h => ?_, fun ch mono b => Channel.choice_exists, fun ch mono => ?_, fun s c kept => ?_, fun s c b h => ?_⟩
  · obtain ⟨free, running, -⟩ := Channel.choice_cases h
    obtain ⟨line, held⟩ := ch.free_iff.mp free
    exact ⟨line, held, running, Channel.choice_order h⟩
  · refine ⟨fun running => ⟨(Channel.pollTurn_running running mono).trans Iff.rfl, Channel.nextPoll_running running mono⟩,
      fun starting => ⟨Channel.pollTurn_firstPoll starting mono, Channel.nextPoll_firstPoll starting mono⟩,
      fun run start => Channel.pollTurn_other run start mono⟩
  · refine ⟨fun a pos i => State.sends_open kept, fun a pos i => State.sends_close kept, fun a pos => State.sends_own kept,
      fun a pos => State.sends_left kept, fun a cls d e t h ht queued => ?_⟩
    exact ⟨State.sends_passed kept h ht queued (BusCmd.passed_frame cls d e),
      fun ls => State.sends_raw kept h ht queued (BusCmd.passed_frame cls d e)⟩
  · refine ⟨fun a due pos other => State.sends_reads h due pos other, fun d raw quiet behind low high served none => ?_⟩
    exact ⟨fun kept => State.sends_behind h raw quiet behind low high served none kept rfl rfl,
      fun a due pos needed => State.sends_both h raw quiet behind low high served none due pos rfl rfl needed⟩

end Sys2Proof.Machine
end

section
/-! PROOFS. The lamps worked out at the end of a step, of the modules touched and of no others (R138, R139, R140; log 9). -/

namespace Sys2Proof.Machine
open Sys2Proof

/-! ## A module left alone -/

/-- The LAMP commands of module a of channel c that wait, and its mark behind, are the same in two parts. -/
structure Part.KeepsLamp (p q : Part) (c : Chan) (a : Nat) : Prop where
  waiting : (q.chan c).queue.filter (BusCmd.isLamp a) = (p.chan c).queue.filter (BusCmd.isLamp a)
  behind : lampKey c a ∈ q.lmp.behind ↔ lampKey c a ∈ p.lmp.behind

theorem Part.KeepsLamp.refl (p : Part) (c : Chan) (a : Nat) : p.KeepsLamp p c a := ⟨rfl, Iff.rfl⟩

theorem Part.KeepsLamp.trans {p q r : Part} {c : Chan} {a : Nat} (h : p.KeepsLamp q c a) (h' : q.KeepsLamp r c a) :
    p.KeepsLamp r c a := ⟨h'.waiting.trans h.waiting, h'.behind.trans h.behind⟩

theorem BusCmd.isLamp_lamp (a b : Nat) (ls : List Lamp) : BusCmd.isLamp a (.lamp b ls) = decide (b = a) := rfl

/-- A LAMP command is of one module. -/
theorem BusCmd.isLamp_apart {a b : Nat} (h : b ≠ a) {x : BusCmd} (hx : BusCmd.isLamp b x = true) : BusCmd.isLamp a x = false := by
  cases x with
  | lamp y ls =>
    have is : y = b := of_decide_eq_true hx
    exact decide_eq_false (by rw [is]; exact h)
  | _ => rfl

theorem BusCmd.filter_relamp {a b : Nat} (h : b ≠ a) (ls : List Lamp) (queue : List BusCmd) :
    (queue.map (fun x => if BusCmd.isLamp b x then .lamp b ls else x)).filter (BusCmd.isLamp a) = queue.filter (BusCmd.isLamp a) := by
  induction queue with
  | nil => rfl
  | cons x r ih =>
    rw [List.map_cons, List.filter_cons, List.filter_cons, ih]
    split
    · next hx =>
      rw [BusCmd.isLamp_apart h hx, BusCmd.isLamp_lamp, decide_eq_false h]
      rfl
    · rfl

theorem BusCmd.filter_withdraw {a b : Nat} (h : b ≠ a) (queue : List BusCmd) :
    (queue.filter (fun x => !BusCmd.isLamp b x)).filter (BusCmd.isLamp a) = queue.filter (BusCmd.isLamp a) := by
  rw [List.filter_filter]
  refine List.filter_congr fun x _ => ?_
  cases hx : BusCmd.isLamp b x with
  | true => rw [BusCmd.isLamp_apart h hx]; rfl
  | false => exact Bool.and_true _

section Apart
variable {p : Part} {c d : Chan} {a b : Nat} (ne : lampKey d b ≠ lampKey c a)
include ne

/-- A change of the commands that wait for another module. -/
theorem Part.KeepsLamp.onChan {f : Channel → Channel}
    (h : b ≠ a → (f (p.chan d)).queue.filter (BusCmd.isLamp a) = (p.chan d).queue.filter (BusCmd.isLamp a)) :
    p.KeepsLamp (p.onChan d f) c a where
  waiting := by
    by_cases hd : d = c
    · subst hd
      rw [Part.onChan_chan_self]
      exact h fun is => ne (by rw [is])
    · rw [Part.onChan_chan_ne _ _ (Ne.symm hd)]
  behind := by rw [Part.onChan_touched]

theorem Part.KeepsLamp.clearBehind : p.KeepsLamp (p.clearBehind (lampKey d b)) c a where
  waiting := by rw [Part.clearBehind_chan]
  behind := by simp [Part.clearBehind, ne.symm]

theorem Part.KeepsLamp.markBehind : p.KeepsLamp (p.markBehind (lampKey d b)) c a where
  waiting := by rw [Part.markBehind_chan]
  behind := by simp [Part.markBehind, ne.symm]

theorem Part.KeepsLamp.offerLamp : p.KeepsLamp (p.offerLamp d b) c a := by
  unfold Part.offerLamp
  split
  · refine (Part.KeepsLamp.onChan ne fun apart => ?_).trans (.clearBehind ne)
    unfold Channel.push
    rw [List.filter_append, List.filter_cons, BusCmd.isLamp_lamp, decide_eq_false apart]
    exact List.append_nil _
  · exact .markBehind ne

/-- Working out the lamps of one module leaves every other alone. -/
theorem Part.KeepsLamp.recompute (low : 1 ≤ b) (high : b ≤ 30) : p.KeepsLamp (p.recompute (lampKey d b)) c a := by
  unfold Part.recompute
  rw [lampModule_lampKey d b low high]
  dsimp only
  split
  · exact .refl _ _ _
  · split
    · split
      · exact .onChan ne fun apart => BusCmd.filter_relamp apart _ _
      · exact .onChan ne fun apart => BusCmd.filter_withdraw apart _
    · split
      · exact .offerLamp ne
      · exact .refl _ _ _

end Apart

/-- The number of a module is that of a channel and address. -/
theorem mem_allModules {k : Nat} (h : k ∈ allModules) : ∃ c a, 1 ≤ a ∧ a ≤ 30 ∧ k = lampKey c a := by
  obtain ⟨i, hi, rfl⟩ := List.mem_map.mp h
  have small := List.mem_range.mp hi
  by_cases hA : i < 30
  · exact ⟨.A, i + 1, by omega, by omega, rfl⟩
  · exact ⟨.B, i - 29, by omega, by omega, by show i + 1 = 30 + (i - 29); omega⟩

section Fold
variable {c : Chan} {a : Nat}

theorem Part.KeepsLamp.foldl {l : List Nat} (all : ∀ k ∈ l, k ∈ allModules) (apart : lampKey c a ∉ l) (p : Part) :
    p.KeepsLamp (l.foldl Part.recompute p) c a := by
  induction l generalizing p with
  | nil => exact .refl _ _ _
  | cons k l ih =>
    obtain ⟨d, b, low, high, rfl⟩ := mem_allModules (all k (List.mem_cons_self ..))
    have ne : lampKey d b ≠ lampKey c a := fun is => apart (is ▸ List.mem_cons_self ..)
    rw [List.foldl_cons]
    exact (Part.KeepsLamp.recompute ne low high).trans
      (ih (fun x hx => all x (List.mem_cons_of_mem _ hx)) (fun hx => apart (List.mem_cons_of_mem _ hx)) _)

end Fold

/-! ## The module worked out -/

section Lit
variable {p q : Part} {c : Chan} {a : Nat}

/-- What Lit says goes by the records and what KeepsLamp keeps. -/
theorem Part.Lit.congr (keeps : p.KeepsLamp q c a) (same : q.unlit = p.unlit) (h : p.Lit c a) : q.Lit c a := by
  have lamps := Part.eightLamps_of_unlit same c a
  have images : q.lmp.images = p.lmp.images := (congrArg (fun p => p.lmp.images) same :)
  intro served
  have lit := h ((Part.served_of_unlit same c a).mp served)
  rw [images, lamps, keeps.waiting, keeps.behind]
  exact lit

/-- At most one LAMP command of the module waits: none, or one between others. -/
theorem BusCmd.lamp_split {queue : List BusCmd} (one : (queue.filter (BusCmd.isLamp a)).length ≤ 1) :
    (∀ ls, BusCmd.lamp a ls ∉ queue) ∨ ∃ pre ls post, queue = pre ++ .lamp a ls :: post ∧ ∀ ls, BusCmd.lamp a ls ∉ pre ++ post := by
  by_cases h : ∃ ls, BusCmd.lamp a ls ∈ queue
  · obtain ⟨ls, hm⟩ := h
    obtain ⟨pre, post, split⟩ := List.append_of_mem hm
    refine .inr ⟨pre, ls, post, split, fun ls' hm' => ?_⟩
    have kept : (BusCmd.lamp a ls') ∈ (pre ++ post).filter (BusCmd.isLamp a) :=
      List.mem_filter.mpr ⟨hm', decide_eq_true rfl⟩
    have two := List.length_pos_of_mem kept
    rw [split, List.filter_append, List.filter_cons, BusCmd.isLamp_lamp, decide_eq_true rfl, if_pos rfl, List.length_append,
      List.length_cons] at one
    rw [List.filter_append, List.length_append] at two
    omega
  · exact .inl fun ls hm => h ⟨ls, hm⟩

theorem BusCmd.filter_isLamp_none {queue : List BusCmd} (h : ∀ ls, BusCmd.lamp a ls ∉ queue) : queue.filter (BusCmd.isLamp a) = [] := by
  refine List.filter_eq_nil_iff.mpr fun x hx is => ?_
  obtain ⟨ls, hm⟩ := (BusCmd.any_isLamp_iff queue a).mp (List.any_eq_true.mpr ⟨x, hx, is⟩)
  exact h ls hm

theorem BusCmd.filter_isLamp_one {pre post : List BusCmd} {ls : List Lamp} (h : ∀ ls, BusCmd.lamp a ls ∉ pre ++ post) :
    (pre ++ .lamp a ls :: post).filter (BusCmd.isLamp a) = [.lamp a ls] := by
  rw [List.filter_append, List.filter_cons, BusCmd.isLamp_lamp, decide_eq_true rfl, if_pos rfl,
    BusCmd.filter_isLamp_none fun ls hm => h ls (List.mem_append_left _ hm),
    BusCmd.filter_isLamp_none fun ls hm => h ls (List.mem_append_right _ hm)]
  rfl

/-- A module worked out has its lamps in hand. -/
theorem Part.Relit.lit (relit : p.Relit q c a) (same : q.unlit = p.unlit)
    (one : ((p.chan c).queue.filter (BusCmd.isLamp a)).length ≤ 1) : q.Lit c a := by
  obtain ⟨needed, shown, -⟩ := relit
  have lamps := Part.eightLamps_of_unlit same c a
  have images : q.lmp.images = p.lmp.images := (congrArg (fun p => p.lmp.images) same :)
  intro served
  have served' := (Part.served_of_unlit same c a).mp served
  rw [images, lamps]
  split
  · next is =>
    rw [shown served' is, List.filter_filter]
    exact List.filter_eq_nil_iff.mpr fun x _ => by simp
  · next differs =>
    obtain ⟨replaced, enters, waits⟩ := needed served' differs
    rcases BusCmd.lamp_split one with free | ⟨pre, ls, post, split, free⟩
    · rcases Nat.lt_or_ge (p.chan c).queue.length 12 with room | full
      · refine .inl ?_
        rw [(enters free room).1, List.filter_append, BusCmd.filter_isLamp_none free]
        simp [BusCmd.isLamp]
      · obtain ⟨queue, behind⟩ := waits free full
        exact .inr ⟨by rw [queue, BusCmd.filter_isLamp_none free], behind⟩
    · exact .inl (by rw [replaced pre ls post split free, BusCmd.filter_isLamp_one free])

end Lit

/-! ## The end of a step -/

/-- The modules that the end of a step works out, in ascending number. -/
def Part.toRelight (p : Part) : List Nat := allModules.filter (fun k => p.lmp.touched.contains k)

/-- The part with no module touched. -/
def Part.untouched (p : Part) : Part := { p with lmp := { p.lmp with touched := [] } }

theorem Part.lampRun_eq (p : Part) : p.lampRun = p.toRelight.foldl Part.recompute p.untouched := rfl

theorem Part.mem_toRelight {p : Part} {k : Nat} : k ∈ p.toRelight ↔ k ∈ allModules ∧ k ∈ p.lmp.touched := by
  unfold Part.toRelight
  rw [List.mem_filter, List.contains_iff_mem]

theorem allModules_nodup : allModules.Nodup := List.nodup_range.map (fun _ _ h => Nat.succ.inj h)

theorem Part.untouched_unlit (p : Part) : p.untouched.unlit = p.unlit := rfl

theorem Part.untouched_chan (p : Part) (c : Chan) : p.untouched.chan c = p.chan c := by cases c <;> rfl

theorem Part.relit_untouched {p q : Part} {c : Chan} {a : Nat} (h : p.untouched.Relit q c a) : p.Relit q c a := by
  cases c <;> exact h

section Runs
variable {p : Part} {c : Chan} {a : Nat}

/-- With one module touched it alone is worked out. -/
theorem Part.lampRun_relit (low : 1 ≤ a) (high : a ≤ 30) (one : ∀ k, k ∈ p.lmp.touched ↔ k = lampKey c a) :
    p.Relit p.lampRun c a := by
  have list : p.toRelight = [lampKey c a] := by
    have only : p.toRelight = allModules.filter (fun k => k == lampKey c a) := by
      refine List.filter_congr fun k _ => ?_
      rw [Bool.eq_iff_iff, List.contains_iff_mem, one k, beq_iff_eq]
    rw [only, List.filter_beq, List.count_eq_one_of_mem allModules_nodup (lampKey_mem_allModules c a low high)]
    rfl
  rw [Part.lampRun_eq, list]
  exact Part.relit_untouched (p.untouched.recompute_relit c a low high)

/-- A module touched ends the step with its lamps in hand. -/
theorem Part.lampRun_lit (low : 1 ≤ a) (high : a ≤ 30) (touched : lampKey c a ∈ p.lmp.touched)
    (one : ((p.chan c).queue.filter (BusCmd.isLamp a)).length ≤ 1) : p.lampRun.Lit c a := by
  obtain ⟨pre, post, split⟩ := List.append_of_mem (Part.mem_toRelight.mpr ⟨lampKey_mem_allModules c a low high, touched⟩)
  have nodup : (pre ++ lampKey c a :: post).Nodup := split ▸ allModules_nodup.filter _
  have all (k : Nat) (hk : k ∈ pre ++ lampKey c a :: post) : k ∈ allModules := (Part.mem_toRelight.mp (split ▸ hk)).1
  obtain ⟨-, right, apart⟩ := List.nodup_append.mp nodup
  have before := Part.KeepsLamp.foldl (c := c) (a := a) (fun k hk => all k (List.mem_append_left _ hk))
    (fun hk => apart _ hk _ (List.mem_cons_self ..) rfl) p.untouched
  rw [Part.lampRun_eq, split, List.foldl_append, List.foldl_cons]
  refine Part.Lit.congr (Part.KeepsLamp.foldl (fun k hk => all k (List.mem_append_right _ (List.mem_cons_of_mem _ hk)))
    (List.nodup_cons.mp right).1 _) (Part.foldl_unlit _ Part.recompute_unlit _ _) ?_
  refine Part.Relit.lit (Part.recompute_relit _ c a low high) (Part.recompute_unlit _ _) ?_
  rw [before.waiting, Part.untouched_chan]
  exact one

/-- A module not touched is left alone. -/
theorem Part.lampRun_keeps (apart : lampKey c a ∉ p.lmp.touched) : p.KeepsLamp p.lampRun c a := by
  have keeps := Part.KeepsLamp.foldl (c := c) (a := a) (fun k hk => (Part.mem_toRelight.mp hk).1)
    (fun hk => apart (Part.mem_toRelight.mp hk).2) p.untouched
  exact ⟨keeps.waiting.trans (by rw [Part.untouched_chan]), keeps.behind⟩

end Runs

/-! ## Steps that touch modules -/

section Steps
variable {s : State} {p q : Part} {c : Chan} {a : Nat}

/-- A step that touches one module works out its lamps alone. -/
theorem State.relights {ks : List Nat} (eq : q = p.touch ks) (quiet : p.lmp.touched = []) (low : 1 ≤ a) (high : a ≤ 30)
    (one : ∀ k, k ∈ ks ↔ k = lampKey c a) : s.Relights (.next { s with part := q.lampRun }) p c a := by
  have relit := Part.lampRun_relit (p := p.touch ks) (c := c) low high (fun k => by
    rw [show (p.touch ks).lmp.touched = p.lmp.touched ++ ks from rfl, quiet]
    exact one k)
  refine ⟨_, rfl, rfl, ?_, ?_⟩ <;> dsimp only
  · rw [eq, Part.lampRun_unlit, Part.touch_unlit]
  · rw [eq]
    cases c <;> exact relit

/-- A step that touches all modules leaves the lamps of each in hand. -/
theorem State.all_lit (touched : ∀ k ∈ allModules, k ∈ q.lmp.touched) (queue : ∀ c, (q.chan c).queue = (s.part.chan c).queue) :
    ∃ u, (.next { s with part := q.lampRun } : Host.Outcome State Fault Refusal) = .next u ∧ ∀ c a, 1 ≤ a → a ≤ 30 →
      ((s.part.chan c).queue.filter (BusCmd.isLamp a)).length ≤ 1 → u.part.Lit c a := by
  refine ⟨_, rfl, fun c a low high one => ?_⟩
  dsimp only
  exact Part.lampRun_lit low high (touched _ (lampKey_mem_allModules c a low high)) (by rw [queue]; exact one)

end Steps

end Sys2Proof.Machine
end

section
/-! PROOFS. LAMP_CONTROL, LAMP_RELEASE, the lamp test's phases, and a LAMP command on the line (R139, R142, R144, R145, R146). -/

namespace Sys2Proof.Machine
open Sys2Proof

/-! ## A request that is answered -/

theorem Part.queued_chan (p : Part) (r : Report) (c : Chan) : (p.queued r).chan c = p.chan c := by cases c <;> rfl

section Asked
variable {s : State} {row : Instr} {f : Frame} {rest : List Frame} (owner : Part → Frame → Answer) {p q : Part} {r : Result}
  {fields : List Byte} (h : s.Asks row f rest)
include h

theorem State.requestRun_queued (ho : owner (s.part.asked f rest) f = q.answer r fields) (room : q.essRoom = true) :
    s.part.requestRun row owner = q.queued (s.part.replyTo f r fields) := by
  rw [Part.requestRun_asks s row f rest owner h, ho]
  simp only [Answer.send, Part.answer]
  rw [Part.respond_room _ _ room]
  simp [Part.replyTo, responseReport, bit]

/-- A request that touches one module. -/
theorem State.asks_relights {ks : List Nat} {c : Chan} {a : Nat} (ho : owner (s.part.asked f rest) f = (p.touch ks).answer r fields)
    (room : p.essRoom = true) (quiet : p.lmp.touched = []) (low : 1 ≤ a) (high : a ≤ 30) (one : ∀ k, k ∈ ks ↔ k = lampKey c a) :
    s.Relights (.next { s with part := (s.part.requestRun row owner).lampRun }) (p.queued (s.part.replyTo f r fields)) c a := by
  have touched : s.part.requestRun row owner = (p.queued (s.part.replyTo f r fields)).touch ks :=
    State.requestRun_queued owner h ho room
  exact State.relights touched quiet low high one

/-- A request that touches all modules. -/
theorem State.asks_allLit (ho : owner (s.part.asked f rest) f = q.answer r fields) (room : q.essRoom = true)
    (touched : ∀ k ∈ allModules, k ∈ q.lmp.touched) (queue : ∀ c, (q.chan c).queue = (s.part.chan c).queue) :
    ∃ u, (.next { s with part := (s.part.requestRun row owner).lampRun } : Host.Outcome State Fault Refusal) = .next u
      ∧ ∀ c a, 1 ≤ a → a ≤ 30 → ((s.part.chan c).queue.filter (BusCmd.isLamp a)).length ≤ 1 → u.part.Lit c a := by
  have run := State.requestRun_queued owner h ho room
  refine State.all_lit (by rw [run]; exact touched) (fun c => ?_)
  rw [run, Part.queued_chan]
  exact queue c

end Asked

/-! ## LAMP_CONTROL (R141, R142, R146) -/

/-- The fields of LAMP_CONTROL, byte by byte. -/
theorem Part.lampFields_eq (q : Part) {zone : Bool} (hzone : q.zoneBlank = zone) :
    q.lampFields = [if q.lmp.blank then 1#8 else 0#8, if q.lmp.blank || zone then 1#8 else 0#8,
        (if q.lmp.blank then 1#8 else 0#8) + (if zone then 2#8 else 0#8)]
      ++ (match q.lmp.test with
        | none => [0#8, 0xFF#8]
        | some (.red, _) => [1#8, 0#8]
        | some (.amber, _) => [1#8, 1#8]
        | some (.green, _) => [1#8, 2#8])
      ++ beBytes 1 q.lmp.overrides.length := by
  have flags (b z : Bool) : beBytes 1 (bit b) ++ beBytes 1 (bit (b || z)) ++ beBytes 1 (bit b + 2 * bit z)
      = [if b then 1#8 else 0#8, if b || z then 1#8 else 0#8, (if b then 1#8 else 0#8) + (if z then 2#8 else 0#8)] := by
    cases b <;> cases z <;> rfl
  have test (t : Option (Colour × Nat)) : beBytes 1 (bit t.isSome) ++ beName (t.map (fun t => phaseCode t.1)) = match t with
        | none => [0#8, 0xFF#8]
        | some (.red, _) => [1#8, 0#8]
        | some (.amber, _) => [1#8, 1#8]
        | some (.green, _) => [1#8, 2#8] := by
    rcases t with _ | ⟨_ | _ | _, _⟩
    · rfl
    · exact (rfl : beBytes 1 1 ++ beBytes 1 2 = [1#8, 2#8])
    · exact (rfl : beBytes 1 1 ++ beBytes 1 1 = [1#8, 1#8])
    · exact (rfl : beBytes 1 1 ++ beBytes 1 0 = [1#8, 0#8])
  unfold Part.lampFields Part.blanked
  rw [hzone, flags, List.append_assoc _ (beBytes 1 (bit q.lmp.test.isSome)), test]

section Control
variable {s : State} {f : Frame} {rest : List Frame} {tag : Byte} (room : s.part.essRoom = true)

/-- LAMP_CONTROL carried out and answered, up to the lamps. -/
theorem State.lampControls {row : Instr} {q q' : Part} (owner : Part → Frame → Answer) (h : s.Asks row f rest)
    (ho : owner (s.part.asked f rest) f = q'.lampAnswered) (touched : ∃ ks, q' = q.touch ks) (roomy : q.essRoom = true) {zone : Bool}
    (hzone : q.zoneBlank = zone) :
    s.Becomes (.next { s with part := (s.part.requestRun row owner).lampRun }) (q.queued (s.part.replyTo f .ok
      ([if q.lmp.blank then 1#8 else 0#8, if q.lmp.blank || zone then 1#8 else 0#8,
        (if q.lmp.blank then 1#8 else 0#8) + (if zone then 2#8 else 0#8)]
      ++ (match q.lmp.test with
        | none => [0#8, 0xFF#8]
        | some (.red, _) => [1#8, 0#8]
        | some (.amber, _) => [1#8, 1#8]
        | some (.green, _) => [1#8, 2#8])
      ++ beBytes 1 q.lmp.overrides.length))) := by
  obtain ⟨ks, rfl⟩ := touched
  rw [← Part.lampFields_eq q hzone]
  exact State.replies owner h ho (Part.touch_unlit _ _) roomy

theorem Part.setBlank_touch (p : Part) (b : Bool) :
    ∃ ks, p.setBlank b = ({ p with lmp := { p.lmp with blank := b } } : Part).touch ks :=
  Part.blankingChanged_touch _ _

/-- A blank flag that changes touches all modules. -/
theorem Part.setBlank_changes {p : Part} {b : Bool} (h : p.lmp.blank = !b) :
    p.setBlank b = ({ p with lmp := { p.lmp with blank := b } } : Part).touch allModules := by
  have changed : ¬ (b = p.lmp.blank) := by
    rw [h]
    cases b <;> nofun
  exact if_neg fun same => changed same.1

theorem Part.touch_touches {p : Part} {ks : List Nat} : ∀ k ∈ ks, k ∈ (p.touch ks).lmp.touched :=
  fun _ hk => List.mem_append_right _ hk

end Control

/-! ## LAMP_RELEASE (R144, R145) -/

theorem parseChanByte_address {bs : List Byte} {tag : Byte} {c : Chan} {a : Nat} (h : bs = tag :: (beBytes 1 c.code ++ beBytes 1 a))
    (high : a ≤ 30) : parseChanByte bs = some (c, a) := by
  have small : (BitVec.ofNat 8 a).toNat = a := by
    rw [BitVec.toNat_ofNat]
    exact Nat.mod_eq_of_lt (by omega)
  have split : tag :: (beBytes 1 c.code ++ beBytes 1 a) = tag :: (beBytes 1 c.code ++ [BitVec.ofNat 8 a]) := by
    simp [beBytes]
  rw [parseChanByte_payload (h.trans split), small]

/-- With no entry under a number the table is as it is without it. -/
theorem Table.filter_absent {α : Type} {t : Table α} {k : Nat} (h : Table.look t k = none) : t.filter (fun e => e.1 != k) = t := by
  refine List.filter_eq_self.mpr fun e he => ?_
  induction t with
  | nil => cases he
  | cons x t ih =>
    unfold Table.look at h
    split at h
    · cases h
    · next ne =>
      rcases List.mem_cons.mp he with rfl | he
      · exact bne_iff_ne.mpr ne
      · exact ih h he

theorem Part.clearOverrides_one (p : Part) (k : Nat) : p.clearOverrides [k]
    = ({ p with lmp := { p.lmp with overrides := p.lmp.overrides.filter (fun e => e.1 != k) } } : Part).touch [k] := by
  have same : (fun e : Nat × List Lamp => !([k].contains e.1)) = fun e => e.1 != k := by
    funext e
    simp [bne, Bool.beq_eq_decide_eq]
  unfold Part.clearOverrides
  rw [same]

section Release
variable {p : Part} {f : Frame} {tag : Byte} {c : Chan} {a : Nat} (payload : f.payload = tag :: (beBytes 1 c.code ++ beBytes 1 a))
  (low : 1 ≤ a) (high : a ≤ 30)
include payload low high

/-- LAMP_RELEASE of a module clears its override, and works out its lamps where it held one. -/
theorem Part.doLampRelease_eq : p.doLampRelease f
    = (({ p with lmp := { p.lmp with overrides := p.lmp.overrides.filter (fun e => e.1 != lampKey c a) } } : Part).touch
        (if (Table.look p.lmp.overrides (lampKey c a)).isSome then [lampKey c a] else [])).answer .ok
      (beBytes 1 (if (Table.look p.lmp.overrides (lampKey c a)).isSome then 1 else 0)) := by
  have flag : beBytes 1 (bit (p.overridden (lampKey c a)))
      = beBytes 1 (if (Table.look p.lmp.overrides (lampKey c a)).isSome then 1 else 0) := by
    unfold Part.overridden
    cases (Table.look p.lmp.overrides (lampKey c a)).isSome <;> rfl
  unfold Part.doLampRelease
  rw [parseChanByte_address payload high]
  dsimp only
  rw [if_neg (by rintro (h | h); exacts [absurd h (by omega), absurd (show 30 < a from h) (by omega)]), flag]
  refine congrArg (fun q : Part => q.answer .ok _) ?_
  unfold Part.overridden
  split
  · exact Part.clearOverrides_one _ _
  · next none =>
    rw [Table.filter_absent (Option.not_isSome_iff_eq_none.mp none)]
    unfold Part.touch
    rw [List.append_nil]

end Release

/-! ## The phases of the lamp test (R142) -/

theorem State.testPhases {s : State} {col : Colour} {t : Nat} (test : s.part.lmp.test = some (col, t)) (due : t ≤ s.part.mono) :
    s.Becomes (exec .lampTestPhaseExpiry s) { s.part with lmp := { s.part.lmp with
      test := match col with
        | .red => some (.amber, s.part.mono + 4000)
        | .amber => some (.green, s.part.mono + 4000)
        | .green => none } } := by
  refine State.becomes_of_unlit (q := s.part.testPhase) ?_
  unfold Part.testPhase
  split
  · next none => exact absurd (none.symm.trans test) nofun
  · next col' t' test' =>
    cases test'.symm.trans test
    rw [if_neg (Nat.not_lt.mpr due), Part.touch_unlit]
    cases col <;> rfl

/-! ## A LAMP command on the line (R139, R159) -/

/-- The offers made again on a channel: LAMP commands of modules marked behind enter at the tail. -/
structure Part.Reoffers (p q : Part) (c : Chan) : Prop where
  unlit : q.unlit = p.unlit
  behind : ∀ k ∈ q.lmp.behind, k ∈ p.lmp.behind
  queue : ∃ more, (q.chan c).queue = (p.chan c).queue ++ more
    ∧ ∀ x ∈ more, ∃ d, lampKey c d ∈ p.lmp.behind ∧ x = .lamp d (p.eightLamps c d)
  others : ∀ d, d ≠ c → (q.chan d).queue = (p.chan d).queue
  touched : q.lmp.touched = p.lmp.touched

section Reoffers
variable {p q r : Part} {c : Chan}

theorem Part.Reoffers.refl (p : Part) (c : Chan) : p.Reoffers p c where
  unlit := rfl
  behind := fun _ h => h
  queue := ⟨[], (List.append_nil _).symm, nofun⟩
  others := fun _ _ => rfl
  touched := rfl

theorem Part.Reoffers.trans (h : p.Reoffers q c) (h' : q.Reoffers r c) : p.Reoffers r c where
  unlit := h'.unlit.trans h.unlit
  behind := fun k hk => h.behind k (h'.behind k hk)
  queue := by
    obtain ⟨more, queue, from'⟩ := h.queue
    obtain ⟨more', queue', from''⟩ := h'.queue
    refine ⟨more ++ more', by rw [queue', queue, List.append_assoc], fun x hx => ?_⟩
    rcases List.mem_append.mp hx with hx | hx
    · exact from' x hx
    · obtain ⟨d, marked, lamps⟩ := from'' x hx
      exact ⟨d, h.behind _ marked, by rw [lamps, Part.eightLamps_of_unlit h.unlit]⟩
  others := fun d hd => (h'.others d hd).trans (h.others d hd)
  touched := h'.touched.trans h.touched

theorem Part.Reoffers.clearBehind (p : Part) (c : Chan) (k : Nat) : p.Reoffers (p.clearBehind k) c where
  unlit := rfl
  behind := fun _ h => (List.mem_filter.mp h).1
  queue := ⟨[], by rw [Part.clearBehind_chan, List.append_nil], nofun⟩
  others := fun d _ => by rw [Part.clearBehind_chan]
  touched := rfl

theorem Part.Reoffers.reofferOne (p : Part) (c : Chan) (a : Nat) : p.Reoffers (p.reofferOne c a) c := by
  unfold Part.reofferOne
  split
  · next marked =>
    have marked' : lampKey c a ∈ p.lmp.behind := List.contains_iff_mem.mp marked
    split
    · refine ⟨Part.offerLamp_unlit _ _ _, fun k hk => (Part.offerLamp_behind p c a k hk).elim id (fun is => is ▸ marked'), ?_, ?_,
        Part.offerLamp_touched _ _ _⟩
      · unfold Part.offerLamp
        split
        · rw [Part.clearBehind_chan, Part.onChan_chan_self]
          exact ⟨[.lamp a (p.lampsOf c a)], rfl, fun x hx => ⟨a, marked', List.mem_singleton.mp hx⟩⟩
        · exact ⟨[], by rw [Part.markBehind_chan, List.append_nil], nofun⟩
      · intro d hd
        unfold Part.offerLamp
        split
        · rw [Part.clearBehind_chan, Part.onChan_chan_ne _ _ hd]
        · rw [Part.markBehind_chan]
    · exact .clearBehind _ _ _
  · exact .refl _ _

theorem Part.Reoffers.reofferLamps (p : Part) (c : Chan) : p.Reoffers (p.reofferLamps c) c := by
  have fold (l : List Nat) (q : Part) : q.Reoffers (l.foldl (Part.reofferOne c) q) c := by
    induction l generalizing q with
    | nil => exact .refl _ _
    | cons a l ih => exact (Part.Reoffers.reofferOne q c a).trans (ih _)
  exact fold _ p

theorem Part.reofferLamps_none (h : ∀ d, 1 ≤ d → d ≤ 30 → lampKey c d ∉ p.lmp.behind) : p.reofferLamps c = p := by
  refine Part.reofferOne_foldl_skip (l := (List.range Config.modules).map (· + 1)) fun a ha => ?_
  obtain ⟨i, hi, rfl⟩ := List.mem_map.mp ha
  have small : i < 30 := List.mem_range.mp hi
  exact h (i + 1) (by omega) (by omega)

end Reoffers

theorem List.filter_erase_of_not {α : Type} [BEq α] [LawfulBEq α] {f : α → Bool} {x : α} (h : f x = false) (l : List α) :
    (l.erase x).filter f = l.filter f := by
  induction l with
  | nil => rfl
  | cons y l ih =>
    rw [List.erase_cons]
    split
    · next is => rw [List.filter_cons, eq_of_beq is, h, if_neg Bool.false_ne_true]
    · rw [List.filter_cons, List.filter_cons, ih]

theorem Part.onChan_unlit_congr {p : Part} {c : Chan} {f g : Channel → Channel} (h : (f (p.chan c)).unlit = (g (p.chan c)).unlit) :
    (p.onChan c f).unlit = (p.onChan c g).unlit := by
  cases c
  · exact congrArg (fun ch => { p.unlit with chanA := ch }) h
  · exact congrArg (fun ch => { p.unlit with chanB := ch }) h

section Sends
variable {s : State} {c : Chan} {a : Nat} {ls : List Lamp} (h : (s.part.chan c).choice s.part.mono = some (.lamp a ls))
  (kept : s.part.cen.deferred = false)
include h kept

theorem State.sends_lamp : s.Becomes (exec (.sendLamp c) s)
    ({ s.part with lmp := { s.part.lmp with images := Table.put s.part.lmp.images (lampKey c a) ls } }.onChan c (fun ch =>
      { ch with onLine := some (.queued (.lamp a ls)), sent := [framed ([BitVec.ofNat 8 a, 0x20#8] ++ ls.map Lamp.byte)] })) := by
  have took : BusCmd.told c (.lamp a ls) (s.part.takes c (.lamp a ls)) = Part.onChan
      { s.part with lmp := { s.part.lmp with images := Table.put s.part.lmp.images (lampKey c a) ls } } c (fun ch => { ch with
        queue := ch.queue.erase (.lamp a ls), onLine := some (.queued (.lamp a ls)), sent := [(BusCmd.lamp a ls).frame] }) := by
    cases c <;> rfl
  refine State.sends h kept ?_
  rw [took]
  refine Part.onChan_unlit_congr ?_
  exact congrArg (fun q => { (s.part.chan c) with
    queue := q, onLine := some (.queued (.lamp a ls)), sent := [(BusCmd.lamp a ls).frame] }) (List.filter_erase_of_not (f := fun x => !x.isLampAny) (x := .lamp a ls) rfl _)

variable (quiet : s.part.lmp.touched = [])
include quiet

theorem State.sends_lamp_run : ∃ q r : Part, exec (.sendLamp c) s = .next { s with part := r } ∧ q.Reoffers r c
    ∧ r = q.reofferLamps c ∧ (q.chan c).queue = (s.part.chan c).queue.erase (.lamp a ls) ∧ q.lmp.behind = s.part.lmp.behind
    ∧ (∀ d, d ≠ c → (q.chan d).queue = (s.part.chan d).queue) ∧ ∀ d, q.eightLamps c d = s.part.eightLamps c d := by
  have took : (BusCmd.told c (.lamp a ls) (s.part.takes c (.lamp a ls))).cen.deferred = false := by
    rw [((BusCmd.lamp a ls).told_cen c _).1, Part.takes_cen]
    exact kept
  have still : (BusCmd.told c (.lamp a ls) (s.part.takes c (.lamp a ls))).lmp.touched = [] := by cases c <;> exact quiet
  have offers := Part.Reoffers.reofferLamps (BusCmd.told c (.lamp a ls) (s.part.takes c (.lamp a ls))) c
  have run := exec_sendRow h
  rw [Part.reofferRead_none took, Part.lampRun_quiet _ (offers.touched.trans still)] at run
  refine ⟨_, _, run, offers, rfl, ?_, ?_, fun d hd => ?_, fun d => ?_⟩
  · rw [BusCmd.told_queue, Part.takes_queue]
  · cases c <;> rfl
  · cases c <;> cases d <;> first | exact absurd rfl hd | rfl
  · cases c <;> rfl

/-- LAMP commands of modules marked behind may enter as a LAMP command leaves (R139, R159). -/
theorem State.sends_lamp_more : (∃ u more, exec (.sendLamp c) s = .next u
      ∧ (u.part.chan c).queue = (s.part.chan c).queue.erase (.lamp a ls) ++ more
      ∧ (∀ x ∈ more, ∃ d, lampKey c d ∈ s.part.lmp.behind ∧ x = .lamp d (s.part.eightLamps c d))
      ∧ ∀ d, d ≠ c → (u.part.chan d).queue = (s.part.chan d).queue)
    ∧ ((∀ d, 1 ≤ d → d ≤ 30 → lampKey c d ∉ s.part.lmp.behind) → ∃ u, exec (.sendLamp c) s = .next u
      ∧ u.part.lmp.behind = s.part.lmp.behind
      ∧ (u.part.chan c).queue = (s.part.chan c).queue.erase (.lamp a ls)) := by
  obtain ⟨q, r, run, offers, eq, queue, behind, others, lamps⟩ := State.sends_lamp_run h kept quiet
  constructor
  · obtain ⟨more, entered, marked⟩ := offers.queue
    refine ⟨_, more, run, ?_⟩
    dsimp only
    refine ⟨by rw [entered, queue], fun x hx => ?_, fun d hd => (offers.others d hd).trans (others d hd)⟩
    obtain ⟨d, hd, is⟩ := marked x hx
    exact ⟨d, behind ▸ hd, by rw [is, lamps]⟩
  · intro none
    refine ⟨_, run, ?_⟩
    dsimp only
    rw [eq, Part.reofferLamps_none (by rw [behind]; exact none)]
    exact ⟨behind, queue⟩

end Sends

end Sys2Proof.Machine
end

section
/-! PROOFS. The steps that work out lamps, and the statement of the lamp commands (R138 to R140). -/

namespace Sys2Proof.Machine
open Sys2Proof

/-! ## All modules (R138) -/

section All
variable {s : State} {f : Frame} {rest : List Frame} {tag : Byte} (room : s.part.essRoom = true)

/-- A source of blanking that changes touches all modules. -/
theorem Part.policyActs_blanks {p : Part} {v : Nat} (changes : p.policy.blankUnstaffed ≠ (v != 0)) (zone : p.zone = .unstaffed) (x : Nat) :
    p.policyActs (p.policy.set 11 v) [(11, x)] = ({ p with policy := p.policy.set 11 v } : Part).touch allModules := by
  have acts : p.policyActs (p.policy.set 11 v) [(11, x)] = if p.policy.blankUnstaffed ≠ (v != 0) then
      ({ p with policy := p.policy.set 11 v } : Part).blankingChanged p else { p with policy := p.policy.set 11 v } := by
    simp [Part.policyActs, Policy.set]
  rw [acts, if_pos changes]
  refine if_neg fun same => changes ?_
  have zoneSame : ({ p with policy := p.policy.set 11 v } : Part).zoneBlank = p.zoneBlank := same.2
  unfold Part.zoneBlank at zoneSame
  simp only [zone, beq_self_eq_true, Bool.and_true] at zoneSame
  exact zoneSame.symm

include room

theorem State.test_allLit (hasks : s.Asks .lampControlTest f rest) : ∃ u, exec .lampControlTest s = .next u ∧
    ∀ c a, 1 ≤ a → a ≤ 30 → ((s.part.chan c).queue.filter (BusCmd.isLamp a)).length ≤ 1 → u.part.Lit c a :=
  State.asks_allLit Part.doLampTest (q := (s.part.asked f rest).testStart) hasks rfl room Part.touch_touches
    (fun c => by cases c <;> rfl)

theorem State.blankOn_allLit (hasks : s.Asks .lampControlBlankOn f rest) (hpay : f.payload = [tag, 0#8])
    (shown : s.part.lmp.blank = false) : ∃ u, exec .lampControlBlankOn s = .next u ∧
    ∀ c a, 1 ≤ a → a ≤ 30 → ((s.part.chan c).queue.filter (BusCmd.isLamp a)).length ≤ 1 → u.part.Lit c a := by
  have owner : (s.part.asked f rest).doBlankOn f = ((s.part.asked f rest).setBlank true).lampAnswered := by
    unfold Part.doBlankOn
    rw [hpay, show parseNum 1 [tag, 0#8] = some 0 from parseNum_payload tag 1 0 (by decide)]
    rfl
  rw [Part.setBlank_changes (p := s.part.asked f rest) (b := true) shown] at owner
  exact State.asks_allLit Part.doBlankOn hasks owner room Part.touch_touches (fun c => by cases c <;> rfl)

theorem State.blankOff_allLit (hasks : s.Asks .lampControlBlankOff f rest) (dark : s.part.lmp.blank = true) :
    ∃ u, exec .lampControlBlankOff s = .next u ∧
    ∀ c a, 1 ≤ a → a ≤ 30 → ((s.part.chan c).queue.filter (BusCmd.isLamp a)).length ≤ 1 → u.part.Lit c a := by
  have owner : (s.part.asked f rest).doBlankOff f = ((s.part.asked f rest).setBlank false).lampAnswered := rfl
  rw [Part.setBlank_changes (p := s.part.asked f rest) (b := false) dark] at owner
  exact State.asks_allLit Part.doBlankOff hasks owner room Part.touch_touches (fun c => by cases c <;> rfl)

theorem State.policy_allLit {on : Bool} (hasks : s.Asks .policySet f rest)
    (hpay : f.payload = [tag, 11#8, if on then 1#8 else 0#8]) (other : s.part.policy.blankUnstaffed = !on)
    (zone : s.part.zone = .unstaffed) : ∃ u, exec .policySet s = .next u ∧
    ∀ c a, 1 ≤ a → a ≤ 30 → ((s.part.chan c).queue.filter (BusCmd.isLamp a)).length ≤ 1 → u.part.Lit c a := by
  have owner := Part.doPolicySet_one (p := s.part.asked f rest) (fld := 11) (v := if on then 1 else 0) (by omega)
    (by cases on <;> decide) (hpay.trans (by cases on <;> rfl))
  have changes : (s.part.asked f rest).policy.blankUnstaffed ≠ (policyClamp 11 (if on then 1 else 0) != 0) := by
    rw [show (s.part.asked f rest).policy.blankUnstaffed = !on from other]
    cases on <;> decide
  rw [Part.policyActs_blanks changes zone] at owner
  exact State.asks_allLit Part.doPolicySet hasks owner room Part.touch_touches (fun c => by cases c <;> rfl)

end All

/-- A key written where it stands touches the module of its slot. -/
theorem Part.setKey_home {p : Part} {h n : Nat} {k : KeyRec} (hk : Table.look p.keys h = some k) (loc : k.loc = some n)
    (home : k.home = none ∨ k.home = some n) {k' : KeyRec} (loc' : k'.loc = k.loc) (home' : k'.home = k.home) :
    ∃ ks, p.setKey h k' = ({ p with keys := Table.put p.keys h k' } : Part).touch ks
      ∧ ∀ x, x ∈ ks ↔ x = lampKey (p.slotEntry n).chan (p.slotEntry n).addr := by
  have before : (some k).bind (fun k => k.loc) = some n := loc
  have touches (q : Part) (slots : q.slotMap = p.slotMap) : q.touchSlotO (some n) = q.touch [lampKey (p.slotEntry n).chan (p.slotEntry n).addr] := by
    unfold Part.touchSlotO Part.touchSlot Part.slotEntry
    rw [slots]
  unfold Part.setKey
  dsimp only
  rw [hk, loc', home', loc, before]
  generalize eq : ({ p with keys := Table.put p.keys h k' } : Part) = q
  have slots : q.slotMap = p.slotMap := by rw [← eq]
  rw [touches q slots, touches (q.touch _) slots, Part.touch_touch]
  rcases home with home | home <;> rw [home]
  · exact ⟨_, rfl, fun x => by simp⟩
  · rw [touches (q.touch _) slots, Part.touch_touch]
    exact ⟨_, rfl, fun x => by simp⟩

/-! ## One module (R138 to R140) -/

/-! ## A module found by its POLL (R158) -/

section Found
variable {p : Part} {c : Chan} {a : Nat} (lost : (p.chan c).modState a = .absent ∨ (p.chan c).modState a = .down)
include lost

theorem Part.goodAnswer_found : (p.lineFree c).goodAnswer c a true = (p.lineFree c).moduleFound c a := by
  have state : ((p.lineFree c).chan c).modState a = (p.chan c).modState a := by cases c <;> rfl
  unfold Part.goodAnswer
  rw [state]
  rcases lost with lost | lost <;> rw [lost] <;> rfl

/-- With nothing raised for it and room for the report. -/
theorem Part.poll_found (calm : p.alt.find .moduleDown (.module c a) = none) (room : p.link.reports.length < 48) :
    ((p.lineFree c).goodAnswer c a true).onModule c a (fun m => { m with ack := true })
      = ((p.heard c a (fun m => { m with state := .active, misses := 0, reprobe := none, ack := true })).queued
          ⟨.moduleEvent, 255, beBytes 1 c.code ++ beBytes 1 a ++ [1#8]⟩).touch [lampKey c a] := by
  have noEntry : ((p.lineFree c).onModule c a (fun m => { m with state := .active, misses := 0, reprobe := none })).alt.find
      .moduleDown (.module c a) = none := by cases c <;> exact calm
  have room' : ((p.lineFree c).onModule c a (fun m => { m with
      state := .active, misses := 0, reprobe := none })).link.reports.length < 48 := by cases c <;> exact room
  rw [Part.goodAnswer_found lost]
  unfold Part.moduleFound
  dsimp only
  rw [Part.remove_none noEntry, Part.offerOrd_room _ room']
  have twice (ch : Channel) : Table.modify (Table.modify ch.modules a (fun m => { m with state := .active, misses := 0, reprobe := none }))
      a (fun m => { m with ack := true })
      = Table.modify ch.modules a (fun m => { m with state := .active, misses := 0, reprobe := none, ack := true }) :=
    Table.modify_modify _ _ _ _
  cases c
  · exact congrArg (fun t => (({ p with chanA := { p.chanA with onLine := none, modules := t } } : Part).queued
      ⟨.moduleEvent, 255, beBytes 1 Chan.A.code ++ beBytes 1 a ++ [1#8]⟩).touch [lampKey .A a]) (twice p.chanA)
  · exact congrArg (fun t => (({ p with chanB := { p.chanB with onLine := none, modules := t } } : Part).queued
      ⟨.moduleEvent, 255, beBytes 1 Chan.B.code ++ beBytes 1 a ++ [1#8]⟩).touch [lampKey .B a]) (twice p.chanB)

end Found

section One
variable {s : State} {f : Frame} {rest : List Frame} {tag : Byte} (quiet : s.part.lmp.touched = [])
include quiet

section Asked
variable (room : s.part.essRoom = true)
include room

theorem State.regroup_relights {i g : Nat} {e : SlotEntry} (hasks : s.Asks .tableWrite f rest) (hlow : 1 ≤ i) (hhigh : i ≤ 480)
    (he : Table.look s.part.slotMap i = some e) (rising : Table.rising s.part.slotMap = true) (ok : slotMapOk s.part.slotMap = true)
    (standard : e.kind = .standard) (low : 1 ≤ e.addr) (high : e.addr ≤ 30) (pos : e.pos ≤ 7) (group : g ≤ 15) (differs : g ≠ e.group)
    (hpay : f.payload = tag :: (beBytes 1 0 ++ (beBytes 2 i ++ (beBytes 1 1 ++ ({ e with group := g } : SlotEntry).bytes)))) :
    s.Relights (exec .tableWrite s)
      (({ s.part.asked f rest with slotMap := Table.put s.part.slotMap i { e with group := g } } : Part).queued
        (s.part.replyTo f .ok (beBytes 1 0 ++ beBytes 2 i ++ [1#8]))) e.chan e.addr := by
  have write := Part.regroup_writes (p := s.part.asked f rest) he rising ok standard low high pos group
  have touches (p : Part) : p.slotWritten i e { e with group := g } = p.touch ([lampKey e.chan e.addr] ++ [lampKey e.chan e.addr]) := by
    unfold Part.slotWritten
    dsimp only
    rw [show e.changed { e with group := g } = false from decide_eq_false (not_not.2 rfl), if_neg Bool.false_ne_true,
      if_neg fun same => differs (congrArg SlotEntry.group same).symm, Part.touch_touch]
  have owner := Part.doTableWrite_one (p := s.part.asked f rest) (w := 5) hpay rfl (by simp [SlotEntry.bytes]) (by omega) hlow (by omega)
    (by omega) (by omega)
  rw [write, touches] at owner
  exact State.asks_relights Part.doTableWrite hasks owner room quiet low high (fun k => by simp)

theorem State.release_relights {c : Chan} {a : Nat} {ls : List Lamp} (hasks : s.Asks .lampRelease f rest)
    (hpay : f.payload = tag :: (beBytes 1 c.code ++ beBytes 1 a)) (low : 1 ≤ a) (high : a ≤ 30)
    (held : Table.look s.part.lmp.overrides (lampKey c a) = some ls) :
    s.Relights (exec .lampRelease s)
      (({ s.part.asked f rest with lmp := { (s.part.asked f rest).lmp with
        overrides := (s.part.asked f rest).lmp.overrides.filter (fun e => e.1 != lampKey c a) } } : Part).queued
        (s.part.replyTo f .ok (beBytes 1 1))) c a := by
  have owner := Part.doLampRelease_eq (p := s.part.asked f rest) hpay low high
  rw [show Table.look (s.part.asked f rest).lmp.overrides (lampKey c a) = some ls from held] at owner
  exact State.asks_relights Part.doLampRelease hasks owner room quiet low high (fun k => List.mem_singleton)

theorem State.hold_relights {t h n : Nat} {k : KeyRec} (hasks : s.Asks .keyHold f rest) (hpay : f.payload = tag :: (beBytes 4 t ++ [2#8]))
    (ht : t < 4294967296) (hkey : s.part.keyByTag t = some (h, k)) (hk : Table.look s.part.keys h = some k) (loc : k.loc = some n)
    (home : k.home = none ∨ k.home = some n) (low : 1 ≤ (s.part.slotEntry n).addr) (high : (s.part.slotEntry n).addr ≤ 30) :
    s.Relights (exec .keyHold s)
      (({ s.part.asked f rest with keys := Table.put (s.part.asked f rest).keys h { k with hold := some .office } } : Part).queued
        (s.part.replyTo f .ok [holdByte k.hold 255#8])) (s.part.slotEntry n).chan (s.part.slotEntry n).addr := by
  have owner := Part.doKeyHold_found (p := s.part.asked f rest) (parseKeyHold_payload (reason := some .office) hpay ht) hkey
  obtain ⟨ks, set, only⟩ := Part.setKey_home (p := s.part.asked f rest) (k' := { k with hold := some .office }) hk loc home rfl rfl
  rw [set] at owner
  exact State.asks_relights Part.doKeyHold hasks owner room quiet low high only

end Asked

section Rows
variable {n : Nat} {r : SlotRow} (hrow : Table.look s.part.rows n = some r)
  (low : 1 ≤ (s.part.slotEntry n).addr) (high : (s.part.slotEntry n).addr ≤ 30)
include hrow low high

theorem State.guide_relights {e : Nat} (guide : r.guide = some e) (due : e ≤ s.part.mono) :
    s.Relights (exec (.guideExpiry n) s) { s.part with rows := Table.modify s.part.rows n (fun r => { r with guide := none }) }
      (s.part.slotEntry n).chan (s.part.slotEntry n).addr := by
  have over' : ((s.part.row n).bind (·.guide)).any (fun t => decide (t ≤ s.part.mono)) = true := by
    rw [show s.part.row n = some r from hrow]
    show (r.guide).any _ = true
    rw [guide]
    exact decide_eq_true due
  exact State.relights (q := s.part.guideExpire n) (if_pos over') quiet low high (fun k => List.mem_singleton)

theorem State.removal_relights {st : Settle} {t h : Nat} {k : KeyRec} (settle : r.settle = some st) (due : st.expiry ≤ s.part.mono)
    (cand : st.cand = .empty) (occ : r.occ = some (.tag t)) (ctx : r.ctx = none) (hkey : s.part.keyByTag t = some (h, k))
    (away : k.loc ≠ some n) :
    s.Relights (exec (.settleExpiry n) s) { s.part with rows := Table.modify s.part.rows n (fun r => { r with occ := some .empty, settle := none }) }
      (s.part.slotEntry n).chan (s.part.slotEntry n).addr := by
  have row : Table.look ((s.part.settledTo n .empty).touch [lampKey (s.part.slotEntry n).chan (s.part.slotEntry n).addr]).rows n
      = some { r with occ := some .empty, settle := none } := Part.settledTo_row hrow .empty
  have left := Part.keyLeft_known (m := st.firstSeen) (old := .tag t) row ctx (h := h) (k := k) (by exact hkey)
  rw [if_neg away] at left
  have departs : s.part.settleExpire n
      = (s.part.settledTo n .empty).touch [lampKey (s.part.slotEntry n).chan (s.part.slotEntry n).addr] := by
    unfold Part.settleExpire
    rw [show s.part.row n = some r from hrow]
    dsimp only
    rw [settle, occ]
    dsimp only
    rw [if_neg (Nat.not_lt.mpr due), cand, if_pos rfl, if_neg (by nofun)]
    exact left
  exact State.relights departs quiet low high (fun k => List.mem_singleton)

end Rows

/-! ## A LAMP command missed, and a module found -/

section Modules
variable {c : Chan} {a : Nat} {m : ModEntry} (low : 1 ≤ a) (high : a ≤ 30) (hm : Table.look (s.part.chan c).modules a = some m)
include low high hm

theorem State.missed_relights (held : (s.part.chan c).held = false) {ls : List Lamp}
    (line : (s.part.chan c).onLine = some (.queued (.lamp a ls))) {g : ModEntry → ModEntry}
    (charged : (s.part.lineFree c).chargeMiss c a = (s.part.lineFree c).onChan c (fun ch => { ch with
      misses := satUp ch.misses, modules := Table.modify ch.modules a g })) :
    s.Relights (exec (.commandMiss c) s)
      (({ s.part with lmp := { s.part.lmp with images := Table.del s.part.lmp.images (lampKey c a) } } : Part).onChan c
        (fun ch => { ch with onLine := none, misses := satUp ch.misses, modules := Table.modify ch.modules a g })) c a := by
  have miss : s.part.commandMiss c = (({ s.part with lmp := { s.part.lmp with
      images := Table.del s.part.lmp.images (lampKey c a) } } : Part).onChan c
        (fun ch => { ch with onLine := none, misses := satUp ch.misses, modules := Table.modify ch.modules a g })).touch [lampKey c a] := by
    refine (Part.commandMiss_queued held line).trans ?_
    rw [show (BusCmd.lamp a ls).addr = a from rfl, charged]
    cases c <;> rfl
  exact State.relights miss (by rw [Part.onChan_touched]; exact quiet) low high (fun k => List.mem_singleton)

/-- A module ABSENT or DOWN that answers its POLL is ACTIVE (R158). -/
theorem State.found_relights {ack : Bool} {y : Reply} {rs : List PosReport} (line : (s.part.chan c).onLine = some (.poll a ack))
    (good : GoodReply y a) (running : (s.part.chan c).state = .running) (lost : m.state = .absent ∨ m.state = .down)
    (bare : ∀ x, s.part.slotAt c a x = none) (calm : s.part.alt.find .moduleDown (.module c a) = none)
    (room : s.part.link.reports.length < 48) :
    s.Relights (exec (.pollAnswer c ⟨y, rs⟩) s)
      ((s.part.onChan c (fun ch => { ch with
        onLine := none
        modules := Table.modify ch.modules a (fun m => { m with
          state := .active, misses := 0, reprobe := none, ack := true }) })).queued
        ⟨.moduleEvent, 255, beBytes 1 c.code ++ beBytes 1 a ++ [1#8]⟩) c a := by
  have state : (s.part.chan c).modState a = .absent ∨ (s.part.chan c).modState a = .down := by
    unfold Channel.modState
    rw [hm]
    exact lost
  have heard := Part.poll_found state calm room
  have none' (q : Part) (slots : ∀ x, q.slotAt c a x = none) (l : List (PosReport × Nat)) :
      l.foldl (fun q x => q.takePosition c a x.2 x.1) q = q := by
    induction l with
    | nil => rfl
    | cons x l ih =>
      have skip : q.takePosition c a x.2 x.1 = q := by
        unfold Part.takePosition
        rw [slots]
      rw [List.foldl_cons, skip, ih]
  have answer := Part.pollAnswer_running good line running rs
  rw [heard] at answer
  have taken := answer.trans (none' _ (fun x => by cases c <;> exact bare x) rs.zipIdx)
  refine State.relights taken ?_ low high (fun k => List.mem_singleton)
  cases c <;> exact quiet

end Modules

end One

/-! ## Misses and answers of a LAMP command -/

/-- A miss of a SILENT module that is not its seventh is counted (R156). -/
theorem Part.chargeMiss_silent {p : Part} {c : Chan} {a : Nat} {m : ModEntry} (hm : Table.look (p.chan c).modules a = some m)
    (silent : m.state = .silent) (few : m.misses < 6) : p.chargeMiss c a = p.onChan c (fun ch => { ch with
      misses := satUp ch.misses, modules := Table.modify ch.modules a (fun m => { m with misses := m.misses + 1 }) }) := by
  have entry : Table.look ((p.countMiss c).chan c).modules a = some m := by cases c <;> exact hm
  unfold Part.chargeMiss
  dsimp only
  rw [entry]
  dsimp only
  rw [silent]
  dsimp only
  rw [if_neg (show ¬ Config.missesDown ≤ m.misses + 1 from (by show ¬ 7 ≤ m.misses + 1; omega))]
  cases c <;> rfl

/-- A good answer to a LAMP command leaves the image as sent. -/
theorem State.lampAnswers {s : State} {c : Chan} {a : Nat} {ls : List Lamp} {y : Reply}
    (line : (s.part.chan c).onLine = some (.queued (.lamp a ls))) (active : (s.part.chan c).modState a = .active) (good : GoodReply y a) :
    s.Becomes (exec (.lampAnswer ⟨c, y⟩) s) (s.part.heard c a (fun m => { m with misses := 0 })) := by
  have state : ((s.part.lineFree c).chan c).modState a = .active := by cases c <;> exact active
  refine State.becomes_of_eq (q := s.part.lampAnswer c y) ?_
  unfold Part.lampAnswer
  rw [line]
  dsimp only
  rw [Part.judged_good _ _ _ _ _ good]
  unfold Part.goodAnswer
  rw [state]
  exact Part.heard_modules _ _ _ _

/-! ## The statement -/

/-- Settles O52: the requests of the lamp driver, the phases of its test, a LAMP command on the line, and the lamps worked out at the
end of a step, of the modules touched. -/
theorem lampCommandsAct : Obligations.LampCommandsAct := by
  refine ⟨fun s f rest tag room => ⟨fun hasks hpay => ?on, fun hasks _ => ?off, fun hasks _ => ?test,
      fun c a hasks hpay low high => ?release⟩,
    fun s col t test due => by cases col <;> exact State.testPhases test due,
    fun s c a ls => ⟨fun h kept => ⟨State.sends_lamp h kept, State.sends_lamp_more h kept⟩, fun y => State.lampAnswers⟩,
    fun p c a low high => ⟨Part.lampRun_relit low high, Part.lampRun_lit low high, fun apart => ?keeps⟩,
    fun s f rest tag room quiet => ⟨fun hasks _ => State.test_allLit room hasks, State.blankOn_allLit room,
      fun hasks _ => State.blankOff_allLit room hasks, fun on => State.policy_allLit room,
      fun i g e hasks hlow hhigh he rising ok standard low high pos group differs =>
        State.regroup_relights quiet room hasks hlow hhigh he rising ok standard low high pos group differs,
      fun c a ls => State.release_relights quiet room,
      fun t h n k => State.hold_relights quiet room⟩,
    fun s n r quiet hrow low high => ⟨fun e => State.guide_relights quiet hrow low high,
      fun st t h k => State.removal_relights quiet hrow low high⟩,
    fun s c a m quiet low high held hm => ⟨fun ls line => ⟨fun active => ?active, fun silent few => ?silent⟩,
      fun ack y rs line => State.found_relights quiet low high hm line⟩⟩
  case on =>
    have owner : (s.part.asked f rest).doBlankOn f = ((s.part.asked f rest).setBlank true).lampAnswered := by
      unfold Part.doBlankOn
      rw [hpay, show parseNum 1 [tag, 0#8] = some 0 from parseNum_payload tag 1 0 (by decide)]
      rfl
    exact State.lampControls Part.doBlankOn hasks owner (Part.setBlank_touch _ _) room rfl
  case off => exact State.lampControls Part.doBlankOff hasks rfl (Part.setBlank_touch _ _) room rfl
  case test =>
    exact State.lampControls Part.doLampTest (q := { s.part.asked f rest with
      lmp := { (s.part.asked f rest).lmp with test := some (.red, s.part.mono + 4000) } }) hasks rfl ⟨allModules, rfl⟩ room rfl
  case release =>
    exact State.replies Part.doLampRelease hasks (Part.doLampRelease_eq (p := s.part.asked f rest) hpay low high)
      (Part.touch_unlit _ _) room
  case keeps =>
    obtain ⟨waiting, behind⟩ := Part.lampRun_keeps apart
    exact ⟨waiting, behind⟩
  case active =>
    refine State.missed_relights quiet low high hm held line (Part.chargeMiss_active ?_)
    have free : ((s.part.lineFree c).chan c).modules = (s.part.chan c).modules := by cases c <;> rfl
    unfold Channel.modState
    rw [free, hm]
    exact active
  case silent =>
    refine State.missed_relights quiet low high hm held line (Part.chargeMiss_silent (m := m) ?_ silent few)
    cases c <;> exact hm

end Sys2Proof.Machine
end

section
/-! PROOFS. The end of the enumeration of STARTING: the modules still ABSENT are lost (R152, R157). -/

namespace Sys2Proof.Machine
open Sys2Proof

/-! ## What only alerts and reports -/

/-- A step of the alerts and the link, which reads nothing else but the clock, the zone and the policy. -/
structure Part.Alarm (f : Part → Part) : Prop where
  graft : ∀ p o : Part, f (p.graft o) = (f p).graft o
  restA : ∀ p : Part, (f p).restA = p.restA

theorem Part.Alarm.raise (k : AlertKind) (s : Subject) (d : Option Detail) : Part.Alarm (·.raise k s d) :=
  ⟨fun p o => p.raise_graft o k s d, fun p => p.raise_restA k s d⟩

theorem Part.Alarm.remove (k : AlertKind) (s : Subject) : Part.Alarm (·.remove k s) :=
  ⟨fun p o => p.remove_graft o k s, fun p => p.remove_restA k s⟩

theorem Part.Alarm.offerOrd (r : Report) : Part.Alarm (·.offerOrd r) := ⟨fun p o => p.offerOrd_graft o r, fun p => p.offerOrd_restA r⟩

theorem Part.Alarm.queued (r : Report) : Part.Alarm (·.queued r) := ⟨fun _ _ => rfl, fun _ => rfl⟩

theorem Part.Alarm.comp {f g : Part → Part} (hf : Part.Alarm f) (hg : Part.Alarm g) : Part.Alarm (fun p => g (f p)) :=
  ⟨fun p o => by rw [hf.graft, hg.graft], fun p => by rw [hg.restA, hf.restA]⟩

/-- It may come before or after a step that neither reads nor writes what an alarm does. -/
theorem Part.Alarm.comm {f g : Part → Part} (hf : Part.Alarm f) (hg : ∀ p o : Part, g (p.graft o) = p.graft (g o)) (p : Part) :
    f (g p) = g (f p) :=
  calc f (g p) = f (p.graft (g p)) := by rw [← hg p p]; rfl
    _ = (f p).graft (g p) := hf.graft _ _
    _ = g ((f p).graft p) := (hg _ _).symm
    _ = g (f p) := by rw [← Part.eq_graft_of_restA (hf.restA p)]

theorem Part.Alarm.unlit {f : Part → Part} (hf : Part.Alarm f) (p : Part) : (f p).unlit = f p.unlit :=
  (hf.comm (g := Part.unlit) (fun _ _ => rfl) p).symm

theorem Part.onChan_graft (c : Chan) (f : Channel → Channel) (p o : Part) : (p.graft o).onChan c f = p.graft (o.onChan c f) := by
  cases c <;> rfl

/-! ## A table with unique indexes -/

section Unique
variable {α : Type} {t : Table α}

theorem Table.modify_keys (t : Table α) (i : Nat) (f : α → α) : (Table.modify t i f).map (·.1) = t.map (·.1) := by
  induction t with
  | nil => rfl
  | cons e t ih =>
    unfold Table.modify
    split
    · rfl
    · rw [List.map_cons, ih, List.map_cons]

theorem Table.rising_keys {β : Type} {u : Table β} (h : u.map (·.1) = t.map (·.1)) : Table.rising u = true ↔ Table.rising t = true := by
  have keys {γ : Type} (v : Table γ) : Table.rising v = true ↔ (v.map (·.1)).Pairwise (· < ·) := by
    rw [Table.rising_iff, List.pairwise_map]
  rw [keys, keys, h]

theorem Table.map_keys {f : Nat × α → Nat × α} (h : ∀ e, (f e).1 = e.1) (t : Table α) : (t.map f).map (·.1) = t.map (·.1) := by
  rw [List.map_map]
  exact List.map_congr_left fun e _ => h e

theorem Table.modify_map (rising : Table.rising t = true) (i : Nat) (f : α → α) :
    Table.modify t i f = t.map (fun e => if e.1 = i then (e.1, f e.2) else e) := by
  have pairs := (Table.rising_iff t).mp rising
  clear rising
  induction t with
  | nil => rfl
  | cons e t ih =>
    obtain ⟨above, pairs⟩ := List.pairwise_cons.mp pairs
    unfold Table.modify
    rw [List.map_cons]
    split
    · next is =>
      have rest : t.map (fun e => if e.1 = i then (e.1, f e.2) else e) = t := by
        refine (List.map_congr_left fun x hx => ?_).trans (List.map_id _)
        exact if_neg fun same => Nat.lt_irrefl i (by have := above x hx; omega)
      rw [rest]
    · rw [ih pairs]

theorem Table.del_eq (t : Table α) (i : Nat) : Table.del t i = t.filter (fun e => e.1 != i) := by
  induction t with
  | nil => rfl
  | cons e t ih =>
    unfold Table.del
    rw [List.filter_cons, ih]
    by_cases h : e.1 = i <;> simp [h]

end Unique

/-! ## The loss of a module in STARTING (R152, R157) -/

/-- A row that is UNKNOWN keeps its guide. -/
def SlotRow.dark (r : SlotRow) : SlotRow := { r with occ := none, lock := none, settle := none, ctx := none }

/-- The losses of modules l in the record of their channel. -/
def Channel.unseen (ch : Channel) (mono : Nat) (l : List Nat) : Channel := { ch with
  queue := ch.queue.filter (fun b => !l.contains b.addr)
  nextIdent := if l = [] then ch.nextIdent else some (ch.nextIdent.getD (mono + 30000))
  modules := ch.modules.map (fun e => if e.1 ∈ l then (e.1, { e.2 with state := .absent, reprobe := some (mono + 10000) }) else e) }

/-- The losses of modules l of channel c, but for what they raise and report. -/
def Part.unseen (p : Part) (c : Chan) (l : List Nat) : Part :=
  Part.onChan { p with
    rows := p.rows.map (fun e => if e.1 ∈ l.flatMap (p.moduleSlots c) then (e.1, e.2.dark) else e)
    lmp := { p.lmp with images := p.lmp.images.filter (fun e => !(l.map (lampKey c)).contains e.1) } } c (·.unseen p.mono l)

/-- What the loss of one module raises and reports. -/
def Part.bewails (c : Chan) (p : Part) (a : Nat) : Part :=
  (p.raise .moduleDown (.module c a) none).offerOrd ⟨.moduleEvent, 255, beBytes 1 c.code ++ beBytes 1 a ++ [0#8]⟩

theorem Part.Alarm.bewails (c : Chan) (a : Nat) : Part.Alarm (Part.bewails c · a) :=
  (Part.Alarm.raise .moduleDown (.module c a) none).comp (.offerOrd _)

theorem Part.unseen_graft (c : Chan) (l : List Nat) (p o : Part) : (p.graft o).unseen c l = p.graft (o.unseen c l) := by
  cases c <;> rfl

/-- What StartsAlone asks, of modules l. -/
structure Part.LostAlone (p : Part) (c : Chan) (l : List Nat) : Prop where
  modules : Table.rising (p.chan c).modules = true
  rows : Table.rising p.rows = true
  ctxs : ∀ e ∈ p.ctxs, ∀ n, e.2.slot = some n → n ∉ l.flatMap (p.moduleSlots c)
  queue : ∀ b ∈ (p.chan c).queue, b.addr ∈ l → b.isReadTags = false ∧ b.isFrame = false
  census : ∀ a, p.cen.pos ≠ some (c, a)

theorem Part.startsAlone_iff (p : Part) (c : Chan) : p.StartsAlone c ↔ p.LostAlone c (p.absent c) :=
  ⟨fun ⟨h1, h2, h3, h4, h5⟩ => ⟨h1, h2, h3, h4, h5⟩, fun ⟨h1, h2, h3, h4, h5⟩ => ⟨h1, h2, h3, h4, h5⟩⟩

section Alone
variable {p q : Part} {c : Chan} {a : Nat} {l : List Nat}

/-- It goes by the part without its lamps. -/
theorem Part.LostAlone.of_unlit (same : q.unlit = p.unlit) (h : p.LostAlone c l) : q.LostAlone c l := by
  have slots : q.slotMap = p.slotMap := (congrArg Part.slotMap same :)
  have ctxs : q.ctxs = p.ctxs := (congrArg Part.ctxs same :)
  have modules : (q.chan c).modules = (p.chan c).modules := by
    cases c
    · exact (congrArg (·.chanA.modules) same :)
    · exact (congrArg (·.chanB.modules) same :)
  have lists : q.moduleSlots c = p.moduleSlots c := by
    unfold Part.moduleSlots
    rw [slots]
  refine ⟨modules ▸ h.modules, (congrArg Part.rows same :) ▸ h.rows, fun e he n hn => ?_, fun b hb ha => ?_, fun a => ?_⟩
  · rw [lists]
    exact h.ctxs e (ctxs ▸ he) n hn
  · cases lamp : b.isLampAny with
    | true => cases b <;> first | exact ⟨rfl, rfl⟩ | cases lamp
    | false =>
      have kept : b ∈ (q.chan c).queue.filter (fun x => !x.isLampAny) := List.mem_filter.mpr ⟨hb, by rw [lamp]; rfl⟩
      rw [Part.queue_of_unlit same c] at kept
      exact h.queue b (List.mem_filter.mp kept).1 ha
  · rw [Part.cen_of_unlit same]
    exact h.census a

theorem Part.LostAlone.of_restA (same : q.restA = p.restA) (h : p.LostAlone c l) : q.LostAlone c l := by
  rw [Part.eq_graft_of_restA same]
  cases c <;> exact ⟨h.modules, h.rows, h.ctxs, h.queue, h.census⟩

theorem Part.LostAlone.unseen (h : p.LostAlone c l) (l' : List Nat) : (p.unseen c l').LostAlone c l := by
  have chan : (p.unseen c l').chan c = _ := Part.onChan_chan_self _ _ _
  have rows : (p.unseen c l').rows = p.rows.map (fun e => if e.1 ∈ l'.flatMap (p.moduleSlots c) then (e.1, e.2.dark) else e) := by
    cases c <;> rfl
  refine ⟨?_, ?_, ?_, ?_, ?_⟩
  · rw [chan]
    refine (Table.rising_keys (Table.map_keys (fun e => ?_) _)).mpr (by cases c <;> exact h.modules)
    split <;> rfl
  · rw [rows]
    refine (Table.rising_keys (Table.map_keys (fun e => ?_) _)).mpr h.rows
    split <;> rfl
  · cases c <;> exact h.ctxs
  · rw [chan]
    intro b hb
    refine h.queue b ?_
    cases c <;> exact (List.mem_filter.mp hb).1
  · cases c <;> exact h.census

theorem Part.LostAlone.mono (h : p.LostAlone c (a :: l)) : p.LostAlone c l :=
  ⟨h.modules, h.rows, fun e he n hn hm => h.ctxs e he n hn (by rw [List.flatMap_cons]; exact List.mem_append_right _ hm),
    fun b hb ha => h.queue b hb (List.mem_cons_of_mem _ ha), h.census⟩

theorem Part.LostAlone.head (h : p.LostAlone c (a :: l)) : p.LostAlone c [a] :=
  ⟨h.modules, h.rows, fun e he n hn hm => h.ctxs e he n hn (by rw [List.flatMap_cons] at hm ⊢; exact List.mem_append_left _ (by simpa using hm)),
    fun b hb ha => h.queue b hb (List.mem_singleton.mp ha ▸ List.mem_cons_self ..), h.census⟩

/-- No context is bound there: none is ended. -/
theorem Part.ctxsLost_apart {slots : List Nat} (h : ∀ e ∈ p.ctxs, ∀ n, e.2.slot = some n → n ∉ slots) : p.ctxsLost slots = p := by
  have skip (i : Nat) : ((Table.look p.ctxs i).bind (·.slot)).any (fun s => slots.contains s) = false := by
    cases look : Table.look p.ctxs i with
    | none => rfl
    | some x =>
      cases slot : x.slot with
      | none => simp [slot]
      | some n =>
        have apart := h (i, x) (Table.mem_of_look look) n slot
        simp [slot, apart]
  have fold (l : List Nat) : l.foldl (fun q i =>
      if ((Table.look q.ctxs i).bind (·.slot)).any (fun s => slots.contains s) then q.ctxEnd i .channelReset else q) p = p := by
    induction l with
    | nil => rfl
    | cons i l ih => rw [List.foldl_cons, skip i, if_neg Bool.false_ne_true, ih]
  exact fold _

theorem Part.rowsUnknown_map {slots : List Nat} (rising : Table.rising p.rows = true) : ∃ ks,
    p.rowsUnknown slots = ({ p with
      rows := p.rows.map (fun e => if e.1 ∈ slots then (e.1, e.2.dark) else e) } : Part).touch ks := by
  unfold Part.rowsUnknown
  induction slots generalizing p with
  | nil =>
    refine ⟨[], ?_⟩
    unfold Part.touch
    simp
  | cons s slots ih =>
    have first : (p.onRow s SlotRow.dark).touchSlot s = ({ p with
        rows := p.rows.map (fun e => if e.1 = s then (e.1, e.2.dark) else e) } : Part).touch
          [lampKey (p.slotEntry s).chan (p.slotEntry s).addr] := by
      unfold Part.onRow
      rw [Table.modify_map rising]
      rfl
    have rising' : Table.rising (({ p with
        rows := p.rows.map (fun e => if e.1 = s then (e.1, e.2.dark) else e) } : Part).touch
          [lampKey (p.slotEntry s).chan (p.slotEntry s).addr]).rows = true :=
      (Table.rising_keys (Table.map_keys (fun e => by split <;> rfl) _)).mpr rising
    obtain ⟨ks, rest⟩ := ih rising'
    refine ⟨[lampKey (p.slotEntry s).chan (p.slotEntry s).addr] ++ ks, ?_⟩
    rw [List.foldl_cons]
    refine (congrArg (slots.foldl _) first).trans (rest.trans ?_)
    have both : (p.rows.map (fun e => if e.1 = s then (e.1, e.2.dark) else e)).map (fun e => if e.1 ∈ slots then (e.1, e.2.dark) else e)
        = p.rows.map (fun e => if e.1 ∈ s :: slots then (e.1, e.2.dark) else e) := by
      rw [List.map_map]
      refine List.map_congr_left fun e _ => ?_
      by_cases h1 : e.1 = s <;> by_cases h2 : e.1 ∈ slots <;> simp [h1, h2, SlotRow.dark]
    exact (congrArg (fun rows => (({ p with rows := rows } : Part).touch [lampKey (p.slotEntry s).chan (p.slotEntry s).addr]).touch ks)
      both).trans (Part.touch_touch _ _ _)

end Alone

/-! ## One loss, and the losses one by one -/

theorem eq_of_three {α β γ δ : Type} (f : α → β → γ → δ) {x x' : α} {y y' : β} {z z' : γ} (hx : x = x') (hy : y = y') (hz : z = z') :
    f x y z = f x' y' z' := by rw [hx, hy, hz]

section Losses
variable {p : Part} {c : Chan} {a : Nat} {l : List Nat}

theorem Part.lampLost_unlit (p : Part) (c : Chan) (a : Nat) : (p.lampLost c a).unlit
    = ({ p with lmp := { p.lmp with images := p.lmp.images.filter (fun e => !(([a].map (lampKey c)).contains e.1)) } } : Part).unlit := by
  have images : Table.del p.lmp.images (lampKey c a) = p.lmp.images.filter (fun e => !(([a].map (lampKey c)).contains e.1)) := by
    rw [Table.del_eq]
    refine List.filter_congr fun e _ => ?_
    simp [bne, Bool.beq_eq_decide_eq]
  unfold Part.lampLost
  rw [Part.onChan_unlit _ _ _ (fun ch => Channel.withdraw_lamp_unlit ch a), Part.clearBehind_unlit, ← images]
  rfl

/-- With no READ_TAGS and no passed frame among them, no owner of a command withdrawn is told anything. -/
theorem Part.tellLoss_none {gone : List BusCmd} (h : ∀ b ∈ gone, b.isReadTags = false ∧ b.isFrame = false) (p : Part) :
    gone.foldl (fun q b => q.tellLoss c b) p = p := by
  induction gone with
  | nil => rfl
  | cons b gone ih =>
    have skip : p.tellLoss c b = p := by
      obtain ⟨read, frame⟩ := h b (List.mem_cons_self ..)
      cases b with
      | readTags x => cases read
      | passed x cls d e => cases frame
      | _ => rfl
    rw [List.foldl_cons, skip]
    exact ih fun x hx => h x (List.mem_cons_of_mem _ hx)

theorem Part.deferredLost_away (h : p.cen.pos ≠ some (c, a)) : p.deferredLost c a = p := by
  unfold Part.deferredLost
  rw [if_neg]
  rw [Bool.and_eq_true, beq_iff_eq]
  exact fun both => h both.2

theorem Part.unseen_unlit (p : Part) (c : Chan) (l : List Nat) : (p.unseen c l).unlit = p.unlit.unseen c l := by
  have channel (ch : Channel) : (ch.unseen p.mono l).unlit = ch.unlit.unseen p.mono l := by
    have queue : (ch.queue.filter (fun b => !l.contains b.addr)).filter (fun b => !b.isLampAny)
        = (ch.queue.filter (fun b => !b.isLampAny)).filter (fun b => !l.contains b.addr) := by
      rw [List.filter_filter, List.filter_filter]
      exact List.filter_congr fun b _ => Bool.and_comm _ _
    exact congrArg (fun x => { ch.unseen p.mono l with queue := x }) queue
  cases c
  · exact congrArg (fun x => { p.unlit.unseen .A l with chanA := x }) (channel p.chanA)
  · exact congrArg (fun x => { p.unlit.unseen .B l with chanB := x }) (channel p.chanB)

/-- The channel of a module that is lost: its commands withdrawn, an identification pass to come, the entry. -/
def Channel.loses (ch : Channel) (mono a : Nat) (st : ModState) : Channel := { ch with
  queue := ch.queue.filter (fun b => !(b.addr == a)), nextIdent := some (ch.nextIdent.getD (mono + 30000))
  modules := Table.modify ch.modules a (fun m => { m with state := st, reprobe := some (mono + 10000) }) }

theorem Channel.loses_absent {ch : Channel} (rising : Table.rising ch.modules = true) (mono a : Nat) :
    ch.loses mono a .absent = ch.unseen mono [a] := by
  have modules : Table.modify ch.modules a (fun m => { m with state := .absent, reprobe := some (mono + 10000) })
      = ch.modules.map (fun e => if e.1 ∈ [a] then (e.1, { e.2 with state := .absent, reprobe := some (mono + 10000) }) else e) := by
    rw [Table.modify_map rising]
    simp only [List.mem_singleton]
  have queue : ch.queue.filter (fun b => !(b.addr == a)) = ch.queue.filter (fun b => !([a].contains b.addr)) := by
    refine List.filter_congr fun b _ => ?_
    simp [Bool.beq_eq_decide_eq]
  unfold Channel.loses Channel.unseen
  rw [modules, queue, if_neg (List.cons_ne_nil a [])]

/-- What a loss does first to its channel. -/
theorem Part.loses_steps (p : Part) (c : Chan) (a : Nat) (st : ModState) :
    (p.onModule c a (fun m => { m with state := st, reprobe := some (p.mono + Config.reprobeTime) })).onChan c
      (fun ch => { ch.withdraw (fun b => b.addr == a) with
        nextIdent := some (ch.nextIdent.getD (p.mono + Config.identTime)) }) = p.onChan c (·.loses p.mono a st) := by
  cases c <;> rfl

/-- The loss of a module, but for what it raises and reports, up to the end of the contexts. -/
def Part.losing (p : Part) (c : Chan) (a : Nat) (st : ModState) : Part :=
  (p.onChan c (·.loses p.mono a st)).rowsUnknown (p.moduleSlots c a)

/-- What a lost module does after its contexts have ended; gone are the commands withdrawn. -/
def Part.lossTold (p : Part) (c : Chan) (a : Nat) (st : ModState) (gone : List BusCmd) : Part :=
  (((gone.foldl (fun q b => q.tellLoss c b) (p.lampLost c a)).deferredLost c a).raise .moduleDown (.module c a) none).offerOrd
    (moduleEvent c a st)

theorem Part.moduleLost_eq (p : Part) (c : Chan) (a : Nat) (st : ModState) : p.moduleLost c a st
    = ((p.losing c a st).ctxsLost (p.moduleSlots c a)).lossTold c a st ((p.chan c).queue.filter (fun b => b.addr == a)) := by
  unfold Part.losing
  rw [← Part.loses_steps]
  rfl

/-- The loss of one module that no context, waiting request or census is at. -/
theorem Part.moduleLost_alone (h : p.LostAlone c [a]) :
    (p.moduleLost c a .absent).unlit = (p.unlit.unseen c [a]).bewails c a := by
  have slots : [a].flatMap (p.moduleSlots c) = p.moduleSlots c a := List.append_nil _
  have rows : (p.onChan c (·.loses p.mono a .absent)).rows = p.rows := by cases c <;> rfl
  obtain ⟨ks, dark⟩ := Part.rowsUnknown_map (p := p.onChan c (·.loses p.mono a .absent)) (slots := p.moduleSlots c a)
    (by rw [rows]; exact h.rows)
  have losing : p.losing c a .absent = (({ p with
      rows := p.rows.map (fun e => if e.1 ∈ p.moduleSlots c a then (e.1, e.2.dark) else e) } : Part).onChan c
        (·.loses p.mono a .absent)).touch ks := by
    refine dark.trans (congrArg (Part.touch · ks) ?_)
    rw [rows]
    cases c <;> rfl
  have apart : (p.losing c a .absent).ctxsLost (p.moduleSlots c a) = p.losing c a .absent := by
    refine Part.ctxsLost_apart fun e he n hn => ?_
    have ctxs : (p.losing c a .absent).ctxs = p.ctxs := by rw [losing]; cases c <;> rfl
    exact slots ▸ h.ctxs e (ctxs ▸ he) n hn
  have quiet (x : Part) : ((p.chan c).queue.filter (fun b => b.addr == a)).foldl (fun q b => q.tellLoss c b) x = x :=
    Part.tellLoss_none (fun b hb => h.queue b (List.mem_filter.mp hb).1 (List.mem_singleton.mpr (eq_of_beq (List.mem_filter.mp hb).2))) x
  have away : ((p.losing c a .absent).lampLost c a).deferredLost c a = (p.losing c a .absent).lampLost c a := by
    refine Part.deferredLost_away ?_
    have cen : (p.losing c a .absent).cen = p.cen := by rw [losing]; cases c <;> rfl
    rw [(Part.cen_of_unlit (Part.lampLost_unlit (p.losing c a .absent) c a)).trans cen]
    exact h.census a
  have lost : p.moduleLost c a .absent = ((p.losing c a .absent).lampLost c a).bewails c a := by
    rw [Part.moduleLost_eq, apart]
    unfold Part.lossTold
    rw [quiet, away]
    rfl
  have chan : (p.chan c).loses p.mono a .absent = (p.chan c).unseen p.mono [a] := Channel.loses_absent h.modules _ _
  have unseen : p.unseen c [a] = ({ p with
      rows := p.rows.map (fun e => if e.1 ∈ p.moduleSlots c a then (e.1, e.2.dark) else e)
      lmp := { p.lmp with images := p.lmp.images.filter (fun e => !([a].map (lampKey c)).contains e.1) } } : Part).onChan c
        (·.loses p.mono a .absent) := by
    unfold Part.unseen
    rw [slots]
    refine (Part.onChan_congr ?_).symm
    cases c <;> exact chan
  rw [lost, (Part.Alarm.bewails c a).unlit, Part.lampLost_unlit, losing, ← Part.unseen_unlit, unseen]
  refine congrArg (Part.bewails c · a) ?_
  cases c <;> rfl

theorem Channel.unseen_cons (ch : Channel) (mono a : Nat) (l : List Nat) :
    (ch.unseen mono [a]).unseen mono l = ch.unseen mono (a :: l) := by
  have queue : (ch.queue.filter (fun b => !([a].contains b.addr))).filter (fun b => !l.contains b.addr)
      = ch.queue.filter (fun b => !(a :: l).contains b.addr) := by
    rw [List.filter_filter]
    refine List.filter_congr fun b _ => ?_
    rw [List.contains_cons, List.contains_cons]
    cases b.addr == a <;> simp
  have ident : (if l = [] then some (ch.nextIdent.getD (mono + 30000))
      else some ((some (ch.nextIdent.getD (mono + 30000))).getD (mono + 30000))) = some (ch.nextIdent.getD (mono + 30000)) := by
    split <;> rfl
  have modules : (ch.modules.map (fun e =>
      if e.1 ∈ [a] then (e.1, { e.2 with state := .absent, reprobe := some (mono + 10000) }) else e)).map (fun e =>
      if e.1 ∈ l then (e.1, { e.2 with state := .absent, reprobe := some (mono + 10000) }) else e)
      = ch.modules.map (fun e =>
        if e.1 ∈ a :: l then (e.1, { e.2 with state := .absent, reprobe := some (mono + 10000) }) else e) := by
    rw [List.map_map]
    refine List.map_congr_left fun e _ => ?_
    by_cases h1 : e.1 = a <;> by_cases h2 : e.1 ∈ l <;> simp [h1, h2]
  exact eq_of_three (fun x y z => ({ ch with queue := x, nextIdent := y, modules := z } : Channel)) queue ident modules

/-- Losses one after the other are the losses of all. -/
theorem Part.unseen_cons (p : Part) (c : Chan) (a : Nat) (l : List Nat) : (p.unseen c [a]).unseen c l = p.unseen c (a :: l) := by
  have rows : (p.rows.map (fun e => if e.1 ∈ [a].flatMap (p.moduleSlots c) then (e.1, e.2.dark) else e)).map
      (fun e => if e.1 ∈ l.flatMap (p.moduleSlots c) then (e.1, e.2.dark) else e)
      = p.rows.map (fun e => if e.1 ∈ (a :: l).flatMap (p.moduleSlots c) then (e.1, e.2.dark) else e) := by
    rw [List.map_map]
    refine List.map_congr_left fun e _ => ?_
    rw [List.flatMap_cons, List.flatMap_cons, List.flatMap_nil, List.append_nil]
    by_cases h1 : e.1 ∈ p.moduleSlots c a <;> by_cases h2 : e.1 ∈ l.flatMap (p.moduleSlots c) <;>
      simp only [Function.comp_apply, List.mem_append, h1, h2, if_true, if_false, or_true, or_false] <;> rfl
  have images : (p.lmp.images.filter (fun e => !(([a].map (lampKey c)).contains e.1))).filter
      (fun e => !((l.map (lampKey c)).contains e.1)) = p.lmp.images.filter (fun e => !(((a :: l).map (lampKey c)).contains e.1)) := by
    rw [List.filter_filter]
    refine List.filter_congr fun e _ => ?_
    rw [List.map_cons, List.map_cons, List.contains_cons, List.contains_cons]
    cases e.1 == lampKey c a <;> simp
  cases c
  · exact eq_of_three (fun x y z => ({ p with rows := x, lmp := { p.lmp with images := y }, chanA := z } : Part)) rows images
      (p.chanA.unseen_cons p.mono a l)
  · exact eq_of_three (fun x y z => ({ p with rows := x, lmp := { p.lmp with images := y }, chanB := z } : Part)) rows images
      (p.chanB.unseen_cons p.mono a l)

theorem Part.unseen_nil (p : Part) (c : Chan) : p.unseen c [] = p := by
  have rows : p.rows.map (fun e => if e.1 ∈ [].flatMap (p.moduleSlots c) then (e.1, e.2.dark) else e) = p.rows := by simp
  have images : p.lmp.images.filter (fun e => !(([].map (lampKey c)).contains e.1)) = p.lmp.images := by simp
  have channel (ch : Channel) : ch.unseen p.mono [] = ch := by
    have queue : ch.queue.filter (fun b => !([] : List Nat).contains b.addr) = ch.queue := by simp
    have modules : ch.modules.map (fun e =>
      if e.1 ∈ ([] : List Nat) then (e.1, { e.2 with state := .absent, reprobe := some (p.mono + 10000) }) else e) = ch.modules := by
      simp
    exact congrArg₂ (fun x y => ({ ch with queue := x, modules := y } : Channel)) queue modules
  cases c
  · exact eq_of_three (fun x y z => ({ p with rows := x, lmp := { p.lmp with images := y }, chanA := z } : Part)) rows images
      (channel p.chanA)
  · exact eq_of_three (fun x y z => ({ p with rows := x, lmp := { p.lmp with images := y }, chanB := z } : Part)) rows images
      (channel p.chanB)

/-- The losses of modules one by one: all at once, then what they raise and report. -/
theorem Part.moduleLost_all (h : p.LostAlone c l) : (l.foldl (fun q a => q.moduleLost c a .absent) p).unlit
    = l.foldl (Part.bewails c) (p.unlit.unseen c l) := by
  induction l generalizing p with
  | nil => exact (Part.unseen_nil _ _).symm
  | cons a l ih =>
    have first := Part.moduleLost_alone h.head
    have swap (x : Part) : (x.bewails c a).unseen c l = (x.unseen c l).bewails c a :=
      ((Part.Alarm.bewails c a).comm (g := fun p => p.unseen c l) (Part.unseen_graft c l) x).symm
    have rest : (p.moduleLost c a .absent).LostAlone c l := by
      have same : (p.moduleLost c a .absent).unlit = ((p.unseen c [a]).bewails c a).unlit := by
        rw [first, (Part.Alarm.bewails c a).unlit, Part.unseen_unlit]
      exact ((h.mono.unseen [a]).of_restA ((Part.Alarm.bewails c a).restA _)).of_unlit same
    rw [List.foldl_cons, ih rest, first, swap, Part.unseen_cons, List.foldl_cons]

end Losses

/-! ## The end of the rounds (R152) -/

section Ends
variable {p : Part} {c : Chan}

/-- The first poll follows, or RUNNING at once. -/
def Channel.begins (ch : Channel) (starts : Bool) (absent : List Nat) (mono : Nat) : Channel := { ch with
  state := if starts then .starting .firstPoll else .running
  lastPolled := 0, kept := [], nextIdent := if absent = [] then ch.nextIdent else some (mono + 30000) }

/-- The addresses still ABSENT. -/
abbrev Channel.absent (ch : Channel) : List Nat := (ch.modules.filter (fun e => e.2.state == .absent)).map (·.1)

/-- The channel as the rounds of STARTING end. -/
def Channel.goesOn (ch : Channel) (mono : Nat) : Channel :=
  (ch.unseen mono ch.absent).begins ((List.range 30).any (fun i => ch.modState (i + 1) == .active)) ch.absent mono

/-- The entries still ABSENT are those whose addresses are. -/
theorem Channel.absent_modules {ch : Channel} (rising : Table.rising ch.modules = true) (mono : Nat) :
    ch.modules.map (fun e => if e.2.state = .absent then (e.1, { e.2 with reprobe := some (mono + 10000) }) else e)
      = (ch.unseen mono ch.absent).modules := by
  refine List.map_congr_left fun e he => ?_
  by_cases absent : e.2.state = .absent
  · have listed : e.1 ∈ ch.absent :=
      List.mem_map.mpr ⟨e, List.mem_filter.mpr ⟨he, beq_iff_eq.mpr absent⟩, rfl⟩
    rw [if_pos absent, if_pos listed]
    exact congrArg (fun st => (e.1, { e.2 with state := st, reprobe := some (mono + 10000) })) absent
  · have other : e.1 ∉ ch.absent := by
      intro listed
      obtain ⟨x, hx, same⟩ := List.mem_map.mp listed
      obtain ⟨hx, is⟩ := List.mem_filter.mp hx
      have look := Table.look_of_mem rising (i := x.1) (v := x.2) hx
      rw [same, Table.look_of_mem rising (i := e.1) (v := e.2) he] at look
      rw [Option.some.inj look] at absent
      exact absent (beq_iff_eq.mp is)
    rw [if_neg absent, if_neg other]

theorem Part.enumerated_eq (rising : Table.rising (p.chan c).modules = true) :
    p.enumerated c = (p.absent c).foldl (Part.bewails c) ((p.unseen c (p.absent c)).onChan c (fun _ => (p.chan c).goesOn p.mono)) := by
  have ident : (if p.absent c = [] then ((p.chan c).unseen p.mono (p.absent c)).nextIdent else some (p.mono + 30000))
      = if p.absent c = [] then (p.chan c).nextIdent else some (p.mono + 30000) := by
    split
    · next none => exact if_pos none
    · rfl
  have goes : (p.chan c).goesOn p.mono = { (p.chan c).unseen p.mono (p.absent c) with
      state := if (List.range 30).any (fun i => (p.chan c).modState (i + 1) == .active) then .starting .firstPoll else .running
      lastPolled := 0, kept := [], nextIdent := if p.absent c = [] then (p.chan c).nextIdent else some (p.mono + 30000) } := by
    rw [← ident]
    rfl
  rw [goes]
  unfold Part.enumerated
  dsimp only
  rw [Channel.absent_modules rising]
  cases c <;> rfl

theorem Part.Alarm.foldl {α : Type} {f : Part → α → Part} (h : ∀ a, Part.Alarm (f · a)) (l : List α) : Part.Alarm (l.foldl f ·) := by
  induction l with
  | nil => exact ⟨fun _ _ => rfl, fun _ => rfl⟩
  | cons a l ih => exact (h a).comp ih

theorem Part.onChan_unlit_comm {f : Channel → Channel} (h : ∀ ch, (f ch).unlit = f ch.unlit) (p : Part) (c : Chan) :
    (p.onChan c f).unlit = p.unlit.onChan c f := by
  cases c
  · exact congrArg (fun ch => { p.unlit with chanA := ch }) (h p.chanA)
  · exact congrArg (fun ch => { p.unlit with chanB := ch }) (h p.chanB)

theorem Table.map_look_map {α β : Type} {f : Nat × α → Nat × α} {g : α → β} (keys : ∀ e, (f e).1 = e.1) (same : ∀ e, g (f e).2 = g e.2)
    (t : Table α) (i : Nat) : (Table.look (t.map f) i).map g = (Table.look t i).map g := by
  induction t with
  | nil => rfl
  | cons e t ih =>
    rw [List.map_cons]
    show (if (f e).1 = i then some (f e).2 else Table.look (t.map f) i).map g = (if e.1 = i then some e.2 else Table.look t i).map g
    rw [keys]
    split
    · exact congrArg some (same e)
    · exact ih

/-- A loss in STARTING leaves every module in its state. -/
theorem Channel.unseen_modState {ch : Channel} (rising : Table.rising ch.modules = true) (mono a : Nat) :
    (ch.unseen mono ch.absent).modState a = ch.modState a := by
  have modules := Channel.absent_modules rising mono
  unfold Channel.modState
  rw [← modules]
  refine congrArg (fun o => o.getD ModState.absent) (Table.map_look_map (fun e => ?_) (fun e => ?_) _ _) <;> split <;> rfl

/-- Some module of addresses 1 to 30. -/
theorem addrAfter_any (f : Nat → Bool) : (List.range 30).any (fun i => f (i + 1)) = (addrAfter 0 f).isSome := by
  rw [Bool.eq_iff_iff, List.any_eq_true, Option.isSome_iff_ne_none]
  constructor
  · rintro ⟨i, hi, hf⟩ none
    have small := List.mem_range.mp hi
    exact absurd hf (by rw [addrAfter_none.mp none (i + 1) (by omega) (by omega) (show i + 1 ≤ 30 by omega)]; nofun)
  · intro some
    obtain ⟨a, ha⟩ := Option.ne_none_iff_exists'.mp some
    obtain ⟨-, low, high, hf, -⟩ := addrAfter_some.mp ha
    have high' : a ≤ 30 := high
    exact ⟨a - 1, List.mem_range.mpr (by omega), by rw [Nat.sub_add_cancel low]; exact hf⟩

theorem Part.enumerationEnd_lost {q : Part} (lost : (p.absent c).foldl (fun q a => q.moduleLost c a .absent) p = q) :
    (p.enumerationEnd c).unlit = q.unlit.onChan c
      (·.begins ((List.range 30).any (fun i => (q.chan c).modState (i + 1) == .active)) (p.absent c) p.mono) := by
  have ident (ch : Channel) : (if (p.absent c).isEmpty then ch.nextIdent else some (p.mono + Config.identTime))
      = if p.absent c = [] then ch.nextIdent else some (p.mono + 30000) := by
    cases p.absent c <;> rfl
  have first : q.onChan c (fun ch => { ch with
      state := .starting .firstPoll, lastPolled := 0, kept := []
      nextIdent := if (p.absent c).isEmpty then ch.nextIdent else some (p.mono + Config.identTime) })
      = q.onChan c (·.begins true (p.absent c) p.mono) := by
    simp only [ident]
    rfl
  have run : p.enumerationEnd c = (q.onChan c (·.begins true (p.absent c) p.mono)).firstPollOn c := by
    unfold Part.enumerationEnd
    dsimp only
    rw [lost, first]
  rw [run, addrAfter_any (fun a => (q.chan c).modState a == .active)]
  have modules (starts : Bool) (a : Nat) :
      ((q.onChan c (·.begins starts (p.absent c) p.mono)).chan c).modState a = (q.chan c).modState a := by
    rw [Part.onChan_chan_self]
    rfl
  have state : ((q.onChan c (·.begins true (p.absent c) p.mono)).chan c).state = .starting .firstPoll := by
    rw [Part.onChan_chan_self]
    rfl
  have polled : ((q.onChan c (·.begins true (p.absent c) p.mono)).chan c).lastPolled = 0 := by
    rw [Part.onChan_chan_self]
    rfl
  unfold Part.firstPollOn
  rw [state]
  dsimp only
  simp only [polled, modules]
  cases next : addrAfter 0 (fun a => (q.chan c).modState a == .active) with
  | some a => exact Part.onChan_unlit_comm (f := (·.begins true (p.absent c) p.mono)) (fun _ => rfl) _ _
  | none =>
    have enters : (q.onChan c (·.begins true (p.absent c) p.mono)).enterRunning c
        = (q.onChan c (·.begins false (p.absent c) p.mono)).touch (chanModules c) := by
      have kept : ((q.onChan c (·.begins true (p.absent c) p.mono)).chan c).kept = [] := by
        rw [Part.onChan_chan_self]
        rfl
      unfold Part.enterRunning
      rw [kept]
      cases c <;> rfl
    dsimp only
    rw [enters, Part.touch_unlit]
    exact Part.onChan_unlit_comm (f := (·.begins false (p.absent c) p.mono)) (fun _ => rfl) _ _

/-- The rounds of STARTING end as `Part.enumerated` says, up to the lamps. -/
theorem Part.enumerationEnd_unlit (alone : p.StartsAlone c) : (p.enumerationEnd c).unlit = p.unlit.enumerated c := by
  have lone := (Part.startsAlone_iff p c).mp alone
  have absent : p.unlit.absent c = p.absent c := by cases c <;> rfl
  have rising : Table.rising (p.unlit.chan c).modules = true := by cases c <;> exact lone.modules
  have losses := Part.moduleLost_all lone
  generalize lost : (p.absent c).foldl (fun q a => q.moduleLost c a .absent) p = q at losses
  have bewails : Part.Alarm ((p.absent c).foldl (Part.bewails c) ·) := Part.Alarm.foldl (Part.Alarm.bewails c) _
  have chan : (((p.absent c).foldl (Part.bewails c) (p.unlit.unseen c (p.absent c))).chan c)
      = (p.unlit.chan c).unseen p.mono (p.absent c) := by
    have same := bewails.restA (p.unlit.unseen c (p.absent c))
    cases c
    · exact (congrArg Part.chanA same :)
    · exact (congrArg Part.chanB same :)
  have active (a : Nat) : (q.chan c).modState a = (p.unlit.chan c).modState a := by
    have modules : (q.chan c).modState a = (q.unlit.chan c).modState a := by cases c <;> rfl
    rw [modules, losses, chan]
    exact absent ▸ Channel.unseen_modState rising p.mono a
  simp only [Part.enumerationEnd_lost lost, losses, Part.enumerated_eq rising, absent, active]
  refine (bewails.comm (g := fun p => p.onChan c _) (Part.onChan_graft c _) _).symm.trans ?_
  refine congrArg (List.foldl _ · _) ?_
  cases c <;> rfl

end Ends

end Sys2Proof.Machine
end

section
/-! PROOFS. The rounds of an enumeration and of an identification pass (R148, R152, R153, R154). -/

namespace Sys2Proof.Machine
open Sys2Proof

/-! ## A round (R153) -/

/-- The frames of a round whose serial is given address a. -/
def assignFrames (n a : Nat) : List (List Byte) :=
  [framed [0#8, 0x30#8], framed ([0#8, 0x31#8] ++ beBytes 4 n ++ [BitVec.ofNat 8 a])]

theorem Channel.roundFrames_eq {ch : Channel} {n a : Nat}
    (h : ((ch.map.find? (fun x => x.2.serial == n)).map (·.2.addr)).getD 0 = a) : ch.roundFrames (some n) = assignFrames n a := by
  have frames : ch.roundFrames (some n)
      = [framed [0#8, 0x30#8], (LineCmd.assign n (((ch.map.find? (fun x => x.2.serial == n)).map (·.2.addr)).getD 0)).frame] := rfl
  rw [frames, h]
  rfl

/-- What a serial that is read brings, by its entry of the Module Map. -/
def Part.serialRead (q : Part) (c : Chan) (n : Nat) : Option (Nat × MapEntry) → Part
  | some (_, e) => (q.onModule c e.addr (fun m => { m with ack := false })).onChan c (fun ch => { ch with onLine := some (.assign n e.addr) })
  | none => ((q.onChan c (fun ch => { ch with muted := min 64 (ch.muted + 1), strangers := satUp ch.strangers })).raise
      .stranger (.chan c) (some (.serial n))).roundsCheck c

theorem Part.round_opens {p : Part} {c : Chan} {po : Bool} {r : Nat}
    (begun : (if (p.chan c).state = .running ∧ ¬ (p.chan c).passOn then { (p.chan c) with passOn := true, rounds := 0 } else p.chan c)
      = { (p.chan c) with passOn := po, rounds := r }) :
    p.onChan c (fun ch => if ch.state = .running ∧ ¬ ch.passOn then { ch with passOn := true, rounds := 0 } else ch)
      = p.onChan c (fun ch => { ch with passOn := po, rounds := r }) := Part.onChan_congr begun

section Round
variable {p : Part} {c : Chan} {po : Bool} {r : Nat} (turn : (p.chan c).roundTurn p.mono = true)
  (begun : (if (p.chan c).state = .running ∧ ¬ (p.chan c).passOn then { (p.chan c) with passOn := true, rounds := 0 } else p.chan c)
    = { (p.chan c) with passOn := po, rounds := r })
include turn begun

/-- A round with no answer ends the rounds. -/
theorem Part.round_none : p.round c none
    = (p.onChan c (fun ch => { ch with passOn := po, rounds := r, sent := [framed [0#8, 0x30#8]] })).roundsEnd c := by
  unfold Part.round
  rw [turn, if_neg (by nofun)]
  dsimp only
  refine congrArg (Part.roundsEnd · c) ?_
  cases c
  · exact congrArg (fun ch : Channel => { p with chanA := { ch with sent := [framed [0#8, 0x30#8]] } }) begun
  · exact congrArg (fun ch : Channel => { p with chanB := { ch with sent := [framed [0#8, 0x30#8]] } }) begun

/-- A serial that is read goes by the Module Map. -/
theorem Part.round_serial (n : Nat) : p.round c (some n)
    = (p.onChan c (fun ch => { ch with passOn := po, rounds := r + 1, sent := ch.roundFrames (some n) })).serialRead c n
      ((p.chan c).map.find? (fun x => x.2.serial == n)) := by
  unfold Part.round
  rw [turn, if_neg (by nofun)]
  dsimp only
  rw [Part.round_opens begun]
  cases c <;> rfl

/-- A serial that is mapped is given its address. -/
theorem Part.round_mapped {n i : Nat} {e : MapEntry} (mapped : (p.chan c).map.find? (fun x => x.2.serial == n) = some (i, e)) :
    p.round c (some n) = p.onChan c (fun ch => { ch with
      passOn := po, rounds := r + 1, onLine := some (.assign n e.addr), sent := assignFrames n e.addr
      modules := Table.modify ch.modules e.addr (fun m => { m with ack := false }) }) := by
  have frames : (p.chan c).roundFrames (some n) = assignFrames n e.addr := Channel.roundFrames_eq (by rw [mapped]; rfl)
  rw [Part.round_serial turn begun, mapped]
  cases c
  · exact congrArg (fun fr => { p with chanA := { p.chanA with
      passOn := po, rounds := r + 1, onLine := some (.assign n e.addr), sent := fr
      modules := Table.modify p.chanA.modules e.addr (fun m => { m with ack := false }) } }) frames
  · exact congrArg (fun fr => { p with chanB := { p.chanB with
      passOn := po, rounds := r + 1, onLine := some (.assign n e.addr), sent := fr
      modules := Table.modify p.chanB.modules e.addr (fun m => { m with ack := false }) } }) frames

/-- A serial that is not mapped is muted. -/
theorem Part.round_unmapped {n : Nat} (unmapped : (p.chan c).map.find? (fun x => x.2.serial == n) = none) :
    p.round c (some n) = ((p.onChan c (fun ch => { ch with passOn := po })).muted c n (assignFrames n 0) (r + 1)).roundsCheck c := by
  have frames : (p.chan c).roundFrames (some n) = assignFrames n 0 := Channel.roundFrames_eq (by rw [unmapped]; rfl)
  rw [Part.round_serial turn begun, unmapped]
  cases c
  · exact congrArg (fun fr => (Part.raise { p with chanA := { p.chanA with
      passOn := po, rounds := r + 1, muted := min 64 (p.chanA.muted + 1), strangers := satUp p.chanA.strangers, sent := fr } }
        .stranger (.chan .A) (some (.serial n))).roundsCheck .A) frames
  · exact congrArg (fun fr => (Part.raise { p with chanB := { p.chanB with
      passOn := po, rounds := r + 1, muted := min 64 (p.chanB.muted + 1), strangers := satUp p.chanB.strangers, sent := fr } }
        .stranger (.chan .B) (some (.serial n))).roundsCheck .B) frames

end Round

/-! ## The rounds end -/

section Ends
variable {p q : Part} {c : Chan}

theorem Channel.goesOn_unlit (ch : Channel) (mono : Nat) : (ch.goesOn mono).unlit = ch.unlit.goesOn mono := by
  have queue : (ch.queue.filter (fun b => !ch.absent.contains b.addr)).filter (fun b => !b.isLampAny)
      = (ch.queue.filter (fun b => !b.isLampAny)).filter (fun b => !ch.absent.contains b.addr) := by
    rw [List.filter_filter, List.filter_filter]
    exact List.filter_congr fun b _ => Bool.and_comm _ _
  exact congrArg (fun x => { ch.goesOn mono with queue := x }) queue

theorem Part.enumerated_unlit (rising : Table.rising (p.chan c).modules = true) : (p.enumerated c).unlit = p.unlit.enumerated c := by
  have bewails : Part.Alarm ((p.absent c).foldl (Part.bewails c) ·) := Part.Alarm.foldl (Part.Alarm.bewails c) _
  have rising' : Table.rising (p.unlit.chan c).modules = true := by cases c <;> exact rising
  have absent : p.unlit.absent c = p.absent c := by cases c <;> rfl
  rw [Part.enumerated_eq rising, Part.enumerated_eq rising', absent, bewails.unlit]
  refine congrArg (List.foldl _ · _) ?_
  cases c
  · exact congrArg (fun ch => { p.unlit.unseen .A (p.absent .A) with chanA := ch }) (Channel.goesOn_unlit p.chanA p.mono)
  · exact congrArg (fun ch => { p.unlit.unseen .B (p.absent .B) with chanB := ch }) (Channel.goesOn_unlit p.chanB p.mono)

/-- The rounds of STARTING end: what the part without its lamps comes to. -/
theorem Part.enumerationEnd_enumerated (alone : p.StartsAlone c) (same : p.unlit = q.unlit) :
    (p.enumerationEnd c).unlit = (q.enumerated c).unlit := by
  have rising := ((Part.startsAlone_iff p c).mp alone).modules
  have modules : (p.chan c).modules = (q.chan c).modules := by
    cases c
    · exact (congrArg (·.chanA.modules) same :)
    · exact (congrArg (·.chanB.modules) same :)
  rw [Part.enumerationEnd_unlit alone, Part.enumerated_unlit (modules ▸ rising), same]

theorem Part.roundsEnd_starting (starting : (p.chan c).state = .starting .enumeration) : p.roundsEnd c = p.enumerationEnd c := by
  unfold Part.roundsEnd
  rw [starting]

theorem Part.roundsEnd_running (running : (p.chan c).state = .running) : p.roundsEnd c = p.identified c := by
  unfold Part.roundsEnd
  rw [running]
  exact Part.passEnd_identified p c

theorem Part.roundsCheck_few (few : (p.chan c).rounds < 64) : p.roundsCheck c = p := if_neg (Nat.not_le.mpr few)

theorem Part.roundsCheck_last (last : 64 ≤ (p.chan c).rounds) : p.roundsCheck c = p.roundsEnd c := if_pos last

theorem Part.LostAlone.onChan {l : List Nat} (h : p.LostAlone c l) {f : Channel → Channel}
    (modules : (f (p.chan c)).modules = (p.chan c).modules) (queue : (f (p.chan c)).queue = (p.chan c).queue) :
    (p.onChan c f).LostAlone c l := by
  refine ⟨?_, ?_, ?_, ?_, ?_⟩
  · rw [Part.onChan_chan_self, modules]
    exact h.modules
  · cases c <;> exact h.rows
  · cases c <;> exact h.ctxs
  · rw [Part.onChan_chan_self, queue]
    exact h.queue
  · cases c <;> exact h.census

theorem Part.startsAlone_onChan (alone : p.StartsAlone c) {f : Channel → Channel}
    (modules : (f (p.chan c)).modules = (p.chan c).modules) (queue : (f (p.chan c)).queue = (p.chan c).queue) :
    (p.onChan c f).StartsAlone c := by
  have absent : (p.onChan c f).absent c = p.absent c := by
    unfold Part.absent
    rw [Part.onChan_chan_self, modules]
  rw [Part.startsAlone_iff, absent]
  exact ((Part.startsAlone_iff p c).mp alone).onChan modules queue

theorem Part.startsAlone_restA (alone : p.StartsAlone c) (same : q.restA = p.restA) : q.StartsAlone c := by
  rw [Part.startsAlone_iff] at alone ⊢
  have absent : q.absent c = p.absent c := by
    rw [Part.eq_graft_of_restA same]
    cases c <;> rfl
  rw [absent]
  exact alone.of_restA same

theorem Part.muted_restA (p : Part) (c : Chan) (n : Nat) (frames : List (List Byte)) (r : Nat) : (p.muted c n frames r).restA
    = (p.onChan c (fun ch => { ch with
      rounds := r, muted := min 64 (ch.muted + 1), strangers := satUp ch.strangers, sent := frames })).restA :=
  Part.raise_restA _ _ _ _

theorem Part.muted_chan (p : Part) (c : Chan) (n : Nat) (frames : List (List Byte)) (r : Nat) : (p.muted c n frames r).chan c
    = { (p.chan c) with
      rounds := r, muted := min 64 ((p.chan c).muted + 1), strangers := satUp (p.chan c).strangers, sent := frames } := by
  have same := Part.muted_restA p c n frames r
  cases c
  · exact (congrArg Part.chanA same :)
  · exact (congrArg Part.chanB same :)

end Ends

/-! ## The rounds of STARTING (R152, R153) -/

section Starting
variable {s : State} {c : Chan} (starting : (s.part.chan c).state = .starting .enumeration) (line : (s.part.chan c).onLine = none)
  (held : (s.part.chan c).held = false)
include starting line held

theorem Channel.roundTurn_starting : (s.part.chan c).roundTurn s.part.mono = true := by
  unfold Channel.roundTurn
  rw [((s.part.chan c).free_iff).mpr ⟨line, held⟩, starting]
  rfl

omit line held in
theorem Part.begun_starting : (if (s.part.chan c).state = .running ∧ ¬ (s.part.chan c).passOn then
      { (s.part.chan c) with passOn := true, rounds := 0 } else s.part.chan c)
    = { (s.part.chan c) with passOn := (s.part.chan c).passOn, rounds := (s.part.chan c).rounds } :=
  if_neg (by rw [starting]; exact fun h => nomatch h.1)

theorem State.starting_mapped {n i : Nat} {e : MapEntry} (mapped : (s.part.chan c).map.find? (fun x => x.2.serial == n) = some (i, e)) :
    s.Becomes (exec (.enumerationRound c (some n)) s) (s.part.onChan c (fun ch => { ch with
      rounds := ch.rounds + 1, onLine := some (.assign n e.addr), sent := assignFrames n e.addr
      modules := Table.modify ch.modules e.addr (fun m => { m with ack := false }) })) :=
  State.becomes_of_eq ((Part.round_mapped (Channel.roundTurn_starting starting line held) (Part.begun_starting starting) mapped).trans
    (by cases c <;> rfl))

/-- A round in STARTING whose serial is not mapped. -/
theorem State.starting_unmapped {n : Nat} (unmapped : (s.part.chan c).map.find? (fun x => x.2.serial == n) = none) :
    ((s.part.chan c).rounds < 63 → s.Becomes (exec (.enumerationRound c (some n)) s)
      (s.part.muted c n (assignFrames n 0) ((s.part.chan c).rounds + 1)))
    ∧ (63 ≤ (s.part.chan c).rounds → s.part.StartsAlone c → s.Becomes (exec (.enumerationRound c (some n)) s)
      ((s.part.muted c n (assignFrames n 0) ((s.part.chan c).rounds + 1)).enumerated c)) := by
  have round := Part.round_unmapped (Channel.roundTurn_starting starting line held) (Part.begun_starting starting) unmapped
  have idle : s.part.onChan c (fun ch => { ch with passOn := (s.part.chan c).passOn }) = s.part := by cases c <;> rfl
  rw [idle] at round
  have chan := Part.muted_chan s.part c n (assignFrames n 0) ((s.part.chan c).rounds + 1)
  refine ⟨fun few => State.becomes_of_eq (round.trans (Part.roundsCheck_few ?_)), fun last alone => ?_⟩
  · rw [chan]
    exact Nat.succ_lt_succ few
  · refine State.becomes_of_unlit ((congrArg Part.unlit (round.trans ((Part.roundsCheck_last ?_).trans (Part.roundsEnd_starting ?_)))).trans
      (Part.enumerationEnd_enumerated ?_ rfl))
    · rw [chan]
      exact Nat.succ_le_succ last
    · rw [chan]
      exact starting
    · exact Part.startsAlone_restA (Part.startsAlone_onChan alone rfl rfl) (Part.muted_restA _ _ _ _ _)

/-- A round in STARTING with no answer. -/
theorem State.starting_none : ((∀ e ∈ (s.part.chan c).modules, e.2.state = .active) →
      (∃ a, 1 ≤ a ∧ a ≤ 30 ∧ (s.part.chan c).modState a = .active) →
      s.Becomes (exec (.enumerationRound c none) s) (s.part.onChan c (fun ch => { ch with
        state := .starting .firstPoll, lastPolled := 0, kept := [], sent := [framed [0#8, 0x30#8]] })))
    ∧ (s.part.StartsAlone c → s.Becomes (exec (.enumerationRound c none) s)
      ((s.part.onChan c (fun ch => { ch with sent := [framed [0#8, 0x30#8]] })).enumerated c)) := by
  have round := Part.round_none (Channel.roundTurn_starting starting line held) (Part.begun_starting starting)
  have idle : s.part.onChan c (fun ch => { ch with
      passOn := (s.part.chan c).passOn, rounds := (s.part.chan c).rounds, sent := [framed [0#8, 0x30#8]] })
      = s.part.onChan c (fun ch => { ch with sent := [framed [0#8, 0x30#8]] }) := by cases c <;> rfl
  rw [idle] at round
  generalize hq : s.part.onChan c (fun ch => { ch with sent := [framed [0#8, 0x30#8]] }) = q at round
  have chan : q.chan c = { (s.part.chan c) with sent := [framed [0#8, 0x30#8]] } := by rw [← hq, Part.onChan_chan_self]
  have ends : s.part.round c none = q.enumerationEnd c := round.trans (Part.roundsEnd_starting (by rw [chan]; exact starting))
  refine ⟨fun all some => ?_, fun alone => ?_⟩
  · have absent : q.absent c = [] := by
      unfold Part.absent
      rw [chan, List.map_eq_nil_iff, List.filter_eq_nil_iff]
      intro e he is
      rw [all e he] at is
      cases is
    have any : (List.range 30).any (fun i => (q.chan c).modState (i + 1) == .active) = true := by
      obtain ⟨a, low, high, active⟩ := some
      refine List.any_eq_true.mpr ⟨a - 1, List.mem_range.mpr (by omega), ?_⟩
      rw [chan, Nat.sub_add_cancel low]
      exact beq_iff_eq.mpr active
    have lost := Part.enumerationEnd_lost (p := q) (c := c) (q := q) (by rw [absent]; rfl)
    rw [absent, any] at lost
    refine State.becomes_of_unlit ((congrArg Part.unlit ends).trans (lost.trans ?_))
    rw [← hq]
    cases c <;> rfl
  · refine State.becomes_of_unlit ((congrArg Part.unlit ends).trans (Part.enumerationEnd_enumerated ?_ rfl))
    rw [← hq]
    exact Part.startsAlone_onChan alone rfl rfl

end Starting

end Sys2Proof.Machine
end

section
/-! PROOFS. The rounds of an identification pass, and the answer to an ASSIGN (R148, R153, R154, R158). -/

namespace Sys2Proof.Machine
open Sys2Proof

/-! ## A pass of RUNNING (R154) -/

theorem Part.identified_passOn (p : Part) (c : Chan) (f : Channel → Channel) (b : Bool) :
    (p.onChan c (fun ch => { f ch with passOn := b })).identified c = (p.onChan c f).identified c := by
  cases c <;> rfl

section Running
variable {s : State} {c : Chan} (running : (s.part.chan c).state = .running)
include running

theorem Channel.roundTurn_running : (s.part.chan c).roundTurn s.part.mono = true
    ↔ (s.part.chan c).onLine = none ∧ (s.part.chan c).held = false
      ∧ ((s.part.chan c).passOn = true ∨ ∃ t, (s.part.chan c).nextIdent = some t ∧ t ≤ s.part.mono)
      ∧ ∀ b ∈ (s.part.chan c).queue, b.isLock = false := by
  have due : (s.part.chan c).passDue s.part.mono = true
      ↔ (s.part.chan c).passOn = true ∨ ∃ t, (s.part.chan c).nextIdent = some t ∧ t ≤ s.part.mono := by
    unfold Channel.passDue
    rw [Bool.or_eq_true, Option.any_eq_true]
    simp only [decide_eq_true_eq]
  have locks : (!(s.part.chan c).queue.any BusCmd.isLock) = true ↔ ∀ b ∈ (s.part.chan c).queue, b.isLock = false := by
    simp
  unfold Channel.roundTurn
  rw [running]
  dsimp only
  rw [Bool.and_eq_true, Bool.and_eq_true, Channel.free_iff, locks, due]
  constructor
  · exact fun ⟨⟨line, held⟩, noLock, due⟩ => ⟨line, held, due, noLock⟩
  · exact fun ⟨line, held, due, noLock⟩ => ⟨⟨line, held⟩, noLock, due⟩

theorem Part.begun_running : (if (s.part.chan c).state = .running ∧ ¬ (s.part.chan c).passOn then
      { (s.part.chan c) with passOn := true, rounds := 0 } else s.part.chan c)
    = { (s.part.chan c) with passOn := true, rounds := if (s.part.chan c).passOn then (s.part.chan c).rounds else 0 } := by
  cases on : (s.part.chan c).passOn with
  | false => exact if_pos ⟨running, by nofun⟩
  | true =>
    refine (if_neg fun h => h.2 rfl).trans ?_
    exact congrArg (fun b => { (s.part.chan c) with passOn := b }) on

variable (turn : (s.part.chan c).roundTurn s.part.mono = true)
include turn

theorem State.running_none : s.Becomes (exec (.enumerationRound c none) s) ((s.part.onChan c (fun ch => { ch with
    rounds := if (s.part.chan c).passOn then (s.part.chan c).rounds else 0, sent := [framed [0#8, 0x30#8]] })).identified c) := by
  have round := Part.round_none turn (Part.begun_running running)
  refine State.becomes_of_eq (round.trans ((Part.roundsEnd_running ?_).trans (Part.identified_passOn s.part c (fun ch => { ch with
    rounds := if (s.part.chan c).passOn then (s.part.chan c).rounds else 0, sent := [framed [0#8, 0x30#8]] }) true)))
  rw [Part.onChan_chan_self]
  exact running

theorem State.running_mapped {n i : Nat} {e : MapEntry} (mapped : (s.part.chan c).map.find? (fun x => x.2.serial == n) = some (i, e)) :
    s.Becomes (exec (.enumerationRound c (some n)) s) (s.part.onChan c (fun ch => { ch with
      passOn := true, rounds := (if (s.part.chan c).passOn then (s.part.chan c).rounds else 0) + 1
      onLine := some (.assign n e.addr), sent := assignFrames n e.addr
      modules := Table.modify ch.modules e.addr (fun m => { m with ack := false }) })) :=
  State.becomes_of_eq (Part.round_mapped turn (Part.begun_running running) mapped)

theorem State.running_unmapped {n : Nat} (unmapped : (s.part.chan c).map.find? (fun x => x.2.serial == n) = none) {r : Nat}
    (hr : (if (s.part.chan c).passOn then (s.part.chan c).rounds else 0) = r) :
    (r < 63 → s.Becomes (exec (.enumerationRound c (some n)) s)
      ((s.part.onChan c (fun ch => { ch with passOn := true })).muted c n (assignFrames n 0) (r + 1)))
    ∧ (63 ≤ r → s.Becomes (exec (.enumerationRound c (some n)) s)
      (((s.part.onChan c (fun ch => { ch with passOn := true })).muted c n (assignFrames n 0) (r + 1)).identified c)) := by
  have round := Part.round_unmapped turn (Part.begun_running running) unmapped
  rw [hr] at round
  have chan := Part.muted_chan (s.part.onChan c (fun ch => { ch with passOn := true })) c n (assignFrames n 0) (r + 1)
  refine ⟨fun few => State.becomes_of_eq (round.trans (Part.roundsCheck_few ?_)),
    fun last => State.becomes_of_eq (round.trans ((Part.roundsCheck_last ?_).trans (Part.roundsEnd_running ?_)))⟩
  · rw [chan]
    exact Nat.succ_lt_succ few
  · rw [chan]
    exact Nat.succ_le_succ last
  · rw [chan, Part.onChan_chan_self]
    exact running

end Running

/-! ## STRANGER (R153) -/

/-- A serial that is not mapped raises STRANGER, and leaves the rows and the keys. -/
theorem State.stranger_seen {s : State} {c : Chan} {n r : Nat} {frames : List (List Byte)} {o : Host.Outcome State Fault Refusal}
    (h : s.Becomes o (s.part.muted c n frames r)) : ∃ u, o = .next u
      ∧ (u.part.chan c).unlit = { (s.part.chan c).unlit with
          rounds := r, muted := min 64 ((s.part.chan c).muted + 1), strangers := satUp (s.part.chan c).strangers, sent := frames }
      ∧ u.part.alt.flags.getLsbD 7 = true ∧ u.part.rows = s.part.rows ∧ u.part.keys = s.part.keys := by
  obtain ⟨u, hu, -, unlit⟩ := h
  have restA := Part.muted_restA s.part c n frames r
  have rows : (s.part.muted c n frames r).rows = s.part.rows := by cases c <;> exact (congrArg Part.rows restA :)
  have keys : (s.part.muted c n frames r).keys = s.part.keys := by cases c <;> exact (congrArg Part.keys restA :)
  have flag : (s.part.muted c n frames r).alt.flags.getLsbD 7 = true := Part.raise_flag _ .stranger _ _
  have chan : (u.part.chan c).unlit = ((s.part.muted c n frames r).chan c).unlit := by
    cases c
    · exact (congrArg Part.chanA unlit :)
    · exact (congrArg Part.chanB unlit :)
  refine ⟨u, hu, ?_, ?_, (congrArg Part.rows unlit :).trans rows, (congrArg Part.keys unlit :).trans keys⟩
  · rw [chan, Part.muted_chan]
    rfl
  · rw [show u.part.alt = (s.part.muted c n frames r).alt from (congrArg Part.alt unlit :)]
    exact flag

/-! ## The answer to an ASSIGN (R153, R158) -/

section Assign
variable {s : State} {c : Chan} {n a : Nat} (line : (s.part.chan c).onLine = some (.assign n a))
include line

theorem State.assign_bad {y : Reply} (rs : List PosReport) (bad : ¬ GoodReply y a) :
    exec (.assignAnswer c ⟨y, rs⟩) s = exec (.commandMiss c) s := by
  have miss : s.part.assignAnswer c y rs = s.part.commandMiss c := by
    unfold Part.assignAnswer
    rw [line]
    exact Part.judged_bad _ _ _ _ _ bad
  exact congrArg (fun q : Part => (.next { s with part := q.lampRun } : Host.Outcome State Fault Refusal)) miss

theorem State.assign_missed (held : (s.part.chan c).held = false) : s.part.commandMiss c
    = (s.part.onChan c (fun ch => { ch with onLine := none, misses := satUp ch.misses })).roundsCheck c := by
  unfold Part.commandMiss
  rw [held, if_neg (by nofun), line]
  refine congrArg (Part.roundsCheck · c) ?_
  cases c <;> rfl

theorem State.assign_misses (held : (s.part.chan c).held = false) :
    ((s.part.chan c).rounds < 64 → s.Becomes (exec (.commandMiss c) s)
      (s.part.onChan c (fun ch => { ch with onLine := none, misses := satUp ch.misses })))
    ∧ (64 ≤ (s.part.chan c).rounds →
      ((s.part.chan c).state = .starting .enumeration → s.part.StartsAlone c → s.Becomes (exec (.commandMiss c) s)
        ((s.part.onChan c (fun ch => { ch with onLine := none, misses := satUp ch.misses })).enumerated c))
      ∧ ((s.part.chan c).state = .running → s.Becomes (exec (.commandMiss c) s)
        ((s.part.onChan c (fun ch => { ch with onLine := none, misses := satUp ch.misses })).identified c))) := by
  have miss := State.assign_missed line held
  have chan : (s.part.onChan c (fun ch => { ch with onLine := none, misses := satUp ch.misses })).chan c
      = { (s.part.chan c) with onLine := none, misses := satUp (s.part.chan c).misses } := Part.onChan_chan_self _ _ _
  refine ⟨fun few => State.becomes_of_eq (miss.trans (Part.roundsCheck_few ?_)), fun last => ⟨fun starting alone => ?_,
    fun running => State.becomes_of_eq (miss.trans ((Part.roundsCheck_last ?_).trans (Part.roundsEnd_running ?_)))⟩⟩
  · rw [chan]
    exact few
  · refine State.becomes_of_unlit ((congrArg Part.unlit (miss.trans ((Part.roundsCheck_last ?_).trans (Part.roundsEnd_starting ?_)))).trans
      (Part.enumerationEnd_enumerated (Part.startsAlone_onChan alone rfl rfl) rfl))
    · rw [chan]
      exact last
    · rw [chan]
      exact starting
  · rw [chan]
    exact last
  · rw [chan]
    exact running

end Assign

/-! ## A module found by its ASSIGN (R140, R158) -/

/-- Module a of channel c, ABSENT or DOWN, answers its ASSIGN. -/
def Part.found (p : Part) (c : Chan) (a : Nat) : Part :=
  ((({ p with lmp := { p.lmp with images := Table.del p.lmp.images (lampKey c a) } } : Part).onChan c (fun ch => { ch with
    onLine := none, modules := Table.modify ch.modules a (fun m => { m with state := .active, misses := 0, reprobe := none })
    })).remove .moduleDown (.module c a)).offerOrd ⟨.moduleEvent, 255, beBytes 1 c.code ++ beBytes 1 a ++ [1#8]⟩

section Found
variable {p : Part} {c : Chan} {a : Nat} (lost : (p.chan c).modState a = .absent ∨ (p.chan c).modState a = .down)
include lost

theorem Part.found_unlit : (((p.lineFree c).goodAnswer c a true).lampAnew c a).unlit = (p.found c a).unlit := by
  have alarm : Part.Alarm (fun q => (q.remove .moduleDown (.module c a)).offerOrd
      ⟨.moduleEvent, 255, beBytes 1 c.code ++ beBytes 1 a ++ [1#8]⟩) := (Part.Alarm.remove _ _).comp (.offerOrd _)
  have lamps (q : Part) : (q.lampLost c a).unlit
      = ({ q with lmp := { q.lmp with images := Table.del q.lmp.images (lampKey c a) } } : Part).unlit := by
    unfold Part.lampLost
    rw [Part.onChan_unlit _ _ _ (fun ch => Channel.withdraw_lamp_unlit ch a), Part.clearBehind_unlit]
    rfl
  have swap (q : Part) := alarm.comm (g := fun q => { q with lmp := { q.lmp with images := Table.del q.lmp.images (lampKey c a) } })
    (fun _ _ => rfl) q
  rw [Part.goodAnswer_found lost]
  unfold Part.lampAnew
  rw [Part.touch_unlit, lamps]
  unfold Part.moduleFound
  refine (congrArg Part.unlit (swap ((p.lineFree c).onModule c a (fun m => { m with state := .active, misses := 0, reprobe := none })))).symm.trans ?_
  unfold Part.found
  refine congrArg (fun q : Part => ((q.remove .moduleDown (.module c a)).offerOrd
    ⟨.moduleEvent, 255, beBytes 1 c.code ++ beBytes 1 a ++ [1#8]⟩).unlit) ?_
  cases c <;> rfl

end Found

end Sys2Proof.Machine
end

section
/-! PROOFS. The sighting of an UNKNOWN row (R13, R161, R164, R165). -/

namespace Sys2Proof.Machine
open Sys2Proof

/-! ## The lock of a row with no context -/

theorem Part.Alarm.lockSeen (n : Nat) (was : Option LockState) (l : LockState) : Part.Alarm (·.lockSeen n was l) := by
  cases l with
  | jammed => exact .raise _ _ _
  | opened => exact ⟨fun _ _ => rfl, fun _ => rfl⟩
  | locked =>
    by_cases h : was = some .locked
    · have same : (fun p : Part => p.lockSeen n was .locked) = id := funext fun p => if_pos h
      rw [same]
      exact ⟨fun _ _ => rfl, fun _ => rfl⟩
    · have same : (fun p : Part => p.lockSeen n was .locked) = (·.remove .lockJam (.slot n)) := funext fun p => if_neg h
      rw [same]
      exact .remove _ _

theorem Part.touch_graft (ks : List Nat) (p o : Part) : (p.graft o).touch ks = p.graft (o.touch ks) := rfl

section Loose
variable {p : Part} {n : Nat} {r : SlotRow} (hrow : Table.look p.rows n = some r) (ctx : r.ctx = none)
include hrow ctx

theorem Part.lockReport_locked : ∃ ks, p.lockReport n .locked = ((p.locks n .locked).lockSeen n r.lock .locked).touch ks := by
  refine ⟨[lampKey (p.slotEntry n).chan (p.slotEntry n).addr], ?_⟩
  have swap := (Part.Alarm.lockSeen n r.lock .locked).comm (g := fun p => p.touch [lampKey (p.slotEntry n).chan (p.slotEntry n).addr])
    (fun _ _ => rfl) (p.locks n .locked)
  unfold Part.lockReport
  rw [show p.row n = some r from hrow]
  dsimp only
  rw [ctx]
  refine Eq.trans ?_ (swap.trans ?_)
  · by_cases was : r.lock = some .locked
    · rw [if_neg fun h => h.2 was]
      exact (if_pos was).symm
    · rw [if_pos ⟨rfl, was⟩]
      exact (if_neg was).symm
  · have entry : ((p.locks n .locked).lockSeen n r.lock .locked).slotEntry n = p.slotEntry n := by
      have map := (congrArg Part.slotMap (Part.lockSeen_restA (p.locks n .locked) n r.lock .locked) :)
      unfold Part.slotEntry
      rw [show ((p.locks n .locked).lockSeen n r.lock .locked).slotMap = p.slotMap from map]
    rw [entry]

end Loose

/-! ## The sighting -/

/-- The row of slot n is LOCKED and has occupancy v. -/
def Part.seen (p : Part) (n : Nat) (v : Occ) : Part :=
  { p with rows := Table.modify p.rows n (fun r => { r with lock := some .locked, occ := some v }) }

theorem Part.seen_graft (n : Nat) (v : Occ) (p o : Part) : (p.graft o).seen n v = p.graft (o.seen n v) := rfl

section Sighted
variable {p : Part} {c : Chan} {a pos n : Nat} {rs : List PosReport} {v : Occ} {r : SlotRow}

theorem Part.now_of_restA {p q : Part} (h : q.restA = p.restA) : q.now = p.now := by
  unfold Part.now
  rw [show q.clock = p.clock from (congrArg Part.clock h :)]

/-- An UNKNOWN row is sighted (R164). -/
theorem Part.occReport_unknown (hrow : Table.look p.rows n = some r) (ctx : r.ctx = none) (unknown : r.occ = none)
    (unsettled : r.settle = none) (c : Chan) : ∃ ks, (p.lockReport n .locked).occReport c n v
      = (((p.seen n v).lockSeen n r.lock .locked).touch ks).sighting n v p.now := by
  obtain ⟨ks, locked⟩ := Part.lockReport_locked hrow ctx
  generalize hq : (p.locks n .locked).lockSeen n r.lock .locked = q at locked
  have rest : q.restA = (p.locks n .locked).restA := hq ▸ Part.lockSeen_restA _ _ _ _
  have rows : q.rows = (p.locks n .locked).rows := (congrArg Part.rows rest :)
  have row : Table.look q.rows n = some { r with lock := some .locked } := by
    rw [rows]
    unfold Part.locks
    rw [Table.look_modify_same, hrow]
    rfl
  have now : q.now = p.now := Part.now_of_restA (p := p.locks n .locked) rest
  have seen : q.onRow n (fun r => { r with occ := some v, settle := none }) = (p.seen n v).lockSeen n r.lock .locked := by
    have swap := (Part.Alarm.lockSeen n r.lock .locked).comm (g := fun p => p.onRow n (fun r => { r with occ := some v, settle := none }))
      (fun _ _ => rfl) (p.locks n .locked)
    rw [hq] at swap
    rw [← swap]
    refine congrArg (fun t => ({ p with rows := t } : Part).lockSeen n r.lock .locked) ?_
    refine (Table.modify_modify _ _ _ _).trans (Table.modify_congr hrow ?_)
    rw [unsettled]
  refine ⟨ks ++ [lampKey (q.slotEntry n).chan (q.slotEntry n).addr], ?_⟩
  rw [locked]
  unfold Part.occReport
  rw [show (q.touch ks).row n = some { r with lock := some .locked } from row]
  dsimp only
  rw [unknown, ← Part.touch_touch, ← seen]
  dsimp only
  rw [show (q.touch ks).now = p.now from now]
  rfl

/-- A POLL answer whose one position is an UNKNOWN row's. -/
theorem Part.takeReports_unknown (hr : rs[pos]? = some ⟨v, .locked, none⟩) (slot : p.slotAt c a pos = some n)
    (others : ∀ x, x ≠ pos → p.slotAt c a x = none) (standard : (p.slotEntry n).kind = .standard)
    (hrow : Table.look p.rows n = some r) (ctx : r.ctx = none) (unknown : r.occ = none) (unsettled : r.settle = none)
    (map : ∀ ks, ((((p.seen n v).lockSeen n r.lock .locked).touch ks).sighting n v p.now).slotMap = p.slotMap) :
    ∃ ks, p.takeReports c a rs = (((p.seen n v).lockSeen n r.lock .locked).touch ks).sighting n v p.now := by
  obtain ⟨ks, sighted⟩ := Part.occReport_unknown (v := v) hrow ctx unknown unsettled c
  have position := (Part.takePosition_standard slot standard ⟨v, .locked, none⟩).trans sighted
  exact ⟨ks, (Part.takeReports_one hr others (by rw [position]; exact map ks)).trans position⟩

/-- EMPTY where no key is located (R13). -/
theorem Part.sighting_empty (none : p.keyAt n = none) (m : Nat) : p.sighting n .empty m = p.remove .foreign (.slot n) := by
  unfold Part.sighting
  rw [none]

/-- The key that is located there (R13). -/
theorem Part.sighting_located {t h : Nat} {k : KeyRec} (tagged : p.keyByTag t = some (h, k)) (at' : p.keyAt n = some (h, k))
    (tag : k.tag = t) (here : k.loc = some n) (located : k.state = .inn ∨ k.state = .misplaced ∨ k.state = .assigned) (m : Nat) :
    p.sighting n (.tag t) m = p := by
  have known : p.keyOfOcc (.tag t) = some (h, k) := tagged
  have stays : p.keyArrived n (.tag t) m true = p := by
    unfold Part.keyArrived
    rw [known]
    rcases located with hst | hst | hst <;> (dsimp only; rw [hst]; exact if_pos here)
  unfold Part.sighting
  rw [at']
  dsimp only
  rw [if_pos (by rw [tag])]
  exact stays

end Sighted

/-! ## A row with nothing known (R13, R164) -/

theorem Part.lockSeen_unknown (p : Part) (n : Nat) : p.lockSeen n none .locked = p.remove .lockJam (.slot n) := by
  show (if (none : Option LockState) = some .locked then p else p.remove .lockJam (.slot n)) = p.remove .lockJam (.slot n)
  exact if_neg nofun

/-- Nothing is known of the position, and no context is bound to it (R7). -/
structure SlotRow.Unseen (r : SlotRow) : Prop where
  ctx : r.ctx = none
  occ : r.occ = none
  settle : r.settle = none
  lock : r.lock = none

theorem SlotRow.unseen_blank : SlotRow.Unseen ⟨none, none, none, none, none⟩ := ⟨rfl, rfl, rfl, rfl⟩

section Dark
variable {p : Part} {c : Chan} {a pos n : Nat} {rs : List PosReport} {v : Occ} {r : SlotRow} (hr : rs[pos]? = some ⟨v, .locked, none⟩)
  (slot : p.slotAt c a pos = some n) (others : ∀ x, x ≠ pos → p.slotAt c a x = none) (standard : (p.slotEntry n).kind = .standard)
  (hrow : Table.look p.rows n = some r) (blank : r.Unseen)
include hr slot others standard hrow blank

theorem Part.takes_empty (is : v = .empty) (none' : p.keyAt n = none) :
    (p.takeReports c a rs).unlit = (((p.seen n v).remove .lockJam (.slot n)).remove .foreign (.slot n)).unlit := by
  subst is
  have sighting (ks : List Nat) : (((p.seen n .empty).lockSeen n none .locked).touch ks).sighting n .empty p.now
      = (((p.seen n .empty).remove .lockJam (.slot n)).remove .foreign (.slot n)).touch ks := by
    have lock : (p.seen n .empty).lockSeen n none .locked = (p.seen n .empty).remove .lockJam (.slot n) := Part.lockSeen_unknown _ _
    have away : (((p.seen n .empty).remove .lockJam (.slot n)).touch ks).keyAt n = none := by
      rw [← none']
      exact congrArg (fun t : Table KeyRec => t.find? (fun e => e.2.loc == some n))
        (congrArg Part.keys ((p.seen n .empty).remove_restA .lockJam (.slot n)) :)
    rw [lock, Part.sighting_empty away, Part.remove_touch]
  obtain ⟨ks, taken⟩ := Part.takeReports_unknown hr slot others standard hrow blank.ctx blank.occ blank.settle (fun ks => by
    rw [blank.lock, sighting ks]
    exact (congrArg Part.slotMap (((p.seen n .empty).remove .lockJam (.slot n)).remove_restA .foreign (.slot n)) :).trans
      (congrArg Part.slotMap ((p.seen n .empty).remove_restA .lockJam (.slot n)) :))
  rw [taken, blank.lock, sighting ks, Part.touch_unlit]

theorem Part.takes_located {t h : Nat} {k : KeyRec} (is : v = .tag t) (tagged : p.keyByTag t = some (h, k))
    (at' : p.keyAt n = some (h, k)) (tag : k.tag = t) (here : k.loc = some n)
    (located : k.state = .inn ∨ k.state = .misplaced ∨ k.state = .assigned) :
    (p.takeReports c a rs).unlit = ((p.seen n v).remove .lockJam (.slot n)).unlit := by
  subst is
  have sighting (ks : List Nat) : (((p.seen n (.tag t)).lockSeen n none .locked).touch ks).sighting n (.tag t) p.now
      = ((p.seen n (.tag t)).remove .lockJam (.slot n)).touch ks := by
    have lock : (p.seen n (.tag t)).lockSeen n none .locked = (p.seen n (.tag t)).remove .lockJam (.slot n) := Part.lockSeen_unknown _ _
    have keys := (congrArg Part.keys ((p.seen n (.tag t)).remove_restA .lockJam (.slot n)) :)
    rw [lock]
    refine Part.sighting_located (h := h) (k := k) ?_ ?_ tag here located _
    · rw [← tagged]
      exact congrArg (fun T : Table KeyRec => T.find? (fun e => e.2.tag == t)) keys
    · rw [← at']
      exact congrArg (fun T : Table KeyRec => T.find? (fun e => e.2.loc == some n)) keys
  obtain ⟨ks, taken⟩ := Part.takeReports_unknown hr slot others standard hrow blank.ctx blank.occ blank.settle (fun ks => by
    rw [blank.lock, sighting ks]
    exact (congrArg Part.slotMap ((p.seen n (.tag t)).remove_restA .lockJam (.slot n)) :))
  rw [taken, blank.lock, sighting ks, Part.touch_unlit]

end Dark

end Sys2Proof.Machine
end

section
/-! PROOFS. The statement of the enumeration (R140, R148, R152, R153, R154, R158, R164). -/

namespace Sys2Proof.Machine
open Sys2Proof

/-! ## An UNKNOWN row sighted at an answer -/

section Sights
variable {p X T : Part} {c : Chan} {a pos n : Nat} {rs : List PosReport} {v : Occ} {r : SlotRow} (hr : rs[pos]? = some ⟨v, .locked, none⟩)
  (slot : p.slotAt c a pos = some n) (others : ∀ x, x ≠ pos → p.slotAt c a x = none) (standard : (p.slotEntry n).kind = .standard)
  (hrow : Table.look p.rows n = some r) (blank : r.Unseen) (slotMap : X.slotMap = p.slotMap) (rows : X.rows = p.rows)
  (keys : X.keys = p.keys) (same : (X.seen n v).unlit = T.unlit)
include hr slot others standard hrow blank slotMap rows keys same

theorem Part.sights_to : (v = .empty → p.keyAt n = none →
      (X.takeReports c a rs).unlit = ((T.remove .lockJam (.slot n)).remove .foreign (.slot n)).unlit)
    ∧ (∀ t h k, v = .tag t → p.keyByTag t = some (h, k) → p.keyAt n = some (h, k) → k.tag = t → k.loc = some n →
      k.state = .inn ∨ k.state = .misplaced ∨ k.state = .assigned →
      (X.takeReports c a rs).unlit = (T.remove .lockJam (.slot n)).unlit) := by
  have slotX (x : Nat) : X.slotAt c a x = p.slotAt c a x := by
    unfold Part.slotAt
    rw [slotMap]
  have entryX : X.slotEntry n = p.slotEntry n := by
    unfold Part.slotEntry
    rw [slotMap]
  have atX : X.keyAt n = p.keyAt n := by
    unfold Part.keyAt
    rw [keys]
  have tagX (t : Nat) : X.keyByTag t = p.keyByTag t := by
    unfold Part.keyByTag
    rw [keys]
  have jam : Part.Alarm (·.remove .lockJam (.slot n)) := .remove _ _
  have both : Part.Alarm (fun q => (q.remove .lockJam (.slot n)).remove .foreign (.slot n)) := jam.comp (.remove _ _)
  have slot' := (slotX pos).trans slot
  have others' : ∀ x, x ≠ pos → X.slotAt c a x = none := fun x hx => (slotX x).trans (others x hx)
  have standard' : (X.slotEntry n).kind = .standard := by rw [entryX]; exact standard
  have row : Table.look X.rows n = some r := by rw [rows]; exact hrow
  refine ⟨fun is none => ?_, fun t h k is tagged at' tag here located => ?_⟩
  · rw [Part.takes_empty hr slot' others' standard' row blank is (atX.trans none)]
    exact (both.unlit _).trans ((congrArg (fun q : Part => (q.remove .lockJam (.slot n)).remove .foreign (.slot n)) same).trans
      (both.unlit T).symm)
  · rw [Part.takes_located hr slot' others' standard' row blank is ((tagX t).trans tagged) (atX.trans at') tag here located]
    exact (jam.unlit _).trans ((congrArg (fun q : Part => q.remove .lockJam (.slot n)) same).trans (jam.unlit T).symm)

end Sights

/-! ## The rounds at the answer of an ASSIGN (R154) -/

theorem Part.identified_graft (c : Chan) (p o : Part) : (p.graft o).identified c = p.graft (o.identified c) := by cases c <;> rfl

theorem Part.identified_unlit (p : Part) (c : Chan) : (p.identified c).unlit = p.unlit.identified c := by cases c <;> rfl

section Checks
variable {Z T : Part} {c : Chan} {f : Part → Part} (alarm : Part.Alarm f) (same : Z.unlit = (f T).unlit)
  (running : (T.chan c).state = .running)
include alarm same

omit running in
theorem Part.chan_of_alarm : (Z.chan c).rounds = (T.chan c).rounds ∧ (Z.chan c).state = (T.chan c).state := by
  have chan : (f T).chan c = T.chan c := Part.chan_of_restA (alarm.restA T) c
  have fields : (Z.chan c).rounds = ((f T).chan c).rounds ∧ (Z.chan c).state = ((f T).chan c).state := by
    cases c
    · exact ⟨(congrArg (·.chanA.rounds) same :), (congrArg (·.chanA.state) same :)⟩
    · exact ⟨(congrArg (·.chanB.rounds) same :), (congrArg (·.chanB.state) same :)⟩
  rw [← chan]
  exact fields

include running

theorem Part.roundsCheck_alarm : ((T.chan c).rounds < 64 → (Z.roundsCheck c).unlit = (f T).unlit)
    ∧ (64 ≤ (T.chan c).rounds → (Z.roundsCheck c).unlit = (f (T.identified c)).unlit) := by
  obtain ⟨rounds, state⟩ := Part.chan_of_alarm (c := c) alarm same
  refine ⟨fun few => ?_, fun last => ?_⟩
  · rw [Part.roundsCheck_few (by rw [rounds]; exact few), same]
  · rw [Part.roundsCheck_last (by rw [rounds]; exact last), Part.roundsEnd_running (state.trans running), Part.identified_unlit, same,
      ← Part.identified_unlit, alarm.comm (g := (·.identified c)) (Part.identified_graft c)]

end Checks

theorem Part.found_chan (p : Part) (c : Chan) (a : Nat) : (p.found c a).chan c = { (p.chan c) with
    onLine := none
    modules := Table.modify (p.chan c).modules a (fun m => { m with state := .active, misses := 0, reprobe := none }) } := by
  have alarm : Part.Alarm (fun q => (q.remove .moduleDown (.module c a)).offerOrd
      ⟨.moduleEvent, 255, beBytes 1 c.code ++ beBytes 1 a ++ [1#8]⟩) := (Part.Alarm.remove _ _).comp (.offerOrd _)
  exact (Part.chan_of_restA (alarm.restA _) c).trans (by cases c <;> rfl)

/-- With nothing raised for it and room for the report. -/
theorem Part.found_entered {p : Part} {c : Chan} {a : Nat} (calm : p.alt.find .moduleDown (.module c a) = none)
    (room : p.link.reports.length < 48) : p.found c a = (({ p with lmp := { p.lmp with
      images := Table.del p.lmp.images (lampKey c a) } } : Part).onChan c (fun ch => { ch with
      onLine := none, modules := Table.modify ch.modules a (fun m => { m with state := .active, misses := 0, reprobe := none })
      })).queued ⟨.moduleEvent, 255, beBytes 1 c.code ++ beBytes 1 a ++ [1#8]⟩ := by
  unfold Part.found
  rw [Part.remove_none (by cases c <;> exact calm), Part.offerOrd_room _ (by cases c <;> exact room)]
  rfl

theorem Part.startsAlone_unlit {p q : Part} {c : Chan} (same : q.unlit = p.unlit) (alone : p.StartsAlone c) : q.StartsAlone c := by
  have modules : (q.chan c).modules = (p.chan c).modules := by
    cases c
    · exact (congrArg (·.chanA.modules) same :)
    · exact (congrArg (·.chanB.modules) same :)
  have absent : q.absent c = p.absent c := by
    unfold Part.absent
    rw [modules]
  rw [Part.startsAlone_iff, absent]
  exact ((Part.startsAlone_iff p c).mp alone).of_unlit same

section Assigned
variable {s : State} {c : Chan} {n a : Nat} {y : Reply} {rs : List PosReport} (good : GoodReply y a)
  (line : (s.part.chan c).onLine = some (.assign n a)) (lost : (s.part.chan c).modState a = .absent ∨ (s.part.chan c).modState a = .down)
include good line

theorem Part.assignAnswer_good : s.part.assignAnswer c y rs
    = (if (s.part.chan c).state = .running then
        (((s.part.lineFree c).goodAnswer c a true).lampAnew c a).takeReports c a rs
      else ((s.part.lineFree c).goodAnswer c a true).lampAnew c a).roundsCheck c := by
  unfold Part.assignAnswer
  rw [line]
  exact Part.judged_good _ _ _ _ _ good

include lost

/-- A module found as the rounds of STARTING end (R152, R158). -/
theorem State.assign_ends (starting : (s.part.chan c).state = .starting .enumeration) (last : 64 ≤ (s.part.chan c).rounds)
    (alone : (s.part.found c a).StartsAlone c) : s.Becomes (exec (.assignAnswer c ⟨y, rs⟩) s) ((s.part.found c a).enumerated c) := by
  have answer := Part.assignAnswer_good (rs := rs) good line
  rw [starting, if_neg (by nofun)] at answer
  have same := Part.found_unlit lost
  obtain ⟨rounds, state⟩ := Part.chan_of_alarm (c := c) (T := s.part.found c a) (f := id) ⟨fun _ _ => rfl, fun _ => rfl⟩ same
  rw [Part.found_chan] at rounds state
  refine State.becomes_of_unlit ((congrArg Part.unlit (answer.trans ((Part.roundsCheck_last ?_).trans (Part.roundsEnd_starting ?_)))).trans
    (Part.enumerationEnd_enumerated ?_ same))
  · rw [rounds]
    exact last
  · rw [state]
    exact starting
  · exact Part.startsAlone_unlit same alone

/-- A module found before the rounds of STARTING end (R158). -/
theorem State.assign_finds {m : ModEntry} (starting : (s.part.chan c).state = .starting .enumeration) (few : (s.part.chan c).rounds < 64)
    (hm : Table.look (s.part.chan c).modules a = some m) : ∃ u, exec (.assignAnswer c ⟨y, rs⟩) s = .next u
      ∧ (u.part.chan c).onLine = none ∧ (u.part.chan c).state = .starting .enumeration
      ∧ Table.look (u.part.chan c).modules a = some { m with state := .active, misses := 0, reprobe := none }
      ∧ Table.look u.part.lmp.images (lampKey c a) = none
      ∧ (s.part.alt.find .moduleDown (.module c a) = none → s.part.link.reports.length < 48 →
        u.part.link.reports = s.part.link.reports ++ [⟨.moduleEvent, 255, beBytes 1 c.code ++ beBytes 1 a ++ [1#8]⟩])
      ∧ u.part.rows = s.part.rows ∧ u.part.keys = s.part.keys := by
  have answer := Part.assignAnswer_good (rs := rs) good line
  rw [starting, if_neg (by nofun)] at answer
  have same := Part.found_unlit lost
  obtain ⟨rounds, -⟩ := Part.chan_of_alarm (c := c) (T := s.part.found c a) (f := id) ⟨fun _ _ => rfl, fun _ => rfl⟩ same
  have chan := Part.found_chan s.part c a
  rw [chan] at rounds
  rw [Part.roundsCheck_few (by rw [rounds]; exact few)] at answer
  obtain ⟨u, hu, -, unlit⟩ := State.becomes_of_unlit (s := s) ((congrArg Part.unlit answer).trans same)
  have alarm : Part.Alarm (fun q => (q.remove .moduleDown (.module c a)).offerOrd
      ⟨.moduleEvent, 255, beBytes 1 c.code ++ beBytes 1 a ++ [1#8]⟩) := (Part.Alarm.remove _ _).comp (.offerOrd _)
  have rest := alarm.restA (({ s.part with lmp := { s.part.lmp with
    images := Table.del s.part.lmp.images (lampKey c a) } } : Part).onChan c (fun ch => { ch with
    onLine := none, modules := Table.modify ch.modules a (fun m => { m with state := .active, misses := 0, reprobe := none }) }))
  have fields : (u.part.chan c).onLine = ((s.part.found c a).chan c).onLine ∧ (u.part.chan c).state = ((s.part.found c a).chan c).state
      ∧ (u.part.chan c).modules = ((s.part.found c a).chan c).modules := by
    cases c
    · exact ⟨(congrArg (·.chanA.onLine) unlit :), (congrArg (·.chanA.state) unlit :), (congrArg (·.chanA.modules) unlit :)⟩
    · exact ⟨(congrArg (·.chanB.onLine) unlit :), (congrArg (·.chanB.state) unlit :), (congrArg (·.chanB.modules) unlit :)⟩
  obtain ⟨onLine, state, modules⟩ := fields
  rw [chan] at onLine state modules
  refine ⟨u, hu, onLine, state.trans starting, ?_, ?_, fun calm room => ?_, ?_, ?_⟩
  · rw [modules, Table.look_modify_same, hm]
    rfl
  · have images : u.part.lmp.images = Table.del s.part.lmp.images (lampKey c a) :=
      (congrArg (·.lmp.images) unlit :).trans ((congrArg (·.lmp.images) rest :).trans (by cases c <;> rfl))
    rw [images]
    exact Table.look_del_same _ _
  · refine (congrArg (·.link.reports) unlit :).trans ((congrArg (·.link.reports) (Part.found_entered calm room) :).trans ?_)
    cases c <;> rfl
  · exact (congrArg (·.rows) unlit :).trans ((congrArg (·.rows) rest :).trans (by cases c <;> rfl))
  · exact (congrArg (·.keys) unlit :).trans ((congrArg (·.keys) rest :).trans (by cases c <;> rfl))

end Assigned

/-- An entry that changes keeps its module in its state. -/
theorem Channel.modState_modify {ch g : Channel} {a : Nat} {f : ModEntry → ModEntry} (h : ∀ m, (f m).state = m.state)
    (hg : g.modules = Table.modify ch.modules a f) (x : Nat) : g.modState x = ch.modState x := by
  unfold Channel.modState
  rw [hg]
  exact congrArg (fun o => o.getD ModState.absent) (Table.map_look_modify h x)

/-! ## The sightings of the two answers (R164) -/

section Sighted
variable {s : State} {c : Chan} {a pos n g : Nat} {y : Reply} {rs : List PosReport} {v : Occ} (good : GoodReply y a)
  (hr : rs[pos]? = some ⟨v, .locked, none⟩) (slot : s.part.slotAt c a pos = some n) (others : ∀ x, x ≠ pos → s.part.slotAt c a x = none)
  (entry : s.part.slotEntry n = ⟨c, a, pos, .standard, g⟩) (hrow : Table.look s.part.rows n = some ⟨none, none, none, none, none⟩)
include good hr slot others entry hrow

/-- What an UNKNOWN row comes to at an answer. -/
def State.Sights (s : State) (n : Nat) (v : Occ) (row : Instr) (q : Part) : Prop :=
  (v = .empty → s.part.keyAt n = none → s.Becomes (exec row s) ((q.remove .lockJam (.slot n)).remove .foreign (.slot n)))
  ∧ (∀ t h k, v = .tag t → s.part.keyByTag t = some (h, k) → s.part.keyAt n = some (h, k) → k.tag = t → k.loc = some n →
    k.state = .inn ∨ k.state = .misplaced ∨ k.state = .assigned → s.Becomes (exec row s) (q.remove .lockJam (.slot n)))

theorem State.assign_sights {num : Nat} (line : (s.part.chan c).onLine = some (.assign num a)) (running : (s.part.chan c).state = .running)
    (lost : (s.part.chan c).modState a = .absent ∨ (s.part.chan c).modState a = .down)
    (calm : s.part.alt.find .moduleDown (.module c a) = none) (room : s.part.link.reports.length < 48) {T : Part}
    (hT : (({ s.part.seen n v with lmp := { (s.part.seen n v).lmp with
      images := Table.del (s.part.seen n v).lmp.images (lampKey c a) } } : Part).onChan c (fun ch => { ch with
        onLine := none
        modules := Table.modify ch.modules a (fun m => { m with state := .active, misses := 0, reprobe := none }) })).queued
      ⟨.moduleEvent, 255, beBytes 1 c.code ++ beBytes 1 a ++ [1#8]⟩ = T) :
    ((s.part.chan c).rounds < 64 → s.Sights n v (.assignAnswer c ⟨y, rs⟩) T)
    ∧ (64 ≤ (s.part.chan c).rounds → s.Sights n v (.assignAnswer c ⟨y, rs⟩) (T.identified c)) := by
  have answer := Part.assignAnswer_good (rs := rs) good line
  rw [if_pos running] at answer
  have found := (Part.found_unlit lost).trans (congrArg Part.unlit (Part.found_entered calm room))
  generalize ((s.part.lineFree c).goodAnswer c a true).lampAnew c a = X at answer found
  have same : (X.seen n v).unlit = T.unlit := by
    rw [← hT]
    refine (congrArg (fun q : Part => q.seen n v) found).trans ?_
    cases c <;> rfl
  have slotMap : X.slotMap = s.part.slotMap := (congrArg Part.slotMap found :).trans (by cases c <;> rfl)
  have rows : X.rows = s.part.rows := (congrArg Part.rows found :).trans (by cases c <;> rfl)
  have keys : X.keys = s.part.keys := (congrArg Part.keys found :).trans (by cases c <;> rfl)
  obtain ⟨empty, located⟩ := Part.sights_to hr slot others (by rw [entry]) hrow SlotRow.unseen_blank slotMap rows keys same
  have rounds : (T.chan c).rounds = (s.part.chan c).rounds := by
    rw [← hT]
    cases c <;> rfl
  have state : (T.chan c).state = .running := by
    rw [← hT]
    cases c <;> exact running
  have jam : Part.Alarm (·.remove .lockJam (.slot n)) := .remove _ _
  have both : Part.Alarm (fun q => (q.remove .lockJam (.slot n)).remove .foreign (.slot n)) := jam.comp (.remove _ _)
  have ends {q : Part} (h : ((X.takeReports c a rs).roundsCheck c).unlit = q.unlit) : s.Becomes (exec (.assignAnswer c ⟨y, rs⟩) s) q :=
    State.becomes_of_unlit ((congrArg Part.unlit answer).trans h)
  rw [← rounds]
  refine ⟨fun few => ⟨fun is none => ends ?_, fun t h k is tagged at' tag here hst => ends ?_⟩,
    fun last => ⟨fun is none => ends ?_, fun t h k is tagged at' tag here hst => ends ?_⟩⟩
  · exact (Part.roundsCheck_alarm both (empty is none) state).1 few
  · exact (Part.roundsCheck_alarm jam (located t h k is tagged at' tag here hst) state).1 few
  · exact (Part.roundsCheck_alarm both (empty is none) state).2 last
  · exact (Part.roundsCheck_alarm jam (located t h k is tagged at' tag here hst) state).2 last

/-- The last answer of the first poll (R152). -/
theorem State.firstPoll_sights {ack : Bool} (line : (s.part.chan c).onLine = some (.poll a ack))
    (polling : (s.part.chan c).state = .starting .firstPoll) (active : (s.part.chan c).modState a = .active)
    (kept : (s.part.chan c).kept = [])
    (last : ∀ x, (s.part.chan c).lastPolled < x → x ≤ 30 → (s.part.chan c).modState x ≠ .active) :
    s.Sights n v (.pollAnswer c ⟨y, rs⟩) ((s.part.seen n v).onChan c (fun ch => { ch with
      state := .running, onLine := none, lastPolled := 0
      modules := Table.modify ch.modules a (fun m => { m with misses := 0, ack := true }) })) := by
  generalize hT : (s.part.seen n v).onChan c (fun ch => { ch with
      state := .running, onLine := none, lastPolled := 0
      modules := Table.modify ch.modules a (fun m => { m with misses := 0, ack := true }) }) = T
  generalize hX : s.part.onChan c (fun ch => { ch with
      state := .running, onLine := none, lastPolled := 0, kept := []
      modules := Table.modify ch.modules a (fun m => { m with misses := 0, ack := true }) }) = X
  have answer : s.part.pollAnswer c y rs = (X.takeReports c a rs).touch (chanModules c) := by
    have heard := Part.poll_heard active
    generalize hq : (s.part.heard c a (fun m => { m with misses := 0, ack := true })).onChan c
      (fun ch => { ch with kept := ch.kept ++ [(a, rs)] }) = q
    have chan : q.chan c = { (s.part.chan c) with
        onLine := none, kept := [(a, rs)]
        modules := Table.modify (s.part.chan c).modules a (fun m => { m with misses := 0, ack := true }) } := by
      rw [← hq, Part.onChan_chan_self]
      unfold Part.heard
      rw [Part.onChan_chan_self, kept]
      rfl
    have none : addrAfter (q.chan c).lastPolled (fun x => (q.chan c).modState x == .active) = none := by
      rw [chan]
      refine addrAfter_none.mpr fun x above low high => Bool.eq_false_iff.mpr fun is => last x above high ?_
      exact (Channel.modState_modify (a := a) (f := fun m => { m with misses := 0, ack := true }) (fun _ => rfl) rfl x).symm.trans
        (beq_iff_eq.mp is)
    have enters : q.firstPollOn c = q.enterRunning c := by
      unfold Part.firstPollOn
      rw [show (q.chan c).state = .starting .firstPoll by rw [chan]; exact polling]
      dsimp only
      rw [none]
    have polled : s.part.pollAnswer c y rs = q.firstPollOn c := by
      unfold Part.pollAnswer
      rw [line]
      refine (Part.judged_good s.part c a y _ good).trans ?_
      dsimp only
      rw [polling, heard, hq]
    have begins : q.onChan c (fun ch => { ch with state := .running, kept := [], lastPolled := 0 }) = X := by
      rw [← hX, ← hq]
      cases c <;> rfl
    rw [polled, enters]
    unfold Part.enterRunning
    dsimp only
    rw [begins, show (q.chan c).kept = [(a, rs)] by rw [chan]]
    rfl
  have same : (X.seen n v).unlit = T.unlit := by
    rw [← hT, ← hX]
    cases c
    · exact congrArg (fun k => ({ (s.part.seen n v).unlit with chanA := { s.part.chanA.unlit with
        state := .running, onLine := none, lastPolled := 0, kept := k
        modules := Table.modify s.part.chanA.modules a (fun m => { m with misses := 0, ack := true }) } } : Part)) kept.symm
    · exact congrArg (fun k => ({ (s.part.seen n v).unlit with chanB := { s.part.chanB.unlit with
        state := .running, onLine := none, lastPolled := 0, kept := k
        modules := Table.modify s.part.chanB.modules a (fun m => { m with misses := 0, ack := true }) } } : Part)) kept.symm
  have slotMap : X.slotMap = s.part.slotMap := by rw [← hX]; cases c <;> rfl
  have rows : X.rows = s.part.rows := by rw [← hX]; cases c <;> rfl
  have keys : X.keys = s.part.keys := by rw [← hX]; cases c <;> rfl
  obtain ⟨empty, located⟩ := Part.sights_to hr slot others (by rw [entry]) hrow SlotRow.unseen_blank slotMap rows keys same
  have ends {q : Part} (h : (X.takeReports c a rs).unlit = q.unlit) : s.Becomes (exec (.pollAnswer c ⟨y, rs⟩) s) q :=
    State.becomes_of_unlit ((congrArg Part.unlit answer).trans ((Part.touch_unlit _ _).trans h))
  exact ⟨fun is none => ends (empty is none), fun t h k is tagged at' tag here hst => ends (located t h k is tagged at' tag here hst)⟩

end Sighted

/-! ## The statement -/

/-- Settles O55: the rounds of STARTING and of a pass, the answers to an ASSIGN, and the rows sighted at them. -/
theorem enumerationAddressesModules : Obligations.EnumerationAddressesModules := by
  refine ⟨fun s c starting line held => ⟨fun n i e => State.starting_mapped starting line held, fun n unmapped few => ?stranger,
      (State.starting_none starting line held).1, (State.starting_none starting line held).2,
      fun n => State.starting_unmapped starting line held⟩,
    fun s c running => ⟨fun not n => ?idle, fun turn => State.running_none running ((Channel.roundTurn_running running).mpr turn),
      fun n turn => ⟨fun i e => State.running_mapped running ((Channel.roundTurn_running running).mpr turn),
        fun unmapped => State.running_unmapped running ((Channel.roundTurn_running running).mpr turn) unmapped rfl⟩⟩,
    fun s c n a line => ⟨fun y rs => State.assign_bad line rs, fun held => (State.assign_misses line held).1,
      fun held => (State.assign_misses line held).2⟩,
    fun s c n a y rs good line starting last lost => State.assign_ends good line lost starting last,
    fun s c n a m y rs good line starting few hm lost => State.assign_finds good line ?lost starting few hm,
    fun s c a pos n g y rs v row good hr slot others entry hrow => ⟨?assign, ?poll⟩⟩
  case stranger => exact State.stranger_seen ((State.starting_unmapped starting line held unmapped).1 few)
  case idle =>
    have idle : (s.part.chan c).roundTurn s.part.mono = false :=
      Bool.eq_false_iff.mpr fun turn => not ((Channel.roundTurn_running running).mp turn)
    exact State.becomes_of_eq (Part.round_not_turn _ _ _ idle)
  case lost =>
    unfold Channel.modState
    rw [hm]
    exact lost
  case assign =>
    rintro num rfl line running lost calm room
    exact State.assign_sights good hr slot others entry hrow line running lost calm room rfl
  case poll =>
    rintro ack rfl line polling active kept last
    exact State.firstPoll_sights good hr slot others entry hrow line polling active kept last

end Sys2Proof.Machine
end

section
/-! PROOFS. The poll that is sent, the answer that is not good, and the misses of a poll (R147, R156, R161). -/

namespace Sys2Proof.Machine
open Sys2Proof

/-! ## The poll that is sent (R161) -/

theorem Part.onChan_onChan (p : Part) (c : Chan) (f g : Channel → Channel) :
    (p.onChan c f).onChan c g = p.onChan c (fun ch => g (f ch)) := by
  cases c <;> rfl

/-- The frame of a POLL. -/
def pollFrame (a : Nat) (ack : Bool) : List Byte :=
  framed [BitVec.ofNat 8 a, 0x01#8, if ack then 1#8 else 0#8]

theorem LineCmd.poll_frame (a : Nat) (ack : Bool) : (LineCmd.poll a ack).frame = pollFrame a ack := by
  cases ack <;> rfl

/-- The acknowledge that the next poll of a module carries. -/
def Channel.owedAck (ch : Channel) (a : Nat) : Bool := ch.state == .running && ((Table.look ch.modules a).map (·.ack)).getD false

section Sent
variable {s : State} {c : Chan} {a : Nat} (turn : (s.part.chan c).pollTurn s.part.mono = true)
include turn

theorem State.polls_next (next : (s.part.chan c).nextPoll s.part.mono = some (a, false)) :
    s.Becomes (exec (.sendPoll c) s) (s.part.onChan c (fun ch => { ch with
      lastPolled := a, onLine := some (.poll a (ch.owedAck a)), sent := [pollFrame a (ch.owedAck a)] })) := by
  refine State.becomes_of_eq (q := s.part.sendPoll c) ?_
  unfold Part.sendPoll
  dsimp only
  rw [turn, next]
  simp only [LineCmd.poll_frame]
  cases c <;> rfl

theorem State.polls_probe (next : (s.part.chan c).nextPoll s.part.mono = some (a, true)) :
    s.Becomes (exec (.sendPoll c) s) (s.part.onChan c (fun ch => { ch with
      onLine := some (.poll a (ch.owedAck a)), sent := [pollFrame a (ch.owedAck a)]
      modules := Table.modify ch.modules a (fun m => { m with reprobe := some (s.part.mono + 10000) }) })) := by
  refine State.becomes_of_eq (q := s.part.sendPoll c) ?_
  unfold Part.sendPoll
  dsimp only
  rw [turn, next]
  simp only [LineCmd.poll_frame]
  cases c <;> rfl

end Sent

/-! ## Answers that are not good (R147) -/

/-- The row of an answer that is dealt with as a miss is the row of the miss. -/
theorem State.exec_miss {s : State} {c : Chan} {q : Part} (miss : q = s.part.commandMiss c) :
    (.next { s with part := q.lampRun } : Host.Outcome State Fault Refusal) = exec (.commandMiss c) s :=
  congrArg (fun q : Part => (.next { s with part := q.lampRun } : Host.Outcome State Fault Refusal)) miss

section Bad
variable {s : State} {c : Chan}

theorem State.poll_bad {a : Nat} {ack : Bool} {y : Reply} (rs : List PosReport) (bad : ¬ GoodReply y a)
    (line : (s.part.chan c).onLine = some (.poll a ack)) : exec (.pollAnswer c ⟨y, rs⟩) s = exec (.commandMiss c) s := by
  refine State.exec_miss (q := s.part.pollAnswer c y rs) ?_
  unfold Part.pollAnswer
  rw [line]
  exact Part.judged_bad _ _ _ _ _ bad

variable {b : BusCmd} {y : Reply} (bad : ¬ GoodReply y b.addr) (line : (s.part.chan c).onLine = some (.queued b))
include bad line

theorem State.queued_bad :
    (∀ a pos i l, b = .lockOpen a pos i → exec (.lockOpenAnswer c ⟨y, l⟩) s = exec (.commandMiss c) s)
    ∧ (∀ a pos i l, b = .lockClose a pos i → exec (.lockCloseAnswer c ⟨y, l⟩) s = exec (.commandMiss c) s)
    ∧ (∀ a ls, b = .lamp a ls → exec (.lampAnswer ⟨c, y⟩) s = exec (.commandMiss c) s) := by
  refine ⟨?_, ?_, ?_⟩
  · rintro a pos i l rfl
    refine State.exec_miss (q := s.part.lockOpenAnswer c y l) ?_
    unfold Part.lockOpenAnswer
    rw [line]
    exact Part.judged_bad _ _ _ _ _ bad
  · rintro a pos i l rfl
    refine State.exec_miss (q := s.part.lockCloseAnswer c y l) ?_
    unfold Part.lockCloseAnswer
    rw [line]
    exact Part.judged_bad _ _ _ _ _ bad
  · rintro a ls rfl
    refine State.exec_miss (q := s.part.lampAnswer c y) ?_
    unfold Part.lampAnswer
    rw [line]
    exact Part.judged_bad _ _ _ _ _ bad

end Bad

/-! ## The miss of a poll (R156) -/

/-- The acknowledge to a module that does not answer its poll is dropped. -/
def ModEntry.unacked (m : ModEntry) : ModEntry := { m with ack := false }

/-- A poll missed on a channel that runs is charged to its module. -/
theorem Part.commandMiss_poll {p : Part} {c : Chan} {a : Nat} {ack : Bool} (held : (p.chan c).held = false)
    (line : (p.chan c).onLine = some (.poll a ack)) (running : (((p.heard c a ModEntry.unacked).chargeMiss c a).chan c).state = .running) :
    p.commandMiss c = (p.heard c a ModEntry.unacked).chargeMiss c a := by
  have ends : p.commandMiss c = ((p.heard c a ModEntry.unacked).chargeMiss c a).firstPollOn c := by
    unfold Part.commandMiss
    rw [held, if_neg Bool.false_ne_true, line]
    exact congrArg (fun q : Part => (q.chargeMiss c a).firstPollOn c) (Part.heard_modules p c a _)
  rw [ends]
  unfold Part.firstPollOn
  rw [running]

theorem Part.heard_look {p : Part} {c : Chan} {a : Nat} {m : ModEntry} (hm : Table.look (p.chan c).modules a = some m)
    (f : ModEntry → ModEntry) : Table.look ((p.heard c a f).chan c).modules a = some (f m) := by
  unfold Part.heard
  rw [Part.onChan_chan_self, Table.look_modify_same, hm]
  rfl

/-- What a module's entry takes after the line is free. -/
theorem Part.heard_counts (p : Part) (c : Chan) (a : Nat) (f g : ModEntry → ModEntry) :
    (p.heard c a f).onChan c (fun ch => { ch with misses := satUp ch.misses, modules := Table.modify ch.modules a g })
      = p.onChan c (fun ch => { ch with
          onLine := none, misses := satUp ch.misses, modules := Table.modify ch.modules a (fun m => g (f m)) }) := by
  unfold Part.heard
  rw [Part.onChan_onChan]
  exact congrArg (p.onChan c) (funext fun ch => congrArg (fun t => ({ ch with
    onLine := none, misses := satUp ch.misses, modules := t } : Channel)) (Table.modify_modify _ _ _ _))

section Missed
variable {s : State} {c : Chan} {a : Nat} {ack : Bool} {m : ModEntry} (line : (s.part.chan c).onLine = some (.poll a ack))
  (running : (s.part.chan c).state = .running) (held : (s.part.chan c).held = false)
  (hm : Table.look (s.part.chan c).modules a = some m)
include line running held

theorem State.poll_missed {g : ModEntry → ModEntry} (charged : (s.part.heard c a ModEntry.unacked).chargeMiss c a
      = s.part.onChan c (fun ch => { ch with onLine := none, misses := satUp ch.misses, modules := Table.modify ch.modules a g })) :
    s.Becomes (exec (.commandMiss c) s) (s.part.onChan c (fun ch => { ch with
      onLine := none, misses := satUp ch.misses, modules := Table.modify ch.modules a g })) := by
  refine State.becomes_of_eq ((Part.commandMiss_poll held line ?_).trans charged)
  rw [charged, Part.onChan_chan_self]
  exact running

include hm

theorem State.poll_misses_active (active : m.state = .active) : s.Becomes (exec (.commandMiss c) s)
    (s.part.onChan c (fun ch => { ch with
      onLine := none, misses := satUp ch.misses
      modules := Table.modify ch.modules a (fun m => { m with ack := false, misses := 1, state := .silent }) })) := by
  refine State.poll_missed line running held ((Part.chargeMiss_active ?_).trans (Part.heard_counts _ _ _ _ _))
  unfold Channel.modState
  rw [Part.heard_look hm]
  exact active

theorem State.poll_misses_silent (silent : m.state = .silent) (few : m.misses < 6) : s.Becomes (exec (.commandMiss c) s)
    (s.part.onChan c (fun ch => { ch with
      onLine := none, misses := satUp ch.misses
      modules := Table.modify ch.modules a (fun m => { m with ack := false, misses := m.misses + 1 }) })) :=
  State.poll_missed line running held ((Part.chargeMiss_silent (Part.heard_look hm _) silent few).trans (Part.heard_counts _ _ _ _ _))

theorem State.poll_misses_lost (lost : m.state = .absent ∨ m.state = .down) : s.Becomes (exec (.commandMiss c) s)
    (s.part.onChan c (fun ch => { ch with
      onLine := none, misses := satUp ch.misses, modules := Table.modify ch.modules a (fun m => { m with ack := false }) })) := by
  refine State.poll_missed line running held ?_
  have look : Table.look (((s.part.heard c a ModEntry.unacked).countMiss c).chan c).modules a = some m.unacked := by
    unfold Part.countMiss
    rw [Part.onChan_chan_self]
    exact Part.heard_look hm _
  have counted : (s.part.heard c a ModEntry.unacked).chargeMiss c a = (s.part.heard c a ModEntry.unacked).countMiss c := by
    unfold Part.chargeMiss
    dsimp only
    rw [look]
    dsimp only
    rw [show m.unacked.state = m.state from rfl]
    rcases lost with lost | lost <;> rw [lost]
  rw [counted]
  cases c <;> rfl

end Missed

end Sys2Proof.Machine
end

section
/-! PROOFS. A POLL answer that reports one STANDARD position (R161, R162, R165). -/

namespace Sys2Proof.Machine
open Sys2Proof

/-! ## The module that answers (R156) -/

/-- The entry of a module that has answered its poll. -/
def ModEntry.served (m : ModEntry) : ModEntry := { m with misses := 0, state := .active, ack := true }

/-- A poll of module a of channel c answered: the line free, the bounces, the entry, and the row of slot n. -/
def Part.answered (p : Part) (c : Chan) (a n : Nat) (bounce : Nat → Nat) (g : SlotRow → SlotRow) (f : ModEntry → ModEntry) : Part :=
  ({ p with rows := Table.modify p.rows n g } : Part).onChan c (fun ch => { ch with
    onLine := none, bounces := bounce ch.bounces, modules := Table.modify ch.modules a f })

section Served
variable {p : Part} {c : Chan} {a : Nat}

theorem Part.heard_congr {m : ModEntry} (hm : Table.look (p.chan c).modules a = some m) {f g : ModEntry → ModEntry} (same : f m = g m) :
    p.heard c a f = p.heard c a g := by
  have modules := Table.modify_congr hm same
  cases c
  · exact congrArg (fun t => ({ p with chanA := { p.chanA with onLine := none, modules := t } } : Part)) modules
  · exact congrArg (fun t => ({ p with chanB := { p.chanB with onLine := none, modules := t } } : Part)) modules

theorem Part.heard_twice (p : Part) (c : Chan) (a : Nat) (f g : ModEntry → ModEntry) :
    (p.heard c a f).onModule c a g = p.heard c a (fun m => g (f m)) := by
  have twice (ch : Channel) : Table.modify (Table.modify ch.modules a f) a g = Table.modify ch.modules a (fun m => g (f m)) :=
    Table.modify_modify _ _ _ _
  cases c
  · exact congrArg (fun t => ({ p with chanA := { p.chanA with onLine := none, modules := t } } : Part)) (twice p.chanA)
  · exact congrArg (fun t => ({ p with chanB := { p.chanB with onLine := none, modules := t } } : Part)) (twice p.chanB)

/-- A module ACTIVE or SILENT that answers its poll is ACTIVE. -/
theorem Part.poll_served (served : (p.chan c).modState a = .active ∨ (p.chan c).modState a = .silent) : ∃ ks,
    ((p.lineFree c).goodAnswer c a true).onModule c a (fun m => { m with ack := true }) = (p.heard c a ModEntry.served).touch ks := by
  rcases served with active | silent
  · obtain ⟨m, hm, hst⟩ := Channel.look_of_modState active (by nofun)
    refine ⟨[], (Part.poll_heard active).trans ((Part.heard_congr (g := ModEntry.served) hm ?_).trans ?_)⟩
    · unfold ModEntry.served
      rw [← hst]
    · unfold Part.touch
      rw [List.append_nil]
  · have state : ((p.lineFree c).chan c).modState a = .silent := by cases c <;> exact silent
    have answer : (p.lineFree c).goodAnswer c a true
        = (p.heard c a (fun m => { m with misses := 0, state := .active })).touch [lampKey c a] := by
      unfold Part.goodAnswer
      rw [state]
      dsimp only
      rw [Bool.true_or, if_pos rfl, Part.heard_modules]
    refine ⟨[lampKey c a], ?_⟩
    rw [answer]
    have moved (q : Part) : (q.touch [lampKey c a]).onModule c a (fun m => { m with ack := true })
        = (q.onModule c a (fun m => { m with ack := true })).touch [lampKey c a] := by cases c <;> rfl
    rw [moved, Part.heard_twice]
    rfl

/-- The row and the module's entry that an answer writes. -/
theorem Part.heard_row {n : Nat} {r : SlotRow} (hrow : Table.look p.rows n = some r) (f : ModEntry → ModEntry) {g h : SlotRow → SlotRow}
    (same : g r = h r) : (p.heard c a f).onRow n g = p.answered c a n id h f := by
  have rows := Table.modify_congr hrow same
  have swap : (p.heard c a f).onRow n g = ({ p with rows := Table.modify p.rows n g } : Part).heard c a f := by cases c <;> rfl
  rw [swap, rows]
  cases c <;> rfl

theorem Part.heard_rows {n : Nat} {r : SlotRow} (hrow : Table.look p.rows n = some r) (f : ModEntry → ModEntry)
    {g g' h : SlotRow → SlotRow} (same : g' (g r) = h r) : ((p.heard c a f).onRow n g).onRow n g' = p.answered c a n id h f := by
  have once : ((p.heard c a f).onRow n g).onRow n g' = (p.heard c a f).onRow n (fun r => g' (g r)) :=
    congrArg (fun t => ({ p.heard c a f with rows := t } : Part)) (Table.modify_modify _ _ _ _)
  rw [once]
  exact Part.heard_row hrow f same

theorem Part.answered_bounces (p : Part) (c : Chan) (a n : Nat) (g : SlotRow → SlotRow) (f : ModEntry → ModEntry) :
    (p.answered c a n id g f).onChan c (fun ch => { ch with bounces := satUp ch.bounces }) = p.answered c a n satUp g f := by
  cases c <;> rfl

end Served

/-! ## The lock of a row with no context (R165) -/

/-- What a lock state that no context takes does beside the row; was is the lock state before. -/
def Part.looseSeen (p : Part) (n : Nat) (was : Option LockState) (l : LockState) : Part :=
  match l with
  | .opened => (p.raise .lockJam (.slot n) none).ownClose (p.slotEntry n).chan (p.slotEntry n).addr (p.slotEntry n).pos
  | _ => p.lockSeen n was l

theorem Part.ownClose_touch (p : Part) (ks : List Nat) (c : Chan) (a pos : Nat) :
    (p.touch ks).ownClose c a pos = (p.ownClose c a pos).touch ks := by
  have push (b : Bool) (x : BusCmd) : (if b then (p.touch ks).onChan c (·.push x) else p.touch ks)
      = (if b then p.onChan c (·.push x) else p).touch ks := by
    cases b <;> cases c <;> rfl
  cases c <;> exact push _ _

theorem Part.ownClose_map (p : Part) (c : Chan) (a pos : Nat) : (p.ownClose c a pos).slotMap = p.slotMap := by
  unfold Part.ownClose
  dsimp only
  split
  · cases c <;> rfl
  · rfl

theorem Part.ownClose_rows (p : Part) (c : Chan) (a pos : Nat) : (p.ownClose c a pos).rows = p.rows := by
  unfold Part.ownClose
  dsimp only
  split
  · cases c <;> rfl
  · rfl

theorem Part.looseSeen_leaves (p : Part) (n : Nat) (was : Option LockState) (l : LockState) :
    (p.looseSeen n was l).rows = p.rows ∧ (p.looseSeen n was l).slotMap = p.slotMap := by
  cases l with
  | opened =>
    have rest := p.raise_restA .lockJam (.slot n) none
    exact ⟨(Part.ownClose_rows _ _ _ _).trans (congrArg Part.rows rest :), (Part.ownClose_map _ _ _ _).trans (congrArg Part.slotMap rest :)⟩
  | jammed =>
    have rest := p.lockSeen_restA n was .jammed
    exact ⟨(congrArg Part.rows rest :), (congrArg Part.slotMap rest :)⟩
  | locked =>
    have rest := p.lockSeen_restA n was .locked
    exact ⟨(congrArg Part.rows rest :), (congrArg Part.slotMap rest :)⟩

section Loose
variable {p : Part} {n : Nat} {r : SlotRow} (hrow : Table.look p.rows n = some r) (ctx : r.ctx = none)
include hrow ctx

/-- A lock state that no context takes (R165). -/
theorem Part.lockReport_loose (l : LockState) : ∃ ks, p.lockReport n l = ((p.locks n l).looseSeen n r.lock l).touch ks := by
  have told : p.lockReport n l = if l = .locked ∧ r.lock ≠ some .locked then
      (((p.locks n l).touchSlot n).remove .lockJam (.slot n)).looseLock n l else ((p.locks n l).touchSlot n).looseLock n l := by
    unfold Part.lockReport
    rw [show p.row n = some r from hrow]
    dsimp only
    rw [ctx]
    exact apply_ite (fun q : Part => q.looseLock n l) _ _ _
  cases l with
  | locked => exact Part.lockReport_locked hrow ctx
  | jammed =>
    refine ⟨[lampKey (p.slotEntry n).chan (p.slotEntry n).addr], ?_⟩
    rw [told, if_neg (fun h => nomatch h.1)]
    exact Part.raise_touch _ _ _ _ _
  | opened =>
    refine ⟨[lampKey (p.slotEntry n).chan (p.slotEntry n).addr], ?_⟩
    rw [told, if_neg (fun h => nomatch h.1)]
    exact (congrArg (fun q : Part => q.ownClose (p.slotEntry n).chan (p.slotEntry n).addr (p.slotEntry n).pos)
      (Part.raise_touch (p.locks n .opened) [lampKey (p.slotEntry n).chan (p.slotEntry n).addr] _ _ _)).trans (Part.ownClose_touch _ _ _ _ _)

end Loose

/-! ## The occupancy of a known row (R162) -/

theorem Part.tell_none {r : SlotRow} (ctx : r.ctx = none) (p : Part) (f : Part → Nat → Part) : p.tell r f = p := by
  unfold Part.tell
  rw [ctx]

section Occupancy
variable {p : Part} {n : Nat} {r : SlotRow} {v o : Occ} (hrow : Table.look p.rows n = some r) (hocc : r.occ = some o) (c : Chan)
include hrow hocc

theorem Part.occReport_starts (steady : r.settle = none) (moves : v ≠ o) : p.occReport c n v
    = if v = .empty then (p.settleSet n v).tell r Part.ctxSettleStart else p.settleSet n v := by
  unfold Part.occReport
  rw [show p.row n = some r from hrow]
  dsimp only
  rw [hocc, steady]
  exact if_neg moves

variable {st : Settle} (settling : r.settle = some st) (other : v ≠ st.cand)
include settling other

theorem Part.occReport_bounces (back : v = o) : p.occReport c n v
    = (let q := (p.onRow n (fun r => { r with settle := none })).onChan c (fun ch => { ch with bounces := satUp ch.bounces })
      if st.cand = .empty then q.tell r Part.ctxSettleCancel else q) := by
  unfold Part.occReport
  rw [show p.row n = some r from hrow]
  dsimp only
  rw [hocc, settling]
  exact (if_neg other).trans (if_pos back)

theorem Part.occReport_restarts (moves : v ≠ o) : p.occReport c n v
    = (if v = .empty then (p.settleSet n v).tell r Part.ctxSettleStart
      else if st.cand = .empty then (p.settleSet n v).tell r Part.ctxSettleCancel else p.settleSet n v) := by
  unfold Part.occReport
  rw [show p.row n = some r from hrow]
  dsimp only
  rw [hocc, settling]
  exact (if_neg other).trans (if_neg moves)

end Occupancy

theorem Part.takeReports_standard {p : Part} {c : Chan} {a pos n : Nat} {rs : List PosReport} {v : Occ} {l : LockState}
    {d : Option Nat} (hr : rs[pos]? = some ⟨v, l, d⟩) (slot : p.slotAt c a pos = some n)
    (others : ∀ x, x ≠ pos → p.slotAt c a x = none) (standard : (p.slotEntry n).kind = .standard)
    (map : ((p.lockReport n l).occReport c n v).slotMap = p.slotMap) :
    p.takeReports c a rs = (p.lockReport n l).occReport c n v := by
  have position := Part.takePosition_standard slot standard ⟨v, l, d⟩
  exact (Part.takeReports_one hr others (by rw [position]; exact map)).trans position

end Sys2Proof.Machine
end

section
/-! PROOFS. A POLL answer for a row that no context is bound to: settles and lock states (R161, R162, R165). -/

namespace Sys2Proof.Machine
open Sys2Proof

/-! ## The own LOCK_CLOSE (R165) -/

section OwnClose
variable {p : Part} {c : Chan} {a pos : Nat}

theorem Part.ownClose_recent {m : ModEntry} {t : Nat} (hm : Table.look (p.chan c).modules a = some m)
    (ht : Table.look m.ownClose pos = some t) (recent : p.mono < t + 2000) : p.ownClose c a pos = p := by
  unfold Part.ownClose
  dsimp only
  rw [hm, Option.bind_some, ht]
  refine if_neg ?_
  have early : decide (t + Config.ownCloseGap ≤ p.mono) = false := decide_eq_false (Nat.not_le.mpr recent)
  simp [early]

theorem Part.ownClose_pushes (room : (p.chan c).queue.length < 12)
    (none : ∀ x i, x = BusCmd.lockClose a pos i → x ∉ (p.chan c).queue)
    (old : ∀ m t, Table.look (p.chan c).modules a = some m → Table.look m.ownClose pos = some t → t + 2000 ≤ p.mono) :
    p.ownClose c a pos = p.onChan c (fun ch => { ch with queue := ch.queue ++ [.lockClose a pos .own] }) := by
  have unasked : (p.chan c).queue.any (fun b => match b with
      | .lockClose x y _ => x == a && y == pos
      | _ => false) = false := by
    refine List.any_eq_false.mpr fun b hb is => ?_
    cases b with
    | lockClose x y i =>
      obtain ⟨rfl, rfl⟩ : x = a ∧ y = pos := by simpa using is
      exact none _ i rfl hb
    | _ => cases is
  have due : ((Table.look (p.chan c).modules a).bind (fun m => Table.look m.ownClose pos)).all
      (fun t => decide (t + Config.ownCloseGap ≤ p.mono)) = true := by
    rw [Option.all_eq_true]
    intro t ht
    obtain ⟨m, hm, ht⟩ := Option.bind_eq_some_iff.mp ht
    exact decide_eq_true (old m t hm ht)
  unfold Part.ownClose
  dsimp only
  refine if_pos ?_
  rw [Bool.and_eq_true, Bool.and_eq_true, Bool.not_eq_true']
  exact ⟨⟨unasked, due⟩, decide_eq_true room⟩

end OwnClose

theorem Part.looseSeen_touch (p : Part) (ks : List Nat) (n : Nat) (was : Option LockState) (l : LockState) :
    (p.touch ks).looseSeen n was l = (p.looseSeen n was l).touch ks := by
  have seen (l : LockState) : (p.touch ks).lockSeen n was l = (p.lockSeen n was l).touch ks :=
    (Part.Alarm.lockSeen n was l).comm (g := (·.touch ks)) (fun _ _ => rfl) p
  cases l with
  | opened =>
    have raised := p.raise_touch ks .lockJam (.slot n) none
    exact (congrArg (fun q : Part => q.ownClose (p.slotEntry n).chan (p.slotEntry n).addr (p.slotEntry n).pos) raised).trans
      (Part.ownClose_touch _ _ _ _ _)
  | locked => exact seen .locked
  | jammed => exact seen .jammed

/-! ## The position that an answer reports -/

/-- The row has the lock state that is reported. -/
theorem Part.heard_locked {p : Part} {n : Nat} {r : SlotRow} (hrow : Table.look p.rows n = some r) (c : Chan) (a : Nat) (l : LockState) :
    Table.look ((p.heard c a ModEntry.served).locks n l).rows n = some { r with lock := some l } := by
  have rows : ((p.heard c a ModEntry.served).locks n l).rows = Table.modify p.rows n (fun r => { r with lock := some l }) := by
    cases c <;> rfl
  rw [rows, Table.look_modify_same, hrow]
  rfl

/-- A lock that was LOCKED before. -/
theorem Part.locks_kept {p : Part} {n : Nat} {r : SlotRow} (hrow : Table.look p.rows n = some r) (wasLocked : r.lock = some .locked)
    (c : Chan) (a : Nat) (f : SlotRow → SlotRow) : ((p.heard c a ModEntry.served).locks n .locked).onRow n f
    = p.answered c a n id f ModEntry.served := by
  refine Part.heard_rows hrow ModEntry.served (g := fun r => { r with lock := some .locked }) ?_
  rw [← wasLocked]

section Reported
variable {s : State} {c : Chan} {a pos n g : Nat} {ack : Bool} {y : Reply} {rs : List PosReport} {v : Occ} {l : LockState} {r : SlotRow}
  (good : GoodReply y a) (line : (s.part.chan c).onLine = some (.poll a ack)) (running : (s.part.chan c).state = .running)
  (served : (s.part.chan c).modState a = .active ∨ (s.part.chan c).modState a = .silent)
  (hr : rs[pos]? = some ⟨v, l, none⟩) (slot : s.part.slotAt c a pos = some n) (others : ∀ x, x ≠ pos → s.part.slotAt c a x = none)
  (entry : s.part.slotEntry n = ⟨c, a, pos, .standard, g⟩)
include good line running served hr slot others entry

/-- A poll is what becomes of the lock state and then of the occupancy that it reports. -/
theorem Part.poll_position {Y : Part}
    (locked : ∀ ks, ∃ ls, ((s.part.heard c a ModEntry.served).touch ks).lockReport n l = Y.touch ls)
    (map : ∀ ks, ((Y.touch ks).occReport c n v).slotMap = s.part.slotMap) :
    ∃ ks, s.part.pollAnswer c y rs = (Y.touch ks).occReport c n v := by
  obtain ⟨ks, heard⟩ := Part.poll_served served
  obtain ⟨ls, locked⟩ := locked ks
  have slotMap : ((s.part.heard c a ModEntry.served).touch ks).slotMap = s.part.slotMap := by cases c <;> rfl
  have at' (x : Nat) : ((s.part.heard c a ModEntry.served).touch ks).slotAt c a x = s.part.slotAt c a x := by
    unfold Part.slotAt
    rw [slotMap]
  have kind : (((s.part.heard c a ModEntry.served).touch ks).slotEntry n).kind = .standard := by
    unfold Part.slotEntry at entry ⊢
    rw [slotMap, entry]
  have position := Part.takeReports_standard (p := (s.part.heard c a ModEntry.served).touch ks) hr ((at' pos).trans slot)
    (fun x hx => (at' x).trans (others x hx)) kind (by
      rw [locked, slotMap]
      exact map ls)
  have answer := Part.pollAnswer_running good line running rs
  rw [heard, position, locked] at answer
  exact ⟨ls, answer⟩

theorem State.poll_position {Y Q : Part}
    (locked : ∀ ks, ∃ ls, ((s.part.heard c a ModEntry.served).touch ks).lockReport n l = Y.touch ls)
    (taken : ∀ ks, ((Y.touch ks).occReport c n v).unlit = Q.unlit) (map : Q.slotMap = s.part.slotMap) :
    s.Becomes (exec (.pollAnswer c ⟨y, rs⟩) s) Q := by
  obtain ⟨ks, answer⟩ := Part.poll_position good line running served hr slot others entry locked fun ks =>
    (congrArg Part.slotMap (taken ks) :).trans map
  exact State.becomes_of_unlit ((congrArg Part.unlit answer).trans (taken ks))

variable (hrow : Table.look s.part.rows n = some r) (ctx : r.ctx = none)
include hrow ctx

/-- A row that no context is bound to. -/
theorem State.poll_loose {Q : Part}
    (taken : ∀ ks, (((((s.part.heard c a ModEntry.served).locks n l).looseSeen n r.lock l).touch ks).occReport c n v).unlit = Q.unlit)
    (map : Q.slotMap = s.part.slotMap) : s.Becomes (exec (.pollAnswer c ⟨y, rs⟩) s) Q := by
  refine State.poll_position good line running served hr slot others entry (fun ks => ?_) taken map
  have row : Table.look ((s.part.heard c a ModEntry.served).touch ks).rows n = some r := by cases c <;> exact hrow
  obtain ⟨ls, reported⟩ := Part.lockReport_loose (p := (s.part.heard c a ModEntry.served).touch ks) row ctx l
  refine ⟨ks ++ ls, reported.trans ?_⟩
  have pulled := ((s.part.heard c a ModEntry.served).locks n l).looseSeen_touch ks n r.lock l
  exact (congrArg (Part.touch · ls) pulled).trans (Part.touch_touch _ _ _)

/-! ## An occupancy that settles (R162) -/

section Settles
variable {o : Occ} (isLocked : l = .locked) (wasLocked : r.lock = some .locked) (hocc : r.occ = some o)
include isLocked wasLocked hocc

omit hocc in
/-- A lock that stays LOCKED: the occupancy alone. -/
theorem State.poll_settles {Q : Part}
    (taken : ∀ Y : Part, Y = (s.part.heard c a ModEntry.served).locks n .locked → Table.look Y.rows n = some r →
      ∀ ks, ((Y.touch ks).occReport c n v).unlit = Q.unlit)
    (map : Q.slotMap = s.part.slotMap) : s.Becomes (exec (.pollAnswer c ⟨y, rs⟩) s) Q := by
  subst isLocked
  refine State.poll_loose good line running served hr slot others entry hrow ctx (fun ks => ?_) map
  have row : Table.look ((s.part.heard c a ModEntry.served).locks n .locked).rows n = some { r with lock := some .locked } :=
    Part.heard_locked hrow c a .locked
  rw [← wasLocked] at row
  have still : ((s.part.heard c a ModEntry.served).locks n .locked).looseSeen n r.lock .locked
      = (s.part.heard c a ModEntry.served).locks n .locked := if_pos wasLocked
  rw [still]
  exact taken _ rfl row ks

theorem State.poll_same (same : r.settle = none ∧ v = o ∨ ∃ st, r.settle = some st ∧ v = st.cand) :
    s.Becomes (exec (.pollAnswer c ⟨y, rs⟩) s) (s.part.answered c a n id id ModEntry.served) := by
  refine State.poll_settles good line running served hr slot others entry hrow ctx isLocked wasLocked (fun Y hY row ks => ?_)
    (by cases c <;> rfl)
  have known : r.occ = some v ∧ r.settle = none ∨ r.occ ≠ none ∧ ∃ st, r.settle = some st ∧ st.cand = v := by
    rcases same with ⟨steady, rfl⟩ | ⟨st, settling, cand⟩
    · exact .inl ⟨hocc, steady⟩
    · exact .inr ⟨by rw [hocc]; nofun, st, settling, cand.symm⟩
  rw [Part.occReport_same (p := Y.touch ks) row known c, Part.touch_unlit, hY]
  refine congrArg Part.unlit (Part.heard_row hrow ModEntry.served (g := fun r => { r with lock := some .locked }) (h := id) ?_)
  rw [← wasLocked]
  rfl

theorem State.poll_sets (moves : v ≠ o) (other : ∀ st, r.settle = some st → v ≠ st.cand) :
    s.Becomes (exec (.pollAnswer c ⟨y, rs⟩) s) (s.part.answered c a n id (fun r => { r with
      settle := some ⟨v, s.part.now, s.part.mono + s.part.policy.settle⟩ }) ModEntry.served) := by
  refine State.poll_settles good line running served hr slot others entry hrow ctx isLocked wasLocked (fun Y hY row ks => ?_)
    (by cases c <;> rfl)
  have sets : (Y.touch ks).occReport c n v = (Y.settleSet n v).touch ks := by
    cases settle : r.settle with
    | none =>
      rw [Part.occReport_starts (p := Y.touch ks) row hocc c settle moves, Part.tell_none ctx, ite_self]
      rfl
    | some st =>
      rw [Part.occReport_restarts (p := Y.touch ks) row hocc c settle (other st settle) moves, Part.tell_none ctx, Part.tell_none ctx,
        ite_self, ite_self]
      rfl
  have clock : Y.settleSet n v = Y.onRow n (fun r => { r with settle := some ⟨v, s.part.now, s.part.mono + s.part.policy.settle⟩ }) := by
    rw [hY]
    cases c <;> rfl
  rw [sets, Part.touch_unlit, clock, hY,
    Part.locks_kept hrow wasLocked]

theorem State.poll_bounces {st : Settle} (settling : r.settle = some st) (other : v ≠ st.cand) (back : v = o) :
    s.Becomes (exec (.pollAnswer c ⟨y, rs⟩) s) (s.part.answered c a n satUp (fun r => { r with settle := none }) ModEntry.served) := by
  refine State.poll_settles good line running served hr slot others entry hrow ctx isLocked wasLocked (fun Y hY row ks => ?_)
    (by cases c <;> rfl)
  have cancels : (Y.touch ks).occReport c n v = ((Y.onRow n (fun r => { r with settle := none })).onChan c (fun ch => { ch with
      bounces := satUp ch.bounces })).touch ks := by
    rw [Part.occReport_bounces (p := Y.touch ks) row hocc c settling other back]
    dsimp only
    rw [Part.tell_none ctx, ite_self]
    cases c <;> rfl
  rw [cancels, Part.touch_unlit, hY, Part.locks_kept hrow wasLocked,
    Part.answered_bounces]

end Settles

/-! ## A lock state at a known row (R165) -/

section Locks
variable (hocc : r.occ = some v) (steady : r.settle = none)
include hocc steady

/-- An occupancy that stays: the lock alone. -/
theorem State.poll_looses {Q : Part}
    (seen : (s.part.answered c a n id (fun r => { r with lock := some l }) ModEntry.served).looseSeen n r.lock l = Q)
    (map : Q.slotMap = s.part.slotMap) : s.Becomes (exec (.pollAnswer c ⟨y, rs⟩) s) Q := by
  refine State.poll_loose good line running served hr slot others entry hrow ctx (fun ks => ?_) map
  have row := Part.heard_locked hrow c a l
  have same : (s.part.heard c a ModEntry.served).locks n l
      = s.part.answered c a n id (fun r => { r with lock := some l }) ModEntry.served := Part.heard_row hrow ModEntry.served rfl
  rw [same] at row
  rw [same, seen]
  have rowQ : Table.look Q.rows n = some { r with lock := some l } := by
    rw [← seen, ((s.part.answered c a n id (fun r => { r with lock := some l }) ModEntry.served).looseSeen_leaves n r.lock l).1]
    exact row
  rw [Part.occReport_same (p := Q.touch ks) rowQ (.inl ⟨hocc, steady⟩) c, Part.touch_unlit]

theorem State.poll_lock : let seen := s.part.answered c a n id (fun r => { r with lock := some l }) ModEntry.served
    let jam := seen.raise .lockJam (.slot n) none
    (l = .locked → r.lock ≠ some .locked → s.Becomes (exec (.pollAnswer c ⟨y, rs⟩) s) (seen.remove .lockJam (.slot n)))
    ∧ (l = .jammed → s.Becomes (exec (.pollAnswer c ⟨y, rs⟩) s) jam)
    ∧ (l = .opened → (s.part.chan c).queue.length < 12 →
      (∀ x i, x = BusCmd.lockClose a pos i → x ∉ (s.part.chan c).queue) →
      (∀ m t, Table.look (s.part.chan c).modules a = some m → Table.look m.ownClose pos = some t → t + 2000 ≤ s.part.mono) →
      s.Becomes (exec (.pollAnswer c ⟨y, rs⟩) s) (jam.onChan c (fun ch => { ch with queue := ch.queue ++ [.lockClose a pos .own] })))
    ∧ (l = .opened → (∃ m t, Table.look (s.part.chan c).modules a = some m ∧ Table.look m.ownClose pos = some t
        ∧ s.part.mono < t + 2000) → s.Becomes (exec (.pollAnswer c ⟨y, rs⟩) s) jam) := by
  have looses := fun {Q : Part} => State.poll_looses (Q := Q) good line running served hr slot others entry hrow ctx hocc steady
  have map : (s.part.answered c a n id (fun r => { r with lock := some l }) ModEntry.served).slotMap = s.part.slotMap := by cases c <;> rfl
  have chan : (s.part.answered c a n id (fun r => { r with lock := some l }) ModEntry.served).chan c
      = { (s.part.chan c) with onLine := none, modules := Table.modify (s.part.chan c).modules a ModEntry.served } := by cases c <;> rfl
  have mono : (s.part.answered c a n id (fun r => { r with lock := some l }) ModEntry.served).mono = s.part.mono := by cases c <;> rfl
  dsimp only
  generalize s.part.answered c a n id (fun r => { r with lock := some l }) ModEntry.served = q at *
  have jamRest := q.raise_restA .lockJam (.slot n) none
  have jamMap : (q.raise .lockJam (.slot n) none).slotMap = s.part.slotMap := (congrArg Part.slotMap jamRest :).trans map
  have jamChan : (q.raise .lockJam (.slot n) none).chan c
      = { (s.part.chan c) with onLine := none, modules := Table.modify (s.part.chan c).modules a ModEntry.served } :=
    (Part.chan_of_restA jamRest c).trans chan
  have jamMono : (q.raise .lockJam (.slot n) none).mono = s.part.mono := (congrArg Part.mono jamRest :).trans mono
  have at' : q.slotEntry n = ⟨c, a, pos, .standard, g⟩ := by
    unfold Part.slotEntry at entry ⊢
    rw [map]
    exact entry
  have closes : q.looseSeen n r.lock .opened = (q.raise .lockJam (.slot n) none).ownClose c a pos := by
    unfold Part.looseSeen
    rw [at']
  refine ⟨?_, ?_, ?_, ?_⟩
  · rintro rfl was
    exact looses (if_neg was) ((congrArg Part.slotMap (q.remove_restA .lockJam (.slot n)) :).trans map)
  · rintro rfl
    exact looses rfl jamMap
  · rintro rfl room none old
    have pushes := Part.ownClose_pushes (p := q.raise .lockJam (.slot n) Option.none) (c := c) (a := a) (pos := pos)
      (by rw [jamChan]; exact room) (by rw [jamChan]; exact none) (by
        rw [jamChan, jamMono]
        intro m t hm ht
        rw [Table.look_modify_same] at hm
        obtain ⟨m', hm', rfl⟩ := Option.map_eq_some_iff.mp hm
        exact old m' t hm' ht)
    exact looses (closes.trans pushes) (by cases c <;> exact jamMap)
  · rintro rfl ⟨m, t, hm, ht, recent⟩
    have stays := Part.ownClose_recent (p := q.raise .lockJam (.slot n) none) (c := c) (a := a) (pos := pos) (m := m.served) (t := t)
      (by rw [jamChan, Table.look_modify_same, hm]; rfl) ht (by rw [jamMono]; exact recent)
    exact looses (closes.trans stays) jamMap

end Locks

end Reported

end Sys2Proof.Machine
end

section
/-! PROOFS. A POLL answer for an UNKNOWN row: the key that is missed, and the return that comes late (R12, R13, R164). -/

namespace Sys2Proof.Machine
open Sys2Proof

theorem Part.keyAt_of_keys {p q : Part} (h : q.keys = p.keys) (n : Nat) : q.keyAt n = p.keyAt n := by
  unfold Part.keyAt
  rw [h]

theorem Part.keyByTag_of_keys {p q : Part} (h : q.keys = p.keys) (t : Nat) : q.keyByTag t = p.keyByTag t := by
  unfold Part.keyByTag
  rw [h]

/-- A sighting where another key is located than the one that is seen (R13). -/
theorem Part.sighting_missed {p : Part} {n h : Nat} {k : KeyRec} (at' : p.keyAt n = some (h, k)) (m : Nat) :
    p.sighting n .empty m = (p.keyTaken h k).remove .foreign (.slot n) := by
  unfold Part.sighting
  rw [at']
  rfl

/-- A tag seen where no key is located (R13). -/
theorem Part.sighting_arrives {p : Part} {n : Nat} (none : p.keyAt n = none) (t m : Nat) :
    p.sighting n (.tag t) m = p.keyArrived n (.tag t) m true := by
  unfold Part.sighting
  rw [none]

section Sighted
variable {s : State} {c : Chan} {a pos n g : Nat} {ack : Bool} {y : Reply} {rs : List PosReport} {v : Occ} {r : SlotRow}
  (good : GoodReply y a) (line : (s.part.chan c).onLine = some (.poll a ack)) (running : (s.part.chan c).state = .running)
  (served : (s.part.chan c).modState a = .active ∨ (s.part.chan c).modState a = .silent)
include good line running served

/-- A poll of a module ACTIVE or SILENT is what its reports come to. -/
theorem State.poll_takes {Q : Part} (taken : ∀ ks, (((s.part.heard c a ModEntry.served).touch ks).takeReports c a rs).unlit = Q.unlit) :
    s.Becomes (exec (.pollAnswer c ⟨y, rs⟩) s) Q := by
  obtain ⟨ks, heard⟩ := Part.poll_served served
  have answer := Part.pollAnswer_running good line running rs
  rw [heard] at answer
  exact State.becomes_of_unlit ((congrArg Part.unlit answer).trans (taken ks))

variable (hr : rs[pos]? = some ⟨v, .locked, none⟩) (slot : s.part.slotAt c a pos = some n)
  (others : ∀ x, x ≠ pos → s.part.slotAt c a x = none) (entry : s.part.slotEntry n = ⟨c, a, pos, .standard, g⟩)
  (hrow : Table.look s.part.rows n = some r)
include hr slot others entry hrow

theorem State.poll_sights (blank : r.Unseen) : s.Sights n v (.pollAnswer c ⟨y, rs⟩)
      (s.part.answered c a n id (fun r => { r with lock := some .locked, occ := some v }) ModEntry.served) := by
  have heard (ks : List Nat) := Part.sights_to (X := (s.part.heard c a ModEntry.served).touch ks)
    (T := s.part.answered c a n id (fun r => { r with lock := some .locked, occ := some v }) ModEntry.served) hr slot others
    (by rw [entry]) hrow blank (by cases c <;> rfl) (by cases c <;> rfl) (by cases c <;> rfl) (by cases c <;> rfl)
  exact ⟨fun is none => State.poll_takes good line running served fun ks => (heard ks).1 is none,
    fun t h k is tagged at' tag here located => State.poll_takes good line running served fun ks =>
      (heard ks).2 t h k is tagged at' tag here located⟩

variable (ctx : r.ctx = none) (unknown : r.occ = none) (unsettled : r.settle = none)
include ctx unknown unsettled

omit good line running served in
/-- The sighting that an answer brings. -/
theorem Part.heard_sights {W : Part}
    (hW : (s.part.answered c a n id (fun r => { r with lock := some .locked, occ := some v }) ModEntry.served).lockSeen n r.lock .locked = W)
    (ks : List Nat) (map : ∀ ls, ((W.touch ls).sighting n v s.part.now).slotMap = s.part.slotMap) :
    ∃ ls, ((s.part.heard c a ModEntry.served).touch ks).takeReports c a rs = (W.touch ls).sighting n v s.part.now := by
  have slotMap : ((s.part.heard c a ModEntry.served).touch ks).slotMap = s.part.slotMap := by cases c <;> rfl
  have at' (x : Nat) : ((s.part.heard c a ModEntry.served).touch ks).slotAt c a x = s.part.slotAt c a x := by
    unfold Part.slotAt
    rw [slotMap]
  have kind : (((s.part.heard c a ModEntry.served).touch ks).slotEntry n).kind = .standard := by
    unfold Part.slotEntry at entry ⊢
    rw [slotMap, entry]
  have now : ((s.part.heard c a ModEntry.served).touch ks).now = s.part.now := by cases c <;> rfl
  have seen : (((s.part.heard c a ModEntry.served).touch ks).seen n v).lockSeen n r.lock .locked = W.touch ks := by
    rw [← hW]
    refine Eq.trans (congrArg (fun q : Part => q.lockSeen n r.lock .locked) ?_)
      ((Part.Alarm.lockSeen n r.lock .locked).comm (g := (·.touch ks)) (fun _ _ => rfl) _)
    cases c <;> rfl
  have taken := Part.takeReports_unknown (p := (s.part.heard c a ModEntry.served).touch ks) (r := r) hr ((at' pos).trans slot)
    (fun x hx => (at' x).trans (others x hx)) kind (by cases c <;> exact hrow) ctx unknown unsettled
  rw [seen, now, slotMap] at taken
  obtain ⟨ls, taken⟩ := taken fun ls => by
    rw [Part.touch_touch]
    exact map _
  rw [Part.touch_touch] at taken
  exact ⟨_, taken⟩

/-- The key that was located at a position found EMPTY is MISSING. -/
theorem State.poll_unfinds {h : Nat} {k : KeyRec} (at' : s.part.keyAt n = some (h, k)) (is : v = .empty) :
    ∃ u, exec (.pollAnswer c ⟨y, rs⟩) s = .next u
      ∧ u.part.rows = Table.modify s.part.rows n (fun r => { r with lock := some .locked, occ := some v })
      ∧ u.part.alt.flags.getLsbD 2 = true ∧ u.part.rentals = s.part.rentals
      ∧ Table.look u.part.keys h = some { k with
          state := .missing, loc := none, inSince := none, rental := none, away := none } := by
  subst is
  obtain ⟨ks, heard⟩ := Part.poll_served served
  have answer := Part.pollAnswer_running good line running rs
  rw [heard] at answer
  generalize hT : s.part.answered c a n id (fun r => { r with lock := some .locked, occ := some .empty }) ModEntry.served = T
  have fields : T.rows = Table.modify s.part.rows n (fun r => { r with lock := some .locked, occ := some .empty })
      ∧ T.keys = s.part.keys ∧ T.rentals = s.part.rentals ∧ T.slotMap = s.part.slotMap := by
    rw [← hT]
    cases c <;> exact ⟨rfl, rfl, rfl, rfl⟩
  obtain ⟨rows, keys, rentals, slotMap⟩ := fields
  generalize hW : T.lockSeen n r.lock .locked = W
  have rest : W.restA = T.restA := hW ▸ Part.lockSeen_restA _ _ _ _
  have atW (ls : List Nat) : (W.touch ls).keyAt n = some (h, k) :=
     (Part.keyAt_of_keys (q := W.touch ls) ((congrArg Part.keys rest :).trans keys : W.keys = s.part.keys) n).trans at'
  have left (ls : List Nat) : ∃ lmp, (((W.touch ls).keyTaken h k).remove .foreign (.slot n)).restA = ({ T.touch ls with
      keys := Table.put T.keys h k.taken, lmp := lmp
      auths := if k.state = .assigned then (T.touch ls).retargeted h k.cls else T.auths } : Part).restA := by
    obtain ⟨lmp, taken⟩ := Part.keyTaken_of_restA (p := T.touch ls) (q := W.touch ls) (congrArg (fun q : Part => q.touch ls) rest :) h k
    exact ⟨lmp, (Part.remove_restA _ _ _).trans taken⟩
  obtain ⟨ls, taken⟩ := Part.heard_sights hr slot others entry hrow ctx unknown unsettled (W := W) (by rw [hT]; exact hW) ks fun ls => by
    rw [Part.sighting_missed (atW ls)]
    obtain ⟨lmp, left⟩ := left ls
    exact (congrArg Part.slotMap left :).trans slotMap
  rw [taken, Part.sighting_missed (atW ls)] at answer
  obtain ⟨lmp, left⟩ := left ls
  have flag := (W.touch ls).keyTaken_flag h k
  generalize (W.touch ls).keyTaken h k = q at answer left flag
  obtain ⟨u, hu, -, hunlit⟩ := State.becomes_of_eq (s := s) answer
  have restU : u.part.alt.flags = q.alt.flags := (congrArg (fun q : Part => q.alt.flags) hunlit :).trans (q.remove_flags .foreign (.slot n))
  refine ⟨u, hu, ((congrArg Part.rows hunlit :).trans (congrArg Part.rows left :)).trans rows, by rw [restU]; exact flag,
    ((congrArg Part.rentals hunlit :).trans (congrArg Part.rentals left :)).trans rentals, ?_⟩
  have keysU : u.part.keys = Table.put T.keys h k.taken := (congrArg Part.keys hunlit :).trans (congrArg Part.keys left :)
  rw [keysU]
  exact Table.look_put_same _ _ _

/-- The key of a rental sighted at a position that was UNKNOWN is returned, the minute uncertain (R12, R61). -/
theorem State.poll_returns {t h i : Nat} {k : KeyRec} {z : Rental} (unlocked : r.lock = none) (is : v = .tag t)
    (at' : s.part.keyAt n = none) (tagged : s.part.keyByTag t = some (h, k)) (out : k.state = .out) (hrental : k.rental = some i)
    (hz : Table.look s.part.rentals i = some z) (hkey : z.key = h) (jam : s.part.alt.find .lockJam (.slot n) = none)
    (room : s.part.essRoom = true) (overdue : s.part.alt.find .overdue (.rental z.number) = none)
    (escalated : s.part.alt.find .escalated (.rental z.number) = none) :
    let x := z.assess s.part.now s.part.policy.blockLen s.part.policy.blocksCap (some n) (k.stateAt n) true false false
    s.Becomes (exec (.pollAnswer c ⟨y, rs⟩) s) (({
        (s.part.answered c a n id (fun r => { r with lock := some .locked, occ := some v }) ModEntry.served).remove .lockJam (.slot n) with
        keys := Table.put s.part.keys h (k.placed n s.part.now)
        rentals := Table.del s.part.rentals i
        due := s.part.due.filter (fun j => j != i) } : Part).queued
      ⟨.ret, 255, beBytes 4 z.number ++ beBytes 2 i ++ beBytes 2 h ++ beBytes 4 k.tag ++ beBytes 3 z.out ++ beBytes 3 z.due
        ++ beBytes 1 z.grace ++ beBytes 3 s.part.now ++ beBytes 2 n ++ beBytes 1 x.cls.code ++ beBytes 3 x.lateMinutes
        ++ beBytes 1 x.lateDays ++ beBytes 1 x.lateBlocks ++ beBytes 1 x.daysInUse ++ beBytes 1 (k.stateAt n).code
        ++ beBytes 1 (2 + (if x.flags.quick then 1 else 0) + (if x.flags.saturated then 8 else 0)
          + (if x.flags.clockAnomaly then 16 else 0))⟩) := by
  subst is
  dsimp only
  generalize hT : s.part.answered c a n id (fun r => { r with lock := some .locked, occ := some (.tag t) }) ModEntry.served = T
  have fields : T.keys = s.part.keys ∧ T.rentals = s.part.rentals ∧ T.slotMap = s.part.slotMap ∧ T.due = s.part.due
      ∧ T.alt = s.part.alt ∧ T.link = s.part.link ∧ T.policy = s.part.policy ∧ T.clock = s.part.clock := by
    rw [← hT]
    cases c <;> exact ⟨rfl, rfl, rfl, rfl, rfl, rfl, rfl, rfl⟩
  obtain ⟨keys, rentals, slotMap, due, alt, link, policy, clock⟩ := fields
  have calm : T.remove .lockJam (.slot n) = T := Part.remove_none (alt ▸ jam)
  have hW : T.lockSeen n r.lock .locked = T := by rw [unlocked, Part.lockSeen_unknown, calm]
  have atT (ls : List Nat) : (T.touch ls).keyAt n = none :=
    (Part.keyAt_of_keys (q := T.touch ls) (p := s.part) keys n).trans at'
  have tag : Table.look (Table.put T.keys z.key (k.placed n s.part.now)) z.key = some (k.placed n s.part.now) := Table.look_put_same _ _ _
  have returns (ls : List Nat) := Part.keyArrived_out (p := T) (n := n) (m := s.part.now) (late := true) ls
    ((Part.keyByTag_of_keys keys t).trans tagged) out hrental (rentals ▸ hz) hkey
    (show T.essRoom = true by unfold Part.essRoom; rw [link]; exact room) (alt ▸ overdue) (alt ▸ escalated)
  rw [Part.returnReport_sighted (by rw [← hkey]; exact tag), keys, rentals, due, policy, hkey] at returns
  refine State.poll_takes good line running served fun ks => ?_
  obtain ⟨ls, taken⟩ := Part.heard_sights hr slot others entry hrow ctx unknown unsettled (W := T) (by rw [hT]; exact hW) ks fun ls => by
    rw [Part.sighting_arrives (atT ls)]
    exact (congrArg Part.slotMap (returns ls) :).trans slotMap
  rw [taken, Part.sighting_arrives (atT ls), returns ls, calm, ← policy]
  rfl

end Sighted

end Sys2Proof.Machine
end

section
/-! PROOFS. The POLL answer of a module ABSENT or DOWN, and the contexts told of a settle (R44, R47, R158, R164). -/

namespace Sys2Proof.Machine
open Sys2Proof

/-! ## A module found by its POLL (R158, R164) -/

/-- The entry of a module that a poll has found. -/
def ModEntry.found (m : ModEntry) : ModEntry := { m with state := .active, misses := 0, reprobe := none, ack := true }

section Position
variable {s : State} {c : Chan} {a pos n g : Nat} {ack : Bool} {y : Reply} {rs : List PosReport} {v : Occ}
  (good : GoodReply y a) (line : (s.part.chan c).onLine = some (.poll a ack)) (running : (s.part.chan c).state = .running)
  (hr : rs[pos]? = some ⟨v, .locked, none⟩) (slot : s.part.slotAt c a pos = some n) (others : ∀ x, x ≠ pos → s.part.slotAt c a x = none)
  (entry : s.part.slotEntry n = ⟨c, a, pos, .standard, g⟩)
include good line running hr slot others entry

theorem State.poll_finds (lost : (s.part.chan c).modState a = .absent ∨ (s.part.chan c).modState a = .down)
    (hrow : Table.look s.part.rows n = some ⟨none, none, none, none, none⟩)
    (calm : s.part.alt.find .moduleDown (.module c a) = none) (room : s.part.link.reports.length < 48) :
    s.Sights n v (.pollAnswer c ⟨y, rs⟩)
      ((s.part.answered c a n id (fun r => { r with lock := some .locked, occ := some v }) ModEntry.found).queued
        ⟨.moduleEvent, 255, beBytes 1 c.code ++ beBytes 1 a ++ [1#8]⟩) := by
  have answer := Part.pollAnswer_running good line running rs
  rw [Part.poll_found lost calm room] at answer
  have ends := Part.sights_to
    (X := ((s.part.heard c a ModEntry.found).queued ⟨.moduleEvent, 255, beBytes 1 c.code ++ beBytes 1 a ++ [1#8]⟩).touch [lampKey c a])
    (T := (s.part.answered c a n id (fun r => { r with lock := some .locked, occ := some v }) ModEntry.found).queued
      ⟨.moduleEvent, 255, beBytes 1 c.code ++ beBytes 1 a ++ [1#8]⟩) hr slot others
    (by rw [entry]) hrow SlotRow.unseen_blank (by cases c <;> rfl) (by cases c <;> rfl) (by cases c <;> rfl) (by cases c <;> rfl)
  exact ⟨fun is none => State.becomes_of_unlit ((congrArg Part.unlit answer).trans (ends.1 is none)),
    fun t h k is tagged at' tag here located => State.becomes_of_unlit ((congrArg Part.unlit answer).trans
      (ends.2 t h k is tagged at' tag here located))⟩

end Position

/-! ## A context told of a settle (R44, R47) -/

theorem Part.tell_some {r : SlotRow} {i : Nat} (ctx : r.ctx = some i) (p : Part) (f : Part → Nat → Part) : p.tell r f = f p i := by
  unfold Part.tell
  rw [ctx]

theorem Table.modify_id {α : Type} (t : Table α) (i : Nat) : Table.modify t i id = t := by
  induction t with
  | nil => rfl
  | cons e t ih =>
    unfold Table.modify
    split
    · rfl
    · rw [ih]

/-- A context whose key's removal starts to settle. -/
def Ctx.leaves (x : Ctx) (window : Nat) : Ctx :=
  match x.state with
  | .opening => { x with state := .removedSettling, lockLimit := none, window := some window }
  | _ => { x with state := .removedSettling }

section Told
variable {p : Part} {i : Nat} {x : Ctx} (hx : Table.look p.ctxs i = some x)
include hx

theorem Part.ctxSettleStart_leaves (st : x.state = .opening ∨ x.state = .opened ∨ x.state = .removedSettling) : ∃ ks,
    p.ctxSettleStart i = (p.onCtx i (·.leaves (p.mono + 1000 * p.policy.removalWindow))).touch ks := by
  have table {f : Ctx → Ctx} (same : f x = x.leaves (p.mono + 1000 * p.policy.removalWindow)) :
      Table.modify p.ctxs i f = Table.modify p.ctxs i (·.leaves (p.mono + 1000 * p.policy.removalWindow)) := Table.modify_congr hx same
  rcases st with st | st | st
  · have start : p.ctxSettleStart i
        = ((p.openWindow i).onCtx i (fun c => { c with state := .removedSettling })).touchSlotO x.slot := by
      unfold Part.ctxSettleStart
      rw [hx]
      dsimp only
      rw [st]
    rw [start]
    obtain ⟨ks, touched⟩ := ((p.openWindow i).onCtx i (fun c => { c with state := .removedSettling })).touchSlotO_touch x.slot
    refine ⟨ks, touched.trans ?_⟩
    refine congrArg (fun t => ({ p with ctxs := t } : Part).touch ks) ((Table.modify_modify _ _ _ _).trans (table ?_))
    unfold Ctx.leaves
    rw [st]
  · have start : p.ctxSettleStart i = (p.onCtx i (fun c => { c with state := .removedSettling })).touchSlotO x.slot := by
      unfold Part.ctxSettleStart
      rw [hx]
      dsimp only
      rw [st]
    rw [start]
    obtain ⟨ks, touched⟩ := (p.onCtx i (fun c => { c with state := .removedSettling })).touchSlotO_touch x.slot
    refine ⟨ks, touched.trans ?_⟩
    refine congrArg (fun t => ({ p with ctxs := t } : Part).touch ks) (table ?_)
    unfold Ctx.leaves
    rw [st]
  · have start : p.ctxSettleStart i = p := by
      unfold Part.ctxSettleStart
      rw [hx]
      dsimp only
      rw [st]
    rw [start]
    refine ⟨[], ?_⟩
    unfold Part.onCtx
    have same : Table.modify p.ctxs i (·.leaves (p.mono + 1000 * p.policy.removalWindow)) = p.ctxs := by
      refine (Table.modify_congr hx (g := id) ?_).trans (Table.modify_id _ _)
      unfold Ctx.leaves
      rw [st]
      exact congrArg (fun z => ({ x with state := z } : Ctx)) st.symm
    rw [same]
    unfold Part.touch
    rw [List.append_nil]

/-- A removal that does not last: the context is open again, and its window may be over (R46, R47). -/
theorem Part.ctxSettleCancel_opens (st : x.state = .removedSettling) : ∃ ks,
    p.ctxSettleCancel i = ((p.onCtx i (fun x => { x with state := .opened })).touch ks).windowExpire i := by
  obtain ⟨ks, touched⟩ := (p.onCtx i (fun c => { c with state := .opened })).touchSlotO_touch x.slot
  refine ⟨ks, Eq.trans ?_ (congrArg (Part.windowExpire · i) touched)⟩
  unfold Part.ctxSettleCancel
  rw [hx]
  dsimp only
  rw [st]

theorem Part.windowExpire_early {w : Nat} (window : x.window = some w) (early : p.mono < w) : p.windowExpire i = p := by
  unfold Part.windowExpire
  rw [hx]
  refine if_neg fun over' => ?_
  have due : w ≤ p.mono := by simpa [window] using over'.2
  omega

theorem Part.windowExpire_late {w : Nat} (opened : x.state = .opened) (window : x.window = some w) (late : w ≤ p.mono) :
    p.windowExpire i = p.giveUp i x .notTaken := by
  unfold Part.windowExpire
  rw [hx]
  refine if_pos ⟨opened, ?_⟩
  rw [window]
  exact decide_eq_true late

end Told

end Sys2Proof.Machine
end

section
/-! PROOFS. A POLL answer at the slot of an open context: the settle starts and is cancelled (R44, R46, R47). -/

namespace Sys2Proof.Machine
open Sys2Proof

/-! ## The lock of a slot whose context is open (R165) -/

/-- LOCKED moves no context before CLOSING. -/
theorem Part.ctxLock_locked {p : Part} {i : Nat} {x : Ctx} (hx : Table.look p.ctxs i = some x)
    (st : x.state = .opening ∨ x.state = .opened ∨ x.state = .removedSettling) : p.ctxLock i .locked = p := by
  unfold Part.ctxLock
  rw [hx]
  dsimp only
  rcases st with st | st | st <;> rw [st]

theorem Part.lockReport_held {p : Part} {n i : Nat} {r : SlotRow} {x : Ctx} (hrow : Table.look p.rows n = some r)
    (wasLocked : r.lock = some .locked) (ctx : r.ctx = some i) (hx : Table.look p.ctxs i = some x)
    (st : x.state = .opening ∨ x.state = .opened ∨ x.state = .removedSettling) :
    ∃ ks, p.lockReport n .locked = (p.locks n .locked).touch ks := by
  refine ⟨[lampKey (p.slotEntry n).chan (p.slotEntry n).addr], ?_⟩
  have found : r.ctx.bind (fun i => (Table.look p.ctxs i).map (fun c => (i, c))) = some (i, x) := by
    rw [ctx, Option.bind_some, hx]
    rfl
  have live : x.state ≠ .donePending := by rcases st with st | st | st <;> rw [st] <;> nofun
  have stays : ((p.locks n .locked).touchSlot n).ctxLock i .locked = (p.locks n .locked).touchSlot n := Part.ctxLock_locked hx st
  unfold Part.lockReport
  rw [show p.row n = some r from hrow]
  dsimp only
  rw [found]
  dsimp only
  rw [if_neg live, if_neg (show ¬ (LockState.locked = .locked ∧ r.lock ≠ some .locked) from fun moved => moved.2 wasLocked)]
  split
  · exact stays
  · rfl

/-- An ACTIVE module stays ACTIVE. -/
theorem Part.answered_active {p : Part} {c : Chan} {a : Nat} (active : (p.chan c).modState a = .active) (n : Nat) (b : Nat → Nat)
    (g : SlotRow → SlotRow) : p.answered c a n b g ModEntry.served = p.answered c a n b g (fun m => { m with misses := 0, ack := true }) := by
  obtain ⟨m, hm, st⟩ := Channel.look_of_modState active (by nofun)
  have modules : Table.modify (p.chan c).modules a ModEntry.served
      = Table.modify (p.chan c).modules a (fun m => { m with misses := 0, ack := true }) := by
    refine Table.modify_congr hm ?_
    unfold ModEntry.served
    rw [← st]
  unfold Part.answered
  refine Part.onChan_congr ?_
  have chan : ({ p with rows := Table.modify p.rows n g } : Part).chan c = p.chan c := by cases c <;> rfl
  rw [chan, modules]

/-- A context may change before the answer's own writes or after. -/
theorem Part.answered_onCtx (p : Part) (c : Chan) (a n i : Nat) (b : Nat → Nat) (g : SlotRow → SlotRow) (f : ModEntry → ModEntry)
    (h : Ctx → Ctx) : (p.onCtx i h).answered c a n b g f = (p.answered c a n b g f).onCtx i h := by
  cases c <;> rfl

theorem Part.touch_onCtx (p : Part) (ks ls : List Nat) (i : Nat) (h : Ctx → Ctx) :
    ((p.touch ks).onCtx i h).touch ls = (p.onCtx i h).touch (ks ++ ls) :=
  Part.touch_touch (p.onCtx i h) ks ls

/-- To give up is the same from any part that has what it reads, and from any state of the context. -/
theorem Part.GaveUp.of_alike {p q u : Part} {i n h : Nat} {x : Ctx} {a : Auth} {k : KeyRec} {res : CtxResult} {st : CtxState}
    (gave : q.GaveUp u i n { x with state := st } a h k res) (mono : q.mono = p.mono) (slotMap : q.slotMap = p.slotMap)
    (auths : q.auths = p.auths) (rentals : q.rentals = p.rentals) (waitQ : q.waitQ = p.waitQ) (policy : q.policy = p.policy)
    (clock : q.clock = p.clock) (cen : q.cen = p.cen) : p.GaveUp u i n x a h k res := by
  obtain ⟨ctxU, authsU, keyU, closeU, rentalsU, waitU, policyU, clockU, cenU⟩ := gave
  have entry : q.slotEntry n = p.slotEntry n := by
    unfold Part.slotEntry
    rw [slotMap]
  rw [mono] at ctxU
  rw [entry] at closeU
  exact ⟨ctxU, authsU.trans (by rw [auths]), keyU, closeU, rentalsU.trans rentals, waitU.trans waitQ, policyU.trans policy,
    clockU.trans clock, cenU.trans cen⟩

/-- The settle that an answer starts where the lock stays LOCKED (R162). -/
theorem Part.locks_settles {p : Part} {c : Chan} {a n : Nat} {r : SlotRow} (hrow : Table.look p.rows n = some r)
    (wasLocked : r.lock = some .locked) (active : (p.chan c).modState a = .active) (ks : List Nat) (v : Occ) :
    (((p.heard c a ModEntry.served).locks n .locked).touch ks).settleSet n v
      = (p.answered c a n id (fun r => { r with settle := some ⟨v, p.now, p.mono + p.policy.settle⟩ })
        (fun m => { m with misses := 0, ack := true })).touch ks := by
  have set : ((p.heard c a ModEntry.served).locks n .locked).settleSet n v = ((p.heard c a ModEntry.served).locks n .locked).onRow n
      (fun r => { r with settle := some ⟨v, p.now, p.mono + p.policy.settle⟩ }) := by
    cases c <;> rfl
  rw [← Part.answered_active active, ← Part.locks_kept hrow wasLocked, ← set]
  rfl

/-- The settle that an answer ends where the lock stays LOCKED (R162). -/
theorem Part.locks_bounces {p : Part} {c : Chan} {a n : Nat} {r : SlotRow} (hrow : Table.look p.rows n = some r)
    (wasLocked : r.lock = some .locked) (active : (p.chan c).modState a = .active) (ks : List Nat) :
    ((((p.heard c a ModEntry.served).locks n .locked).touch ks).onRow n (fun r => { r with settle := none })).onChan c
        (fun ch => { ch with bounces := satUp ch.bounces })
      = (p.answered c a n satUp (fun r => { r with settle := none }) (fun m => { m with misses := 0, ack := true })).touch ks := by
  rw [← Part.answered_active active, ← Part.answered_bounces, ← Part.locks_kept hrow wasLocked]
  cases c <;> rfl

section Told
variable {s : State} {c : Chan} {a pos n g i : Nat} {ack : Bool} {y : Reply} {rs : List PosReport} {v o : Occ} {r : SlotRow} {x : Ctx}
  (good : GoodReply y a) (line : (s.part.chan c).onLine = some (.poll a ack)) (running : (s.part.chan c).state = .running)
  (active : (s.part.chan c).modState a = .active)
  (hr : rs[pos]? = some ⟨v, .locked, none⟩) (slot : s.part.slotAt c a pos = some n) (others : ∀ x, x ≠ pos → s.part.slotAt c a x = none)
  (entry : s.part.slotEntry n = ⟨c, a, pos, .standard, g⟩) (hrow : Table.look s.part.rows n = some r)
  (wasLocked : r.lock = some .locked) (hocc : r.occ = some o) (ctx : r.ctx = some i) (hx : Table.look s.part.ctxs i = some x)
  (st : x.state = .opening ∨ x.state = .opened ∨ x.state = .removedSettling)
include good line running active hr slot others entry hrow wasLocked ctx hx st

/-- The poll is the occupancy that it reports. -/
theorem Part.poll_held (map : ∀ ks, ((((s.part.heard c a ModEntry.served).locks n .locked).touch ks).occReport c n v).slotMap = s.part.slotMap) :
    ∃ ks, s.part.pollAnswer c y rs = (((s.part.heard c a ModEntry.served).locks n .locked).touch ks).occReport c n v := by
  refine Part.poll_position good line running (.inl active) hr slot others entry (fun ks => ?_) map
  have row : Table.look ((s.part.heard c a ModEntry.served).touch ks).rows n = some r := by cases c <;> exact hrow
  have look : Table.look ((s.part.heard c a ModEntry.served).touch ks).ctxs i = some x := by cases c <;> exact hx
  obtain ⟨ls, held⟩ := Part.lockReport_held row wasLocked ctx look st
  exact ⟨ks ++ ls, held.trans (Part.touch_touch ((s.part.heard c a ModEntry.served).locks n .locked) ks ls)⟩

include hocc

/-- The removal of the key starts to settle. -/
theorem State.poll_leaves (empty : v = .empty) (full : o ≠ .empty)
    (other : r.settle = none ∨ ∃ st, r.settle = some st ∧ st.cand ≠ .empty ∧ st.cand ≠ o) :
    s.Becomes (exec (.pollAnswer c ⟨y, rs⟩) s)
      (({ s.part with
        ctxs := Table.modify s.part.ctxs i (·.leaves (s.part.mono + 1000 * s.part.policy.removalWindow)) } : Part).answered c a n id
          (fun r => { r with settle := some ⟨v, s.part.now, s.part.mono + s.part.policy.settle⟩ })
          (fun m => { m with misses := 0, ack := true })) := by
  generalize hY : (s.part.heard c a ModEntry.served).locks n .locked = Y
  have row : Table.look Y.rows n = some r := by
    rw [← hY, Part.heard_locked hrow c a .locked, ← wasLocked]
  have moves : v ≠ o := by
    rw [empty]
    exact full.symm
  have sets (ks : List Nat) : (Y.touch ks).occReport c n v = ((Y.touch ks).settleSet n v).ctxSettleStart i := by
    rcases other with steady | ⟨z, settling, candFull, -⟩
    · rw [Part.occReport_starts (p := Y.touch ks) row hocc c steady moves, if_pos empty, Part.tell_some ctx]
    · rw [Part.occReport_restarts (p := Y.touch ks) row hocc c settling (by rw [empty]; exact candFull.symm) moves, if_pos empty,
        Part.tell_some ctx]
  have leaves (ks : List Nat) : ∃ ls, (Y.touch ks).occReport c n v = (({ s.part with
      ctxs := Table.modify s.part.ctxs i (·.leaves (s.part.mono + 1000 * s.part.policy.removalWindow)) } : Part).answered c a n id
        (fun r => { r with settle := some ⟨v, s.part.now, s.part.mono + s.part.policy.settle⟩ })
        (fun m => { m with misses := 0, ack := true })).touch ls := by
    have look : Table.look ((s.part.answered c a n id (fun r => { r with
        settle := some ⟨v, s.part.now, s.part.mono + s.part.policy.settle⟩ }) (fun m => { m with misses := 0, ack := true })).touch ks).ctxs i
        = some x := by cases c <;> exact hx
    obtain ⟨ls, left⟩ := Part.ctxSettleStart_leaves look st
    refine ⟨ks ++ ls, ?_⟩
    rw [sets ks, ← hY, Part.locks_settles hrow wasLocked active, left, Part.touch_onCtx, ← Part.answered_onCtx]
    cases c <;> rfl
  obtain ⟨ks, answer⟩ := Part.poll_held good line running active hr slot others entry hrow wasLocked ctx hx st fun ks => by
    obtain ⟨ls, left⟩ := leaves ks
    rw [hY, left]
    cases c <;> rfl
  obtain ⟨ls, left⟩ := leaves ks
  rw [hY, left] at answer
  exact State.becomes_of_unlit ((congrArg Part.unlit answer).trans (Part.touch_unlit _ _))

end Told

/-! ## A removal that does not last (R46, R47) -/

section Cancelled
variable {s : State} {c : Chan} {a pos n g i w : Nat} {ack : Bool} {y : Reply} {rs : List PosReport} {v o : Occ} {r : SlotRow} {x : Ctx}
  (good : GoodReply y a) (line : (s.part.chan c).onLine = some (.poll a ack)) (running : (s.part.chan c).state = .running)
  (active : (s.part.chan c).modState a = .active)
  (hr : rs[pos]? = some ⟨v, .locked, none⟩) (slot : s.part.slotAt c a pos = some n) (others : ∀ x, x ≠ pos → s.part.slotAt c a x = none)
  (entry : s.part.slotEntry n = ⟨c, a, pos, .standard, g⟩) (hrow : Table.look s.part.rows n = some r)
  (wasLocked : r.lock = some .locked) (ctx : r.ctx = some i) (hx : Table.look s.part.ctxs i = some x)
  (st : x.state = .removedSettling) (window : x.window = some w)
include good line running active hr slot others entry hrow wasLocked ctx hx st window

/-- The context is told that the settle is cancelled, the bounces and the row being as b and f say. -/
theorem State.poll_reopens {b : Nat → Nat} {f : SlotRow → SlotRow}
    (taken : ∀ ks, (((s.part.heard c a ModEntry.served).locks n .locked).touch ks).occReport c n v
      = ((s.part.answered c a n b f (fun m => { m with misses := 0, ack := true })).touch ks).ctxSettleCancel i) :
    (s.part.mono < w → s.Becomes (exec (.pollAnswer c ⟨y, rs⟩) s)
      (({ s.part with ctxs := Table.modify s.part.ctxs i (fun x => { x with state := .opened }) } : Part).answered c a n b f
        (fun m => { m with misses := 0, ack := true })))
    ∧ (∀ h z k, w ≤ s.part.mono → s.part.Carries i n x z h k → ∃ u, exec (.pollAnswer c ⟨y, rs⟩) s = .next u
      ∧ s.part.GaveUp u.part i n x z h k .notTaken) := by
  generalize hQ : ({ s.part with ctxs := Table.modify s.part.ctxs i (fun x => { x with state := .opened }) } : Part).answered c a n b f
    (fun m => { m with misses := 0, ack := true }) = Q
  have fields : Q.mono = s.part.mono ∧ Q.ctxs = Table.modify s.part.ctxs i (fun x => { x with state := .opened })
      ∧ Q.slotMap = s.part.slotMap ∧ Q.auths = s.part.auths ∧ Q.keys = s.part.keys ∧ Q.clock = s.part.clock
      ∧ ∀ d, (Q.chan d).queue = (s.part.chan d).queue := by
    rw [← hQ]
    cases c <;> exact ⟨rfl, rfl, rfl, rfl, rfl, rfl, fun d => by cases d <;> rfl⟩
  obtain ⟨mono, ctxs, slotMap, auths, keys, clock, queue⟩ := fields
  have look : Table.look Q.ctxs i = some { x with state := .opened } := by
    rw [ctxs, Table.look_modify_same, hx]
    rfl
  have reopens (ks : List Nat) : ∃ ls, (((s.part.heard c a ModEntry.served).locks n .locked).touch ks).occReport c n v
      = (Q.touch ls).windowExpire i := by
    have told : Table.look ((s.part.answered c a n b f (fun m => { m with misses := 0, ack := true })).touch ks).ctxs i = some x := by
      cases c <;> exact hx
    obtain ⟨ls, opens⟩ := Part.ctxSettleCancel_opens told st
    refine ⟨ks ++ ls, (taken ks).trans (opens.trans ?_)⟩
    rw [Part.touch_onCtx, ← Part.answered_onCtx, ← hQ]
    rfl
  have poll := Part.poll_held good line running active hr slot others entry hrow wasLocked ctx hx (.inr (.inr st))
  refine ⟨fun early => ?_, fun h z k late carries => ?_⟩
  · have stays (ls : List Nat) : (Q.touch ls).windowExpire i = Q.touch ls :=
      Part.windowExpire_early (p := Q.touch ls) look window (mono ▸ early)
    obtain ⟨ks, answer⟩ := poll fun ks => by
      obtain ⟨ls, opens⟩ := reopens ks
      rw [opens, stays]
      exact slotMap
    obtain ⟨ls, opens⟩ := reopens ks
    rw [opens, stays] at answer
    exact State.becomes_of_unlit ((congrArg Part.unlit answer).trans (Part.touch_unlit _ _))
  · have carriesQ (ls : List Nat) : (Q.touch ls).Carries i n { x with state := .opened } z h k := by
      obtain ⟨-, hslot, hkey, hsub, hauth, act, valid, hk, releasing, hloc, room⟩ := carries
      have now : Q.now = s.part.now := by unfold Part.now; rw [clock]
      have slotEntry : Q.slotEntry n = s.part.slotEntry n := by unfold Part.slotEntry; rw [slotMap]
      refine ⟨look, hslot, hkey, hsub, ?_, act, ?_, keys ▸ hk, releasing, hloc, ?_⟩
      · show Q.auths.find? _ = _
        rw [auths]
        exact hauth
      · show z.validUntil.all (fun v => decide (Q.now ≤ v)) = true
        rw [now]
        exact valid
      · show (Q.chan (Q.slotEntry n).chan).queue.length < _
        rw [queue, slotEntry]
        exact room
    have gives (ls : List Nat) : ∃ ms, (Q.touch ls).windowExpire i = ((Q.touch ls).givenUp i n z h k .notTaken).touch ms := by
      rw [Part.windowExpire_late (p := Q.touch ls) look rfl window (mono ▸ late)]
      exact Part.giveUp_touch (carriesQ ls) .notTaken
    obtain ⟨ks, answer⟩ := poll fun ks => by
      obtain ⟨ls, opens⟩ := reopens ks
      obtain ⟨ms, gives⟩ := gives ls
      obtain ⟨ctxs', A, B, leaves⟩ := (Q.touch ls).givenUp_leaves i n z h k .notTaken
      rw [opens, gives, leaves]
      exact slotMap
    obtain ⟨ls, opens⟩ := reopens ks
    obtain ⟨ms, gives⟩ := gives ls
    rw [opens, gives] at answer
    have gave := Part.gaveUp_givenUp (carriesQ ls) .notTaken
    obtain ⟨u, hu, -, hunlit⟩ := State.becomes_of_eq (s := s) answer
    rw [Part.touch_unlit] at hunlit
    have gaveU := gave.of_unlit (tfl := ((Q.touch ls).givenUp i n z h k .notTaken).tfl)
      (link := ((Q.touch ls).givenUp i n z h k .notTaken).link) hunlit
    have others : Q.rentals = s.part.rentals ∧ Q.waitQ = s.part.waitQ ∧ Q.policy = s.part.policy ∧ Q.cen = s.part.cen := by
      rw [← hQ]
      cases c <;> exact ⟨rfl, rfl, rfl, rfl⟩
    obtain ⟨rentals, waitQ, policy, cen⟩ := others
    exact ⟨u, hu, gaveU.of_alike (q := Q.touch ls) mono slotMap auths rentals waitQ policy clock cen⟩

/-- The occupancy that was settling toward EMPTY is there again. -/
theorem State.poll_stays {z : Settle} (hocc : r.occ = some o) (full : v ≠ .empty) (settling : r.settle = some z) (cand : z.cand = .empty) :
    (s.part.mono < w →
      (v = o → s.Becomes (exec (.pollAnswer c ⟨y, rs⟩) s)
        (({ s.part with ctxs := Table.modify s.part.ctxs i (fun x => { x with state := .opened }) } : Part).answered c a n satUp
          (fun r => { r with settle := none }) (fun m => { m with misses := 0, ack := true })))
      ∧ (v ≠ o → s.Becomes (exec (.pollAnswer c ⟨y, rs⟩) s)
        (({ s.part with ctxs := Table.modify s.part.ctxs i (fun x => { x with state := .opened }) } : Part).answered c a n id
          (fun r => { r with settle := some ⟨v, s.part.now, s.part.mono + s.part.policy.settle⟩ })
          (fun m => { m with misses := 0, ack := true }))))
    ∧ (∀ h b k, w ≤ s.part.mono → s.part.Carries i n x b h k → ∃ u, exec (.pollAnswer c ⟨y, rs⟩) s = .next u
      ∧ s.part.GaveUp u.part i n x b h k .notTaken) := by
  have row (ks : List Nat) : Table.look (((s.part.heard c a ModEntry.served).locks n .locked).touch ks).rows n = some r := by
    have locked := Part.heard_locked hrow c a .locked
    rw [← wasLocked] at locked
    exact locked
  have other : v ≠ z.cand := by
    rw [cand]
    exact full
  have reopens := fun {b : Nat → Nat} {f : SlotRow → SlotRow} => State.poll_reopens (b := b) (f := f) good line running active hr slot
    others entry hrow wasLocked ctx hx st window
  have back (is : v = o) := reopens (b := satUp) (f := fun r => { r with settle := none }) fun ks => by
    rw [Part.occReport_bounces (row ks) hocc c settling other is]
    dsimp only
    rw [if_pos cand, Part.tell_some ctx, Part.locks_bounces hrow wasLocked active]
  have moves (isnt : v ≠ o) := reopens (b := id)
      (f := fun r => { r with settle := some ⟨v, s.part.now, s.part.mono + s.part.policy.settle⟩ }) fun ks => by
    rw [Part.occReport_restarts (row ks) hocc c settling other isnt, if_neg full, if_pos cand, Part.tell_some ctx,
      Part.locks_settles hrow wasLocked active]
  refine ⟨fun early => ⟨fun is => (back is).1 early, fun isnt => (moves isnt).1 early⟩, fun h b k late carries => ?_⟩
  by_cases is : v = o
  · exact (back is).2 h b k late carries
  · exact (moves is).2 h b k late carries

end Cancelled

end Sys2Proof.Machine
end

section
/-! PROOFS. A lost module takes no command: what its loss brings about starts elsewhere (R140, R157). -/

namespace Sys2Proof.Machine
open Sys2Proof

/-! ## A channel that bars a module -/

/-- Module a is not served, and no command for it waits. -/
structure Channel.Bars (ch : Channel) (a : Nat) : Prop where
  inactive : ch.modState a ≠ .active
  unserved : ch.modState a ≠ .silent
  queue : ∀ b ∈ ch.queue, b.addr ≠ a

section Bars
variable {p q : Part} {c : Chan} {a : Nat}

theorem Channel.Bars.of_queue {ch ch' : Channel} (h : ch.Bars a) (modules : ch'.modules = ch.modules)
    (queue : ∀ b ∈ ch'.queue, b.addr ≠ a) : ch'.Bars a := by
  have state : ch'.modState a = ch.modState a := by
    unfold Channel.modState
    rw [modules]
  exact ⟨state ▸ h.inactive, state ▸ h.unserved, queue⟩

theorem Channel.Bars.push {ch : Channel} (h : ch.Bars a) {b : BusCmd} (other : b.addr ≠ a) : (ch.push b).Bars a := by
  refine h.of_queue rfl fun x hx => ?_
  rcases List.mem_append.mp hx with mem | mem
  · exact h.queue x mem
  · rw [List.mem_singleton.mp mem]
    exact other

theorem Channel.Bars.pushLock {ch : Channel} (h : ch.Bars a) {b : BusCmd} (other : b.addr ≠ a) : (ch.pushLock b).Bars a := by
  unfold Channel.pushLock
  split
  · exact h.push other
  · exact h

theorem Channel.Bars.leaveClose {ch : Channel} (h : ch.Bars a) (i : Nat) : (ch.leaveClose i).Bars a := by
  refine h.of_queue rfl fun x hx => ?_
  obtain ⟨b, hb, rfl⟩ := List.mem_map.mp hx
  have addr : (b.leave i).addr = b.addr := by
    unfold BusCmd.leave
    split
    · split <;> rfl
    · rfl
  rw [addr]
  exact h.queue b hb

theorem Part.bars_onChan (h : (p.chan c).Bars a) {d : Chan} {f : Channel → Channel} (hf : d = c → (f (p.chan c)).Bars a) :
    ((p.onChan d f).chan c).Bars a := by
  by_cases same : d = c
  · subst same
    rw [Part.onChan_chan_self]
    exact hf rfl
  · rw [Part.chan_onChan_other _ (Ne.symm same)]
    exact h

/-- An ACTIVE module is another one. -/
theorem Part.bars_other (h : (p.chan c).Bars a) {d : Chan} {x : Nat} (active : p.moduleActive d x = true) (same : d = c) : x ≠ a := by
  subst same
  rintro rfl
  unfold Part.moduleActive at active
  simp only [Bool.and_eq_true, beq_iff_eq] at active
  exact h.inactive active.2

/-! ## Contexts that end, and those that start in their place -/

theorem Part.bars_startCtx (h : (p.chan c).Bars a) (i : Nat) (x : RelReq) {g : Grant}
    (active : p.moduleActive (p.slotEntry g.1).chan (p.slotEntry g.1).addr = true) : ((p.startCtx i x g).chan c).Bars a := by
  have bind {q : Part} (hq : (q.chan c).Bars a) (y : Ctx) (f : SlotRow → SlotRow) :
      ((((({ q with ctxs := Table.put q.ctxs i y } : Part).onRow g.1 f).onChan (p.slotEntry g.1).chan
        (·.pushLock (.lockOpen (p.slotEntry g.1).addr (p.slotEntry g.1).pos i))).touchSlot g.1).chan c).Bars a := by
    have kept : ((({ q with ctxs := Table.put q.ctxs i y } : Part).onRow g.1 f).chan c) = q.chan c := by cases c <;> rfl
    have pushed := Part.bars_onChan (p := (({ q with ctxs := Table.put q.ctxs i y } : Part).onRow g.1 f)) (c := c) (a := a) (kept ▸ hq)
      (d := (p.slotEntry g.1).chan) (f := (·.pushLock (.lockOpen (p.slotEntry g.1).addr (p.slotEntry g.1).pos i)))
      fun same => (kept ▸ hq).pushLock (Part.bars_other h active same)
    cases c <;> exact pushed
  have key {q : Part} (hq : (q.chan c).Bars a) (j : Nat) (k : KeyRec) : ((q.setKey j k).chan c).Bars a := by
    rw [(q.spares_setKey (c := c) j k).chan]
    exact hq
  have auth (n : Nat) (f : Auth → Auth) : ((p.onAuth n f).chan c).Bars a := by
    rw [(p.spares_onAuth (c := c) n f).chan]
    exact h
  unfold Part.startCtx
  dsimp only
  split
  · split
    · exact bind (key (auth _ _) _ _) _ _
    · exact bind (key h _ _) _ _
  · split
    · exact bind (auth _ _) _ _
    · exact bind h _ _

theorem bars_takeQueueFrom (n i : Nat) (p : Part) (h : (p.chan c).Bars a) : ((takeQueueFrom n i p).chan c).Bars a := by
  induction n generalizing p with
  | zero => exact h
  | succ n ih =>
    unfold takeQueueFrom
    split
    · exact h
    · next w _ =>
      split
      · next g granted =>
        have active := Part.recheck_active granted
        have left : (Part.chan { p with waitQ := p.waitQ.filter (fun x => x.id != w.id) } c).Bars a := by cases c <;> exact h
        have active' : Part.moduleActive { p with waitQ := p.waitQ.filter (fun x => x.id != w.id) } (p.slotEntry g.1).chan
          (p.slotEntry g.1).addr = true := by generalize (p.slotEntry g.1).chan = d at *; cases d <;> exact active
        exact Part.bars_startCtx left i w.req active'
      · refine ih _ ?_
        rw [(p.spares_endEntry (c := c) w _).chan]
        exact h

theorem Part.bars_freeCtx (h : (p.chan c).Bars a) (i : Nat) : ((p.freeCtx i).chan c).Bars a := by
  unfold Part.freeCtx
  split
  · exact h
  · next x _ =>
    refine bars_takeQueueFrom _ _ _ ?_
    have unbound : (Part.chan (Part.unbind { p with ctxs := Table.del p.ctxs i } i x) c).Bars a := by
      rw [(Part.spares_unbind (c := c) { p with ctxs := Table.del p.ctxs i } i x).chan]
      cases c <;> exact h
    have first := Part.bars_onChan unbound (d := .A) (f := (·.leaveClose i)) fun _ => unbound.leaveClose i
    exact Part.bars_onChan first (d := .B) (f := (·.leaveClose i)) fun _ => first.leaveClose i

theorem Part.bars_ctxFinalUnbound (h : (p.chan c).Bars a) (i : Nat) : ((p.ctxFinalUnbound i).chan c).Bars a := by
  unfold Part.ctxFinalUnbound
  split
  · exact h
  · next x _ =>
    have unbound := (p.spares_unbind (c := c) i x).chan
    dsimp only
    split
    · refine Part.bars_freeCtx ?_ i
      have told := ((Part.spares_enter (c := c) (p.unbind i x) x.report).trans (Part.spares_onCtx _ i (fun c => { c with slot := none }))).chan
      rw [told, unbound]
      exact h
    · rw [((Part.spares_onCtx (c := c) (p.unbind i x) i _).trans (Part.spares_await _ _)).chan, unbound]
      exact h

theorem Part.bars_ctxEnd (h : (p.chan c).Bars a) (i : Nat) (r : CtxResult) : ((p.ctxEnd i r).chan c).Bars a := by
  have result : ((p.setResult i r).chan c).Bars a := by
    rw [show (p.setResult i r).chan c = p.chan c from (p.spares_onCtx (c := c) i _).chan]
    exact h
  unfold Part.ctxEnd
  split
  · exact h
  · next x _ =>
    split
    · rw [((p.spares_unbind (c := c) i x).trans (Part.spares_onCtx _ i _)).chan]
      exact h
    · split
      · exact Part.bars_ctxFinalUnbound h i
      · exact Part.bars_ctxFinalUnbound result i
    · refine Part.bars_ctxFinalUnbound ?_ i
      rw [((Part.spares_authBack (c := c) (p.setResult i r) x.req).trans (Part.spares_returnKey _ x)).chan]
      exact result

theorem Part.bars_foldl {α : Type} {f : Part → α → Part} (hf : ∀ q y, (q.chan c).Bars a → ((f q y).chan c).Bars a) (l : List α)
    (h : (p.chan c).Bars a) : ((l.foldl f p).chan c).Bars a := by
  induction l generalizing p with
  | nil => exact h
  | cons y l ih => exact ih (hf p y h)

theorem Part.bars_ctxsLost (h : (p.chan c).Bars a) (slots : List Nat) : ((p.ctxsLost slots).chan c).Bars a :=
  Part.bars_foldl (fun q i hq => by
    split
    · exact Part.bars_ctxEnd hq i _
    · exact hq) _ h

/-! ## The census, and the lamps at the end of the step -/

theorem bars_sweepOn (l : List (Chan × Nat)) (h : (p.chan c).Bars a) : ((sweepOn l p).chan c).Bars a := by
  induction l generalizing p with
  | nil =>
    rw [show sweepOn [] p = p.cenEnd .complete .idle from rfl, (p.spares_cenEnd (c := c) .complete .idle).chan]
    exact h
  | cons x l ih =>
    obtain ⟨d, y⟩ := x
    have reached : ((p.reachLost d).chan c).Bars a := by
      rw [((p.onlyCen_reachLost d).spares (c := c)).chan]
      exact h
    unfold sweepOn
    dsimp only
    generalize p.reachLost d = q at *
    split
    · exact ih reached
    · split
      · next read =>
        simp only [Bool.and_eq_true] at read
        have other := Part.bars_other reached read.1
        unfold Part.offerRead
        have sent : ((q.onCen (fun n => { n with pos := some (d, y), read := some .notSent })).chan c).Bars a := by cases c <;> exact reached
        split
        · have pushed := Part.bars_onChan sent (d := d) (f := (·.push (.readTags y))) fun same => sent.push (other same)
          cases c <;> exact pushed
        · cases c <;> exact sent
      · refine ih ?_
        rw [((q.onlyCen_moduleUnverified d y).spares (c := c)).chan]
        exact reached

theorem Part.bars_cenAnswer (h : (p.chan c).Bars a) (d : Chan) (x : Nat) : ((p.cenAnswer d x none).chan c).Bars a := by
  unfold Part.cenAnswer
  split
  · exact h
  · cases c <;> exact h
  · split
    · exact h
    · refine bars_sweepOn _ ?_
      rw [(((p.onlyCen_moduleUnverified d x).spares (c := c)).trans (Part.spares_onCen _ _)).chan]
      exact h

theorem Part.bars_recompute (h : (p.chan c).Bars a) (k : Nat) : ((p.recompute k).chan c).Bars a := by
  by_cases served : p.moduleServed (lampModule k).1 (lampModule k).2 = true
  · have other : (lampModule k).1 = c → (lampModule k).2 ≠ a := by
      rintro rfl rfl
      unfold Part.moduleServed at served
      simp only [Bool.and_eq_true, Bool.or_eq_true, beq_iff_eq] at served
      exact served.2.elim h.inactive h.unserved
    unfold Part.recompute
    dsimp only
    rw [served, if_neg (show ¬ (!true) = true from nofun)]
    split
    · split
      · refine Part.bars_onChan h fun same => h.of_queue rfl fun b hb => ?_
        obtain ⟨x, hx, rfl⟩ := List.mem_map.mp hb
        split
        · exact other same
        · exact h.queue x hx
      · exact Part.bars_onChan h fun _ => h.of_queue rfl fun b hb => h.queue b (List.mem_filter.mp hb).1
    · split
      · unfold Part.offerLamp
        split
        · have pushed := Part.bars_onChan h (d := (lampModule k).1)
            (f := (·.push (.lamp (lampModule k).2 (p.lampsOf (lampModule k).1 (lampModule k).2)))) fun same => h.push (other same)
          cases c <;> exact pushed
        · cases c <;> exact h
      · exact h
  · unfold Part.recompute
    dsimp only
    rw [Bool.eq_false_iff.mpr served, if_pos (show (!false) = true from rfl)]
    exact h

theorem Part.bars_lampRun (h : (p.chan c).Bars a) : (p.lampRun.chan c).Bars a := by
  unfold Part.lampRun
  exact Part.bars_foldl (fun q k hq => Part.bars_recompute hq k) _ (by cases c <;> exact h)

end Bars

end Sys2Proof.Machine
end

section
/-! PROOFS. The seventh miss of a poll: the module is lost, and the context at its slots ends (R57, R156, R157). -/

namespace Sys2Proof.Machine
open Sys2Proof

/-! ## What a loss does after its contexts have ended (R157) -/

theorem Part.reportsGrow_sweepOn (l : List (Chan × Nat)) (p : Part) : p.ReportsGrow (sweepOn l p) := by
  induction l generalizing p with
  | nil => exact (p.spares_cenEnd (c := .A) .complete .idle).reports
  | cons x l ih =>
    obtain ⟨d, a⟩ := x
    have reached : p.ReportsGrow (p.reachLost d) := ((p.onlyCen_reachLost d).spares (c := .A)).reports
    unfold sweepOn
    dsimp only
    refine reached.trans ?_
    generalize p.reachLost d = q
    split
    · exact ih q
    · split
      · refine .of_reports ?_
        unfold Part.offerRead
        split <;> cases d <;> rfl
      · exact (((q.onlyCen_moduleUnverified d a).spares (c := .A)).reports).trans (ih _)

/-- A step of the census or of a tracking entry: it leaves contexts, authorizations, keys, the modules, and the images. -/
structure Part.Tells (p q : Part) : Prop where
  same : p.SameCtxs q
  reports : p.ReportsGrow q
  images : q.lmp.images = p.lmp.images
  modules : ∀ c, (q.chan c).modules = (p.chan c).modules
  state : ∀ c, (q.chan c).state = (p.chan c).state
  misses : ∀ c, (q.chan c).misses = (p.chan c).misses
  bars : ∀ c a, (p.chan c).Bars a → (q.chan c).Bars a

theorem Part.Tells.refl (p : Part) : p.Tells p := ⟨.refl p, .refl p, rfl, fun _ => rfl, fun _ => rfl, fun _ => rfl, fun _ _ h => h⟩

theorem Part.Tells.trans {p q r : Part} (h : p.Tells q) (k : q.Tells r) : p.Tells r :=
  ⟨h.same.trans k.same, h.reports.trans k.reports, k.images.trans h.images, fun c => (k.modules c).trans (h.modules c),
    fun c => (k.state c).trans (h.state c), fun c => (k.misses c).trans (h.misses c), fun c a hb => k.bars c a (h.bars c a hb)⟩

theorem Part.Tells.foldl {α : Type} {f : Part → α → Part} (h : ∀ q y, Part.Tells q (f q y)) (l : List α) (p : Part) :
    p.Tells (l.foldl f p) := by
  induction l generalizing p with
  | nil => exact .refl p
  | cons y l ih => exact (h p y).trans (ih _)

/-- Where the channels stand. -/
theorem Part.Tells.of_chans {p q : Part} (same : p.SameCtxs q) (reports : p.ReportsGrow q) (images : q.lmp.images = p.lmp.images)
    (chan : ∀ c, q.chan c = p.chan c) : p.Tells q :=
  ⟨same, reports, images, fun c => by rw [chan], fun c => by rw [chan], fun c => by rw [chan], fun c a h => by rw [chan]; exact h⟩

theorem Part.tells_of_restA {p q : Part} (same : q.restA = p.restA) (reports : p.ReportsGrow q) : p.Tells q :=
  .of_chans (.of_restC (Part.restC_of_restA same)) reports (congrArg (·.lmp.images) same :) (Part.chan_of_restA same)

theorem Part.tells_trackRespond (p : Part) (e : Nat) (r : Result) (fields : List Byte) : p.Tells (p.trackRespond e r fields) :=
  have spares (c : Chan) := p.spares_trackRespond (c := c) e r fields
  .of_chans (p.sameCtxs_trackRespond e r fields) (spares .A).reports (spares .A).lamps.1 fun c => (spares c).chan

theorem Part.tells_cenAnswer (p : Part) (c : Chan) (a : Nat) : p.Tells (p.cenAnswer c a none) := by
  have leaves : (p.cenAnswer c a none).restC = p.restC ∧ p.ReportsGrow (p.cenAnswer c a none) := by
    unfold Part.cenAnswer
    split
    · exact ⟨rfl, .refl p⟩
    · exact ⟨rfl, .of_reports rfl⟩
    · split
      · exact ⟨rfl, .refl p⟩
      · have counted := (p.moduleUnverified_leaves c a).1
        refine ⟨(sweepOn_leaves _ _).1.trans ((Part.onCen_restC _ _).trans counted), ?_⟩
        exact (((p.onlyCen_moduleUnverified c a).spares (c := .A)).trans (Part.spares_onCen _ _)).reports.trans
          (Part.reportsGrow_sweepOn _ _)
  obtain ⟨rest, reports⟩ := leaves
  refine ⟨.of_restC rest, reports, (congrArg (·.lmp.images) rest :), fun d => ?_, fun d => ?_, fun d => ?_,
    fun d x h => Part.bars_cenAnswer h c a⟩
  · cases d
    · exact (congrArg (·.chanA.modules) rest :)
    · exact (congrArg (·.chanB.modules) rest :)
  · cases d
    · exact (congrArg (·.chanA.state) rest :)
    · exact (congrArg (·.chanB.state) rest :)
  · cases d
    · exact (congrArg (·.chanA.misses) rest :)
    · exact (congrArg (·.chanB.misses) rest :)

theorem Part.tells_tellLoss (p : Part) (c : Chan) (b : BusCmd) : p.Tells (p.tellLoss c b) := by
  cases b with
  | passed a cls d e =>
    unfold Part.tellLoss Part.trackMiss
    dsimp only
    split
    · exact .refl p
    · split
      · exact p.tells_trackRespond _ _ _
      · exact .refl p
  | readTags a => exact p.tells_cenAnswer c a
  | lockOpen a pos i => exact .refl p
  | lockClose a pos i => exact .refl p
  | lamp a ls => exact .refl p

theorem Part.tells_deferredLost (p : Part) (c : Chan) (a : Nat) : p.Tells (p.deferredLost c a) := by
  unfold Part.deferredLost
  split
  · exact p.tells_cenAnswer c a
  · exact .refl p

/-- After the lamps of the module. -/
theorem Part.lossTold_tells (p : Part) (c : Chan) (a : Nat) (st : ModState) (gone : List BusCmd) :
    (p.lampLost c a).Tells (p.lossTold c a st gone) := by
  have told := (Part.Tells.foldl (fun q b => q.tells_tellLoss c b) gone (p.lampLost c a)).trans (Part.tells_deferredLost _ c a)
  unfold Part.lossTold
  generalize ((gone.foldl (fun q b => q.tellLoss c b) (p.lampLost c a)).deferredLost c a) = q at *
  have raised := Part.tells_of_restA (q.raise_restA .moduleDown (.module c a) none) (q.reportsGrow_raise _ _ _)
  exact (told.trans raised).trans (Part.tells_of_restA (Part.offerOrd_restA _ _) (Part.reportsGrow_offerOrd _ _))

theorem Part.lossTold_flag (p : Part) (c : Chan) (a : Nat) (st : ModState) (gone : List BusCmd) :
    (p.lossTold c a st gone).alt.flags.getLsbD 6 = true := by
  unfold Part.lossTold
  exact (Part.flagsRise_offerOrd _ _).rise 6 (Part.raise_flag _ .moduleDown _ _)

section LampLost
variable (p : Part) (c : Chan) (a : Nat)

theorem Part.lampLost_image : Table.look (p.lampLost c a).lmp.images (lampKey c a) = none := by
  have images : (p.lampLost c a).lmp.images = Table.del p.lmp.images (lampKey c a) := by cases c <;> rfl
  rw [images]
  exact Table.look_del_same _ _

theorem Part.lampLost_chan (d : Chan) : ((p.lampLost c a).chan d).modules = (p.chan d).modules
    ∧ ((p.lampLost c a).chan d).state = (p.chan d).state ∧ ((p.lampLost c a).chan d).misses = (p.chan d).misses := by
  cases c <;> cases d <;> exact ⟨rfl, rfl, rfl⟩

theorem Part.lampLost_bars {d : Chan} {x : Nat} (h : (p.chan d).Bars x) : ((p.lampLost c a).chan d).Bars x := by
  obtain ⟨modules, -, -⟩ := p.lampLost_chan c a d
  refine h.of_queue modules fun b hb => h.queue b ?_
  cases c <;> cases d
  · exact (List.mem_filter.mp hb).1
  · exact hb
  · exact hb
  · exact (List.mem_filter.mp hb).1

theorem Part.lampLost_reports : p.ReportsGrow (p.lampLost c a) := .of_reports (by cases c <;> rfl)

end LampLost

/-! ## The module that is lost -/

/-- A module DOWN. -/
theorem Part.losing_chan (p : Part) (c : Chan) (a : Nat) (st : ModState) (d : Chan) :
    (p.losing c a st).chan d = (p.onChan c (·.loses p.mono a st)).chan d := by
  obtain ⟨rows, ks, unknown, -⟩ := (p.onChan c (·.loses p.mono a st)).rowsUnknown_eq (p.moduleSlots c a)
  unfold Part.losing
  rw [unknown]
  cases d <;> rfl

theorem Part.losing_bars {p : Part} {c : Chan} {a : Nat} {m : ModEntry} (hm : Table.look (p.chan c).modules a = some m) :
    ((p.losing c a .down).chan c).Bars a := by
  rw [Part.losing_chan, Part.onChan_chan_self]
  have state : ((p.chan c).loses p.mono a .down).modState a = .down := by
    unfold Channel.modState Channel.loses
    dsimp only
    rw [Table.look_modify_same, hm]
    rfl
  refine ⟨by rw [state]; nofun, by rw [state]; nofun, fun b hb => ?_⟩
  have kept := (List.mem_filter.mp hb).2
  simpa using kept

/-- What the loss of a module DOWN leaves of it. -/
theorem Part.moduleLost_leaves {p : Part} {c : Chan} {a : Nat} {m : ModEntry} (hm : Table.look (p.chan c).modules a = some m) :
    Table.look ((p.moduleLost c a .down).chan c).modules a
        = some { m with state := .down, reprobe := some (p.mono + 10000) }
      ∧ ((p.moduleLost c a .down).chan c).state = (p.chan c).state ∧ ((p.moduleLost c a .down).chan c).misses = (p.chan c).misses
      ∧ (p.moduleLost c a .down).alt.flags.getLsbD 6 = true ∧ ((p.moduleLost c a .down).chan c).Bars a
      ∧ Table.look (p.moduleLost c a .down).lmp.images (lampKey c a) = none ∧ (p.moduleLost c a .down).rentals = p.rentals := by
  rw [Part.moduleLost_eq]
  have bars := Part.bars_ctxsLost (Part.losing_bars hm) (p.moduleSlots c a)
  have rest := (p.losing c a .down).ctxsLost_restK (p.moduleSlots c a)
  have chan := p.losing_chan c a .down c
  rw [Part.onChan_chan_self] at chan
  have rentals : (p.losing c a .down).rentals = p.rentals := by
    obtain ⟨rows, ks, unknown, -⟩ := (p.onChan c (·.loses p.mono a .down)).rowsUnknown_eq (p.moduleSlots c a)
    unfold Part.losing
    rw [unknown]
    cases c <;> rfl
  generalize (p.losing c a .down).ctxsLost (p.moduleSlots c a) = q at *
  have fields : (q.chan c).modules = ((p.losing c a .down).chan c).modules ∧ (q.chan c).state = ((p.losing c a .down).chan c).state
      ∧ (q.chan c).misses = ((p.losing c a .down).chan c).misses := by
    cases c
    · exact ⟨(congrArg (·.chanA.modules) rest :), (congrArg (·.chanA.state) rest :), (congrArg (·.chanA.misses) rest :)⟩
    · exact ⟨(congrArg (·.chanB.modules) rest :), (congrArg (·.chanB.state) rest :), (congrArg (·.chanB.misses) rest :)⟩
  obtain ⟨modules, state, misses⟩ := fields
  rw [chan] at modules state misses
  generalize (p.chan c).queue.filter (fun b => b.addr == a) = gone
  have told := q.lossTold_tells c a .down gone
  obtain ⟨lampModules, lampState, lampMisses⟩ := q.lampLost_chan c a c
  refine ⟨?_, (told.state c).trans (lampState.trans state), (told.misses c).trans (lampMisses.trans misses), q.lossTold_flag c a .down gone,
    told.bars c a (q.lampLost_bars c a bars), ?_, ?_⟩
  · rw [(told.modules c).trans (lampModules.trans modules)]
    unfold Channel.loses
    dsimp only
    rw [Table.look_modify_same, hm]
    rfl
  · rw [told.images]
    exact q.lampLost_image c a
  · exact told.same.rentals.trans ((q.sameCtxs_lampLost c a).rentals.trans ((congrArg Part.rentals rest :).trans rentals))

/-- The one context bound to a slot of a module that is lost. -/
theorem Part.moduleLost_lost {p q : Part} (same : p.SameCtxs q) {c : Chan} {a : Nat} {st : ModState} {i n : Nat} {x : Ctx}
    (lone : q.LoneCtx (q.moduleSlots c a) i x) (hslot : x.slot = some n) (hi : i < 4) (ended : ∀ w ∈ q.waitQ, w.ended ≠ none)
    (room : x.state ≠ .donePending → q.essRoom = true) : p.LostCtx (q.moduleLost c a st) i n x := by
  have hx : Table.look p.ctxs i = some x := same.ctxs ▸ lone.found
  have dark : q.SameCtxs (q.losing c a st) := (q.sameCtxs_onChan c _).trans (Part.sameCtxs_rowsUnknown _ _)
  have rest : (q.losing c a st).waitQ = q.waitQ ∧ (q.losing c a st).link = q.link := by
    obtain ⟨rows, ks, unknown, -⟩ := (q.onChan c (·.loses q.mono a st)).rowsUnknown_eq (q.moduleSlots c a)
    unfold Part.losing
    rw [unknown]
    cases c <;> exact ⟨rfl, rfl⟩
  rw [Part.moduleLost_eq]
  generalize q.losing c a st = y at *
  have endedY : ∀ w ∈ y.waitQ, w.ended ≠ none := by
    rw [rest.1]
    exact ended
  have roomY : x.state ≠ .donePending → y.essRoom = true := by
    unfold Part.essRoom at *
    rw [rest.2]
    exact room
  have loneY : y.LoneCtx (q.moduleSlots c a) i x := ⟨dark.ctxs ▸ lone.found, lone.bound, dark.ctxs ▸ lone.lone⟩
  have lost := Part.ctxEnd_lost (same.trans dark) hx hslot endedY roomY
  rw [Part.ctxsLost_lone loneY hi (fun j hj => Part.ctxEnd_other endedY hj _)]
  generalize y.ctxEnd i .channelReset = z at *
  have told := z.lossTold_tells c a st ((q.chan c).queue.filter (fun b => b.addr == a))
  have kept := (z.sameCtxs_lampLost c a).trans told.same
  exact lost.of_same kept.ctxs kept.auths kept.keys kept.rentals ((z.lampLost_reports c a).trans told.reports)

/-! ## The seventh miss of a poll (R156) -/

section Seventh
variable {s : State} {c : Chan} {a : Nat} {ack : Bool} {m : ModEntry} (line : (s.part.chan c).onLine = some (.poll a ack))
  (running : (s.part.chan c).state = .running) (held : (s.part.chan c).held = false)
  (hm : Table.look (s.part.chan c).modules a = some m) (silent : m.state = .silent) (many : 6 ≤ m.misses)

/-- The part as the miss is counted. -/
def Part.missed (p : Part) (c : Chan) (a : Nat) : Part := p.onChan c (fun ch => { ch with
  onLine := none, misses := satUp ch.misses
  modules := Table.modify ch.modules a (fun m => { m with ack := false, misses := m.misses + 1 }) })

theorem Part.missed_chan (p : Part) (c : Chan) (a : Nat) : (p.missed c a).chan c = { (p.chan c) with
    onLine := none, misses := satUp (p.chan c).misses
    modules := Table.modify (p.chan c).modules a (fun m => { m with ack := false, misses := m.misses + 1 }) } :=
  Part.onChan_chan_self _ _ _

include hm

theorem Part.missed_look : Table.look ((s.part.missed c a).chan c).modules a = some { m with ack := false, misses := m.misses + 1 } := by
  rw [Part.missed_chan, Table.look_modify_same, hm]
  rfl

include line running held silent many

theorem Part.poll_loses : s.part.commandMiss c = (s.part.missed c a).moduleLost c a .down := by
  have look : Table.look (((s.part.heard c a ModEntry.unacked).countMiss c).chan c).modules a = some m.unacked := by
    unfold Part.countMiss
    rw [Part.onChan_chan_self]
    exact Part.heard_look hm _
  have counts : ((s.part.heard c a ModEntry.unacked).countMiss c).onModule c a (fun m => { m with misses := m.misses + 1 })
      = s.part.missed c a :=
    Eq.trans (by cases c <;> rfl) (Part.heard_counts s.part c a ModEntry.unacked (fun m => { m with misses := m.misses + 1 }))
  have charged : (s.part.heard c a ModEntry.unacked).chargeMiss c a = (s.part.missed c a).moduleLost c a .down := by
    unfold Part.chargeMiss
    dsimp only
    rw [look]
    dsimp only
    rw [show m.unacked.state = .silent from silent]
    dsimp only
    rw [if_pos (show Config.missesDown ≤ m.unacked.misses + 1 from Nat.succ_le_succ many), counts]
  refine (Part.commandMiss_poll held line ?_).trans charged
  obtain ⟨-, state, -⟩ := Part.moduleLost_leaves (Part.missed_look hm)
  rw [charged, state, Part.missed_chan]
  exact running

theorem State.poll_misses_last : ∃ u, exec (.commandMiss c) s = .next u
      ∧ Table.look (u.part.chan c).modules a = some { m with
          ack := false, misses := m.misses + 1, state := .down, reprobe := some (s.part.mono + 10000) }
      ∧ (u.part.chan c).misses = satUp (s.part.chan c).misses ∧ u.part.alt.flags.getLsbD 6 = true
      ∧ (∀ b ∈ (u.part.chan c).queue, b.addr ≠ a) ∧ Table.look u.part.lmp.images (lampKey c a) = none
      ∧ u.part.rentals = s.part.rentals := by
  have loses := Part.poll_loses line running held hm silent many
  obtain ⟨modules, -, misses, flag, bars, image, rentals⟩ := Part.moduleLost_leaves (Part.missed_look hm)
  have mono : (s.part.missed c a).mono = s.part.mono := by cases c <;> rfl
  have rentals' : (s.part.missed c a).rentals = s.part.rentals := by cases c <;> rfl
  rw [mono] at modules
  rw [Part.missed_chan] at misses
  generalize (s.part.missed c a).moduleLost c a .down = q at *
  have unlit := q.lampRun_unlit
  have chan := Part.chan_of_unlit unlit c
  refine ⟨{ s with part := q.lampRun }, ?_, ?_, (congrArg Channel.misses chan :).trans misses,
    (congrArg (·.alt.flags.getLsbD 6) unlit :).trans flag, (Part.bars_lampRun bars).queue, ?_,
    ((congrArg Part.rentals unlit :).trans rentals).trans rentals'⟩
  · exact congrArg (fun q : Part => (.next { s with part := q.lampRun } : Host.Outcome State Fault Refusal)) loses
  · rw [show (q.lampRun.chan c).modules = (q.chan c).modules from (congrArg Channel.modules chan :)]
    exact modules
  · rw [show q.lampRun.lmp.images = q.lmp.images from (congrArg (·.lmp.images) unlit :)]
    exact image

theorem State.poll_ends {i n : Nat} {x : Ctx} (hx : Table.look s.part.ctxs i = some x) (hi : i < 4) (slot : x.slot = some n)
    (mem : n ∈ s.part.moduleSlots c a)
    (lone : ∀ e ∈ s.part.ctxs, e.1 ≠ i → ∀ m, e.2.slot = some m → m ∉ s.part.moduleSlots c a)
    (ended : ∀ w ∈ s.part.waitQ, w.ended ≠ none) (room : x.state ≠ .donePending → s.part.essRoom = true) :
    ∃ u, exec (.commandMiss c) s = .next u ∧ s.part.LostCtx u.part i n x := by
  have loses := Part.poll_loses line running held hm silent many
  have fields : (s.part.missed c a).ctxs = s.part.ctxs ∧ (s.part.missed c a).waitQ = s.part.waitQ
      ∧ (s.part.missed c a).link = s.part.link ∧ (s.part.missed c a).slotMap = s.part.slotMap := by
    cases c <;> exact ⟨rfl, rfl, rfl, rfl⟩
  obtain ⟨ctxs, waitQ, link, slotMap⟩ := fields
  have same : s.part.SameCtxs (s.part.missed c a) := s.part.sameCtxs_onChan c _
  have slots : (s.part.missed c a).moduleSlots c a = s.part.moduleSlots c a := by
    unfold Part.moduleSlots
    rw [slotMap]
  have lost := Part.moduleLost_lost (c := c) (a := a) (st := .down) same (x := x) (i := i)
    (by rw [slots]; exact ⟨ctxs ▸ hx, ⟨n, slot, mem⟩, ctxs ▸ lone⟩) slot hi (by rw [waitQ]; exact ended)
    (fun h => by unfold Part.essRoom at *; rw [link]; exact room h)
  generalize (s.part.missed c a).moduleLost c a .down = q at *
  have unlit := q.lampRun_unlit
  refine ⟨{ s with part := q.lampRun }, ?_, lost.of_same (congrArg Part.ctxs unlit :) (congrArg Part.auths unlit :)
    (congrArg Part.keys unlit :) (congrArg Part.rentals unlit :) (.of_reports (congrArg (·.link.reports) unlit :))⟩
  exact congrArg (fun q : Part => (.next { s with part := q.lampRun } : Host.Outcome State Fault Refusal)) loses

end Seventh

end Sys2Proof.Machine
end

section
/-! PROOFS. A drop read: the filter, the bin, and what the key's state makes of it (R70 to R75). -/

namespace Sys2Proof.Machine
open Sys2Proof

/-! ## What a drop read leaves after its filter (R73, R74) -/

/-- The filters, their counts, and the slot map. -/
def Part.drops (p : Part) : Table (List (Nat × Nat)) × Table Nat × Table SlotEntry := (p.filters, p.dupCounts, p.slotMap)

theorem Part.drops_of_restL {p q : Part} (h : q.restL = p.restL) : q.drops = p.drops :=
  (congrArg Part.drops h :)

theorem Part.drops_of_restA {p q : Part} (h : q.restA = p.restA) : q.drops = p.drops :=
  Part.drops_of_restL (congrArg Part.restL h :)

theorem Part.drops_intoBin (p : Part) (h : Nat) (k : KeyRec) (n m : Nat) : (p.intoBin h k n m).drops = p.drops := by
  have set (k : KeyRec) : (p.setKey h k).drops = p.drops := Part.drops_of_restL (p.spares_setKey (c := .A) h k).rest
  unfold Part.intoBin
  split
  · exact (Part.drops_of_restA (Part.raise_restA _ _ _ _)).trans (set _)
  · unfold Part.dropAppend
    dsimp only
    split
    · exact (Part.drops_of_restA (Part.raise_restA _ _ _ _)).trans (set _)
    · exact set _

theorem Part.drops_closeRental (p : Part) (i : Nat) (r : Rental) (x : Snapshot) : (p.closeRental i r x).drops = p.drops := by
  obtain ⟨ks, hks⟩ := ({ p with rentals := Table.put p.rentals i { r with snap := some x } } : Part).touchSlotO_touch (p.homeOf r.key)
  have offered (q : Part) : (q.offerReturn i r x).drops = q.drops := by
    unfold Part.offerReturn
    split <;> rfl
  unfold Part.closeRental
  dsimp only
  rw [hks, offered, Part.drops_of_restA (Part.remove_restA _ _ _), Part.drops_of_restA (Part.remove_restA _ _ _)]
  rfl

theorem Part.drops_retarget (p : Part) (h cls : Nat) : (p.retarget h cls).drops = p.drops :=
  (Part.drops_of_restA (p.retarget_restA h cls)).trans rfl

theorem Part.drops_endForRelocation (p : Part) (i : Nat) (c : Ctx) : (p.endForRelocation i c).drops = p.drops := by
  have begins (q : Part) : (q.beginClose i c).drops = q.drops := by
    unfold Part.beginClose
    dsimp only
    cases (q.slotEntry (c.slot.getD 0)).chan <;> rfl
  have back (q : Part) : (q.authBack c.req).drops = q.drops := Part.drops_of_restL (q.spares_authBack (c := .A) c.req).rest
  unfold Part.endForRelocation
  rw [begins, back]
  rfl

theorem Part.drops_dropAccepted (p : Part) (n t m : Nat) : (p.dropAccepted n t m).drops = p.drops := by
  unfold Part.dropAccepted
  split
  · exact Part.drops_of_restA (Part.raise_restA _ _ _ _)
  · next h k _ =>
    split
    · unfold Part.dropReturn
      dsimp only
      split
      · exact p.drops_intoBin h k n m
      · exact (Part.drops_closeRental _ _ _ _).trans (p.drops_intoBin h k n m)
    · unfold Part.dropUnexpected
      dsimp only
      rw [Part.drops_of_restA (Part.offerOrd_restA _ _)]
      split
      · split
        · exact Part.drops_of_restA (Part.raise_restA _ _ _ _)
        · rfl
      · exact (Part.drops_intoBin _ _ _ _ _).trans (Part.drops_of_restA (Part.remove_restA _ _ _))
      · exact (Part.drops_retarget _ _ _).trans (p.drops_intoBin h k n m)
      · split
        · exact ((Part.drops_retarget _ _ _).trans (Part.drops_intoBin _ _ _ _ _)).trans (Part.drops_endForRelocation _ _ _)
        · exact (Part.drops_retarget _ _ _).trans (p.drops_intoBin h k n m)
      · exact p.drops_intoBin h k n m

/-! ## The duplicate filter (R71) -/

/-- The earlier of two filter entries; of equal times the first. -/
def earlier (b : Option (Nat × Nat)) (e : Nat × Nat) : Option (Nat × Nat) :=
  match b with
  | none => some e
  | some x => if e.2 < x.2 then some e else some x

theorem dropEarliest_eq (es : List (Nat × Nat)) : dropEarliest es = match es.foldl earlier none with
    | some x => es.erase x
    | none => [] := rfl

theorem earlier_later {x : Nat × Nat} {l : List (Nat × Nat)} (h : ∀ e ∈ l, x.2 ≤ e.2) : l.foldl earlier (some x) = some x := by
  induction l with
  | nil => rfl
  | cons e l ih =>
    have stays : earlier (some x) e = some x := if_neg (Nat.not_lt.mpr (h e (List.mem_cons_self ..)))
    rw [List.foldl_cons, stays]
    exact ih fun y hy => h y (List.mem_cons_of_mem _ hy)

theorem earlier_before {x : Nat × Nat} {l : List (Nat × Nat)} (h : ∀ e ∈ l, x.2 < e.2) (b : Option (Nat × Nat))
    (hb : ∀ y, b = some y → x.2 < y.2) : earlier (l.foldl earlier b) x = some x := by
  induction l generalizing b with
  | nil =>
    cases b with
    | none => rfl
    | some y => exact if_pos (hb y rfl)
  | cons e l ih =>
    rw [List.foldl_cons]
    refine ih (fun y hy => h y (List.mem_cons_of_mem _ hy)) _ fun y hy => ?_
    have first := h e (List.mem_cons_self ..)
    cases b with
    | none => cases hy; exact first
    | some z =>
      have chosen : (if e.2 < z.2 then some e else some z) = some y := hy
      split at chosen
      · rw [← Option.some.inj chosen]
        exact first
      · rw [← Option.some.inj chosen]
        exact hb z rfl

/-- The first entry of the earliest time goes. -/
theorem dropEarliest_first {pre post : List (Nat × Nat)} {x : Nat × Nat} (before : ∀ e ∈ pre, x.2 < e.2) (after : ∀ e ∈ post, x.2 ≤ e.2) :
    dropEarliest (pre ++ x :: post) = pre ++ post := by
  have least : (pre ++ x :: post).foldl earlier none = some x := by
    rw [List.foldl_append, List.foldl_cons, earlier_before before none nofun, earlier_later after]
  have absent : x ∉ pre := fun mem => Nat.lt_irrefl _ (before x mem)
  rw [dropEarliest_eq, least]
  dsimp only
  rw [List.erase_append_right _ absent, List.erase_cons_head]

section Read
variable {p : Part} {n t : Nat} {live : List (Nat × Nat)}
  (hlive : ((Table.look p.filters n).getD []).filter (fun e => decide (p.mono < e.2 + 10000)) = live)
include hlive

/-- A tag that is live in the filter is a duplicate. -/
theorem Part.dropRead_again (again : ∃ e ∈ live, e.1 = t) : p.dropRead n t = { p with
    filters := Table.put p.filters n (live.map (fun e => if e.1 = t then (t, p.mono) else e))
    dupCounts := Table.put p.dupCounts n (satUp ((Table.look p.dupCounts n).getD 0)) } := by
  have any : live.any (fun e => e.1 == t) = true := by
    obtain ⟨e, he, is⟩ := again
    exact List.any_eq_true.mpr ⟨e, he, beq_iff_eq.mpr is⟩
  have filter : ((Table.look p.filters n).getD []).filter (filterLive p.mono) = live := hlive
  unfold Part.dropRead
  dsimp only
  rw [filter, any]
  rfl

theorem Part.dropRead_fresh (fresh : ∀ e ∈ live, e.1 ≠ t) : p.dropRead n t = Part.dropAccepted { p with
    filters := Table.put p.filters n ((if live.length < 8 then live else dropEarliest live) ++ [(t, p.mono)]) } n t p.now := by
  have any : live.any (fun e => e.1 == t) = false := List.any_eq_false.mpr fun e he is => fresh e he (beq_iff_eq.mp is)
  have filter : ((Table.look p.filters n).getD []).filter (filterLive p.mono) = live := hlive
  unfold Part.dropRead
  dsimp only
  rw [filter, any]
  rfl

end Read

/-! ## The bin (R72, R75) -/

/-- Key h goes into the bin from slot n at minute m. -/
def Part.binned (p : Part) (h : Nat) (k : KeyRec) (n m : Nat) : Part := { p with
  keys := Table.put p.keys h { k with state := .dropped, loc := none, inSince := none, rental := none, away := none }
  dropBin := p.dropBin ++ [⟨h, n, m⟩] }

/-- Key h that the full bin has no place for. -/
def Part.overflown (p : Part) (h : Nat) (k : KeyRec) : Part := { p with
  keys := Table.put p.keys h { k with state := .away, loc := none, inSince := none, rental := none, away := some .dropOverflow } }

section Bin
variable {p : Part} (h : Nat) (k : KeyRec) (n m : Nat)

theorem Part.dropBinFull_iff (p : Part) : p.dropBinFull = true ↔ 96 ≤ p.dropBin.length := decide_eq_true_iff

theorem Part.intoBin_full (full : 96 ≤ p.dropBin.length) : ∃ ks,
    p.intoBin h k n m = ((p.overflown h k).raise .dropFull (.slot n) none).touch ks := by
  obtain ⟨ks, set⟩ := p.setKey_touch h (k.gone .away none (some .dropOverflow))
  refine ⟨ks, ?_⟩
  unfold Part.intoBin
  rw [if_pos (p.dropBinFull_iff.mpr full), set]
  exact Part.raise_touch _ _ _ _ _

theorem Part.dropAppend_touch (ks : List Nat) : ∃ ls, (p.touch ks).dropAppend h n m
    = (if p.dropBin.length = 95 then ({ p with dropBin := p.dropBin ++ [⟨h, n, m⟩] } : Part).raise .dropFull (.slot n) none
      else { p with dropBin := p.dropBin ++ [⟨h, n, m⟩] }).touch ls := by
  have length : (p.dropBin ++ [(⟨h, n, m⟩ : DropEntry)]).length = p.dropBin.length + 1 := List.length_append
  by_cases last : p.dropBin.length = 95
  · have full : (p.dropBin ++ [(⟨h, n, m⟩ : DropEntry)]).length = Config.dropCap := length.trans (congrArg (· + 1) last)
    refine ⟨ks ++ p.dropSlots.map (fun s => lampKey (p.slotEntry s).chan (p.slotEntry s).addr), Eq.trans (if_pos full) ?_⟩
    rw [if_pos last]
    exact (congrArg (Part.touch · (p.dropSlots.map (fun s => lampKey (p.slotEntry s).chan (p.slotEntry s).addr)))
      (Part.raise_touch { p with dropBin := p.dropBin ++ [⟨h, n, m⟩] } ks .dropFull (.slot n) none)).trans (Part.touch_touch _ _ _)
  · have free : ¬ (p.dropBin ++ [(⟨h, n, m⟩ : DropEntry)]).length = Config.dropCap := fun is =>
      last (Nat.succ_injective (length.symm.trans is))
    refine ⟨ks, Eq.trans (if_neg free) ?_⟩
    rw [if_neg last]
    rfl

theorem Part.intoBin_free (room : p.dropBin.length < 96) : ∃ ks, p.intoBin h k n m
    = (if p.dropBin.length = 95 then (p.binned h k n m).raise .dropFull (.slot n) none else p.binned h k n m).touch ks := by
  obtain ⟨ks, set⟩ := p.setKey_touch h (k.gone .dropped none none)
  have free : ¬ p.dropBinFull = true := fun full => by
    have := p.dropBinFull_iff.mp full
    omega
  unfold Part.intoBin
  rw [if_neg free, set]
  exact Part.dropAppend_touch (p := { p with keys := Table.put p.keys h (k.gone .dropped none none) }) h n m ks

end Bin

/-! ## Keys that drop unexpected (R74) -/

/-- DROP_UNEXPECTED. -/
def unexpectedReport (h n : Nat) (k : KeyRec) (flags : Byte) : Report :=
  ⟨.dropUnexpected, 255, beBytes 2 h ++ beBytes 2 n ++ [BitVec.ofNat 8 k.state.code, flags]⟩

theorem dropUnexpectedReport_eq (h n : Nat) (k : KeyRec) (overflow : Bool) :
    dropUnexpectedReport h n k.state overflow = unexpectedReport h n k (if overflow then 1#8 else 0#8) := by
  unfold dropUnexpectedReport unexpectedReport
  rw [beBytes_one, beBytes_one]
  cases overflow <;> simp [bit, broadcast]

section Unexpected
variable {p : Part} {n t h m : Nat} {k : KeyRec} (tagged : p.keyByTag t = some (h, k))
include tagged

/-- A key AWAY, IN or MISPLACED goes into the bin. -/
theorem Part.dropAccepted_bins (st : k.state = .away ∨ k.state = .inn ∨ k.state = .misplaced) : p.dropAccepted n t m
    = (p.intoBin h k n m).offerOrd (unexpectedReport h n k (if p.dropBinFull then 1#8 else 0#8)) := by
  have report : dropUnexpectedReport h n k.state (k.state != .dropped && p.dropBinFull)
      = unexpectedReport h n k (if p.dropBinFull then 1#8 else 0#8) := by
    rw [show (k.state != .dropped) = true by rcases st with st | st | st <;> rw [st] <;> rfl, Bool.true_and]
    exact dropUnexpectedReport_eq _ _ _ _
  unfold Part.dropAccepted
  rw [tagged]
  dsimp only
  rw [if_neg (by rcases st with st | st | st <;> rw [st] <;> nofun)]
  unfold Part.dropUnexpected
  dsimp only
  rw [report]
  rcases st with st | st | st <;> rw [st]

/-- A key DROPPED already stays in the bin. -/
theorem Part.dropAccepted_again (st : k.state = .dropped) : p.dropAccepted n t m
    = (if p.dropBinFull then p.raise .dropFull (.slot n) none else p).offerOrd (unexpectedReport h n k 0#8) := by
  have report : dropUnexpectedReport h n k.state (k.state != .dropped && p.dropBinFull) = unexpectedReport h n k 0#8 := by
    rw [show (k.state != .dropped) = false by rw [st]; rfl, Bool.false_and]
    exact dropUnexpectedReport_eq _ _ _ _
  unfold Part.dropAccepted
  rw [tagged]
  dsimp only
  rw [if_neg (by rw [st]; nofun)]
  unfold Part.dropUnexpected
  dsimp only
  rw [report, st]

/-- A key OUT is returned by its drop. -/
theorem Part.dropAccepted_returns {i : Nat} {z : Rental} (out : k.state = .out) (hrental : k.rental = some i)
    (hz : Table.look p.rentals i = some z) (room : p.dropBin.length < 96) : p.dropAccepted n t m
    = (p.intoBin h k n m).closeRental i z (z.assess m p.policy.blockLen p.policy.blocksCap (some n) .dropped false false false) := by
  have free : p.dropBinFull = false := by
    rw [← Bool.not_eq_true, p.dropBinFull_iff]
    omega
  have rental : p.rentalOf k = some (i, z) := by
    unfold Part.rentalOf
    rw [hrental, Option.bind_some, hz]
    rfl
  unfold Part.dropAccepted
  rw [tagged]
  dsimp only
  rw [if_pos out]
  unfold Part.dropReturn
  rw [rental, free]
  rfl

end Unexpected

end Sys2Proof.Machine
end

section
/-! PROOFS. Drop reads at a POLL answer (R70 to R75, R161). -/

namespace Sys2Proof.Machine
open Sys2Proof

/-! ## An accepted read (R73 to R75) -/

section Accepted
variable {p : Part} {n t h m : Nat} {k : KeyRec} (tagged : p.keyByTag t = some (h, k))

theorem Part.dropAccepted_unknown (unknown : p.keyByTag t = none) :
    p.dropAccepted n t m = p.raise .foreign (.slot n) (some (.unknownTag t)) := by
  unfold Part.dropAccepted
  rw [unknown]
  rfl

include tagged

section Bins
variable (st : k.state = .away ∨ k.state = .inn ∨ k.state = .misplaced)
include st

theorem Part.dropAccepted_binned (few : p.dropBin.length < 95) (room : p.link.reports.length < 48) :
    (p.dropAccepted n t m).unlit = ((p.binned h k n m).queued (unexpectedReport h n k 0#8)).unlit := by
  have free : ¬ p.dropBinFull = true := fun full => by
    have := p.dropBinFull_iff.mp full
    omega
  obtain ⟨ks, bin⟩ := Part.intoBin_free h k n m (show p.dropBin.length < 96 by omega)
  rw [if_neg (Nat.ne_of_lt few)] at bin
  rw [Part.dropAccepted_bins tagged st, bin, if_neg free]
  exact Part.offerOrd_entered ks _ (show (p.binned h k n m).link.reports.length < 48 from room)

theorem Part.dropAccepted_last (last : p.dropBin.length = 95)
    (room : ((p.binned h k n m).raise .dropFull (.slot n) none).link.reports.length < 48) :
    (p.dropAccepted n t m).unlit
      = (((p.binned h k n m).raise .dropFull (.slot n) none).queued (unexpectedReport h n k 0#8)).unlit := by
  have free : ¬ p.dropBinFull = true := fun full => by
    have := p.dropBinFull_iff.mp full
    omega
  obtain ⟨ks, bin⟩ := Part.intoBin_free h k n m (show p.dropBin.length < 96 by omega)
  rw [if_pos last] at bin
  rw [Part.dropAccepted_bins tagged st, bin, if_neg free]
  exact Part.offerOrd_entered ks _ room

theorem Part.dropAccepted_overflows (full : 96 ≤ p.dropBin.length)
    (room : ((p.overflown h k).raise .dropFull (.slot n) none).link.reports.length < 48) :
    (p.dropAccepted n t m).unlit
      = (((p.overflown h k).raise .dropFull (.slot n) none).queued (unexpectedReport h n k 1#8)).unlit := by
  obtain ⟨ks, bin⟩ := Part.intoBin_full h k n m full
  rw [Part.dropAccepted_bins tagged st, bin, if_pos (p.dropBinFull_iff.mpr full)]
  exact Part.offerOrd_entered ks _ room

end Bins

section Again
variable (st : k.state = .dropped)
include st

theorem Part.dropAccepted_kept (few : p.dropBin.length < 96) (room : p.link.reports.length < 48) :
    p.dropAccepted n t m = p.queued (unexpectedReport h n k 0#8) := by
  have free : ¬ p.dropBinFull = true := fun full => by
    have := p.dropBinFull_iff.mp full
    omega
  rw [Part.dropAccepted_again tagged st, if_neg free]
  exact Part.offerOrd_room _ room

theorem Part.dropAccepted_keptFull (full : 96 ≤ p.dropBin.length)
    (room : (p.raise .dropFull (.slot n) none).link.reports.length < 48) :
    p.dropAccepted n t m = (p.raise .dropFull (.slot n) none).queued (unexpectedReport h n k 0#8) := by
  rw [Part.dropAccepted_again tagged st, if_pos (p.dropBinFull_iff.mpr full)]
  exact Part.offerOrd_room _ room

end Again

theorem Part.dropAccepted_returned {i : Nat} {z : Rental} (out : k.state = .out) (hrental : k.rental = some i)
    (hz : Table.look p.rentals i = some z) (hkey : z.key = h) (few : p.dropBin.length < 95) (room : p.essRoom = true)
    (overdue : p.alt.find .overdue (.rental z.number) = none) (escalated : p.alt.find .escalated (.rental z.number) = none) :
    let x := z.assess m p.policy.blockLen p.policy.blocksCap (some n) .dropped false false false
    (p.dropAccepted n t m).unlit = (({ p.binned h k n m with
        rentals := Table.del p.rentals i
        due := p.due.filter (fun j => j != i) } : Part).queued
      ⟨.ret, 255, beBytes 4 z.number ++ beBytes 2 i ++ beBytes 2 h ++ beBytes 4 k.tag ++ beBytes 3 z.out ++ beBytes 3 z.due
        ++ beBytes 1 z.grace ++ beBytes 3 m ++ beBytes 2 n ++ beBytes 1 x.cls.code ++ beBytes 3 x.lateMinutes
        ++ beBytes 1 x.lateDays ++ beBytes 1 x.lateBlocks ++ beBytes 1 x.daysInUse ++ [7#8]
        ++ beBytes 1 ((if x.flags.quick then 1 else 0) + (if x.flags.saturated then 8 else 0)
          + (if x.flags.clockAnomaly then 16 else 0))⟩).unlit := by
  subst hkey
  obtain ⟨ks, bin⟩ := Part.intoBin_free z.key k n m (show p.dropBin.length < 96 by omega)
  rw [if_neg (Nat.ne_of_lt few)] at bin
  rw [Part.dropAccepted_returns tagged out hrental hz (by omega), bin,
    Part.closeRental_entered (p := (p.binned z.key k n m).touch ks) (by exact overdue) (by exact escalated) (by exact room)]
  have binned : Table.look ((p.binned z.key k n m).touch ks).keys z.key
      = some { k with state := .dropped, loc := none, inSince := none, rental := none, away := none } := Table.look_put_same _ _ _
  rw [Part.returnReport_slot binned, show beBytes 1 KeyState.dropped.code = [7#8] from beBytes_one _]
  rfl

end Accepted

/-! ## The read that a poll reports (R161) -/

theorem Part.dropRead_map (p : Part) (n t : Nat) : (p.dropRead n t).slotMap = p.slotMap := by
  unfold Part.dropRead
  dsimp only
  split
  · rfl
  · exact (congrArg (·.2.2) (Part.drops_dropAccepted _ n t p.now) :)

/-- The part once the filter has tag t. -/
def Part.reads (p : Part) (c : Chan) (a n t : Nat) (live : List (Nat × Nat)) : Part :=
  { p.heard c a (fun m => { m with misses := 0, ack := true }) with filters := Table.put p.filters n (live ++ [(t, p.mono)]) }

theorem Part.reads_fields (p : Part) (c : Chan) (a n t : Nat) (live : List (Nat × Nat)) :
    (p.reads c a n t live).keys = p.keys ∧ (p.reads c a n t live).dropBin = p.dropBin ∧ (p.reads c a n t live).rentals = p.rentals
      ∧ (p.reads c a n t live).due = p.due ∧ (p.reads c a n t live).link = p.link ∧ (p.reads c a n t live).alt = p.alt
      ∧ (p.reads c a n t live).policy = p.policy := by
  cases c <;> exact ⟨rfl, rfl, rfl, rfl, rfl, rfl, rfl⟩

section Reads
variable {s : State} {c : Chan} {a pos n t : Nat} {ack : Bool} {y : Reply} {rs : List PosReport} {v : Occ} {l : LockState}
  (good : GoodReply y a) (line : (s.part.chan c).onLine = some (.poll a ack)) (running : (s.part.chan c).state = .running)
  (active : (s.part.chan c).modState a = .active) (hr : rs[pos]? = some ⟨v, l, some t⟩) (slot : s.part.slotAt c a pos = some n)
  (others : ∀ x, x ≠ pos → s.part.slotAt c a x = none) (drop : (s.part.slotEntry n).kind = .drop)
include good line running active hr slot others drop

/-- The poll of a module ACTIVE whose one position is a drop chute. -/
theorem Part.poll_reads : s.part.pollAnswer c y rs
    = (s.part.heard c a (fun m => { m with misses := 0, ack := true })).dropRead n t := by
  have slotMap : (s.part.heard c a (fun m => { m with misses := 0, ack := true })).slotMap = s.part.slotMap := by cases c <;> rfl
  rw [Part.pollAnswer_running good line running, Part.poll_heard active]
  generalize s.part.heard c a (fun m => { m with misses := 0, ack := true }) = q at *
  have at' (x : Nat) : q.slotAt c a x = s.part.slotAt c a x := by
    unfold Part.slotAt
    rw [slotMap]
  have kind : (q.slotEntry n).kind = .drop := by
    unfold Part.slotEntry at drop ⊢
    rw [slotMap, drop]
  have position : q.takePosition c a pos ⟨v, l, some t⟩ = q.dropRead n t := by
    unfold Part.takePosition
    rw [at', slot]
    dsimp only
    rw [kind]
  refine (Part.takeReports_one hr (fun x hx => (at' x).trans (others x hx)) ?_).trans position
  rw [position]
  exact q.dropRead_map n t

variable {live : List (Nat × Nat)}
  (hlive : ((Table.look s.part.filters n).getD []).filter (fun e => decide (s.part.mono < e.2 + 10000)) = live)
include hlive

theorem State.poll_again (again : ∃ e ∈ live, e.1 = t) : s.Becomes (exec (.pollAnswer c ⟨y, rs⟩) s)
    { s.part.heard c a (fun m => { m with misses := 0, ack := true }) with
      filters := Table.put s.part.filters n (live.map (fun e => if e.1 = t then (t, s.part.mono) else e))
      dupCounts := Table.put s.part.dupCounts n (satUp ((Table.look s.part.dupCounts n).getD 0)) } := by
  have reads := Part.poll_reads good line running active hr slot others drop
  rw [Part.dropRead_again (live := live) (by cases c <;> exact hlive) again] at reads
  refine State.becomes_of_eq (reads.trans ?_)
  cases c <;> rfl

/-- A fresh tag is accepted once the filter has it. -/
theorem Part.poll_accepts (fresh : ∀ e ∈ live, e.1 ≠ t) : s.part.pollAnswer c y rs
    = Part.dropAccepted { s.part.heard c a (fun m => { m with misses := 0, ack := true }) with
        filters := Table.put s.part.filters n ((if live.length < 8 then live else dropEarliest live) ++ [(t, s.part.mono)]) }
      n t s.part.now := by
  have reads := Part.poll_reads good line running active hr slot others drop
  rw [Part.dropRead_fresh (live := live) (by cases c <;> exact hlive) fresh] at reads
  refine reads.trans ?_
  cases c <;> rfl

/-- A filter that is full loses its earliest entry. -/
theorem State.poll_displaces {pre post : List (Nat × Nat)} {x : Nat × Nat} (fresh : ∀ e ∈ live, e.1 ≠ t) (split : live = pre ++ x :: post)
    (full : live.length = 8) (before : ∀ e ∈ pre, x.2 < e.2) (after : ∀ e ∈ post, x.2 ≤ e.2) :
    ∃ u, exec (.pollAnswer c ⟨y, rs⟩) s = .next u
      ∧ Table.look u.part.filters n = some (pre ++ post ++ [(t, s.part.mono)]) ∧ u.part.dupCounts = s.part.dupCounts := by
  have accepts := Part.poll_accepts good line running active hr slot others drop hlive fresh
  rw [if_neg (by omega), split, dropEarliest_first before after] at accepts
  have kept := Part.drops_dropAccepted { s.part.heard c a (fun m => { m with misses := 0, ack := true }) with
        filters := Table.put s.part.filters n (pre ++ post ++ [(t, s.part.mono)]) } n t s.part.now
  have counts : (s.part.heard c a (fun m => { m with misses := 0, ack := true })).dupCounts = s.part.dupCounts := by cases c <;> rfl
  obtain ⟨u, hu, -, hunlit⟩ := State.becomes_of_eq (s := s) accepts
  have drops : u.part.drops = _ := (congrArg Part.drops hunlit :).trans kept
  refine ⟨u, hu, ?_, ?_⟩
  · have filters : u.part.filters = Table.put s.part.filters n (pre ++ post ++ [(t, s.part.mono)]) := congrArg (·.1) drops
    rw [filters]
    exact Table.look_put_same _ _ _
  · exact (congrArg (·.2.1) drops).trans counts

/-- A filter with a place takes the tag. -/
theorem State.poll_drops (fresh : ∀ e ∈ live, e.1 ≠ t) (few : live.length < 8) {Q : Part}
    (accepted : ((s.part.reads c a n t live).dropAccepted n t s.part.now).unlit = Q.unlit) :
    s.Becomes (exec (.pollAnswer c ⟨y, rs⟩) s) Q := by
  have accepts := Part.poll_accepts good line running active hr slot others drop hlive fresh
  rw [if_pos few] at accepts
  exact State.becomes_of_unlit ((congrArg Part.unlit accepts).trans accepted)

variable (fresh : ∀ e ∈ live, e.1 ≠ t) (few : live.length < 8)
include fresh few

theorem State.poll_drops_unknown (unknown : s.part.keyByTag t = none) : s.Becomes (exec (.pollAnswer c ⟨y, rs⟩) s)
    ((s.part.reads c a n t live).raise .foreign (.slot n) (some (.unknownTag t))) := by
  obtain ⟨keys, -⟩ := s.part.reads_fields c a n t live
  refine State.poll_drops good line running active hr slot others drop hlive fresh few (congrArg Part.unlit ?_)
  exact Part.dropAccepted_unknown ((Part.keyByTag_of_keys keys t).trans unknown)

variable {h : Nat} {k : KeyRec} (tagged : s.part.keyByTag t = some (h, k))
include tagged

theorem State.poll_drops_unexpected (st : k.state = .away ∨ k.state = .inn ∨ k.state = .misplaced) :
    let binned : Part := { s.part.reads c a n t live with
      keys := Table.put s.part.keys h { k with state := .dropped, loc := none, inSince := none, rental := none, away := none }
      dropBin := s.part.dropBin ++ [⟨h, n, s.part.now⟩] }
    let overflow : Part := ({ s.part.reads c a n t live with
      keys := Table.put s.part.keys h
        { k with state := .away, loc := none, inSince := none, rental := none, away := some .dropOverflow } } : Part).raise
          .dropFull (.slot n) none
    (s.part.dropBin.length < 95 → s.part.link.reports.length < 48 →
      s.Becomes (exec (.pollAnswer c ⟨y, rs⟩) s) (binned.queued (unexpectedReport h n k 0#8)))
    ∧ (s.part.dropBin.length = 95 → (binned.raise .dropFull (.slot n) none).link.reports.length < 48 →
      s.Becomes (exec (.pollAnswer c ⟨y, rs⟩) s) ((binned.raise .dropFull (.slot n) none).queued (unexpectedReport h n k 0#8)))
    ∧ (96 ≤ s.part.dropBin.length → overflow.link.reports.length < 48 →
      s.Becomes (exec (.pollAnswer c ⟨y, rs⟩) s) (overflow.queued (unexpectedReport h n k 1#8))) := by
  obtain ⟨keys, bin, -, -, link, -⟩ := s.part.reads_fields c a n t live
  have drops := fun {Q : Part} => State.poll_drops (Q := Q) good line running active hr slot others drop hlive fresh few
  have tagged' := (Part.keyByTag_of_keys keys t).trans tagged
  dsimp only
  generalize s.part.reads c a n t live = R at *
  rw [← keys, ← bin, ← link]
  exact ⟨fun few room => drops (Part.dropAccepted_binned tagged' st few room), fun last room => drops (Part.dropAccepted_last tagged' st last room),
    fun full room => drops (Part.dropAccepted_overflows tagged' st full room)⟩

theorem State.poll_drops_again (st : k.state = .dropped) :
    let full := (s.part.reads c a n t live).raise .dropFull (.slot n) none
    (s.part.dropBin.length < 96 → s.part.link.reports.length < 48 →
      s.Becomes (exec (.pollAnswer c ⟨y, rs⟩) s) ((s.part.reads c a n t live).queued (unexpectedReport h n k 0#8)))
    ∧ (96 ≤ s.part.dropBin.length → full.link.reports.length < 48 →
      s.Becomes (exec (.pollAnswer c ⟨y, rs⟩) s) (full.queued (unexpectedReport h n k 0#8))) := by
  obtain ⟨keys, bin, -, -, link, -⟩ := s.part.reads_fields c a n t live
  have drops := fun {Q : Part} => State.poll_drops (Q := Q) good line running active hr slot others drop hlive fresh few
  have tagged' := (Part.keyByTag_of_keys keys t).trans tagged
  dsimp only
  generalize s.part.reads c a n t live = R at *
  rw [← bin, ← link]
  exact ⟨fun few room => drops (congrArg Part.unlit (Part.dropAccepted_kept tagged' st few room)),
    fun full room => drops (congrArg Part.unlit (Part.dropAccepted_keptFull tagged' st full room))⟩

theorem State.poll_drops_returned {i : Nat} {z : Rental} (out : k.state = .out) (hrental : k.rental = some i)
    (hz : Table.look s.part.rentals i = some z) (hkey : z.key = h) (place : s.part.dropBin.length < 95) (room : s.part.essRoom = true)
    (overdue : s.part.alt.find .overdue (.rental z.number) = none) (escalated : s.part.alt.find .escalated (.rental z.number) = none) :
    let x := z.assess s.part.now s.part.policy.blockLen s.part.policy.blocksCap (some n) .dropped false false false
    s.Becomes (exec (.pollAnswer c ⟨y, rs⟩) s) (({ s.part.reads c a n t live with
        keys := Table.put s.part.keys h { k with state := .dropped, loc := none, inSince := none, rental := none, away := none }
        dropBin := s.part.dropBin ++ [⟨h, n, s.part.now⟩]
        rentals := Table.del s.part.rentals i
        due := s.part.due.filter (fun j => j != i) } : Part).queued
      ⟨.ret, 255, beBytes 4 z.number ++ beBytes 2 i ++ beBytes 2 h ++ beBytes 4 k.tag ++ beBytes 3 z.out ++ beBytes 3 z.due
        ++ beBytes 1 z.grace ++ beBytes 3 s.part.now ++ beBytes 2 n ++ beBytes 1 x.cls.code ++ beBytes 3 x.lateMinutes
        ++ beBytes 1 x.lateDays ++ beBytes 1 x.lateBlocks ++ beBytes 1 x.daysInUse ++ [7#8]
        ++ beBytes 1 ((if x.flags.quick then 1 else 0) + (if x.flags.saturated then 8 else 0)
          + (if x.flags.clockAnomaly then 16 else 0))⟩) := by
  obtain ⟨keys, bin, rentals, due, link, alt, policy⟩ := s.part.reads_fields c a n t live
  have drops := fun {Q : Part} => State.poll_drops (Q := Q) good line running active hr slot others drop hlive fresh few
  have tagged' := (Part.keyByTag_of_keys keys t).trans tagged
  dsimp only
  generalize s.part.reads c a n t live = R at *
  have roomR : R.essRoom = true := by
    unfold Part.essRoom at *
    rw [link]
    exact room
  rw [← keys, ← bin, ← rentals, ← due, ← policy]
  exact drops (Part.dropAccepted_returned tagged' out hrental (rentals ▸ hz) hkey (bin ▸ place) roomR (alt ▸ overdue) (alt ▸ escalated))

end Reads

end Sys2Proof.Machine
end

section
/-! PROOFS. The statement of the polls (R71 to R75, R156 to R166). -/

namespace Sys2Proof.Machine
open Sys2Proof

/-- Settles O56: the poll that is sent, the answer that is not good, the misses, and what the report of one position comes to: at a
row with no context, at an UNKNOWN row, at the slot of an open context, and at a drop chute. -/
theorem pollsSettleRows : Obligations.PollsSettleRows := by
  refine ⟨fun s c a turn => ⟨State.polls_next turn, State.polls_probe turn⟩,
    fun s c a ack y rs bad line => State.poll_bad rs bad line, fun s c b y bad line => State.queued_bad bad line,
    ?standing, ?found, ?held, ?lost, ?drops, ?missed⟩
  case standing =>
    intro s c a pos n g ack y rs v l r good line running served hr slot others entry hrow ctx answered becomes settling
    refine ⟨fun o isLocked wasLocked hocc => ⟨fun steady same => ?_, fun steady moves => ?_, fun st settle same => ?_,
      fun st settle other back => ?_, fun st settle other moves => ?_⟩, fun hocc steady => ?_, fun unknown unsettled isLocked => ?_⟩
    · exact State.poll_same good line running served hr slot others entry hrow ctx isLocked wasLocked hocc (.inl ⟨steady, same⟩)
    · exact State.poll_sets good line running served hr slot others entry hrow ctx isLocked wasLocked hocc moves
        fun st settle => by rw [steady] at settle; cases settle
    · exact State.poll_same good line running served hr slot others entry hrow ctx isLocked wasLocked hocc (.inr ⟨st, settle, same⟩)
    · exact State.poll_bounces good line running served hr slot others entry hrow ctx isLocked wasLocked hocc settle other back
    · refine State.poll_sets good line running served hr slot others entry hrow ctx isLocked wasLocked hocc moves fun z hz => ?_
      rw [settle] at hz
      exact Option.some.inj hz ▸ other
    · exact State.poll_lock good line running served hr slot others entry hrow ctx hocc steady
    · subst isLocked
      have sights (unlocked : r.lock = none) := State.poll_sights good line running served hr slot others entry hrow
        ⟨ctx, unknown, unsettled, unlocked⟩
      refine ⟨fun unlocked is none => (sights unlocked).1 is none,
        fun t h k unlocked is tagged at' tag here located => (sights unlocked).2 t h k is tagged at' tag here located,
        fun h k at' is => ?_, fun t h k i z unlocked is at' tagged out hrental hz hkey jam waiters reports overdue escalated => ?_⟩
      · obtain ⟨u, hu, rows, flag, rentals, key⟩ :=
          State.poll_unfinds good line running served hr slot others entry hrow ctx unknown unsettled at' is
        refine ⟨u, hu, rows.trans ?_, flag, rentals, key⟩
        refine Eq.trans ?_ (congrArg Part.rows (Part.remove_restA
          (s.part.answered c a n id (fun r => { r with lock := some .locked, occ := some v }) ModEntry.served) .lockJam (.slot n)) :).symm
        cases c <;> rfl
      · have returns := State.poll_returns good line running served hr slot others entry hrow ctx unknown unsettled unlocked is at' tagged out
          hrental hz hkey jam ((Part.essRoom_iff _).2 ⟨reports, waiters⟩) overdue escalated
        rw [k.placed_eq n s.part.now, k.stateAt_eq n] at returns
        exact returns
  case found =>
    intro s c a pos n g ack y rs v good line running lost hr slot others entry hrow calm room
    exact State.poll_finds good line running hr slot others entry lost hrow calm room
  case held =>
    intro s c a pos n g i ack y rs v o r x good line running active hr slot others entry hrow wasLocked hocc full ctx hx st told settling leaves
    refine ⟨fun empty other => ?_, fun z w occupied settle cand reopened window => ?_⟩
    · exact State.poll_leaves good line running active hr slot others entry hrow wasLocked hocc ctx hx st empty full other
    · exact State.poll_stays good line running active hr slot others entry hrow wasLocked ctx hx reopened window hocc occupied settle cand
  case lost =>
    intro s c a i n ack m x line running held hm silent many hx hi slot mem lone ended room
    exact State.poll_ends line running held hm silent many hx hi slot mem lone ended fun live =>
      (Part.essRoom_iff _).2 (room live).symm
  case drops =>
    intro s c a pos n t ack y rs v l good line running active hr slot others drop answered becomes live
    refine ⟨State.poll_again good line running active hr slot others drop rfl,
      fun pre x post fresh split full before after =>
        State.poll_displaces good line running active hr slot others drop rfl fresh split full before after,
      fun fresh few => ⟨State.poll_drops_unknown good line running active hr slot others drop rfl fresh few, fun h k tagged st =>
          State.poll_drops_unexpected good line running active hr slot others drop rfl fresh few tagged st, fun h k tagged st =>
          State.poll_drops_again good line running active hr slot others drop rfl fresh few tagged st,
        fun h k i z tagged out hrental hz hkey place waiters reports overdue escalated =>
          State.poll_drops_returned good line running active hr slot others drop rfl fresh few tagged out hrental hz hkey place
            ((Part.essRoom_iff _).2 ⟨reports, waiters⟩) overdue escalated⟩⟩
  case missed =>
    intro s c a ack m line running held hm missed
    exact ⟨State.poll_misses_active line running held hm, State.poll_misses_silent line running held hm,
      State.poll_misses_lost line running held hm, State.poll_misses_last line running held hm⟩

end Sys2Proof.Machine
end
